-- ==== Sys2Proof/Word.lean ====
section
/-! DEFINITION. The word types of the model: what the spec treats as bits. -/

namespace Sys2Proof

/-- A 64-bit register or `g` register (R14, R196). -/
abbrev Word := BitVec 64

/-- A byte of memory, of a record payload or of a message. -/
abbrev Byte := BitVec 8

/-- A lane of a vector register (R197). -/
abbrev Lane := BitVec 32

end Sys2Proof
end

