-- ==== Sys2Proof/Types.lean ====
section
/-! DEFINITION. The plain-data types that both commands and state are made of: sparse maps, records, the blocks and
frames that cross the ports, and the operands of the commands. -/

namespace Sys2Proof

/-- A sparse map: (index, value) pairs in one canonical form, indices strictly rising, no default listed. -/
abbrev SMap (α : Type) := List (Nat × α)

/-- A record with the common header of Table 1.8 (R46); the payload's length is a multiple of 8 bytes. -/
structure Rec where
  typ       : BitVec 16
  cls       : BitVec 4
  colour    : BitVec 2
  flags     : Byte
  src       : BitVec 32
  tick      : Word
  shortTime : BitVec 32
  seq       : BitVec 32
  wsId      : BitVec 12
  wsGen     : BitVec 16
  alive     : BitVec 16
  payload   : List Byte
  deriving DecidableEq, Repr

/-- One increment port captured valid at an edge (R82): `bm_cnt_id` and `bm_cnt_inc`. -/
structure CntInc where
  id  : BitVec 12
  inc : BitVec 16
  deriving DecidableEq, Repr

/-- One beat of a snoop channel (R87). -/
structure SnoopBeat where
  ch   : BitVec 4
  data : BitVec 512
  keep : BitVec 64
  last : Bool
  fmt  : BitVec 4
  deriving DecidableEq, Repr

/-- The operand fields of a probe instruction word (Table 4.2); OP and V are the command's. -/
structure ProbeOp where
  rd  : BitVec 4
  ra  : BitVec 4
  rb  : BitVec 4
  imm : BitVec 12
  deriving DecidableEq, Repr

/-- A THRESH.MI cut off at the 50 µs limit (R109): how many markers its scan had reached, how many of the records to
report as OPEN it had closed, and its operands. -/
structure ProbeCut where
  ra      : BitVec 4
  rb      : BitVec 4
  reached : Nat
  opened  : Nat
  deriving DecidableEq, Repr

/-- What the receiver's checks found of a block (R140): the FEC could correct its codeword, and the link CRC matches. -/
structure BlkCheck where
  fecOk : Bool
  crcOk : Bool
  deriving DecidableEq, Repr

/-- One Tap command as a CMD block carries it (R151): the arguments are bytes 12 to 59. -/
structure TapCmd where
  chk    : BlkCheck
  seq    : BitVec 32
  argLen : BitVec 16
  args   : List Byte
  deriving DecidableEq, Repr

/-- A time word (R155): 48-bit seconds, 30-bit nanoseconds, 16-bit fraction. -/
structure TimeWord where
  sec  : BitVec 48
  ns   : BitVec 30
  frac : BitVec 16
  deriving DecidableEq, Repr

/-- A TIME block (R155). -/
structure TimeBlk where
  chk   : BlkCheck
  t1    : TimeWord
  id    : BitVec 16
  ansT4 : TimeWord
  ansId : BitVec 16
  state : Byte
  deriving DecidableEq, Repr

/-- A TICK block (R159). -/
structure TickBlk where
  chk      : BlkCheck
  n        : Word
  period   : Byte
  epochSec : BitVec 48
  epochNs  : BitVec 32
  pchg     : Word
  state    : Byte
  deriving DecidableEq, Repr

/-- A CREDIT block (R146): the four cumulative limits in class order. -/
structure CreditBlk where
  chk  : BlkCheck
  lim0 : BitVec 32
  lim1 : BitVec 32
  lim2 : BitVec 32
  lim3 : BitVec 32
  deriving DecidableEq, Repr

/-- Which end of which Tap link: the Bumas of this model, or port `p` of the Glexon. -/
inductive LinkEnd where
  | bumas
  | port (p : BitVec 6)
  deriving DecidableEq, Repr

/-- A result of a thermal conversion (R129): a temperature in 1/16 °C, or an open, shorted input. -/
inductive ThermIn where
  | temp (v : BitVec 16)
  | broken
  deriving DecidableEq, Repr

/-- A sense voltage of a monitor (R129) in 0.25 mV, or an unconnected input. -/
inductive VmonIn where
  | volt (v : BitVec 16)
  | unconnected
  deriving DecidableEq, Repr

/-- A PTP Sync or Follow_Up as received (R54): the sender's clock identity, domain, sequenceId, whether a Follow_Up
carries the precise time, the origin time and the correction field (2⁻¹⁶ ns). -/
structure PtpSync where
  master  : Word
  domain  : Byte
  seq     : BitVec 16
  twoStep : Bool
  t1      : TimeWord
  corr    : BitVec 64
  deriving DecidableEq, Repr

/-- A Delay_Req or Delay_Resp (R54). -/
structure PtpDelay where
  clock : Word
  seq   : BitVec 16
  time  : TimeWord
  corr  : BitVec 64
  deriving DecidableEq, Repr

/-- An Announce with the data set the best master clock algorithm compares (R54). -/
structure PtpAnn where
  clock : Word
  domain : Byte
  prio1 : Byte
  cls   : Byte
  acc   : Byte
  var   : BitVec 16
  prio2 : Byte
  steps : BitVec 16
  deriving DecidableEq, Repr

/-- A CMD_ACK block (R152). -/
structure AckBlk where
  chk    : BlkCheck
  seq    : BitVec 32
  status : Byte
  data   : Word
  deriving DecidableEq, Repr

/-- A TIME_ECHO block (R155). -/
structure EchoBlk where
  chk : BlkCheck
  id  : BitVec 16
  t2  : TimeWord
  t3  : TimeWord
  deriving DecidableEq, Repr

/-- A slot of a bundle as it issues (Tables 7.1, 7.2): the core, the slot (0 S0, 1 S1, 2 V, 3 E), whether it is the first
slot of its bundle to be given, and the fields. OP is the command's. -/
structure SlotOp where
  core  : BitVec 5
  slot  : BitVec 2
  first : Bool
  d     : BitVec 6
  a     : BitVec 6
  b     : BitVec 6
  c     : BitVec 6
  imm   : BitVec 32
  deriving DecidableEq, Repr

/-- What the SEC-DED code found in the record memory that an access read (R183). -/
inductive Ecc where
  | ok | corrected | uncorrectable
  deriving DecidableEq, Repr

/-- An engine queue of a core (R233). -/
inductive EngQueue where
  | matrix (e : BitVec 4)
  | vector (e : BitVec 2)
  | dma
  | shared (e : BitVec 3)
  deriving DecidableEq, Repr

/-- The unit that failed a self-check (Table 8.12): 0 scalar, 1 vector engine, 2 matrix engine, and its index. -/
structure CheckFail where
  unit : BitVec 2
  idx  : BitVec 4
  deriving DecidableEq, Repr

/-- What a replay line reports of one item of its work list (R279): the replay ran clean, with the bytes decoded and compared
as chapter 9 gives; it ran with a wrong result (the CRC-64 of its image, differing elements, index of the first, largest
ULP distance, and in tolerance mode whether a bound is exceeded); no result; tag status RESIDUE; tag status POISONED. -/
inductive ReplayOut where
  | clean
  | wrong (crc : Word) (diffs first ulp : BitVec 32) (exceeds : Bool)
  | none
  | residue
  | poisoned
  deriving DecidableEq, Repr

/-- Occurrences of an event of Table 18.1 that no command drives, counted in the interval that a boundary closes. -/
structure ObsIn where
  sel : BitVec 24
  n   : Word
  deriving DecidableEq, Repr

/-- The measured energy of a Sepia line in the tick just ended (R383), µJ, and whether all its windows ran to their end. -/
structure LineIn where
  line : BitVec 6
  uj   : BitVec 32
  ran  : Bool
  deriving DecidableEq, Repr

/-- What the activity meters hand over at a boundary: the accounts 0 to 36 in order (R382; `none` is a missing account), the
lines' energies, and event counts. -/
structure BoundaryIn where
  accts : List (Option (BitVec 32))
  lines : List LineIn
  obs   : List ObsIn
  deriving DecidableEq, Repr

/-- A transport packet as received (R417): the endpoint-table entry of its source address, and the UDP payload. -/
structure RmFrame where
  src   : Byte
  bytes : List Byte
  deriving DecidableEq, Repr

/-- A mailbox request (R468): its request ID and up to 56 argument bytes. -/
structure MbxReq where
  id   : BitVec 32
  args : List Byte
  deriving DecidableEq, Repr

/-- A sample of one rail monitor (R461): 0.25 mV and 10 mA. -/
structure RailIn where
  v : BitVec 16
  i : BitVec 16
  deriving DecidableEq, Repr

/-- A device of the event mirror that failed an append, and the NOR address (R476). -/
structure MirrorFail where
  dev  : Bool
  addr : BitVec 26
  deriving DecidableEq, Repr

/-- What a device programmer has written to the SPI NOR before a cold boot (Table 17.1): the slots and the boot record in force. -/
structure NorIn where
  slotA : List Byte
  slotB : List Byte
  prefB : Bool
  commA : Bool
  commB : Bool
  tries : BitVec 4
  deriving DecidableEq, Repr

end Sys2Proof
end

