-- ==== Sys2Proof/Syntax.lean ====
section
/-! DEFINITION. The commands of the block: one constructor per row of the opcode table, with the row's operands. -/

namespace Sys2Proof

/-- A command from outside (R1 to R531): an event on a pin, a bus beat, a message, an expiry, a register access, or the issue of
an instruction of one of the block's sequencers. -/
inductive Instr where
  /-- `BM_PWR_OK_FALL` (R102). -/
  | bmPwrOkFall
  /-- `BM_PWR_OK_RISE` (R100). -/
  | bmPwrOkRise
  /-- `BM_RST_N_ASSERT` (R102). -/
  | bmRstNAssert
  /-- `BM_RST_N_RELEASE` (R101). -/
  | bmRstNRelease
  /-- `CLK_GAP` (R81). -/
  | clkGap
  /-- `EVENT_COUNT` (R82). -/
  | eventCount (evt : BitVec 256) (incs : List CntInc)
  /-- `MARKER_CAPTURE` (R84). -/
  | markerCapture (id : BitVec 16) (arg : BitVec 32)
  /-- `PC_SAMPLE` (R86). -/
  | pcSample (core : BitVec 9) (pc : BitVec 48) (stall : BitVec 6)
  /-- `PC_WINDOW_CLOSE` (R86). -/
  | pcWindowClose
  /-- `SNOOP_BEAT` (R87). -/
  | snoopBeat (bt : SnoopBeat)
  /-- `AUDIT_QUERY` (R89). -/
  | auditQuery (site : BitVec 16)
  /-- `AUDIT_ANSWER` (R89). -/
  | auditAnswer
  /-- `AUDIT_WINDOW_WRITE` (R91). -/
  | auditWindowWrite (addr : BitVec 21) (data : BitVec 512) (strb : BitVec 64)
  /-- `AUDIT_SLOT_EXPIRE` (R90). -/
  | auditSlotExpire (slot : BitVec 5)
  /-- `AUDIT_SLOT_CLEAR_DONE` (R90). -/
  | auditSlotClearDone (slot : BitVec 5)
  /-- `ENERGY_INCREMENT` (R93). -/
  | energyIncrement (nJ : BitVec 32)
  /-- `DROOP_EVENT` (R130). -/
  | droopEvent (input : BitVec 3) (level : BitVec 16)
  /-- `HOST_CSR_WRITE` (R96). -/
  | hostCsrWrite (addr : BitVec 13) (data : Word)
  /-- `BM_TIME_SEC_READ` (R96). -/
  | bmTimeSecRead
  /-- `PROGRAM_SWAP` (R116). -/
  | programSwap (byTap : Bool) (data : Word)
  /-- `PROGRAM_VALIDATION_DONE` (R116). -/
  | programValidationDone
  /-- `BUMAS_BOUNDARY` (R83). -/
  | bumasBoundary (khz : BitVec 21)
  /-- `THERMAL_ROUND_DONE` (R128). -/
  | thermalRoundDone (reads : List ThermIn)
  /-- `VOLTAGE_ROUND_DONE` (R128). -/
  | voltageRoundDone (reads : List VmonIn)
  /-- `PROBE_OVERRUN` (R109). -/
  | probeOverrun (cut : Option ProbeCut)
  /-- `PROBE_WAIT_DONE` (R114). -/
  | probeWaitDone (cycles : BitVec 16)
  /-- `SNAP_C` (R114). -/
  | snapC (o : ProbeOp)
  /-- `SNAP_P` (R114). -/
  | snapP (o : ProbeOp)
  /-- `SNAP_E` (R114). -/
  | snapE (o : ProbeOp)
  /-- `SNAP_S` (R114). -/
  | snapS (o : ProbeOp)
  /-- `DELTA_C` (R114). -/
  | deltaC (o : ProbeOp)
  /-- `DELTA_E` (R114). -/
  | deltaE (o : ProbeOp)
  /-- `PROBE_SEL` (R114). -/
  | probeSel (o : ProbeOp)
  /-- `PROBE_ADD` (R114). -/
  | probeAdd (o : ProbeOp)
  /-- `PROBE_ADD_I` (R114). -/
  | probeAddI (o : ProbeOp)
  /-- `PROBE_SUB` (R114). -/
  | probeSub (o : ProbeOp)
  /-- `PROBE_SUB_I` (R114). -/
  | probeSubI (o : ProbeOp)
  /-- `PROBE_AND` (R114). -/
  | probeAnd (o : ProbeOp)
  /-- `PROBE_AND_I` (R114). -/
  | probeAndI (o : ProbeOp)
  /-- `PROBE_OR` (R114). -/
  | probeOr (o : ProbeOp)
  /-- `PROBE_OR_I` (R114). -/
  | probeOrI (o : ProbeOp)
  /-- `OR_K` (R114). -/
  | orK (o : ProbeOp)
  /-- `SHF_L` (R114). -/
  | shfL (o : ProbeOp)
  /-- `SHF_R` (R114). -/
  | shfR (o : ProbeOp)
  /-- `SHF_A` (R114). -/
  | shfA (o : ProbeOp)
  /-- `SHF_O` (R114). -/
  | shfO (o : ProbeOp)
  /-- `PROBE_CMP_EQ` (R114). -/
  | probeCmpEq (o : ProbeOp)
  /-- `PROBE_CMP_NE` (R114). -/
  | probeCmpNe (o : ProbeOp)
  /-- `PROBE_CMP_LTU` (R114). -/
  | probeCmpLtu (o : ProbeOp)
  /-- `PROBE_CMP_GEU` (R114). -/
  | probeCmpGeu (o : ProbeOp)
  /-- `PROBE_CMP_LT` (R114). -/
  | probeCmpLt (o : ProbeOp)
  /-- `PROBE_CMP_GE` (R114). -/
  | probeCmpGe (o : ProbeOp)
  /-- `PROBE_BR` (R114). -/
  | probeBr (o : ProbeOp)
  /-- `PROBE_BR_Z` (R114). -/
  | probeBrZ (o : ProbeOp)
  /-- `PROBE_BR_NZ` (R114). -/
  | probeBrNz (o : ProbeOp)
  /-- `HIST_V` (R119). -/
  | histV (o : ProbeOp)
  /-- `HIST_W` (R119). -/
  | histW (o : ProbeOp)
  /-- `THRESH_MI` (R122). -/
  | threshMi (o : ProbeOp)
  /-- `THRESH_C` (R114). -/
  | threshC (o : ProbeOp)
  /-- `EMIT_W` (R133). -/
  | emitW (o : ProbeOp)
  /-- `EMIT_K` (R133). -/
  | emitK (o : ProbeOp)
  /-- `EMIT_H` (R133). -/
  | emitH (o : ProbeOp)
  /-- `EMIT_R_MARKER` (R114). -/
  | emitRMarker (o : ProbeOp)
  /-- `EMIT_R_PC_SAMPLES` (R124). -/
  | emitRPcSamples (o : ProbeOp)
  /-- `EMIT_R_DIGEST` (R126). -/
  | emitRDigest (o : ProbeOp)
  /-- `EMIT_R_SENSOR` (R128). -/
  | emitRSensor (o : ProbeOp)
  /-- `EMIT_R_ENERGY` (R131). -/
  | emitREnergy (o : ProbeOp)
  /-- `PCSAMP_F` (R124). -/
  | pcsampF (o : ProbeOp)
  /-- `PCSAMP_S` (R124). -/
  | pcsampS (o : ProbeOp)
  /-- `PCSAMP_H` (R124). -/
  | pcsampH (o : ProbeOp)
  /-- `DIGSET_S` (R126). -/
  | digsetS (o : ProbeOp)
  /-- `DIGSET_E` (R126). -/
  | digsetE (o : ProbeOp)
  /-- `ADCSTART_T` (R128). -/
  | adcstartT (o : ProbeOp)
  /-- `ADCSTART_V` (R128). -/
  | adcstartV (o : ProbeOp)
  /-- `WAITT_T` (R114). -/
  | waittT (o : ProbeOp)
  /-- `WAITT_A` (R114). -/
  | waittA (o : ProbeOp)
  /-- `WAITT_P` (R114). -/
  | waittP (o : ProbeOp)
  /-- `END` (R132). -/
  | probeEnd (o : ProbeOp)
  /-- `TAP_QUEUE_AGE_OUT` (R149). -/
  | tapQueueAgeOut
  /-- `BUMAS_BLOCK_SLOT` (R141). -/
  | bumasBlockSlot
  /-- `CREDIT_RECEIVE` (R145). -/
  | creditReceive (c : CreditBlk)
  /-- `TAP_NOP` (R153). -/
  | tapNop (c : TapCmd)
  /-- `CSR_WRITE` (R153). -/
  | csrWrite (c : TapCmd)
  /-- `CSR_READ` (R153). -/
  | csrRead (c : TapCmd)
  /-- `PROG_LOAD` (R153). -/
  | progLoad (c : TapCmd)
  /-- `TAP_GREYOUT` (R154). -/
  | tapGreyout (c : TapCmd)
  /-- `TAP_BLACKOUT` (R154). -/
  | tapBlackout (c : TapCmd)
  /-- `AUDIT_THRESH` (R154). -/
  | auditThresh (c : TapCmd)
  /-- `RESET` (R153). -/
  | tapReset (c : TapCmd)
  /-- `LINK_RETRAIN` (R153). -/
  | linkRetrain (c : TapCmd)
  /-- `TIME_RECEIVE` (R155). -/
  | timeReceive (t : TimeBlk)
  /-- `BUMAS_SERVO_UPDATE` (R155). -/
  | bumasServoUpdate
  /-- `TICK_RECEIVE` (R159). -/
  | tickReceive (t : TickBlk)
  /-- `SIGNAL_DETECT` (R160). -/
  | signalDetect (e : LinkEnd) (lane : Bool)
  /-- `TRAIN_DONE` (R160). -/
  | trainDone (e : LinkEnd) (lane : Bool)
  /-- `CODEWORD_LOCK` (R160). -/
  | codewordLock (e : LinkEnd) (lane : Bool)
  /-- `DESKEW_DONE` (R160). -/
  | deskewDone (e : LinkEnd)
  /-- `LINK_INIT` (R160). -/
  | linkInit (e : LinkEnd) (two : Bool) (fresh : Bool)
  /-- `TRAINING_TIMEOUT` (R160). -/
  | trainingTimeout (e : LinkEnd)
  /-- `LANE_FAIL` (R161). -/
  | laneFail (e : LinkEnd) (lane : Bool)
  /-- `TP_PORT_CFG_WRITE` (R165). -/
  | tpPortCfgWrite (q : BitVec 6) (data : Word)
  /-- `GLEXON_BLOCK_SLOT` (R141). -/
  | glexonBlockSlot (p : BitVec 6)
  /-- `TAP_DATA_BLOCK` (R144). -/
  | tapDataBlock (p : BitVec 6) (chk : BlkCheck) (bytes : List Byte)
  /-- `RECORD_INGEST` (R170). -/
  | recordIngest (p : BitVec 6) (cls : BitVec 2)
  /-- `AUDIT_TILE_ACCEPT` (R271). -/
  | auditTileAccept (p : BitVec 6)
  /-- `CMD_ACK_RECEIVE` (R152). -/
  | cmdAckReceive (p : BitVec 6) (a : AckBlk)
  /-- `CMD_RESEND` (R152). -/
  | cmdResend (p : BitVec 6) (seq : BitVec 32)
  /-- `CREDIT_SEND` (R146). -/
  | creditSend (p : BitVec 6)
  /-- `TIME_SEND` (R155). -/
  | timeSend (p : BitVec 6)
  /-- `TIME_ECHO_RECEIVE` (R155). -/
  | timeEchoReceive (p : BitVec 6) (e : EchoBlk)
  /-- `GLEXON_BOUNDARY` (R190). -/
  | glexonBoundary (b : BoundaryIn)
  /-- `PROVISIONAL_BOUNDARY` (R494). -/
  | provisionalBoundary
  /-- `ADMISSION` (R387). -/
  | admission
  /-- `MAUVE_GREYOUT` (R391). -/
  | mauveGreyout
  /-- `SELF_CHECK` (R254). -/
  | selfCheck (core : BitVec 5) (fail : Option CheckFail)
  /-- `CORE_ENTRY` (R202). -/
  | coreEntry (core : BitVec 5)
  /-- `CORE_WITHDRAWN` (R257). -/
  | coreWithdrawn (core : BitVec 5)
  /-- `WORK_DEADLINE` (R22). -/
  | workDeadline
  /-- `AUDIT_WORK_LIST` (R278). -/
  | auditWorkList
  /-- `RESULT_READ` (R279). -/
  | resultRead (outs : List ReplayOut)
  /-- `REPLAY_AGE_OUT` (R277). -/
  | replayAgeOut
  /-- `PROFILE_CHECK` (R273). -/
  | profileCheck (idx : Byte)
  /-- `PROFILE_CHECK_DONE` (R273). -/
  | profileCheckDone
  /-- `NOP` (R194). -/
  | nop (o : SlotOp)
  /-- `ADD` (R206). -/
  | add (o : SlotOp)
  /-- `SUB` (R206). -/
  | sub (o : SlotOp)
  /-- `ADD_I` (R206). -/
  | addI (o : SlotOp)
  /-- `AND` (R206). -/
  | and (o : SlotOp)
  /-- `OR` (R206). -/
  | or (o : SlotOp)
  /-- `XOR` (R206). -/
  | xor (o : SlotOp)
  /-- `AND_I` (R206). -/
  | andI (o : SlotOp)
  /-- `OR_I` (R206). -/
  | orI (o : SlotOp)
  /-- `XOR_I` (R206). -/
  | xorI (o : SlotOp)
  /-- `SHL` (R206). -/
  | shl (o : SlotOp)
  /-- `SHR` (R206). -/
  | shr (o : SlotOp)
  /-- `SRA` (R206). -/
  | sra (o : SlotOp)
  /-- `ROR` (R206). -/
  | ror (o : SlotOp)
  /-- `SHL_I` (R206). -/
  | shlI (o : SlotOp)
  /-- `SHR_I` (R206). -/
  | shrI (o : SlotOp)
  /-- `SRA_I` (R206). -/
  | sraI (o : SlotOp)
  /-- `MUL` (R206). -/
  | mul (o : SlotOp)
  /-- `MULH_U` (R206). -/
  | mulhU (o : SlotOp)
  /-- `MULH_S` (R206). -/
  | mulhS (o : SlotOp)
  /-- `MIN_S` (R206). -/
  | minS (o : SlotOp)
  /-- `MIN_U` (R206). -/
  | minU (o : SlotOp)
  /-- `MAX_S` (R206). -/
  | maxS (o : SlotOp)
  /-- `MAX_U` (R206). -/
  | maxU (o : SlotOp)
  /-- `CLZ` (R206). -/
  | clz (o : SlotOp)
  /-- `CTZ` (R206). -/
  | ctz (o : SlotOp)
  /-- `POPC` (R206). -/
  | popc (o : SlotOp)
  /-- `MOV_I` (R206). -/
  | movI (o : SlotOp)
  /-- `MOVH` (R206). -/
  | movh (o : SlotOp)
  /-- `SEL` (R206). -/
  | sel (o : SlotOp)
  /-- `ADD3` (R206). -/
  | add3 (o : SlotOp)
  /-- `MADD` (R206). -/
  | madd (o : SlotOp)
  /-- `CMP_EQ` (R207). -/
  | cmpEq (o : SlotOp)
  /-- `CMP_NE` (R207). -/
  | cmpNe (o : SlotOp)
  /-- `CMP_LT_S` (R207). -/
  | cmpLtS (o : SlotOp)
  /-- `CMP_LT_U` (R207). -/
  | cmpLtU (o : SlotOp)
  /-- `CMP_GE_S` (R207). -/
  | cmpGeS (o : SlotOp)
  /-- `CMP_GE_U` (R207). -/
  | cmpGeU (o : SlotOp)
  /-- `CMP_EQ_I` (R207). -/
  | cmpEqI (o : SlotOp)
  /-- `CMP_NE_I` (R207). -/
  | cmpNeI (o : SlotOp)
  /-- `CMP_LT_S_I` (R207). -/
  | cmpLtSI (o : SlotOp)
  /-- `CMP_LT_U_I` (R207). -/
  | cmpLtUI (o : SlotOp)
  /-- `CMP_GE_S_I` (R207). -/
  | cmpGeSI (o : SlotOp)
  /-- `CMP_GE_U_I` (R207). -/
  | cmpGeUI (o : SlotOp)
  /-- `BTST` (R207). -/
  | btst (o : SlotOp)
  /-- `PAND` (R207). -/
  | pand (o : SlotOp)
  /-- `POR` (R207). -/
  | por (o : SlotOp)
  /-- `PXOR` (R207). -/
  | pxor (o : SlotOp)
  /-- `PANDN` (R207). -/
  | pandn (o : SlotOp)
  /-- `PNOT` (R207). -/
  | pnot (o : SlotOp)
  /-- `PMOV_G` (R207). -/
  | pmovG (o : SlotOp)
  /-- `PMOV_P` (R207). -/
  | pmovP (o : SlotOp)
  /-- `BR` (R208). -/
  | br (o : SlotOp)
  /-- `BR_Z` (R208). -/
  | brZ (o : SlotOp)
  /-- `BR_NZ` (R208). -/
  | brNz (o : SlotOp)
  /-- `DBNZ` (R208). -/
  | dbnz (o : SlotOp)
  /-- `CALL` (R208). -/
  | call (o : SlotOp)
  /-- `RET` (R208). -/
  | ret (o : SlotOp)
  /-- `LD_B` (R211). -/
  | ldB (o : SlotOp)
  /-- `LD_H` (R211). -/
  | ldH (o : SlotOp)
  /-- `LD_W` (R211). -/
  | ldW (o : SlotOp)
  /-- `LD_D` (R211). -/
  | ldD (o : SlotOp)
  /-- `LD_B_S` (R211). -/
  | ldBS (o : SlotOp)
  /-- `LD_H_S` (R211). -/
  | ldHS (o : SlotOp)
  /-- `LD_W_S` (R211). -/
  | ldWS (o : SlotOp)
  /-- `ST_B` (R211). -/
  | stB (o : SlotOp)
  /-- `ST_H` (R211). -/
  | stH (o : SlotOp)
  /-- `ST_W` (R211). -/
  | stW (o : SlotOp)
  /-- `ST_D` (R211). -/
  | stD (o : SlotOp)
  /-- `AMO_ADD` (R211). -/
  | amoAdd (o : SlotOp)
  /-- `AMO_CAS` (R211). -/
  | amoCas (o : SlotOp)
  /-- `MFS` (R200). -/
  | mfs (o : SlotOp)
  /-- `MTS` (R200). -/
  | mts (o : SlotOp)
  /-- `FAR_ACCESS_RETURN` (R217). -/
  | farAccessReturn (core : BitVec 5) (place : BitVec 3) (ecc : Ecc)
  /-- `CORE_WAIT_END` (R197). -/
  | coreWaitEnd (core : BitVec 5) (cycles : BitVec 32)
  /-- `VADD` (R218). -/
  | vadd (o : SlotOp)
  /-- `VSUB` (R218). -/
  | vsub (o : SlotOp)
  /-- `VMUL` (R218). -/
  | vmul (o : SlotOp)
  /-- `VFMA` (R220). -/
  | vfma (o : SlotOp)
  /-- `VMIN` (R220). -/
  | vmin (o : SlotOp)
  /-- `VMAX` (R220). -/
  | vmax (o : SlotOp)
  /-- `VABS` (R218). -/
  | vabs (o : SlotOp)
  /-- `VNEG` (R218). -/
  | vneg (o : SlotOp)
  /-- `VAND` (R218). -/
  | vand (o : SlotOp)
  /-- `VOR` (R218). -/
  | vor (o : SlotOp)
  /-- `VXOR` (R218). -/
  | vxor (o : SlotOp)
  /-- `VSHF_LEFT` (R218). -/
  | vshfLeft (o : SlotOp)
  /-- `VSHF_LOGICAL_RIGHT` (R218). -/
  | vshfLogicalRight (o : SlotOp)
  /-- `VSHF_ARITH_RIGHT` (R218). -/
  | vshfArithRight (o : SlotOp)
  /-- `VCMP_EQ` (R220). -/
  | vcmpEq (o : SlotOp)
  /-- `VCMP_NE` (R220). -/
  | vcmpNe (o : SlotOp)
  /-- `VCMP_LT` (R220). -/
  | vcmpLt (o : SlotOp)
  /-- `VCMP_LE` (R220). -/
  | vcmpLe (o : SlotOp)
  /-- `VCMP_GT` (R220). -/
  | vcmpGt (o : SlotOp)
  /-- `VCMP_GE` (R220). -/
  | vcmpGe (o : SlotOp)
  /-- `VSEL` (R218). -/
  | vsel (o : SlotOp)
  /-- `VCVT` (R222). -/
  | vcvt (o : SlotOp)
  /-- `VBCAST` (R218). -/
  | vbcast (o : SlotOp)
  /-- `VEXT` (R218). -/
  | vext (o : SlotOp)
  /-- `VINS` (R218). -/
  | vins (o : SlotOp)
  /-- `VPERM` (R218). -/
  | vperm (o : SlotOp)
  /-- `VRED_ADD` (R221). -/
  | vredAdd (o : SlotOp)
  /-- `VRED_MIN` (R218). -/
  | vredMin (o : SlotOp)
  /-- `VRED_MAX` (R218). -/
  | vredMax (o : SlotOp)
  /-- `VEXP2` (R223). -/
  | vexp2 (o : SlotOp)
  /-- `VLOG2` (R223). -/
  | vlog2 (o : SlotOp)
  /-- `VRCP` (R223). -/
  | vrcp (o : SlotOp)
  /-- `VRSQRT` (R223). -/
  | vrsqrt (o : SlotOp)
  /-- `VLD` (R224). -/
  | vld (o : SlotOp)
  /-- `VST` (R224). -/
  | vst (o : SlotOp)
  /-- `VMOV` (R218). -/
  | vmov (o : SlotOp)
  /-- `MMA` (R238). -/
  | mma (o : SlotOp)
  /-- `TLD` (R241). -/
  | tld (o : SlotOp)
  /-- `TST` (R241). -/
  | tst (o : SlotOp)
  /-- `ACCNET_CFG` (R242). -/
  | accnetCfg (o : SlotOp)
  /-- `DMA_FAR_TO_LOCAL` (R244). -/
  | dmaFarToLocal (o : SlotOp)
  /-- `DMA_LOCAL_TO_FAR` (R244). -/
  | dmaLocalToFar (o : SlotOp)
  /-- `VPROG` (R246). -/
  | vprog (o : SlotOp)
  /-- `WAIT_E` (R247). -/
  | waitE (o : SlotOp)
  /-- `FENCE_M` (R252). -/
  | fenceM (o : SlotOp)
  /-- `FENCE_E` (R252). -/
  | fenceE (o : SlotOp)
  /-- `FENCE_X` (R252). -/
  | fenceX (o : SlotOp)
  /-- `FENCE_F` (R252). -/
  | fenceF (o : SlotOp)
  /-- `TICKSYNC` (R253). -/
  | ticksync (o : SlotOp)
  /-- `ENGINE_OP_BEGIN` (R234). -/
  | engineOpBegin (core : BitVec 5) (q : EngQueue)
  /-- `MMA_COMPLETE` (R243). -/
  | mmaComplete (core : BitVec 5) (eng : BitVec 4) (residue : Bool)
  /-- `TILE_OP_COMPLETE` (R241). -/
  | tileOpComplete (core : BitVec 5) (eng : BitVec 4)
  /-- `DMA_COMPLETE` (R244). -/
  | dmaComplete (core : BitVec 5) (ecc : Ecc)
  /-- `XOP_COMPLETE` (R245). -/
  | xopComplete (core : BitVec 5) (eng : BitVec 3) (ecc : Ecc)
  /-- `VPROG_COMPLETE` (R246). -/
  | vprogComplete (core : BitVec 5) (eng : BitVec 2)
  /-- `MC_WITHDRAW_REQ` (R256). -/
  | mcWithdrawReq (agent : BitVec 6) (mask : BitVec 24)
  /-- `MC_RESTORE_REQ` (R260). -/
  | mcRestoreReq (agent : BitVec 6) (mask : BitVec 24)
  /-- `REDUCE_CORE` (R347). -/
  | reduceCore (o : SlotOp)
  /-- `REDUCE_DETAIL` (R347). -/
  | reduceDetail (o : SlotOp)
  /-- `REDUCE_ARRIVALS` (R347). -/
  | reduceArrivals (o : SlotOp)
  /-- `COARSEN` (R329). -/
  | coarsen (o : SlotOp)
  /-- `PUBLISH` (R339). -/
  | publish (o : SlotOp)
  /-- `SCORE` (R363). -/
  | score (o : SlotOp)
  /-- `FEAT_UPDATE` (R353). -/
  | featUpdate (o : SlotOp)
  /-- `CRC64` (R308). -/
  | crc64 (o : SlotOp)
  /-- `CRC32C` (R308). -/
  | crc32c (o : SlotOp)
  /-- `M61_DIGEST` (R308). -/
  | m61Digest (o : SlotOp)
  /-- `CRC64_VERIFY` (R308). -/
  | crc64Verify (o : SlotOp)
  /-- `CRC32C_VERIFY` (R308). -/
  | crc32cVerify (o : SlotOp)
  /-- `M61_VERIFY` (R308). -/
  | m61Verify (o : SlotOp)
  /-- `DEFLATE` (R444). -/
  | deflate (o : SlotOp)
  /-- `INFLATE` (R449). -/
  | inflate (o : SlotOp)
  /-- `RM_WRITE` (R431). -/
  | rmWrite (o : SlotOp)
  /-- `RM_READ` (R430). -/
  | rmRead (o : SlotOp)
  /-- `RM_FETCH_ADD` (R432). -/
  | rmFetchAdd (o : SlotOp)
  /-- `RM_CMP_SWAP` (R432). -/
  | rmCmpSwap (o : SlotOp)
  /-- `WRITE` (R427). -/
  | write (pk : RmFrame)
  /-- `READ_REQ` (R432). -/
  | readReq (pk : RmFrame)
  /-- `READ_RESP` (R427). -/
  | readResp (pk : RmFrame)
  /-- `FETCH_ADD` (R432). -/
  | fetchAdd (pk : RmFrame)
  /-- `CMP_SWAP` (R432). -/
  | cmpSwap (pk : RmFrame)
  /-- `ATOMIC_RESP` (R430). -/
  | atomicResp (pk : RmFrame)
  /-- `ACK` (R431). -/
  | ack (pk : RmFrame)
  /-- `NAK` (R425). -/
  | nak (pk : RmFrame)
  /-- `MESSAGE_DELIVER` (R428). -/
  | messageDeliver (qpn : BitVec 12)
  /-- `RETRANSMIT_TIMEOUT` (R433). -/
  | retransmitTimeout (qpn : BitVec 12) (psn : BitVec 24)
  /-- `PATH_RESUME` (R421). -/
  | pathResume (qpn : BitVec 12) (path : BitVec 4)
  /-- `QP_INIT` (R419). -/
  | qpInit (qpn : BitVec 12) (cfg : Word)
  /-- `QP_RTS` (R419). -/
  | qpRts (qpn : BitVec 12) (cfg : Word)
  /-- `QP_DRAIN` (R419). -/
  | qpDrain (qpn : BitVec 12) (cfg : Word)
  /-- `QP_RESET` (R420). -/
  | qpReset (qpn : BitVec 12) (cfg : Word)
  /-- `MR_REGISTER` (R423). -/
  | mrRegister (r : BitVec 14) (attr : Word)
  /-- `MR_DEREGISTER` (R423). -/
  | mrDeregister (r : BitVec 14) (attr : Word)
  /-- `REKEY` (R424). -/
  | rekey (r : BitVec 14)
  /-- `AMBER_STALE_DISCARD` (R397). -/
  | amberStaleDiscard
  /-- `PULL_START` (R344). -/
  | pullStart
  /-- `PULL_TICK` (R346). -/
  | pullTick
  /-- `BOOT_LOAD_START` (R436). -/
  | bootLoadStart
  /-- `BOOT_IMAGE_READ` (R436). -/
  | bootImageRead
  /-- `PORT_SERVE` (R396). -/
  | portServe (p : BitVec 3)
  /-- `GATE_ENTRY` (R405). -/
  | gateEntry (e : BitVec 6)
  /-- `SHAPER_REFILL` (R401). -/
  | shaperRefill
  /-- `CMD_INBAND_SEND` (R410). -/
  | cmdInbandSend
  /-- `COMMAND_RECEIVE` (R411). -/
  | commandReceive (bytes : List Byte)
  /-- `SUBMIT_CMD` (R408). -/
  | submitCmd (q : MbxReq)
  /-- `GREYOUT` (R413). -/
  | greyout
  /-- `BLACKOUT` (R414). -/
  | blackout
  /-- `WS_CREATE` (R39). -/
  | wsCreate
  /-- `WS_TEARDOWN` (R40). -/
  | wsTeardown
  /-- `EPOCH` (R58). -/
  | epoch
  /-- `EPOCH_ADOPT` (R58). -/
  | epochAdopt
  /-- `PERIOD_CHANGE` (R19). -/
  | periodChange
  /-- `P_CHANGE` (R62). -/
  | pChange
  /-- `BEACON` (R61). -/
  | beacon
  /-- `COLL_KEY` (R409). -/
  | collKey
  /-- `GATE_LIST` (R407). -/
  | gateList
  /-- `ANNOUNCE` (R500). -/
  | announce
  /-- `LIST_HELD` (R47). -/
  | listHeld
  /-- `LIST_HELD_RESEND` (R47). -/
  | listHeldResend (id : BitVec 12)
  /-- `TALLY_EXPIRE` (R47). -/
  | tallyExpire (id : BitVec 12) (gen : BitVec 16)
  /-- `ANNOUNCE_RESEND` (R499). -/
  | announceResend (slot : BitVec 2)
  /-- `ANNOUNCE_TIMEOUT` (R500). -/
  | announceTimeout (slot : BitVec 2)
  /-- `EPOCH_ISSUE` (R501). -/
  | epochIssue
  /-- `MAP_REREAD` (R497). -/
  | mapReread
  /-- `INSTANCE_TIMEOUT` (R337). -/
  | instanceTimeout
  /-- `ITEM_EXPIRE` (R376). -/
  | itemExpire
  /-- `DECODE_PAIR_EXPIRE` (R375). -/
  | decodePairExpire
  /-- `MODEL_CHECK` (R358). -/
  | modelCheck (k : BitVec 4) (addr : Word)
  /-- `MODEL_CHECK_DONE` (R358). -/
  | modelCheckDone (k : BitVec 4)
  /-- `INV` (R352). -/
  | inv
  /-- `SAMPLE_BUFFER_WRITE` (R481). -/
  | sampleBufferWrite
  /-- `TRACE_FRAME` (R487). -/
  | traceFrame
  /-- `TRACE_RESYNC` (R486). -/
  | traceResync (agent : BitVec 6)
  /-- `SYNC_RECEIVE` (R55). -/
  | syncReceive (m : PtpSync)
  /-- `FOLLOW_UP_RECEIVE` (R54). -/
  | followUpReceive (m : PtpSync)
  /-- `DELAY_REQ_SEND` (R54). -/
  | delayReqSend
  /-- `DELAY_REQ_RECEIVE` (R54). -/
  | delayReqReceive (m : PtpDelay)
  /-- `DELAY_RESP_RECEIVE` (R54). -/
  | delayRespReceive (m : PtpDelay)
  /-- `SYNC_SEND` (R54). -/
  | syncSend
  /-- `ANNOUNCE_SEND` (R54). -/
  | announceSend
  /-- `PTP_ANNOUNCE_RECEIVE` (R54). -/
  | ptpAnnounceReceive (a : PtpAnn)
  /-- `SYNC_TIMEOUT` (R52). -/
  | syncTimeout
  /-- `ANNOUNCE_RECEIPT_TIMEOUT` (R52). -/
  | announceReceiptTimeout
  /-- `TICK_STOPPED` (R510). -/
  | tickStopped
  /-- `TK_STEP` (R51). -/
  | tkStep (agent : BitVec 6) (v : Word)
  /-- `TK_SLEW` (R51). -/
  | tkSlew (v : Word)
  /-- `TK_NOW_SEC_READ` (R50). -/
  | tkNowSecRead
  /-- `TK_ADDEND_WRITE` (R49). -/
  | tkAddendWrite (v : Word)
  /-- `TK_REF_SEL_WRITE` (R68). -/
  | tkRefSelWrite (v : Word)
  /-- `PPS_IN_EDGE` (R67). -/
  | ppsInEdge
  /-- `PPS_IN_LOST` (R67). -/
  | ppsInLost
  /-- `REF10M_LOST` (R68). -/
  | ref10mLost
  /-- `PPS_OUT_RISE` (R66). -/
  | ppsOutRise
  /-- `PPS_OUT_FALL` (R66). -/
  | ppsOutFall
  /-- `COMPARATOR_ARM` (R70). -/
  | comparatorArm (k : BitVec 4) (v : Word)
  /-- `CMP_FIRE` (R69). -/
  | cmpFire (k : BitVec 4)
  /-- `TRIG_PULSE_END` (R69). -/
  | trigPulseEnd (pin : BitVec 2)
  /-- `CAPT_EDGE` (R71). -/
  | captEdge (j : BitVec 2) (rising : Bool)
  /-- `CAPT_READ` (R71). -/
  | captRead (j : BitVec 2)
  /-- `REGISTER_WRITE` (R14). -/
  | registerWrite (agent : BitVec 6) (addr : BitVec 48) (data : Word)
  /-- `FABRIC_LANE_FAIL` (R508). -/
  | fabricLaneFail (p : BitVec 3) (mask : BitVec 4)
  /-- `FABRIC_PORT_UP` (R508). -/
  | fabricPortUp (p : BitVec 3) (mask : BitVec 4)
  /-- `HBM_TEMP_READ` (R530). -/
  | hbmTempRead (t0 : Byte) (t1 : Byte)
  /-- `SENSOR_SAMPLE` (R460). -/
  | sensorSample (reads : List (BitVec 16))
  /-- `THERMAL_TRIP` (R462). -/
  | thermalTrip
  /-- `RAIL_SAMPLE` (R461). -/
  | railSample (rails : List RailIn)
  /-- `EVENT_RECORD_WRITE` (R464). -/
  | eventRecordWrite
  /-- `EVR_CURSOR` (R465). -/
  | evrCursor (v : Word)
  /-- `MIRROR_APPEND` (R466). -/
  | mirrorAppend (fail : Option MirrorFail)
  /-- `BROWNOUT` (R466). -/
  | brownout
  /-- `HEARTBEAT` (R467). -/
  | heartbeat
  /-- `WATCHDOG_EXPIRE` (R455). -/
  | watchdogExpire
  /-- `MG_WDOG_KICK` (R455). -/
  | mgWdogKick (_data : Word)
  /-- `MG_RESTART` (R455). -/
  | mgRestart (data : Word)
  /-- `COLD_BOOT` (R458). -/
  | coldBoot (nor : Option NorIn)
  /-- `SLOT_ACK` (R341). -/
  | slotAck (q : MbxReq)
  /-- `IMG_LOAD` (R436). -/
  | imgLoad (q : MbxReq)
  /-- `IMG_ACTIVATE` (R472). -/
  | imgActivate (q : MbxReq)
  /-- `IMAGE_SWAP` (R472). -/
  | imageSwap
  /-- `FW_STAGE` (R469). -/
  | fwStage (q : MbxReq) (img : List Byte)
  /-- `FW_ACTIVATE` (R470). -/
  | fwActivate (q : MbxReq)
  /-- `FW_ACTIVATION_RESTART` (R470). -/
  | fwActivationRestart
  /-- `FW_COMMIT` (R471). -/
  | fwCommit (q : MbxReq)
  /-- `FW_REVERT` (R468). -/
  | fwRevert (q : MbxReq)
  /-- `CORE_WITHDRAW` (R468). -/
  | coreWithdraw (q : MbxReq)
  /-- `CORE_RESTORE` (R468). -/
  | coreRestore (q : MbxReq)
  /-- `SDC_CLEAR` (R468). -/
  | sdcClear (q : MbxReq)
  /-- `MEMBER_LIST` (R47). -/
  | memberList (q : MbxReq)
  /-- `SET_ENDPOINT_ID` (R473). -/
  | setEndpointId (msg : List Byte)
  /-- `GET_ENDPOINT_ID` (R473). -/
  | getEndpointId (msg : List Byte)
  /-- `GET_MCTP_VERSION_SUPPORT` (R473). -/
  | getMctpVersionSupport (msg : List Byte)
  /-- `GET_MESSAGE_TYPE_SUPPORT` (R473). -/
  | getMessageTypeSupport (msg : List Byte)
  /-- `GET_ENDPOINT_UUID` (R473). -/
  | getEndpointUuid (msg : List Byte)
  /-- `GETTID` (R473). -/
  | gettid (msg : List Byte)
  /-- `SETTID` (R473). -/
  | settid (msg : List Byte)
  /-- `GETPLDMVERSION` (R473). -/
  | getpldmversion (msg : List Byte)
  /-- `GETPLDMTYPES` (R473). -/
  | getpldmtypes (msg : List Byte)
  /-- `GETPLDMCOMMANDS` (R473). -/
  | getpldmcommands (msg : List Byte)
  /-- `GETSENSORREADING` (R473). -/
  | getsensorreading (msg : List Byte)
  /-- `GETSTATESENSORREADINGS` (R473). -/
  | getstatesensorreadings (msg : List Byte)
  /-- `GETPDRREPOSITORYINFO` (R473). -/
  | getpdrrepositoryinfo (msg : List Byte)
  /-- `GETPDR` (R473). -/
  | getpdr (msg : List Byte)
  /-- `SETEVENTRECEIVER` (R473). -/
  | seteventreceiver (msg : List Byte)
  /-- `BYPASS` (R526). -/
  | bypass
  /-- `SAMPLE_PRELOAD` (R526). -/
  | samplePreload
  /-- `EXTEST` (R526). -/
  | extest
  /-- `CLAMP` (R526). -/
  | clamp
  /-- `HIGHZ` (R526). -/
  | highz
  /-- `EXTEST_PULSE` (R526). -/
  | extestPulse
  /-- `EXTEST_TRAIN` (R526). -/
  | extestTrain
  /-- `SYS_RST_N_RELEASE` (R521). -/
  | sysRstNRelease
  /-- `SYS_RST_N_ASSERT` (R523). -/
  | sysRstNAssert
  /-- `CORE_PWROK_FALL` (R523). -/
  | corePwrokFall
  /-- `DROOP_RECOVERY` (R130). -/
  | droopRecovery (input : BitVec 3)
  /-- `HBM_TRAINING_DONE` (R492). -/
  | hbmTrainingDone
  /-- `CORE_PWROK_RISE` (R523). -/
  | corePwrokRise
  /-- `MG_RST_N_ASSERT` (R454). -/
  | mgRstNAssert
  /-- `ILLEGAL` (R226). -/
  | illegal (core : BitVec 5) (slot : BitVec 2) (first : Bool)
  /-- `BAD_OPCODE` (R153). -/
  | badOpcode (opcode : BitVec 16) (c : TapCmd)
  /-- `BAD_REQ` (R468). -/
  | badReq (opcode : BitVec 16) (q : MbxReq)
  deriving DecidableEq, Repr

end Sys2Proof
end

