-- ==== Sys2Proof/Decode.lean ====
section
/-! DEFINITION. Commands that a word spells. The opcode table gives no row any bits: a command of this block comes from outside
whole, with its operands, and no word spells one. -/

namespace Sys2Proof

/-- The command that a word of the opcode table's bits spells: none, since no row of the table has bits. -/
def decodeTableWord (_nbits _w : Nat) : Option Instr := none

end Sys2Proof
end

