-- ==== Sys2Proof/Machine/Bits.lean ====
section
/-! DEFINITION. Bit fields, byte order, sign extension, saturation, CRCs and sparse maps: the helpers every
family uses. -/

namespace Sys2Proof.Machine

/-! ### Sparse maps

A table of like things is a sparse map: a list of (index, value) pairs, indices rising, no entry equal to the
default an unlisted index reads as. -/

/-- The value at index `k`; `d` where the map lists none. -/
def SMap.get {α : Type} (d : α) : SMap α → Nat → α
  | [], _ => d
  | (j, v) :: r, k => if k = j then v else SMap.get d r k

/-- The map with `v` at index `k`, in canonical form: writing the default removes the entry. -/
def SMap.put {α : Type} [DecidableEq α] (d : α) : SMap α → Nat → α → SMap α
  | [], k, v => if v = d then [] else [(k, v)]
  | (j, w) :: r, k, v =>
    if k = j then (if v = d then SMap.put d r k v else (k, v) :: r)
    else if k < j ∧ v ≠ d then (k, v) :: (j, w) :: r
    else (j, w) :: SMap.put d r k v

/-- The map with `f` applied at index `k`. -/
def SMap.mod {α : Type} [DecidableEq α] (d : α) (m : SMap α) (k : Nat) (f : α → α) : SMap α :=
  SMap.put d m k (f (SMap.get d m k))

/-- Indices strictly rising from above `lo` and no default listed: the canonical form, from a lower bound. -/
def SMap.wfFrom {α : Type} [DecidableEq α] (d : α) : Nat → SMap α → Bool
  | _, [] => true
  | lo, (j, v) :: r => decide (lo ≤ j) && decide (v ≠ d) && SMap.wfFrom d (j + 1) r

/-- The canonical form of a sparse map. -/
def SMap.wf {α : Type} [DecidableEq α] (d : α) (m : SMap α) : Bool := SMap.wfFrom d 0 m

/-! ### Bit fields -/

/-- The `len` bits of `n` from bit `lo` up. -/
def fldN (n lo len : Nat) : Nat := n >>> lo % 2 ^ len

/-- The `len` bits of `w` from bit `lo` up. -/
def fld {n : Nat} (w : BitVec n) (lo len : Nat) : Nat := fldN w.toNat lo len

/-- Bit `i` of `w`. -/
def bit {n : Nat} (w : BitVec n) (i : Nat) : Bool := w.getLsbD i

/-- `n` with the `len` bits from bit `lo` up replaced by `v`. -/
def putFldN (n lo len v : Nat) : Nat :=
  n - (fldN n lo len) <<< lo + (v % 2 ^ len) <<< lo

/-- `w` with the `len` bits from bit `lo` up replaced by `v`. -/
def putFld (w : Word) (lo len v : Nat) : Word := BitVec.ofNat 64 (putFldN w.toNat lo len v)

/-- `w` with bit `i` set or cleared. -/
def putBit (w : Word) (i : Nat) (b : Bool) : Word := putFld w i 1 b.toNat

/-- A word from a natural number, wrapping. -/
def word (n : Nat) : Word := BitVec.ofNat 64 n

/-- The `len` low bits of `n` read as a two's-complement number. -/
def sextN (len n : Nat) : Int :=
  let m := n % 2 ^ len
  if m < 2 ^ (len - 1) then (m : Int) else (m : Int) - 2 ^ len

/-- An integer wrapped to `len` bits. -/
def wrapI (len : Nat) (i : Int) : Nat := (i % (2 ^ len : Nat)).toNat

/-- An integer clamped to a range. -/
def clampI (lo hi i : Int) : Int := if i < lo then lo else if hi < i then hi else i

/-- A natural number clamped to `len` bits. -/
def satN (len n : Nat) : Nat := if n < 2 ^ len then n else 2 ^ len - 1

/-- A 64-bit counter plus `n`, saturating at all ones (R14). -/
def satAdd (w : Word) (n : Nat) : Word := word (satN 64 (w.toNat + n))

/-- A field plus `n`, saturating at the field's all ones. -/
def satFld (w : Word) (lo len n : Nat) : Word := putFld w lo len (satN len (fld w lo len + n))

/-- 1 for true, 0 for false, as a word. -/
def boolW (b : Bool) : Word := if b then 1 else 0

/-- The positions of the 1 bits of `n` below `len`, rising. -/
def onesBelow (len n : Nat) : List Nat := (List.range len).filter fun i => n.testBit i

/-- How many 1 bits `n` has below `len`. -/
def popN (len n : Nat) : Nat := (onesBelow len n).length

/-- A number from the list of its bits, the first the least significant. -/
def bitsToNat : List Bool → Nat
  | [] => 0
  | b :: r => b.toNat + 2 * bitsToNat r

/-! ### Byte order: multi-byte fields are little-endian unless a rule says otherwise (R13) -/

/-- The `n` bytes of `v`, least significant first. -/
def leBytes : Nat → Nat → List Byte
  | 0, _ => []
  | n + 1, v => BitVec.ofNat 8 v :: leBytes n (v / 256)

/-- The number whose bytes, least significant first, are the list. -/
def leNat : List Byte → Nat
  | [] => 0
  | b :: r => b.toNat + 256 * leNat r

/-- The `n` bytes of `v`, most significant first. -/
def beBytes (n v : Nat) : List Byte := (leBytes n v).reverse

/-- The number whose bytes, most significant first, are the list. -/
def beNat (l : List Byte) : Nat := leNat l.reverse

/-- The `n` bytes of `l` at offset `o`, read little-endian; bytes past the end read as zero. -/
def leAt (l : List Byte) (o n : Nat) : Nat := leNat ((l.drop o).take n)

/-- Pads a byte list with zeros to length `n`. -/
def padTo (n : Nat) (l : List Byte) : List Byte := l ++ List.replicate (n - l.length) 0

/-- Cuts a byte list into pieces of `k` bytes, using at most `fuel` pieces. -/
def chunks (k : Nat) : Nat → List Byte → List (List Byte)
  | 0, _ => []
  | _, [] => []
  | f + 1, l => l.take k :: chunks k f (l.drop k)

/-! ### CRCs -/

/-- One bit of a reflected CRC. -/
def crcBit (poly c : Nat) : Nat := if c % 2 = 1 then (c / 2) ^^^ poly else c / 2

/-- One byte into a reflected CRC register. -/
def crcByte (poly c : Nat) (b : Byte) : Nat :=
  (List.range 8).foldl (fun c _ => crcBit poly c) (c ^^^ b.toNat)

/-- A reflected CRC over a byte list, with its initial value and final XOR. -/
def crcRefl (poly init fin : Nat) (l : List Byte) : Nat := l.foldl (crcByte poly) init ^^^ fin

/-- CRC-32C: polynomial `0x1EDC6F41`, reflected, initial and final all ones (R304). -/
def crc32c (l : List Byte) : Nat := crcRefl 0x82F63B78 0xFFFFFFFF 0xFFFFFFFF l

end Sys2Proof.Machine
end

