-- ==== Sys2Proof/Machine/Float.lean ====
section
/-! DEFINITION. Binary floating point, exactly: values as dyadic numbers, conversion from and rounding to the IEEE 754
formats the spec uses. Arithmetic is done exactly and rounded once. -/

namespace Sys2Proof.Machine

/-- A floating-point value: a NaN, an infinity, or (−1)^neg · m · 2^e. -/
inductive FVal where
  | nan
  | inf (neg : Bool)
  | fin (neg : Bool) (m : Nat) (e : Int)
  deriving DecidableEq, Repr

/-- A binary interchange format: exponent and fraction bits. -/
structure FFmt where
  eb : Nat
  mb : Nat
  deriving DecidableEq, Repr

/-- FP64. -/
def fp64 : FFmt := ⟨11, 52⟩
/-- FP32. -/
def fp32 : FFmt := ⟨8, 23⟩
/-- BF16. -/
def bf16 : FFmt := ⟨8, 7⟩
/-- FP16. -/
def fp16 : FFmt := ⟨5, 10⟩

/-- Exponent bias. -/
def FFmt.bias (f : FFmt) : Int := 2 ^ (f.eb - 1) - 1
/-- Width in bits. -/
def FFmt.width (f : FFmt) : Nat := 1 + f.eb + f.mb

/-- The rounding modes: to nearest even, toward zero, and to nearest with ties away from zero. -/
inductive RMode where
  | rne | rtz | rna
  deriving DecidableEq, Repr

/-- The value an encoding stands for. -/
def FFmt.decode (f : FFmt) (b : Nat) : FVal :=
  let s := b.testBit (f.eb + f.mb)
  let e := fldN b f.mb f.eb
  let m := fldN b 0 f.mb
  if e = 2 ^ f.eb - 1 then (if m = 0 then .inf s else .nan)
  else if e = 0 then .fin s m (1 - f.bias - f.mb)
  else .fin s (m + 2 ^ f.mb) ((e : Int) - f.bias - f.mb)

/-- The sign bit in place. -/
def FFmt.signBit (f : FFmt) (neg : Bool) : Nat := neg.toNat * 2 ^ (f.eb + f.mb)

/-- The canonical quiet NaN. -/
def FFmt.qnan (f : FFmt) : Nat := (2 ^ f.eb - 1) * 2 ^ f.mb + 2 ^ (f.mb - 1)

/-- Infinity. -/
def FFmt.infBits (f : FFmt) (neg : Bool) : Nat := f.signBit neg + (2 ^ f.eb - 1) * 2 ^ f.mb

/-- What a rounding did. -/
structure Rounded where
  bits  : Nat
  inex  : Bool := false
  ovf   : Bool := false
  udf   : Bool := false
  /-- inexact, tiny before rounding, and rounded up to the least normal number -/
  edge  : Bool := false
  deriving DecidableEq, Repr

/-- The quotient of `m` by 2^k rounded by the mode, and whether anything was lost. -/
def roundShift (mode : RMode) (m k : Nat) : Nat × Bool :=
  let q := m >>> k
  let r := m % 2 ^ k
  if r = 0 then (q, false)
  else
    let h := 2 ^ (k - 1)
    let up := match mode with
      | .rne => decide (h < r) || (decide (r = h) && decide (q % 2 = 1))
      | .rtz => false
      | .rna => decide (h ≤ r)
    (if up then q + 1 else q, true)

/-- Rounds (−1)^neg · m · 2^e to the format. -/
def FFmt.roundFin (f : FFmt) (mode : RMode) (neg : Bool) (m : Nat) (e : Int) : Rounded :=
  if m = 0 then { bits := f.signBit neg }
  else
    let top : Int := e + Nat.log2 m
    let emin : Int := 1 - f.bias
    let q : Int := max (top - f.mb) (emin - f.mb)
    let r : Nat × Bool :=
      if q ≤ e then (m * 2 ^ (e - q).toNat, false) else roundShift mode m (q - e).toNat
    let mant := if r.1 = 2 ^ (f.mb + 1) then r.1 / 2 else r.1
    let q' := if r.1 = 2 ^ (f.mb + 1) then q + 1 else q
    if mant < 2 ^ f.mb then { bits := f.signBit neg + mant, inex := r.2, udf := r.2 }
    else
      let ef : Int := q' + f.mb + f.bias
      if (2 ^ f.eb - 1 : Nat) ≤ ef then
        { bits := if mode = .rtz then f.infBits neg - 1 else f.infBits neg, inex := true, ovf := true }
      else { bits := f.signBit neg + ef.toNat * 2 ^ f.mb + (mant - 2 ^ f.mb), inex := r.2,
             edge := r.2 && decide (top < emin) }

/-- Rounds a value to the format. -/
def FFmt.round (f : FFmt) (mode : RMode) : FVal → Rounded
  | .nan => { bits := f.qnan }
  | .inf s => { bits := f.infBits s }
  | .fin s m e => f.roundFin mode s m e

/-- A signed dyadic as a value; an exact zero takes the given sign. -/
def ofDyadic (i : Int) (e : Int) (zeroNeg : Bool) : FVal :=
  if i = 0 then .fin zeroNeg 0 0 else .fin (decide (i < 0)) i.natAbs e

/-- The signed significand of a finite value brought to exponent `e` (not above its own). -/
def alignTo (neg : Bool) (m : Nat) (e0 e : Int) : Int :=
  let v : Int := (m * 2 ^ (e0 - e).toNat : Nat)
  if neg then -v else v

/-- The exact sum; an exact zero sum of unlike signs is +0. -/
def FVal.add : FVal → FVal → FVal
  | .nan, _ => .nan
  | _, .nan => .nan
  | .inf a, .inf b => if a = b then .inf a else .nan
  | .inf a, .fin _ _ _ => .inf a
  | .fin _ _ _, .inf b => .inf b
  | .fin s m e, .fin t n g =>
    let x := min e g
    ofDyadic (alignTo s m e x + alignTo t n g x) x (s && t)

/-- The negation. -/
def FVal.neg : FVal → FVal
  | .nan => .nan
  | .inf s => .inf (!s)
  | .fin s m e => .fin (!s) m e

/-- The absolute value. -/
def FVal.abs : FVal → FVal
  | .nan => .nan
  | .inf _ => .inf false
  | .fin _ m e => .fin false m e

/-- The exact product. -/
def FVal.mul : FVal → FVal → FVal
  | .nan, _ => .nan
  | _, .nan => .nan
  | .inf a, .inf b => .inf (a != b)
  | .inf a, .fin s m _ => if m = 0 then .nan else .inf (a != s)
  | .fin s m _, .inf b => if m = 0 then .nan else .inf (s != b)
  | .fin s m e, .fin t n g => .fin (s != t) (m * n) (e + g)

/-- Is it a zero? -/
def FVal.isZero : FVal → Bool
  | .fin _ m _ => m = 0
  | _ => false

/-- Is it a NaN? -/
def FVal.isNan : FVal → Bool
  | .nan => true
  | _ => false

/-- Is it an infinity? -/
def FVal.isInf : FVal → Bool
  | .inf _ => true
  | _ => false

/-- Three-way comparison of values that are not NaN: negative, zero or positive. Zeros compare equal. -/
def FVal.cmp : FVal → FVal → Int
  | .inf a, .inf b => (if a then -1 else 1) - (if b then -1 else 1)
  | .inf a, _ => if a then -1 else 1
  | _, .inf b => if b then 1 else -1
  | .fin s m e, .fin t n g =>
    let x := min e g
    alignTo s m e x - alignTo t n g x
  | _, _ => 0

/-- An integer as a value. -/
def FVal.ofInt (i : Int) : FVal := .fin (decide (i < 0)) i.natAbs 0

/-- The value truncated toward zero to an integer; 0 for NaN, and `none` for an infinity. -/
def FVal.trunc : FVal → Option Int
  | .nan => some 0
  | .inf _ => none
  | .fin s m e =>
    let q : Nat := if 0 ≤ e then m * 2 ^ e.toNat else m / 2 ^ (-e).toNat
    some (if s then -(q : Int) else q)

/-- ⌊log₂ |x|⌋ of a finite non-zero value. -/
def FVal.expo : FVal → Int
  | .fin _ m e => e + Nat.log2 m
  | _ => 0

/-- Encodings ordered as numbers, −0 below +0 (R127, R321): the key of an encoding of `w` bits. -/
def ordKey (w b : Nat) : Int :=
  let mag := b % 2 ^ (w - 1)
  if b.testBit (w - 1) then -(mag : Int) - 1 else mag

/-- FP64 sum, rounded to nearest even. -/
def f64add (a b : Nat) : Nat := (fp64.round .rne ((fp64.decode a).add (fp64.decode b))).bits
/-- FP64 product, rounded to nearest even. -/
def f64mul (a b : Nat) : Nat := (fp64.round .rne ((fp64.decode a).mul (fp64.decode b))).bits
/-- FP64 encoding of a value. -/
def f64of (v : FVal) : Nat := (fp64.round .rne v).bits
/-- FP32 sum, rounded to nearest even. -/
def f32add (a b : Nat) : Nat := (fp32.round .rne ((fp32.decode a).add (fp32.decode b))).bits
/-- FP32 encoding of a value. -/
def f32of (v : FVal) : Nat := (fp32.round .rne v).bits

end Sys2Proof.Machine
end

