-- ==== Sys2Proof/Machine/Records.lean ====
section
/-! DEFINITION. Records as bytes (R46, Table 1.8, R295) and the M61 digest and CRC-64 (R294, R296). -/

namespace Sys2Proof.Machine

/-- Payload length in 8-byte words. -/
def Rec.words (r : Rec) : Nat := r.payload.length / 8

/-- Bytes of the whole record: header, payload, trailer and padding (R142). -/
def Rec.size (r : Rec) : Nat := 40 + 8 * Rec.words r

/-- DATA blocks of the record (R142). -/
def Rec.blocks (r : Rec) : Nat := (Rec.size r + 55) / 56

/-- The 32-byte header (Table 1.8). -/
def Rec.header (r : Rec) : List Byte :=
  leBytes 2 r.typ.toNat ++ [BitVec.ofNat 8 (r.cls.toNat * 16 + r.colour.toNat * 4), r.flags]
  ++ leBytes 4 r.src.toNat ++ leBytes 8 r.tick.toNat ++ leBytes 4 r.shortTime.toNat ++ leBytes 4 r.seq.toNat
  ++ leBytes 2 r.wsId.toNat ++ leBytes 2 r.wsGen.toNat ++ leBytes 2 (Rec.words r) ++ leBytes 2 r.alive.toNat

/-- The record as it is sent: header, payload, CRC-32C trailer, 4 bytes of padding (R295). -/
def Rec.bytes (r : Rec) : List Byte :=
  let body := Rec.header r ++ r.payload
  body ++ leBytes 4 (crc32c body) ++ leBytes 4 0

/-- The record a header and its payload bytes spell. -/
def Rec.ofBytes (l : List Byte) : Rec :=
  let b2 := leAt l 2 1
  { typ := BitVec.ofNat 16 (leAt l 0 2), cls := BitVec.ofNat 4 (b2 / 16), colour := BitVec.ofNat 2 (b2 / 4),
    flags := BitVec.ofNat 8 (leAt l 3 1), src := BitVec.ofNat 32 (leAt l 4 4), tick := word (leAt l 8 8),
    shortTime := BitVec.ofNat 32 (leAt l 16 4), seq := BitVec.ofNat 32 (leAt l 20 4),
    wsId := BitVec.ofNat 12 (leAt l 24 2), wsGen := BitVec.ofNat 16 (leAt l 26 2),
    alive := BitVec.ofNat 16 (leAt l 30 2), payload := (l.drop 32).take (8 * leAt l 28 2) }

/-- Does the CRC-32C trailer of a whole record's bytes match (R295)? -/
def Rec.crcOk (l : List Byte) : Bool :=
  let n := 32 + 8 * leAt l 28 2
  decide (leAt l n 4 = crc32c (l.take n))

/-- Record flags (Table 1.2). -/
def flagPartial : Nat := 1
/-- COARSENED. -/
def flagCoarse : Nat := 2
/-- REPLAYED. -/
def flagReplay : Nat := 4
/-- ABSENT. -/
def flagAbsent : Nat := 16
/-- HOLDOVER. -/
def flagHold : Nat := 32

/-- The flags byte from its conditions (Table 1.2). -/
def mkFlags (part coarse absent hold : Bool) : Byte :=
  BitVec.ofNat 8 (part.toNat * flagPartial + coarse.toNat * flagCoarse + absent.toNat * flagAbsent
    + hold.toNat * flagHold)

/-- The reflected polynomial of CRC-64 (ECMA-182, R294). -/
def crc64Poly : Nat := 0xC96C5795D7870F42

/-- CRC-64 register update over bytes, before the final XOR (R294). -/
def crc64Run (c : Nat) (l : List Byte) : Nat := l.foldl (crcByte crc64Poly) c

/-- CRC-64 (R294). -/
def crc64 (l : List Byte) : Nat := crc64Run 0xFFFFFFFFFFFFFFFF l ^^^ 0xFFFFFFFFFFFFFFFF

/-- The prime 2⁶¹ − 1 (R296). -/
def m61p : Nat := 2 ^ 61 - 1

/-- `mix` of R296, modulo 2⁶⁴. -/
def m61mix (x0 : Nat) : Nat :=
  let x := x0 % 2 ^ 64
  let x := ((x ^^^ (x >>> 30)) * 0xBF58476D1CE4E5B9) % 2 ^ 64
  let x := ((x ^^^ (x >>> 27)) * 0x94D049BB133111EB) % 2 ^ 64
  x ^^^ (x >>> 31)

/-- `coef` of R296. -/
def m61coef (s i : Nat) : Nat :=
  let c := m61mix (s + (i + 1) * 0x9E3779B97F4A7C15) >>> 3
  if c = 0 ∨ c = m61p then 1 else c

/-- `elem` of R296. -/
def m61elem (x : Int) : Nat := if x < 0 then (x + m61p).toNat else x.toNat

/-- `digest` of R296: element `j` of the list has index `o + j`. -/
def m61digest (s : Nat) : Nat → List Int → Nat
  | _, [] => 0
  | o, x :: r => (m61coef s o * m61elem x + m61digest s (o + 1) r) % m61p

/-- `step_seed` of R296. -/
def m61stepSeed (k ws gen step : Nat) : Nat := m61mix (k ^^^ (ws * 2 ^ 48) ^^^ (gen * 2 ^ 32) ^^^ step) >>> 3

/-- The selection hash h of an audit query (R264). -/
def auditHash (seed n d s : Nat) : BitVec 32 :=
  let x := (seed + n * 0x9E3779B97F4A7C15) % 2 ^ 64
  BitVec.ofNat 32 (m61mix (x ^^^ (d * 2 ^ 16 + s)) >>> 32)

end Sys2Proof.Machine
end

