-- ==== Sys2Proof/Machine/Profile.lean ====
section
/-! DEFINITION. Replay profiles and the arithmetic they prescribe (R239, R240, R272 to R276; Tables 8.2, 9.4, 9.5): element
formats, chunked accumulation, special values. -/

namespace Sys2Proof.Machine

/-- A replay profile (Table 9.4). -/
structure Profile where
  id      : Nat
  fmtA    : Nat
  fmtB    : Nat
  block   : Nat
  intra   : Nat
  chunk   : Nat
  innerE  : Nat
  innerM  : Nat
  innerR  : Nat
  inter   : Nat
  outerE  : Nat
  outerM  : Nat
  outerR  : Nat
  outFmt  : Nat
  outRnd  : Nat
  ftz     : Nat
  ovf     : Nat
  outNan  : Nat
  deriving DecidableEq, Repr

/-- The profile that 64 bytes spell. -/
def Profile.ofBytes (l : List Byte) : Profile :=
  let b (i : Nat) : Nat := leAt l i 1
  { id := leAt l 0 4, fmtA := b 6, fmtB := b 7, block := b 8, intra := b 9, chunk := leAt l 10 2, innerE := b 12,
    innerM := b 13, innerR := b 14, inter := b 15, outerE := b 16, outerM := b 17, outerR := b 18, outFmt := b 19,
    outRnd := b 20, ftz := b 21, ovf := b 22, outNan := leAt l 24 4 }

/-- A pair of formats that R239 permits: both of codes 0 to 5, or both BF16, or both FP32. -/
def fmtPair (a b : Nat) : Bool := (decide (a ≤ 5) && decide (b ≤ 5)) || (decide (a = b) && decide (a ≤ 7))

/-- An accumulator format that Table 9.5 permits. -/
def accFmt (e m : Nat) : Bool :=
  (decide (e = 5) && decide (7 ≤ m) && decide (m ≤ 10)) || (decide (e = 8) && decide (7 ≤ m) && decide (m ≤ 23))
  || (decide (e = 11) && decide (m = 52))

/-- The rules of Table 9.5 after CRC and ID, in order: the code of the first that fails, or 0. -/
def Profile.grammar (p : Profile) (l : List Byte) : Nat :=
  let mx := p.fmtA ≤ 5 ∨ p.fmtB ≤ 5
  if fmtPair p.fmtA p.fmtB = false ∨ 2 < p.outFmt then 3
  else if (mx ∧ p.block ≠ 16 ∧ p.block ≠ 32) ∨ (¬mx ∧ p.block ≠ 0) then 4
  else if p.chunk < 16 ∨ 4096 < p.chunk ∨ 2 ^ Nat.log2 p.chunk ≠ p.chunk ∨ (p.block ≠ 0 ∧ p.chunk % p.block ≠ 0) then 5
  else if accFmt p.innerE p.innerM = false ∨ 2 < p.intra then 6
  else if accFmt p.outerE p.outerM = false ∨ p.outerE < p.innerE ∨ p.outerM < p.innerM ∨ 2 < p.inter then 7
  else if 2 < p.innerR ∨ 2 < p.outerR ∨ 2 < p.outRnd then 8
  else if leAt l 23 1 ≠ 0 ∨ leAt l 28 32 ≠ 0 ∨ 7 < p.ftz ∨ 3 < p.ovf then 9
  else 0

/-- The first rule of Table 9.5 that a profile image breaks, or 0; `held` says that another accepted entry has its ID. -/
def profileCode (l : List Byte) (held : Nat → Bool) : Nat :=
  let p := Profile.ofBytes l
  if leAt l 60 4 ≠ crc32c (l.take 60) then 1
  else if p.id = 0 ∨ p.id = 0xFFFFFFFF ∨ held p.id then 2
  else p.grammar l

/-- Is a network configuration well formed (R242, R276): 64 bytes that keep the grammar. -/
def cfgOk (l : List Byte) : Bool :=
  decide (l.length = 64) && decide (leAt l 60 4 = crc32c (l.take 60)) && decide ((Profile.ofBytes l).grammar l = 0)

/-! ### Element values -/

/-- The value of an element of a matrix format (Table 8.2; OCP MX v1.0, IEEE 754). -/
def elemVal (fmt b : Nat) : FVal :=
  let small (eb mb : Nat) (b : Nat) : FVal :=
    let f : FFmt := ⟨eb, mb⟩
    let e := fldN b mb eb
    let m := fldN b 0 mb
    let s := b.testBit (eb + mb)
    if e = 0 then .fin s m (1 - f.bias - mb) else .fin s (m + 2 ^ mb) ((e : Int) - f.bias - mb)
  match fmt with
  | 0 => small 2 1 b
  | 1 => small 2 3 b
  | 2 => small 3 2 b
  | 3 => if b % 128 = 127 then .nan else small 4 3 b
  | 4 => (⟨5, 2⟩ : FFmt).decode b
  | 5 => let i := sextN 8 b
         .fin (decide (i < 0)) i.natAbs (-6)
  | 6 => bf16.decode b
  | _ => fp32.decode b

/-- Is an element encoding subnormal? -/
def elemSub (fmt b : Nat) : Bool :=
  let sub (eb mb : Nat) : Bool := decide (fldN b mb eb = 0) && decide (fldN b 0 mb ≠ 0)
  match fmt with
  | 0 => sub 2 1
  | 1 => sub 2 3
  | 2 => sub 3 2
  | 3 => sub 4 3
  | 4 => sub 5 2
  | 5 => false
  | 6 => sub 8 7
  | _ => sub 8 23

/-- An element as an input of the multiplication: subnormals are zero under FTZ[0]. -/
def inputVal (p : Profile) (fmt b : Nat) : FVal :=
  if p.ftz.testBit 0 && elemSub fmt b then
    match elemVal fmt b with
    | .fin s _ e => .fin s 0 e
    | v => v
  else elemVal fmt b

/-- An E8M0 scale: 2^(s − 127), NaN for 0xFF. -/
def scaleVal (s : Nat) : FVal := if s = 255 then .nan else .fin false 1 ((s : Int) - 127)

/-! ### Accumulation (R274, R275) -/

/-- The rounding mode of a code. -/
def rmode (c : Nat) : RMode := if c = 0 then .rne else if c = 1 then .rtz else .rna

/-- Rounds to a format with the profile's treatment of overflow (saturating or ±Inf) and of subnormal results. -/
def roundWith (f : FFmt) (mode : RMode) (sat ftz : Bool) (v : FVal) : FVal :=
  match v with
  | .fin s m e =>
    let r := f.roundFin mode s m e
    if r.ovf then (if sat then f.decode (f.infBits s - 1) else .inf s)
    else if ftz && decide (fldN r.bits f.mb f.eb = 0) then .fin s 0 0
    else f.decode r.bits
  | v => v

/-- Rounds to the inner accumulator. -/
def Profile.inner (p : Profile) (v : FVal) : FVal :=
  roundWith ⟨p.innerE, p.innerM⟩ (rmode p.innerR) (p.ovf.testBit 1) (p.ftz.testBit 1) v

/-- Rounds to the outer accumulator. -/
def Profile.outer (p : Profile) (v : FVal) : FVal :=
  roundWith ⟨p.outerE, p.outerM⟩ (rmode p.outerR) (p.ovf.testBit 1) (p.ftz.testBit 1) v

/-- The exact sum of a list; +0 for an empty one. -/
def sumExact : List FVal → FVal
  | [] => .fin false 0 0
  | a :: r => r.foldl FVal.add a

/-- A sequential sum with a rounding after the first term and after each addition. -/
def sumSeq (rnd : FVal → FVal) : List FVal → FVal
  | [] => .fin false 0 0
  | a :: r => r.foldl (fun acc d => rnd (acc.add d)) (rnd a)

/-- One stage of a pairwise tree. -/
def pairStage (rnd : FVal → FVal) : List FVal → List FVal
  | a :: b :: r => rnd (a.add b) :: pairStage rnd r
  | l => l

/-- A pairwise tree with every addition rounded; at most 2^k terms. -/
def sumPair (rnd : FVal → FVal) : Nat → List FVal → FVal
  | 0, l => l.headD (.fin false 0 0)
  | k + 1, l => sumPair rnd k (pairStage rnd l)

/-- Cuts a list into pieces of `k`, at most `fuel`. -/
def cut {α : Type} (k : Nat) : Nat → List α → List (List α)
  | 0, _ => []
  | _, [] => []
  | f + 1, l => l.take k :: cut k f (l.drop k)

/-- The products' blocks `d[q]` of one output element (R274): element values, and scales for MX formats. -/
def blockSums (bs : Nat) (a b : List FVal) (sa sb : List FVal) (mx : Bool) : List FVal :=
  let prods := (a.zip b).map fun p => p.1.mul p.2
  let ds := (cut bs prods.length prods).map sumExact
  if mx then (ds.zip (sa.zip sb)).map fun p => p.1.mul (p.2.1.mul p.2.2) else ds

/-- The accumulation of the block sums of one output element under a profile (R274). -/
def Profile.acc (p : Profile) (bs : Nat) (ds : List FVal) : FVal :=
  let c := max 1 (p.chunk / bs)
  let s := (cut c ds.length ds).map fun l =>
    if p.intra = 0 then p.inner (sumExact l)
    else if p.intra = 1 then sumSeq p.inner l
    else sumPair p.inner 13 (l.map p.inner)
  if p.inter = 0 then sumSeq p.outer s
  else if p.inter = 1 then sumPair p.outer 17 (s.map p.outer)
  else
    let ev := (s.zipIdx.filter fun q => q.2 % 2 = 0).map (·.1)
    let od := (s.zipIdx.filter fun q => q.2 % 2 = 1).map (·.1)
    let e := sumSeq p.outer ev
    if s.length ≤ 1 then p.outer e else p.outer (e.add (sumSeq p.outer od))

/-- A row of `k` packed elements. -/
def rowVals (p : Profile) (fmt k : Nat) (row : List Byte) : List FVal :=
  let n := leNat row
  let w := if fmt = 0 then 4 else if fmt ≤ 2 then 6 else if fmt ≤ 5 then 8 else if fmt = 6 then 16 else 32
  (List.range k).map fun i => inputVal p fmt (fldN n (i * w) w)

end Sys2Proof.Machine
end

