-- ==== Sys2Proof/Config.lean ====
section
/-! DEFINITION. What a part fixes and the spec does not give a number for (fuses, straps), and the free values:
results that the spec leaves open. Each is opaque, so that no proof can see a value. -/

namespace Sys2Proof

/-- `ID_SERIAL` (R187): the part's serial number, from fuses. -/
opaque Config.idSerial : Word
/-- `ID_STRAP` (R187): the strap pins sampled at reset. -/
opaque Config.idStrap : Word
/-- `ID_ECID` (R187): the part's fuse identity. -/
opaque Config.idEcid : Word

/-- The reading of an enabled voltage monitor whose sense input is unconnected (R129), the k-th such value. -/
opaque Config.freeVmon : Nat → BitVec 16

/-- The addend that the Time Keeper's proportional-integral servo asks for (R52): from TK_SERVO_CFG, the offset just
measured in 2⁻¹⁶ ns and the number of the measurement. The spec gives the filter's kind and its gain registers only. -/
opaque Config.servoAddend : Word → Int → Nat → Nat
/-- The slew, in 2⁻³² ns, that the servo asks for (R52), from the same. -/
opaque Config.servoSlew : Word → Int → Nat → Int

/-- The severity of an event code whose table states none (R463). -/
opaque Config.eventSeverity : Nat → BitVec 2

/-- The SHA-384 of the public key that a fuse key slot (0 to 3) accepts (R457). -/
opaque Config.keyHash : Nat → List Byte
/-- Is a fuse key slot revoked (R457)? -/
opaque Config.keyRevoked : Nat → Bool
/-- The endpoint UUID (R473): derived from ID_SERIAL. -/
opaque Config.uuid : Word → List Byte
/-- The versions, dates and supported command sets that the endpoint states (R473), by message type, command and selector: reply data
that the DMTF standards leave to the endpoint. -/
opaque Config.mctpData : Nat → Nat → Nat → List Byte
/-- The platform descriptor record with a handle, if there is one, and the handle that follows it (R473). -/
opaque Config.pdr : Nat → Option (List Byte × Nat)

/-! ### Free values of the cores and engines -/

/-- Byte `i` of the `k`-th stretch of memory with unspecified contents (R227, R251). -/
opaque Config.freeByte : Nat → Nat → Byte
/-- Word `i` of the `k`-th unspecified register or tile (R227, R241, R243, R246). -/
opaque Config.freeWord : Nat → Nat → Word
/-- How an approximation (opcode, operand) differs from the rounded exact value, in ULP, before its bound (R223). -/
opaque Config.approx : Nat → Nat → Int
/-- The INEXACT and UNDERFLOW flags that an approximation raises. -/
opaque Config.approxFlags : Nat → Nat → Nat
/-- The integer element that an operation (opcode, width, operands) makes where the exact result does not fit. -/
opaque Config.vecInt : Nat → Nat → Nat → Nat → Nat
/-- VCMP's predicate bit for a lane whose elements differ in the relation: relation and lane contents. -/
opaque Config.vcmpMixed : Nat → Nat → Nat → Bool
/-- What VRED.MIN and VRED.MAX write when no lane executes: opcode and element type. -/
opaque Config.vredNone : Nat → Nat → Word
/-- Is a result counted tiny that rounds up to the least normal number? -/
opaque Config.tinyEdge : Bool
/-- Does an ordered VCMP relation of a quiet NaN raise INVALID? -/
opaque Config.quietCmp : Bool
/-- Does ∞ × 0 + NaN raise INVALID? -/
opaque Config.fmaInvalid : Bool
/-- The tile element that an MMA makes from a non-zero initial value: configuration, initial value, sum from zero (R238). -/
opaque Config.accInit : List Byte → Word → Word → Word

/-- The status word of a descriptor that a shared engine with EN = 0 turns away: the engine (R245, R377). -/
opaque Config.xopOff : Nat → Nat
/-- The operation code that a write of RM_POST starts for the descriptor at an address (R430): the descriptor has no code. -/
opaque Config.postCode : Nat → Nat
/-- Which row (modulo their number) gives way when the feature cache is full: the k-th such (R355). -/
opaque Config.cacheVictim : Nat → Nat

end Sys2Proof
end

