-- ==== Sys2Proof/Machine/Flags.lean ====
section
/-! DEFINITION. Floating-point element operations with the FPSTAT flags they raise (Table 7.6, R201, R220 to R223). -/

namespace Sys2Proof.Machine

/-- FPSTAT bits (Table 7.6). -/
def fINVALID : Nat := 1
/-- OVERFLOW. -/
def fOVERFLOW : Nat := 2
/-- UNDERFLOW. -/
def fUNDERFLOW : Nat := 4
/-- INEXACT. -/
def fINEXACT : Nat := 8
/-- NAN_MADE. -/
def fNANMADE : Nat := 16

/-- An element result and the flags it raises. -/
structure FRes where
  bits  : Nat
  flags : Nat
  deriving DecidableEq, Repr

/-- The flags of a rounding. -/
def Rounded.flags (r : Rounded) : Nat :=
  (if r.inex then fINEXACT else 0) + (if r.ovf then fOVERFLOW else 0)
    + (if r.udf || (r.edge && Config.tinyEdge) then fUNDERFLOW else 0)

/-- A signalling NaN encoding: a NaN whose leading fraction bit is 0. -/
def FFmt.isSNan (f : FFmt) (b : Nat) : Bool := (f.decode b).isNan && !(b.testBit (f.mb - 1))

/-- Rounds an exact result of operands to the format, with the flags: a NaN made from operands that are not NaN, and a
signalling operand, are invalid. -/
def FFmt.result (f : FFmt) (args : List Nat) (r : FVal) : FRes :=
  let nanIn := args.any fun b => (f.decode b).isNan
  let inv := if (r.isNan && !nanIn) || args.any f.isSNan then fINVALID else 0
  let made := if r.isNan && !nanIn then fNANMADE else 0
  if r.isNan then ⟨f.qnan, inv + made⟩
  else
    let x := f.round .rne r
    ⟨x.bits, inv + x.flags⟩

/-- Element sum. -/
def FFmt.addE (f : FFmt) (a b : Nat) : FRes := f.result [a, b] ((f.decode a).add (f.decode b))
/-- Element difference. -/
def FFmt.subE (f : FFmt) (a b : Nat) : FRes := f.result [a, b] ((f.decode a).add (f.decode b).neg)
/-- Element product. -/
def FFmt.mulE (f : FFmt) (a b : Nat) : FRes := f.result [a, b] ((f.decode a).mul (f.decode b))

/-- a × b + c with one rounding. -/
def FFmt.fmaE (f : FFmt) (a b c : Nat) : FRes :=
  let x := f.decode a
  let y := f.decode b
  let z := f.decode c
  let zeroInf := (x.isInf && y.isZero) || (x.isZero && y.isInf)
  let r := f.result [a, b, c] ((x.mul y).add z)
  if zeroInf && z.isNan && Config.fmaInvalid then ⟨r.bits, r.flags ||| fINVALID⟩ else r

/-- minimumNumber (`less` true) or maximumNumber of IEEE 754-2019, −0 below +0 (R220). -/
def FFmt.minMaxE (f : FFmt) (less : Bool) (a b : Nat) : FRes :=
  let inv := if f.isSNan a || f.isSNan b then fINVALID else 0
  let na := (f.decode a).isNan
  let nb := (f.decode b).isNan
  if na && nb then ⟨f.qnan, inv⟩
  else if na then ⟨b, inv⟩
  else if nb then ⟨a, inv⟩
  else
    let ka := ordKey f.width a
    let kb := ordKey f.width b
    ⟨if less = decide (ka < kb) then a else b, inv⟩

/-- Converts an element to another floating-point format (R222). -/
def FFmt.convertE (f t : FFmt) (a : Nat) : FRes :=
  let v := f.decode a
  let inv := if f.isSNan a then fINVALID else 0
  if v.isNan then ⟨t.qnan, inv⟩
  else
    let x := t.round .rne v
    ⟨x.bits, x.flags⟩

/-- A value rounded to the nearest integer, ties to even, and whether anything was lost. -/
def FVal.rint : FVal → Int × Bool
  | .fin s m e =>
    let r : Nat × Bool := if 0 ≤ e then (m * 2 ^ e.toNat, false) else roundShift .rne m (-e).toNat
    (if s then -(r.1 : Int) else r.1, r.2)
  | _ => (0, false)

/-- Converts an element to a signed integer of `w` bits: nearest even, saturating, NaN to 0 (R222). -/
def FFmt.toIntE (f : FFmt) (w a : Nat) : FRes :=
  let lo : Int := -(2 ^ (w - 1) : Nat)
  let hi : Int := (2 ^ (w - 1) : Nat) - 1
  match f.decode a with
  | .nan => ⟨0, fINVALID⟩
  | .inf s => ⟨wrapI w (if s then lo else hi), fINVALID⟩
  | v =>
    let r := v.rint
    if r.1 < lo ∨ hi < r.1 then ⟨wrapI w (clampI lo hi r.1), fINVALID⟩
    else ⟨wrapI w r.1, if r.2 then fINEXACT else 0⟩

/-- Converts a signed integer to a format (R222). -/
def FFmt.ofIntE (f : FFmt) (i : Int) : FRes :=
  let x := f.round .rne (FVal.ofInt i)
  ⟨x.bits, x.flags⟩

/-! ### Approximations (R223)

The exact value is bracketed by fixed-point arithmetic with 96 fraction bits; the result is the rounded value moved by a
free number of ULP, as far as the 2-ULP bound allows. -/

/-- ⌊√n⌋ by binary digits, for n below 4^k. -/
def isqrt : Nat → Nat → Nat
  | 0, _ => 0
  | k + 1, n =>
    let r := 2 * isqrt k (n / 4)
    if (r + 1) * (r + 1) ≤ n then r + 1 else r

/-- 2^(i/2^k)-free repeated square roots: the fixed-point numbers 2^(1/2), 2^(1/4), … with 96 fraction bits. -/
def rootsOfTwo : Nat → Nat → List Nat
  | 0, _ => []
  | k + 1, x =>
    let r := isqrt 98 (x * 2 ^ 96)
    r :: rootsOfTwo k r

/-- 2^f for f of 64 fraction bits, with 96 fraction bits. -/
def exp2Frac (f : Nat) : Nat :=
  ((rootsOfTwo 64 (2 ^ 97)).zipIdx.filter fun p => f.testBit (63 - p.2)).foldl (fun acc p => acc * p.1 / 2 ^ 96) (2 ^ 96)

/-- The binary digits of log₂ y by repeated squaring, y in [1, 2) with 96 fraction bits. -/
def log2Digits : Nat → Nat → Nat → Nat
  | 0, _, acc => acc
  | k + 1, y, acc =>
    let q := y * y / 2 ^ 96
    if 2 ^ 97 ≤ q then log2Digits k (q / 2) (2 * acc + 1) else log2Digits k q (2 * acc)

/-- Number of FP32 steps from encoding 0, signed: consecutive for neighbouring values. -/
def ord32 (b : Nat) : Int := if b.testBit 31 then -((b % 2 ^ 31 : Nat) : Int) else (b % 2 ^ 31 : Nat)

/-- The FP32 encoding of a step number. -/
def unord32 (neg : Bool) (i : Int) : Nat :=
  if i < 0 then 2 ^ 31 + min i.natAbs 0x7F800000 else if i = 0 ∧ neg then 2 ^ 31 else min i.toNat 0x7F800000

/-- The distance of an FP32 encoding from a value exceeds 2 ULP of it. -/
def beyond2Ulp (b : Nat) (v : FVal) : Bool :=
  match fp32.decode b, v with
  | .fin s m e, .fin t n g =>
    let u : Int := max (FVal.expo v - 23) (-149)
    let x := min (min e g) u
    let d := alignTo s m e x - alignTo t n g x
    decide ((2 * 2 ^ (u - x).toNat : Nat) < d.natAbs)
  | _, _ => false

/-- An approximation of a non-zero value within 2 ULP, with the free number of steps taken as far as the bound allows. -/
def approxOf (op a : Nat) (v : FVal) : FRes :=
  let r := fp32.round .rne v
  let neg := r.bits.testBit 31
  let want := clampI (-2) 2 (Config.approx op a)
  let pick := [want, want.tdiv 2, 0].find? fun k => !(beyond2Ulp (unord32 neg (ord32 r.bits + k)) v)
  let b := unord32 neg (ord32 r.bits + pick.getD 0)
  ⟨b, (if r.ovf then fOVERFLOW + fINEXACT else Config.approxFlags op a &&& (fINEXACT + fUNDERFLOW))⟩

/-- 2^x (VEXP2). -/
def vexp2E (a : Nat) : FRes :=
  match fp32.decode a with
  | .nan => ⟨fp32.qnan, if fp32.isSNan a then fINVALID else 0⟩
  | .inf s => ⟨if s then 0 else 0x7F800000, 0⟩
  | .fin s m e =>
    -- x as a signed number with 64 fraction bits, rounded down
    let mag : Nat := if 0 ≤ e + 64 then m * 2 ^ (e + 64).toNat else m / 2 ^ (-(e + 64)).toNat
    if 2 ^ 73 < mag then
      (if s then ⟨0, Config.approxFlags 0x98 a &&& (fINEXACT + fUNDERFLOW)⟩ else ⟨0x7F800000, fOVERFLOW + fINEXACT⟩)
    else
      let x : Int := if s then -(mag : Int) else mag
      let n : Int := x / (2 ^ 64 : Nat)
      let f : Nat := (x % (2 ^ 64 : Nat)).toNat
      if n < -149 then ⟨0, Config.approxFlags 0x98 a &&& (fINEXACT + fUNDERFLOW)⟩
      else approxOf 0x98 a (.fin false (exp2Frac f) (n - 96))

/-- log₂ x (VLOG2). -/
def vlog2E (a : Nat) : FRes :=
  match fp32.decode a with
  | .nan => ⟨fp32.qnan, if fp32.isSNan a then fINVALID else 0⟩
  | .inf true => ⟨fp32.qnan, fINVALID + fNANMADE⟩
  | .inf false => ⟨0x7F800000, 0⟩
  | .fin s m e =>
    if m = 0 then ⟨0xFF800000, 0⟩
    else if s then ⟨fp32.qnan, fINVALID + fNANMADE⟩
    else
      let t := Nat.log2 m
      let d := log2Digits 60 (m * 2 ^ 96 / 2 ^ t) 0
      let l : Int := (e + t) * (2 ^ 60 : Nat) + d
      if l = 0 then ⟨0, 0⟩ else approxOf 0x99 a (ofDyadic l (-60) false)

/-- 1 / x (VRCP). -/
def vrcpE (a : Nat) : FRes :=
  match fp32.decode a with
  | .nan => ⟨fp32.qnan, if fp32.isSNan a then fINVALID else 0⟩
  | .inf s => ⟨fp32.signBit s, 0⟩
  | .fin s m e =>
    if m = 0 then ⟨fp32.infBits s, 0⟩
    else approxOf 0x9A a (.fin s (2 ^ 120 / m) (-120 - e))

/-- 1 / √x (VRSQRT). -/
def vrsqrtE (a : Nat) : FRes :=
  match fp32.decode a with
  | .nan => ⟨fp32.qnan, if fp32.isSNan a then fINVALID else 0⟩
  | .inf true => ⟨fp32.qnan, fINVALID + fNANMADE⟩
  | .inf false => ⟨0, 0⟩
  | .fin s m e =>
    if m = 0 then ⟨fp32.infBits s, 0⟩
    else if s then ⟨fp32.qnan, fINVALID + fNANMADE⟩
    else
      -- m · 2^e with an even exponent
      let m2 := if e % 2 = 0 then m else 2 * m
      let e2 := if e % 2 = 0 then e else e - 1
      approxOf 0x9B a (.fin false (isqrt 110 (2 ^ 200 / m2)) (-100 - e2 / 2))

end Sys2Proof.Machine
end

