-- ==== Sys2Proof/Machine/BumasState.lean ====
section
/-! DEFINITION. The state of the Bumas BT-4 (chapters 3, 4 and 5): plain data, every piece the spec names. -/

namespace Sys2Proof.Machine

/-- A latched marker (R84): ID, argument and local time of the capture edge, in whole ns. -/
structure Mark where
  id   : BitVec 16
  arg  : BitVec 32
  time : Nat
  deriving DecidableEq, Repr

/-- The marker latch of one interval (R84, R107). -/
structure MarkLatch where
  marks   : List Mark := []
  dropped : Nat := 0
  zeroId  : Nat := 0
  deriving DecidableEq, Repr

/-- A kept PC sample (R86): PC, host stall code and whether it replaced another. -/
structure PcSample where
  pc    : BitVec 48
  stall : BitVec 6
  dup   : Bool
  deriving DecidableEq, Repr

/-- The PC sampling modes (R124). -/
inductive PcMode where
  | full | stride | hist
  deriving DecidableEq, Repr

/-- The PC sampler (R86, R124). -/
structure PcSampler where
  /-- the collection window is open -/
  isOpen : Bool := false
  mode   : PcMode := .full
  stride : Nat := 1
  samples : SMap (Option PcSample) := []
  /-- the first PCSAMP of this run has acted -/
  acted  : Bool := false
  taken  : Nat := 0
  stray  : Nat := 0
  dup    : Nat := 0
  deriving DecidableEq, Repr

/-- What a snoop channel accumulates over an interval (R126, R127). CRC registers are held before the final XOR. -/
structure SnoopAcc where
  msgs     : Nat := 0
  bytes    : Nat := 0
  crcReg   : Nat := 0xFFFFFFFFFFFFFFFF
  lastCrc  : Word := 0
  m61      : Nat := 0
  /-- every message completed in the interval had an integer format -/
  m61Ok    : Bool := true
  elems    : Nat := 0
  sum      : BitVec 64 := 0
  sumSq    : BitVec 64 := 0
  /-- FP64 minimum, +Inf with no element counted -/
  min      : BitVec 64 := 0x7FF0000000000000
  /-- FP64 maximum, −Inf with no element counted -/
  max      : BitVec 64 := 0xFFF0000000000000
  nans     : Nat := 0
  infs     : Nat := 0
  zeros    : Nat := 0
  split    : Nat := 0
  hist     : SMap Nat := []
  lastFmt  : Nat := 0xFF
  fmtBad   : Nat := 0
  deriving DecidableEq, Repr

/-- A message in progress on a snoop channel: its beats so far count in the interval of its last beat (R107), so what
they add is held here until then. -/
structure SnoopMsg where
  fmt    : BitVec 4
  seed   : Nat
  stats  : Bool
  m61    : Bool
  beats  : List (BitVec 512 × BitVec 64) := []
  deriving DecidableEq, Repr

/-- A snoop channel (R87, R88, R126). -/
structure SnoopCh where
  /-- the channel is inside a message it captures -/
  msg     : Option SnoopMsg := none
  /-- inside a message that began while the channel was not enabled -/
  skip    : Bool := false
  cur     : SnoopAcc := {}
  prev    : SnoopAcc := {}
  /-- DIGSET.S value that waits for the next first beat -/
  seedSet : Option Nat := none
  /-- DIGSET.S value in force -/
  seedCur : Option Nat := none
  /-- DIGSET.E value that waits for the next first beat -/
  enSet   : Option Bool := none
  /-- DIGSET.E value in force -/
  enCur   : Option Bool := none
  deriving DecidableEq, Repr

/-- The states of an audit slot (R90). -/
inductive SlotState where
  | free | granted | sealed | clearing
  deriving DecidableEq, Repr

/-- An audit slot: what its grant fixed (R89, R270). -/
structure AuditSlot where
  st        : SlotState := .free
  grantTick : Word := 0
  site      : BitVec 16 := 0
  hash      : BitVec 32 := 0
  thr       : BitVec 32 := 0
  deriving DecidableEq, Repr

/-- A captured audit query that waits for its answer (R89). -/
structure AuditPend where
  site     : BitVec 16
  tick     : Word
  hash     : BitVec 32
  thr      : BitVec 32
  /-- the hash is below the threshold (R264) -/
  sel      : Bool
  /-- EN and AW_EN, as judged at the capture edge -/
  aw       : Bool
  /-- the link is up, as judged at the capture edge -/
  lk       : Bool
  deriving DecidableEq, Repr

/-- Audit-query counts of an interval (Table 4.4 items 3 to 6). -/
structure AuditCounts where
  queries  : Nat := 0
  selected : Nat := 0
  granted  : Nat := 0
  noslot   : Nat := 0
  deriving DecidableEq, Repr

/-- The audit sites and window (R89 to R92). -/
structure BmAudit where
  slots    : SMap AuditSlot := []
  window   : SMap Byte := []
  pend     : List AuditPend := []
  /-- sites granted in the current tick, with the tick -/
  sites    : List (Word × BitVec 16) := []
  cur      : AuditCounts := {}
  prev     : AuditCounts := {}
  noslot   : Nat := 0
  expired  : Nat := 0
  stray    : Nat := 0
  unalign  : Nat := 0
  /-- SLOT_SIZE in force (R98) -/
  sizeCode : Nat := 0
  /-- `bm_audit_take`, `bm_audit_slot` -/
  take     : Bool := false
  slotOut  : BitVec 5 := 0
  deriving DecidableEq, Repr

/-- The two groups of conversions (R128). -/
inductive SensGroup where
  | therm | volt
  deriving DecidableEq, Repr

/-- One group's rounds: the running and the waiting round's inputs, rounds completed since S_n, and readings. -/
structure Conv where
  running : Option Nat := none
  waiting : Option Nat := none
  rounds  : Nat := 0
  reads   : SMap (BitVec 16) := []
  deriving DecidableEq, Repr

/-- A droop input (R130): below its threshold now, and events and deepest level of the interval and the one before. -/
structure Droop where
  below    : Bool := false
  events   : Nat := 0
  deepest  : BitVec 16 := 0xFFFF
  eventsP  : Nat := 0
  deepestP : BitVec 16 := 0xFFFF
  deriving DecidableEq, Repr

/-- An entry of the open table of THRESH.MI (R122). -/
structure OpenEnt where
  d        : Nat
  arg      : BitVec 32
  time     : Nat
  reported : Bool
  deriving DecidableEq, Repr

/-- What a waiting WAITT waits for (R114). -/
inductive ProbeWait where
  | time (imm : BitVec 12)
  | adc
  | pcs
  deriving DecidableEq, Repr

/-- VAL_STATE of BM_PROBE_STAT (Table 4.17). -/
inductive ValState where
  | none | running | passed | failed
  deriving DecidableEq, Repr

/-- The probe sequencer: the loaded program's status and the run (R108 to R123). -/
structure BmProbe where
  running   : Bool := false
  pc        : Nat := 0
  s         : SMap Word := []
  hists     : SMap Nat := []
  alert     : BitVec 32 := 0
  emitUsed  : Nat := 0
  /-- payload of the open COUNTER_BLOCK -/
  block     : Option (List Byte) := none
  closed    : Nat := 0
  instrs    : Nat := 0
  cycles    : Nat := 0
  emitFull  : Bool := false
  takeover  : Bool := false
  swapRej   : Bool := false
  wait      : Option ProbeWait := none
  /-- a THRESH.MI has scanned in this run -/
  scanned   : Bool := false
  opens     : List OpenEnt := []
  dataEpoch : BitVec 32 := 0
  unmatched : Nat := 0
  tabOver   : Nat := 0
  progBuf   : Bool := false
  progValid : Bool := false
  len       : Nat := 0
  tag       : BitVec 32 := 0
  /-- a SWAP write awaits its judgement -/
  swap      : Bool := false
  val       : ValState := .none
  valPc     : Nat := 0
  valLen    : Nat := 0
  valTag    : BitVec 32 := 0
  deriving DecidableEq, Repr

/-- TIME_STATE of BM_STATUS (Table 3.11). -/
inductive TimeState where
  | none | acquiring | locked | holdover
  deriving DecidableEq, Repr

/-- Values a TICK block makes the Bumas adopt at its next boundary (R159). -/
structure TickAdopt where
  n      : Word
  period : Nat
  epoch  : Nat
  deriving DecidableEq, Repr

/-- The Bumas local clock, servo and tick generator (R155 to R159). Instants are in units of 2⁻³² ns, the epoch in ns. -/
structure BmTime where
  clk       : Nat := 0
  /-- phase of pb_clk against tk_clk, in 32nds of a pb_clk cycle -/
  phase     : Nat := 0
  /-- slew correction added on each pb_clk cycle -/
  corr      : Int := 0
  offsets   : List Int := []
  inBand    : Nat := 0
  state     : TimeState := .none
  /-- the exchange that awaits t4: ID, t1, t2, t3 in 2⁻¹⁶ ns -/
  exch      : Option (BitVec 16 × Int × Int × Int) := none
  /-- a TIME_ECHO waits to be sent: ID, t1, t2 -/
  echo      : Option (BitVec 16 × Int × Int) := none
  ticking   : Bool := false
  tickNo    : Word := 0
  period    : Nat := 2
  epoch     : Nat := 0
  pchg      : Word := 0
  adopt     : Option TickAdopt := none
  /-- instant of the current boundary and of the snapshot edge -/
  bound     : Nat := 0
  sEdge     : Nat := 0
  /-- the first tick taken after reset (R150) -/
  firstTick : Option Word := none
  /-- the current tick's records carry PARTIAL (R81, R159) -/
  partialT  : Bool := false
  clkGap    : Bool := false
  /-- the current tick began in holdover -/
  holdTick  : Bool := false
  /-- the Glexon reports HOLDOVER -/
  glexHold  : Bool := false
  /-- the link was lost and the clock has not locked since (R157) -/
  lossSince : Bool := false
  deriving DecidableEq, Repr

/-- The link training states (Table 5.7). -/
inductive TState where
  | disabled | detect | train | fecAlign | deskew | init | up
  deriving DecidableEq, Repr

/-- Counts that a LOSS record carries (Table 4.13): records and words per class, and the ticks covered. -/
structure LossInfo where
  recs  : SMap Nat := []
  words : SMap Nat := []
  first : Word
  ticks : Nat
  deriving DecidableEq, Repr

/-- A record in the Tap transmit queue: blocks already sent, its audit slot, its seal tick, and LOSS content. -/
structure TxRec where
  r    : Rec
  sent : Nat := 0
  slot : Option Nat := none
  loss : Option LossInfo := none
  deriving DecidableEq, Repr

/-- A meter of RFC 2697 (R147): tokens in 2⁻³² byte units by time, and when they were last brought up to date. -/
structure Meter where
  tc   : Nat := 0
  te   : Nat := 0
  last : Nat := 0
  deriving DecidableEq, Repr

/-- A token-bucket shaper (R148). -/
structure Bucket where
  tok  : Nat := 0
  last : Nat := 0
  deriving DecidableEq, Repr

/-- An answer to a command (R152). -/
structure TapAck where
  seq    : BitVec 32
  status : Byte
  data   : Word
  deriving DecidableEq, Repr

/-- What a command makes happen after its CMD_ACK has left (R153). -/
inductive AfterAck where
  | reset
  | retrain (two : Bool)
  deriving DecidableEq, Repr

/-- One end of the link's training (R160, R161): state, width (0 down, 1, 2), lanes in lock, and the lanes that have
found signal and finished training. -/
structure Train where
  st      : TState := .disabled
  width   : Nat := 0
  lane0   : Bool := false
  lane1   : Bool := false
  sig0    : Bool := false
  sig1    : Bool := false
  trn0    : Bool := false
  trn1    : Bool := false
  /-- the return to UP follows a degrade (R161) -/
  degr    : Bool := false
  retrains : Nat := 0
  /-- width asked for by LINK_RETRAIN (0: as the lanes allow) -/
  want    : Nat := 0
  deriving DecidableEq, Repr

/-- The Tap link endpoint of the macro (chapter 5). -/
structure BmTap where
  tr       : Train := {}
  q        : List TxRec := []
  sent     : SMap (BitVec 32) := []
  limit    : SMap (BitVec 32) := []
  meters   : SMap Meter := []
  shapers  : SMap Bucket := []
  lossRecs  : SMap Nat := []
  lossWords : SMap Nat := []
  /-- the first tick not yet covered by a LOSS record sent or in progress (R150); none: the first tick taken -/
  lossFirst : Option Word := none
  seq      : BitVec 32 := 0
  alive    : BitVec 16 := 0
  next     : BitVec 32 := 0
  hist     : List TapAck := []
  acks     : List TapAck := []
  after    : Option (BitVec 32 × AfterAck) := none
  /-- the 64-byte block driven in the present block slot -/
  block    : List Byte := []
  deriving DecidableEq, Repr

/-- RESET_CAUSE of BM_STATUS (Table 3.11). -/
inductive RstCause where
  | pwr | rst | tap
  deriving DecidableEq, Repr

/-- The Bumas BT-4. -/
structure Bumas where
  /-- pins `bm_pwr_ok` and `bm_rst_n` -/
  pwrOk   : Bool := true
  rstN    : Bool := false
  cause   : RstCause := .pwr
  /-- registers in force, by window offset; an unlisted one holds its reset value -/
  regs    : SMap Word := []
  /-- RWT values written since the last boundary -/
  rwt     : SMap (Option Word) := []
  cnt     : SMap Word := []
  snapN   : SMap Word := []
  snapP   : SMap Word := []
  energy  : Word := 0
  energyN : Word := 0
  energyP : Word := 0
  incs    : Nat := 0
  incsP   : Nat := 0
  markC   : MarkLatch := {}
  markP   : MarkLatch := {}
  pcs     : PcSampler := {}
  snoop   : SMap SnoopCh := []
  audit   : BmAudit := {}
  therm   : Conv := {}
  volt    : Conv := {}
  droop   : SMap Droop := []
  probe   : BmProbe := {}
  time    : BmTime := {}
  tap     : BmTap := {}
  /-- outputs of the host register port: `bm_csr_err`, `bm_csr_rdata`; and `bm_pcs_req` -/
  csrErr  : Bool := false
  csrData : Word := 0
  pcsReq  : Bool := false
  /-- threshold in force during the interval closed by the last boundary (Table 4.4 item 2) -/
  thrPrev : BitVec 32 := 0
  /-- bm_clk frequency in kHz (R80) -/
  clkKhz  : Nat := 0
  /-- the model's own field: how many free values have been drawn -/
  free    : Nat := 0
  deriving DecidableEq, Repr

/-- The Bumas with every register, counter, buffer and pin at its reset value (R102), reset held. -/
def Bumas.reset : Bumas := {}

end Sys2Proof.Machine
end

