-- ==== Sys2Proof/Machine/RegTable.lean ====
section
/-! DEFINITION. The register table: every register row the spec gives (chapters 01 to 19, their register tables),
as families of equal registers, and the address of each register by its spec name. -/

namespace Sys2Proof.Machine

/-- Who may write a Bumas register (R96); Glexon registers are `none`. -/
inductive RegOwner where
  | none | glexon | host
  deriving DecidableEq, Repr

/-- The access codes of R14. `row1c` is a read-only register with some W1C bits. -/
inductive RegAcc where
  | ro | rw | wo | w1c | w1s | rwt | row1c
  deriving DecidableEq, Repr

/-- A family of registers: `n1` by `n2` registers from `base` at strides `st1` and `st2`, with their access code (R14),
owner (R96), reset value, and the masks of plainly writable, write-1-to-clear and write-1-to-set bits. -/
structure RegFam where
  base  : Nat
  n1    : Nat
  st1   : Nat
  n2    : Nat
  st2   : Nat
  acc   : RegAcc
  own   : RegOwner
  reset : Word
  wmask : Word
  cmask : Word
  smask : Word
  deriving DecidableEq, Repr

/-- Part 0 of `bmRegFams`. -/
def bmRegFams0 : List RegFam := [
  ⟨0x0, 1, 0x8, 1, 0x8, .ro, .none, 0xB74000100000000, 0x0, 0x0, 0x0⟩,  -- BM_ID
  ⟨0x8, 1, 0x8, 1, 0x8, .rw, .glexon, 0x0, 0x800000000003FFFF, 0x0, 0x0⟩,  -- BM_DIE_INDEX
  ⟨0x10, 1, 0x8, 1, 0x8, .rwt, .glexon, 0x0, 0x8F, 0x0, 0x0⟩,  -- BM_CTRL
  ⟨0x18, 1, 0x8, 1, 0x8, .ro, .none, 0x0, 0x0, 0x0, 0x0⟩,  -- BM_STATUS
  ⟨0x20, 1, 0x8, 1, 0x8, .rwt, .glexon, 0x0, 0xFFFF0FFF, 0x0, 0x0⟩,  -- BM_WS
  ⟨0x28, 1, 0x8, 1, 0x8, .ro, .none, 0x0, 0x0, 0x0, 0x0⟩,  -- BM_TICKNO
  ⟨0x30, 1, 0x8, 1, 0x8, .ro, .none, 0x0, 0x0, 0x0, 0x0⟩,  -- BM_TIME_SEC
  ⟨0x38, 1, 0x8, 1, 0x8, .ro, .none, 0x0, 0x0, 0x0, 0x0⟩,  -- BM_TIME_SUB
  ⟨0x40, 1, 0x8, 1, 0x8, .w1c, .host, 0x0, 0x0, 0x1F, 0x0⟩,  -- BM_IRQ_STAT
  ⟨0x48, 1, 0x8, 1, 0x8, .rw, .host, 0x0, 0x1F, 0x0, 0x0⟩,  -- BM_IRQ_EN
  ⟨0x50, 1, 0x8, 1, 0x8, .rw, .host, 0x0, 0xFFFFFFFFFFFFFFFF, 0x0, 0x0⟩,  -- BM_HOST_SCRATCH
  ⟨0x58, 1, 0x8, 1, 0x8, .ro, .none, 0x0, 0x0, 0x0, 0x0⟩,  -- BM_CLK_MEAS
  ⟨0x60, 1, 0x8, 1, 0x8, .ro, .none, 0x0, 0x0, 0x0, 0x0⟩,  -- BM_SNAP_TICK
  ⟨0x100, 1, 0x8, 1, 0x8, .ro, .none, 0x0, 0x0, 0x0, 0x0⟩,  -- BM_MARK_STAT
  ⟨0x108, 1, 0x8, 1, 0x8, .ro, .none, 0x0, 0x0, 0x0, 0x0⟩,  -- BM_PCS_STAT
  ⟨0x110, 1, 0x8, 1, 0x8, .ro, .none, 0x0, 0x0, 0x0, 0x0⟩,  -- BM_SNP_STAT
  ⟨0x118, 1, 0x8, 1, 0x8, .ro, .none, 0x0, 0x0, 0x0, 0x0⟩,  -- BM_CSR_REFUSED
  ⟨0x180, 1, 0x8, 1, 0x8, .rwt, .glexon, 0x0, 0x7, 0x0, 0x0⟩,  -- BM_AW_CFG
  ⟨0x188, 1, 0x8, 1, 0x8, .ro, .none, 0x0, 0x0, 0x0, 0x0⟩,  -- BM_AW_STAT
  ⟨0x190, 1, 0x8, 1, 0x8, .ro, .none, 0x0, 0x0, 0x0, 0x0⟩,  -- BM_AW_SLOTS
  ⟨0x400, 1, 0x8, 1, 0x8, .rwt, .glexon, 0x0, 0xFFFFFFFFFFFFFF, 0x0, 0x0⟩,  -- BM_SNS_EN
  ⟨0x408, 1, 0x8, 1, 0x8, .rw, .glexon, 0x0, 0xFFFFFFFFFFFFFFFF, 0x0, 0x0⟩,  -- BM_DROOP_THR_0
  ⟨0x410, 1, 0x8, 1, 0x8, .rw, .glexon, 0x0, 0xFFFFFFFFFFFFFFFF, 0x0, 0x0⟩,  -- BM_DROOP_THR_1
  ⟨0x480, 8, 0x8, 1, 0x8, .ro, .none, 0x8000800080008000, 0x0, 0x0, 0x0⟩,  -- BM_SNS_THERM
  ⟨0x4C0, 4, 0x8, 1, 0x8, .ro, .none, 0xFFFFFFFFFFFFFFFF, 0x0, 0x0, 0x0⟩  -- BM_SNS_VMON
  ]

/-- Part 1 of `bmRegFams`. -/
def bmRegFams1 : List RegFam := [
  ⟨0x4E0, 4, 0x8, 1, 0x8, .ro, .none, 0x0, 0x0, 0x0, 0x0⟩,  -- BM_SNS_DROOP
  ⟨0x500, 1, 0x8, 1, 0x8, .ro, .none, 0x0, 0x0, 0x0, 0x0⟩,  -- BM_ENERGY_SNAP
  ⟨0x508, 1, 0x8, 1, 0x8, .ro, .none, 0x0, 0x0, 0x0, 0x0⟩,  -- BM_ENERGY_TICK
  ⟨0x510, 1, 0x8, 1, 0x8, .ro, .none, 0x0, 0x0, 0x0, 0x0⟩,  -- BM_ENERGY_INCS
  ⟨0x800, 16, 0x8, 1, 0x8, .rwt, .glexon, 0x0, 0xE000000000000000, 0x0, 0x0⟩,  -- BM_SNP_CFG
  ⟨0x880, 16, 0x8, 1, 0x8, .rwt, .glexon, 0x0, 0x1FFFFFFFFFFFFFFF, 0x0, 0x0⟩,  -- BM_SNP_SEED
  ⟨0x900, 16, 0x8, 1, 0x8, .ro, .none, 0x0, 0x0, 0x0, 0x0⟩,  -- BM_SNP_MSGS
  ⟨0x1000, 1, 0x8, 1, 0x8, .rwt, .glexon, 0x0, 0xFFFFFFFF07FF0003, 0x0, 0x0⟩,  -- BM_PROBE_CTRL
  ⟨0x1008, 1, 0x8, 1, 0x8, .ro, .none, 0x0, 0x0, 0x0, 0x0⟩,  -- BM_PROBE_STAT
  ⟨0x1010, 1, 0x8, 1, 0x8, .ro, .none, 0x0, 0x0, 0x0, 0x0⟩,  -- BM_PROBE_ACTIVE
  ⟨0x1018, 1, 0x8, 1, 0x8, .rw, .glexon, 0x0, 0x3FF, 0x0, 0x0⟩,  -- BM_PCS_CFG
  ⟨0x1080, 8, 0x8, 1, 0x8, .rw, .host, 0x3D3D3D3D3D3D3D3D, 0xFFFFFFFFFFFFFFFF, 0x0, 0x0⟩,  -- BM_STALL_MAP
  ⟨0x2000, 512, 0x8, 1, 0x8, .rw, .glexon, 0x0, 0xFFFFFFFFFFFFFFFF, 0x0, 0x0⟩,  -- BM_PROG_0
  ⟨0x3000, 512, 0x8, 1, 0x8, .rw, .glexon, 0x0, 0xFFFFFFFFFFFFFFFF, 0x0, 0x0⟩,  -- BM_PROG_1
  ⟨0xC00, 1, 0x8, 1, 0x8, .ro, .none, 0x0, 0x0, 0x0, 0x0⟩,  -- BM_TAP_STATE
  ⟨0xC08, 1, 0x8, 1, 0x8, .ro, .none, 0x0, 0x0, 0x0, 0x0⟩,  -- BM_TAP_ERR
  ⟨0xC10, 1, 0x8, 1, 0x8, .ro, .none, 0x0, 0x0, 0x0, 0x0⟩,  -- BM_TAP_CORR
  ⟨0xC18, 3, 0x8, 1, 0x8, .rwt, .glexon, 0x0, 0xFFFFFF0000FFFFFF, 0x0, 0x0⟩,  -- BM_TAP_SHAPE
  ⟨0xC38, 3, 0x8, 1, 0x8, .rwt, .glexon, 0x0, 0xFFFFFFFFFFFFFFFF, 0x0, 0x0⟩,  -- BM_TAP_METER
  ⟨0xC58, 1, 0x8, 1, 0x8, .rwt, .glexon, 0x0, 0xE, 0x0, 0x0⟩,  -- BM_TAP_BLACKOUT
  ⟨0xC60, 1, 0x8, 1, 0x8, .rwt, .glexon, 0x0, 0xFFFFFFFF, 0x0, 0x0⟩,  -- BM_AUDIT_THRESH
  ⟨0xC68, 4, 0x8, 1, 0x8, .ro, .none, 0x0, 0x0, 0x0, 0x0⟩,  -- BM_TAP_DROP
  ⟨0xC88, 1, 0x8, 1, 0x8, .ro, .none, 0x0, 0x0, 0x0, 0x0⟩,  -- BM_TAP_DELAY
  ⟨0xC90, 1, 0x8, 1, 0x8, .ro, .none, 0x0, 0x0, 0x0, 0x0⟩,  -- BM_TAP_OFFSET
  ⟨0xC98, 1, 0x8, 1, 0x8, .ro, .none, 0x0, 0x0, 0x0, 0x0⟩  -- BM_TAP_CMD_STAT
  ]

/-- Part 2 of `bmRegFams`. -/
def bmRegFams2 : List RegFam := [
  ⟨0x1A0, 1, 0x8, 1, 0x8, .rwt, .glexon, 0x0, 0xFFFFFFFFFFFFFFFF, 0x0, 0x0⟩,  -- BM_COLL_SEED
  ⟨0x1A8, 1, 0x8, 1, 0x8, .rw, .glexon, 0x0, 0xFFFF, 0x0, 0x0⟩,  -- BM_PEER_MARK
  ⟨0x198, 1, 0x8, 1, 0x8, .rwt, .glexon, 0x0, 0xFFFFFFFFFFFFFFFF, 0x0, 0x0⟩  -- BM_AUDIT_SEED
  ]

/-- The registers of the Bumas window (Tables 3.9, 4.14, 5.9, 10.6), by window offset. -/
def bmRegFams : List RegFam :=
  bmRegFams0 ++ bmRegFams1 ++ bmRegFams2

/-- Part 0 of `gxRegFams`. -/
def gxRegFams0 : List RegFam := [
  ⟨0x80601000, 1, 0x8, 1, 0x8, .rwt, .none, 0x0, 0xC0FFFC1F0000007F, 0x0, 0x0⟩,  -- RE_ROLE_CFG_0
  ⟨0x80601008, 1, 0x8, 1, 0x8, .rwt, .none, 0x0, 0xC0FFFC1F0000007F, 0x0, 0x0⟩,  -- RE_ROLE_CFG_1
  ⟨0x80601010, 1, 0x8, 1, 0x8, .rwt, .none, 0x0, 0xC0FFFC1F0000007F, 0x0, 0x0⟩,  -- RE_ROLE_CFG_2
  ⟨0x80601018, 1, 0x8, 1, 0x8, .rwt, .none, 0x0, 0xC0FFFC1F0000007F, 0x0, 0x0⟩,  -- RE_ROLE_CFG_3
  ⟨0x80601040, 4, 0x8, 1, 0x8, .ro, .none, 0x0, 0x0, 0x0, 0x0⟩,  -- RE_ROLE_OVERRUN
  ⟨0x80601060, 4, 0x8, 1, 0x8, .ro, .none, 0x0, 0x0, 0x0, 0x0⟩,  -- RE_ROLE_STALE
  ⟨0x80601080, 4, 0x8, 1, 0x8, .ro, .none, 0x0, 0x0, 0x0, 0x0⟩,  -- RE_ROLE_LATE
  ⟨0x80000000, 1, 0x8, 1, 0x8, .ro, .none, 0x0, 0x0, 0x0, 0x0⟩,  -- TK_NOW_SEC
  ⟨0x80000008, 1, 0x8, 1, 0x8, .ro, .none, 0x0, 0x0, 0x0, 0x0⟩,  -- TK_NOW_SUB
  ⟨0x80000010, 1, 0x8, 1, 0x8, .rw, .none, 0x0, 0x3, 0x0, 0x0⟩,  -- TK_CFG
  ⟨0x80000018, 1, 0x8, 1, 0x8, .ro, .none, 0x0, 0x0, 0x0, 0x0⟩,  -- TK_STATE
  ⟨0x80000020, 1, 0x8, 1, 0x8, .rw, .none, 0x140000000, 0xFFFFFFFFFF, 0x0, 0x0⟩,  -- TK_ADDEND
  ⟨0x80000028, 1, 0x8, 1, 0x8, .wo, .none, 0x0, 0xFFFFFFFFFFFFFFFF, 0x0, 0x0⟩,  -- TK_STEP
  ⟨0x80000030, 1, 0x8, 1, 0x8, .wo, .none, 0x0, 0xFFFFFFFFFFFFFFFF, 0x0, 0x0⟩,  -- TK_SLEW
  ⟨0x80000038, 1, 0x8, 1, 0x8, .rw, .none, 0xC800100040, 0xFFFFFFFFFFFF, 0x0, 0x0⟩,  -- TK_SERVO_CFG
  ⟨0x80000040, 1, 0x8, 1, 0x8, .ro, .none, 0x0, 0x0, 0x0, 0x0⟩,  -- TK_OFFSET
  ⟨0x80000048, 1, 0x8, 1, 0x8, .ro, .none, 0x0, 0x0, 0x0, 0x0⟩,  -- TK_MEANPATH
  ⟨0x80000100, 1, 0x8, 1, 0x8, .rw, .none, 0x30CC000020, 0xFFFFFF0FE1, 0x0, 0x0⟩,  -- TK_PTP_CFG
  ⟨0x80000108, 1, 0x8, 1, 0x8, .rw, .none, 0xF8808080, 0xFFFFFFFF, 0x0, 0x0⟩,  -- TK_PTP_CLASS
  ⟨0x80000110, 1, 0x8, 1, 0x8, .ro, .none, 0x0, 0x0, 0x0, 0x0⟩,  -- TK_PTP_DISCARD
  ⟨0x80000200, 1, 0x8, 1, 0x8, .rw, .none, 0x340000, 0xFFFFFFFFFFFFFFFF, 0x0, 0x0⟩,  -- TK_TSC_ING_0
  ⟨0x80000208, 1, 0x8, 1, 0x8, .rw, .none, 0x3D0000, 0xFFFFFFFFFFFFFFFF, 0x0, 0x0⟩,  -- TK_TSC_ING_1
  ⟨0x80000210, 1, 0x8, 1, 0x8, .rw, .none, 0x4F0000, 0xFFFFFFFFFFFFFFFF, 0x0, 0x0⟩,  -- TK_TSC_ING_2
  ⟨0x80000218, 1, 0x8, 1, 0x8, .rw, .none, 0x2E0000, 0xFFFFFFFFFFFFFFFF, 0x0, 0x0⟩,  -- TK_TSC_ING_3
  ⟨0x80000220, 1, 0x8, 1, 0x8, .rw, .none, 0x310000, 0xFFFFFFFFFFFFFFFF, 0x0, 0x0⟩  -- TK_TSC_ING_4
  ]

/-- Part 1 of `gxRegFams`. -/
def gxRegFams1 : List RegFam := [
  ⟨0x80000240, 1, 0x8, 1, 0x8, .rw, .none, 0x250000, 0xFFFFFFFFFFFFFFFF, 0x0, 0x0⟩,  -- TK_TSC_EGR_0
  ⟨0x80000248, 1, 0x8, 1, 0x8, .rw, .none, 0x2C0000, 0xFFFFFFFFFFFFFFFF, 0x0, 0x0⟩,  -- TK_TSC_EGR_1
  ⟨0x80000250, 1, 0x8, 1, 0x8, .rw, .none, 0x3A0000, 0xFFFFFFFFFFFFFFFF, 0x0, 0x0⟩,  -- TK_TSC_EGR_2
  ⟨0x80000258, 1, 0x8, 1, 0x8, .rw, .none, 0x210000, 0xFFFFFFFFFFFFFFFF, 0x0, 0x0⟩,  -- TK_TSC_EGR_3
  ⟨0x80000260, 1, 0x8, 1, 0x8, .rw, .none, 0x230000, 0xFFFFFFFFFFFFFFFF, 0x0, 0x0⟩,  -- TK_TSC_EGR_4
  ⟨0x80000300, 1, 0x8, 1, 0x8, .ro, .none, 0x0, 0x0, 0x0, 0x0⟩,  -- TK_EPOCH_SEC
  ⟨0x80000308, 1, 0x8, 1, 0x8, .ro, .none, 0x0, 0x0, 0x0, 0x0⟩,  -- TK_EPOCH_NS
  ⟨0x80000310, 1, 0x8, 1, 0x8, .ro, .none, 0x2, 0x0, 0x0, 0x0⟩,  -- TK_PERIOD
  ⟨0x80000318, 1, 0x8, 1, 0x8, .ro, .none, 0x0, 0x0, 0x0, 0x0⟩,  -- TK_TICKNO
  ⟨0x80000320, 1, 0x8, 1, 0x8, .ro, .none, 0x0, 0x0, 0x0, 0x0⟩,  -- TK_PCHG
  ⟨0x80000340, 1, 0x8, 1, 0x8, .ro, .none, 0x0, 0x0, 0x0, 0x0⟩,  -- TK_EPOCH_PREV_SEC
  ⟨0x80000348, 1, 0x8, 1, 0x8, .ro, .none, 0x0, 0x0, 0x0, 0x0⟩,  -- TK_EPOCH_PREV_NS
  ⟨0x80000350, 1, 0x8, 1, 0x8, .ro, .none, 0x0, 0x0, 0x0, 0x0⟩,  -- TK_PREV_CHG
  ⟨0x80000400, 16, 0x10, 1, 0x8, .rw, .none, 0x0, 0xF0FFFFFFFFFFFFFF, 0x800000000000000, 0x0⟩,  -- TK_CMP_CFG
  ⟨0x80000408, 16, 0x10, 1, 0x8, .rw, .none, 0x0, 0xFFFFFFFFFFFFFFFF, 0x0, 0x0⟩,  -- TK_CMP_TIME
  ⟨0x80000500, 4, 0x10, 1, 0x8, .rw, .none, 0x10032, 0xF0000000000FFFFF, 0x0, 0x0⟩,  -- TK_CAPT_CFG
  ⟨0x80000508, 4, 0x10, 1, 0x8, .ro, .none, 0x0, 0x0, 0x0, 0x0⟩,  -- TK_CAPT_DATA
  ⟨0x80000580, 4, 0x8, 1, 0x8, .row1c, .none, 0x0, 0x0, 0x100, 0x0⟩,  -- TK_CAPT_STAT
  ⟨0x80000600, 1, 0x8, 1, 0x8, .rw, .none, 0x5F5E100, 0x1FFFFFFFF, 0x0, 0x0⟩,  -- TK_PPS_CFG
  ⟨0x80000608, 1, 0x8, 1, 0x8, .ro, .none, 0x0, 0x0, 0x0, 0x0⟩,  -- TK_PPS_STAT
  ⟨0x80000700, 1, 0x8, 1, 0x8, .ro, .none, 0x0, 0x0, 0x0, 0x0⟩,  -- TK_HOLD_TICKS
  ⟨0x80100000, 64, 0x40, 1, 0x8, .rw, .none, 0x0, 0xF000000000000000, 0x0, 0x0⟩,  -- TP_PORT_CFG
  ⟨0x80100008, 64, 0x40, 1, 0x8, .ro, .none, 0x0, 0x0, 0x0, 0x0⟩,  -- TP_PORT_STAT
  ⟨0x80100010, 64, 0x40, 1, 0x8, .ro, .none, 0x0, 0x0, 0x0, 0x0⟩,  -- TP_LOSS_INDIGO
  ⟨0x80100018, 64, 0x40, 1, 0x8, .ro, .none, 0x0, 0x0, 0x0, 0x0⟩  -- TP_LOSS_TEAL
  ]

/-- Part 2 of `gxRegFams`. -/
def gxRegFams2 : List RegFam := [
  ⟨0x80100020, 64, 0x40, 1, 0x8, .ro, .none, 0x0, 0x0, 0x0, 0x0⟩,  -- TP_LOSS_SIENNA
  ⟨0x80100028, 64, 0x40, 1, 0x8, .ro, .none, 0x0, 0x0, 0x0, 0x0⟩,  -- TP_LOSS_MAUVE
  ⟨0x80100030, 64, 0x40, 1, 0x8, .ro, .none, 0x0, 0x0, 0x0, 0x0⟩,  -- TP_BLKERR
  ⟨0x80100038, 64, 0x40, 1, 0x8, .ro, .none, 0x0, 0x0, 0x0, 0x0⟩,  -- TP_TIME
  ⟨0x80F00000, 1, 0x8, 1, 0x8, .ro, .none, 0xC64000100000000, 0x0, 0x0, 0x0⟩,  -- ID_CHIP
  ⟨0x80F00008, 1, 0x8, 1, 0x8, .ro, .none, Config.idSerial, 0x0, 0x0, 0x0⟩,  -- ID_SERIAL
  ⟨0x80F00010, 1, 0x8, 1, 0x8, .ro, .none, 0x4810101008, 0x0, 0x0, 0x0⟩,  -- ID_CAPS
  ⟨0x80F00018, 1, 0x8, 1, 0x8, .ro, .none, Config.idStrap, 0x0, 0x0, 0x0⟩,  -- ID_STRAP
  ⟨0x80F00020, 1, 0x8, 1, 0x8, .rw, .none, 0x0, 0x8000000000003FFF, 0x0, 0x0⟩,  -- ID_GLEXON_INDEX
  ⟨0x80F00028, 1, 0x8, 1, 0x8, .ro, .none, 0x0, 0x0, 0x0, 0x0⟩,  -- ID_BADADDR
  ⟨0x80F00030, 1, 0x8, 1, 0x8, .ro, .none, 0x0, 0x0, 0x0, 0x0⟩,  -- ID_PCIE_DROP
  ⟨0x80F00038, 1, 0x8, 1, 0x8, .ro, .none, Config.idEcid, 0x0, 0x0, 0x0⟩,  -- ID_ECID
  ⟨0x80800000, 24, 0x40, 1, 0x8, .ro, .none, 0x0, 0x0, 0x0, 0x0⟩,  -- MC_CORE_STAT
  ⟨0x80800008, 24, 0x40, 1, 0x8, .ro, .none, 0x0, 0x0, 0x0, 0x0⟩,  -- MC_FAULT_INFO
  ⟨0x80800010, 24, 0x40, 1, 0x8, .ro, .none, 0x0, 0x0, 0x0, 0x0⟩,  -- MC_FAULT_TICK
  ⟨0x80800018, 24, 0x40, 1, 0x8, .ro, .none, 0x0, 0x0, 0x0, 0x0⟩,  -- MC_FAULT_ADDR
  ⟨0x80800020, 24, 0x40, 1, 0x8, .ro, .none, 0x0, 0x0, 0x0, 0x0⟩,  -- MC_FAULT_CNT
  ⟨0x80800028, 24, 0x40, 1, 0x8, .ro, .none, 0x0, 0x0, 0x0, 0x0⟩,  -- MC_STALL
  ⟨0x80800030, 24, 0x40, 1, 0x8, .ro, .none, 0x0, 0x0, 0x0, 0x0⟩,  -- MC_PROG_LEN
  ⟨0x80800038, 24, 0x40, 1, 0x8, .ro, .none, 0x0, 0x0, 0x0, 0x0⟩,  -- MC_ENG_FAULT
  ⟨0x80801000, 1, 0x8, 1, 0x8, .ro, .none, 0x0, 0x0, 0x0, 0x0⟩,  -- MC_VARIANT
  ⟨0x80801008, 1, 0x8, 1, 0x8, .ro, .none, 0x0, 0x0, 0x0, 0x0⟩,  -- MC_WITHDRAWN
  ⟨0x80801010, 1, 0x8, 1, 0x8, .w1s, .none, 0x0, 0x0, 0x0, 0xFFFFFF⟩,  -- MC_WITHDRAW_REQ
  ⟨0x80801018, 1, 0x8, 1, 0x8, .w1s, .none, 0x0, 0x0, 0x0, 0xFFFFFF⟩,  -- MC_RESTORE_REQ
  ⟨0x80801020, 1, 0x8, 1, 0x8, .w1c, .none, 0x0, 0x0, 0xFFFFFF, 0x0⟩  -- MC_SELFCHK_FAIL
  ]

/-- Part 3 of `gxRegFams`. -/
def gxRegFams3 : List RegFam := [
  ⟨0x80801028, 1, 0x8, 1, 0x8, .ro, .none, 0x0, 0x0, 0x0, 0x0⟩,  -- MC_CMD_REFUSED
  ⟨0x80801030, 1, 0x8, 1, 0x8, .ro, .none, 0x0, 0x0, 0x0, 0x0⟩,  -- MC_TICK_DONE
  ⟨0x80700000, 1, 0x8, 1, 0x8, .rw, .none, 0x400003E800000001, 0xC000FFFF0000000F, 0x0, 0x0⟩,  -- AU_CTRL
  ⟨0x80700008, 1, 0x8, 1, 0x8, .ro, .none, 0x0, 0x0, 0x0, 0x0⟩,  -- AU_STAT
  ⟨0x80700010, 1, 0x8, 1, 0x8, .rw, .none, 0x1E80000000, 0xFFFFFFFFFFFFFFFF, 0x0, 0x0⟩,  -- AU_PROF_BASE
  ⟨0x80700018, 1, 0x8, 1, 0x8, .rw, .none, 0x1E80010000, 0xFFFFFFFFFFFFFFFF, 0x0, 0x0⟩,  -- AU_LIST_BASE
  ⟨0x80700020, 1, 0x8, 1, 0x8, .rw, .none, 0x1E80100000, 0xFFFFFFFFFFFFFFFF, 0x0, 0x0⟩,  -- AU_STAGE_BASE
  ⟨0x80700028, 1, 0x8, 1, 0x8, .rw, .none, 0x1F7FFFFFFF, 0xFFFFFFFFFFFFFFFF, 0x0, 0x0⟩,  -- AU_STAGE_END
  ⟨0x80700030, 1, 0x8, 1, 0x8, .wo, .none, 0x0, 0xFF, 0x0, 0x0⟩,  -- AU_PROF_CHECK
  ⟨0x80700038, 1, 0x8, 1, 0x8, .ro, .none, 0x0, 0x0, 0x0, 0x0⟩,  -- AU_PROF_RESULT
  ⟨0x80700040, 4, 0x8, 1, 0x8, .ro, .none, 0x0, 0x0, 0x0, 0x0⟩,  -- AU_PROF_OK
  ⟨0x80700060, 1, 0x8, 1, 0x8, .rw, .none, 0x20000040002, 0xFFFFFFFFFFFF, 0x0, 0x0⟩,  -- AU_TOL_ULP
  ⟨0x80700068, 1, 0x8, 1, 0x8, .rw, .none, 0x100, 0xFFFF, 0x0, 0x0⟩,  -- AU_MAX_AGE
  ⟨0x80700100, 5, 0x8, 1, 0x8, .ro, .none, 0x0, 0x0, 0x0, 0x0⟩,  -- AU_VERDICTS
  ⟨0x80700140, 8, 0x8, 1, 0x8, .ro, .none, 0x0, 0x0, 0x0, 0x0⟩,  -- AU_REJECTS
  ⟨0x80700190, 1, 0x8, 1, 0x8, .ro, .none, 0x0, 0x0, 0x0, 0x0⟩,  -- AU_UNREPLAYED
  ⟨0x80700198, 1, 0x8, 1, 0x8, .ro, .none, 0x0, 0x0, 0x0, 0x0⟩,  -- AU_REREPLAY
  ⟨0x80700200, 8, 0x8, 1, 0x8, .ro, .none, 0x0, 0x0, 0x0, 0x0⟩,  -- AU_CORE
  ⟨0x80700400, 64, 0x10, 1, 0x8, .ro, .none, 0x0, 0x0, 0x0, 0x0⟩,  -- AU_PORT_CNT
  ⟨0x80700408, 64, 0x10, 1, 0x8, .row1c, .none, 0x0, 0x0, 0x8000000000000000, 0x0⟩,  -- AU_PORT_STAT
  ⟨0x80A00000, 1, 0x8, 1, 0x8, .rw, .none, 0x0, 0xF000000000000000, 0x0, 0x0⟩,  -- DG_CTRL
  ⟨0x80A00008, 1, 0x8, 1, 0x8, .rw, .none, 0x0, 0xFFFF, 0x0, 0x0⟩,  -- DG_PEER_MARK
  ⟨0x80A00010, 1, 0x8, 1, 0x8, .rwt, .none, 0x0, 0xFFFFFFFFFFFFFFFF, 0x0, 0x0⟩,  -- DG_COLL_KEY
  ⟨0x80A00100, 64, 0x8, 1, 0x8, .rw, .none, 0x0, 0x80000000000000FF, 0x0, 0x0⟩,  -- DG_CHAN_CFG
  ⟨0x80A00300, 64, 0x10, 1, 0x8, .ro, .none, 0x0, 0x0, 0x0, 0x0⟩  -- DG_ALIVE
  ]

/-- Part 4 of `gxRegFams`. -/
def gxRegFams4 : List RegFam := [
  ⟨0x80A00308, 64, 0x10, 1, 0x8, .ro, .none, 0x0, 0x0, 0x0, 0x0⟩,  -- DG_ALIVE_CNT
  ⟨0x80A00800, 1, 0x8, 1, 0x8, .ro, .none, 0x0, 0x0, 0x0, 0x0⟩,  -- DG_BAL_OK
  ⟨0x80A00808, 1, 0x8, 1, 0x8, .ro, .none, 0x0, 0x0, 0x0, 0x0⟩,  -- DG_BAL_FAIL
  ⟨0x80A00810, 1, 0x8, 1, 0x8, .ro, .none, 0x0, 0x0, 0x0, 0x0⟩,  -- DG_BAL_VOID
  ⟨0x80A00818, 1, 0x8, 1, 0x8, .ro, .none, 0x0, 0x0, 0x0, 0x0⟩,  -- DG_PEER_REPORTS
  ⟨0x80A00820, 1, 0x8, 1, 0x8, .ro, .none, 0x0, 0x0, 0x0, 0x0⟩,  -- DG_ALIVE_MISMATCH
  ⟨0x80A00828, 1, 0x8, 1, 0x8, .ro, .none, 0x0, 0x0, 0x0, 0x0⟩,  -- DG_XOP_ERR
  ⟨0x80600000, 1, 0x8, 1, 0x8, .rw, .none, 0x7D000000000, 0x8000FFFF00000000, 0x0, 0x0⟩,  -- RE_CTRL
  ⟨0x80600008, 1, 0x8, 1, 0x8, .ro, .none, 0x0, 0x0, 0x0, 0x0⟩,  -- RE_INGEST_BAD
  ⟨0x80600010, 1, 0x8, 1, 0x8, .ro, .none, 0x0, 0x0, 0x0, 0x0⟩,  -- RE_XOP_ERR
  ⟨0x80600018, 1, 0x8, 1, 0x8, .ro, .none, 0x0, 0x0, 0x0, 0x0⟩,  -- RE_LIST_BAD
  ⟨0x80601100, 4, 0x8, 1, 0x8, .rwt, .none, 0x20000, 0xFFFFFFFF, 0x0, 0x0⟩,  -- RE_ROLE_BUDGET
  ⟨0x80601120, 4, 0x8, 1, 0x8, .ro, .none, 0x0, 0x0, 0x0, 0x0⟩,  -- RE_ROLE_SAT
  ⟨0x80601140, 4, 0x8, 1, 0x8, .ro, .none, 0x0, 0x0, 0x0, 0x0⟩,  -- RE_ROLE_COARSE
  ⟨0x80601200, 1, 0x8, 1, 0x8, .rw, .none, 0x1E00000000, 0xFFFFFFFFFFFFFFFF, 0x0, 0x0⟩,  -- RE_SLOT_BASE
  ⟨0x80601208, 1, 0x8, 1, 0x8, .rw, .none, 0x0, 0x3FFF, 0x0, 0x0⟩,  -- RE_SLOT_COUNT
  ⟨0x80601210, 1, 0x8, 1, 0x8, .ro, .none, 0x0, 0x0, 0x0, 0x0⟩,  -- RE_PUBLISHED
  ⟨0x80601218, 1, 0x8, 1, 0x8, .ro, .none, 0x0, 0x0, 0x0, 0x0⟩,  -- RE_SLOT_UNACKED
  ⟨0x80601220, 1, 0x8, 1, 0x8, .ro, .none, 0x0, 0x0, 0x0, 0x0⟩,  -- RE_INST_STAT
  ⟨0x80502000, 1, 0x8, 1, 0x8, .ro, .none, 0x0, 0x0, 0x0, 0x0⟩,  -- HM_RW_HEAD
  ⟨0x80502008, 1, 0x8, 1, 0x8, .ro, .none, 0x0, 0x0, 0x0, 0x0⟩,  -- HM_RW_SKIP
  ⟨0x80502010, 1, 0x8, 1, 0x8, .ro, .none, 0x0, 0x0, 0x0, 0x0⟩,  -- HM_RW_OLDEST
  ⟨0x80502018, 1, 0x8, 1, 0x8, .rw, .none, 0x1D80000000, 0xFFFFFFFFFFFFFFFF, 0x0, 0x0⟩,  -- HM_RW_INDEX_BASE
  ⟨0x80502020, 1, 0x8, 1, 0x8, .rw, .none, 0x1D80800000, 0xFFFFFFFFFFFFFFFF, 0x0, 0x0⟩,  -- HM_RW_PULLQ_BASE
  ⟨0x80502028, 1, 0x8, 1, 0x8, .ro, .none, 0x0, 0x0, 0x0, 0x0⟩  -- HM_RW_PULL_STAT
  ]

/-- Part 5 of `gxRegFams`. -/
def gxRegFams5 : List RegFam := [
  ⟨0x80900000, 1, 0x8, 1, 0x8, .rw, .none, 0x402710, 0x8000000000FFFFFF, 0x0, 0x4000000000000000⟩,  -- ES_CTRL
  ⟨0x80900008, 1, 0x8, 1, 0x8, .ro, .none, 0x0, 0x0, 0x0, 0x0⟩,  -- ES_STAT
  ⟨0x80900100, 8, 0x10, 1, 0x8, .rw, .none, 0x1C40000000, 0xFFFFFFFFFFFF, 0x0, 0x0⟩,  -- ES_TABLE_BASE
  ⟨0x80900108, 8, 0x10, 1, 0x8, .rw, .none, 0x0, 0x8007FFFF000001FF, 0x0, 0x0⟩,  -- ES_TABLE_DIM
  ⟨0x80900200, 16, 0x10, 1, 0x8, .rw, .none, 0x0, 0xFFFFFFFFFFFF, 0x0, 0x0⟩,  -- ES_MODEL_ADDR
  ⟨0x80900208, 16, 0x10, 1, 0x8, .ro, .none, 0x0, 0x0, 0x0, 0x0⟩,  -- ES_MODEL_STAT
  ⟨0x80900400, 1, 0x8, 1, 0x8, .ro, .none, 0x0, 0x0, 0x0, 0x0⟩,  -- ES_EVALS
  ⟨0x80900408, 1, 0x8, 1, 0x8, .ro, .none, 0x0, 0x0, 0x0, 0x0⟩,  -- ES_CACHE_MISS
  ⟨0x80900410, 1, 0x8, 1, 0x8, .ro, .none, 0x0, 0x0, 0x0, 0x0⟩,  -- ES_XOP_ERR
  ⟨0x80900418, 1, 0x8, 1, 0x8, .ro, .none, 0x0, 0x0, 0x0, 0x0⟩,  -- ES_UPD_SKIP
  ⟨0x80900500, 1, 0x8, 1, 0x8, .rw, .none, 0x0, 0xFFFFFFFFFFFF, 0x0, 0x0⟩,  -- ES_ALARM_SPEC
  ⟨0x80900508, 1, 0x8, 1, 0x8, .ro, .none, 0x0, 0x0, 0x0, 0x0⟩,  -- ES_ALARM_STAT
  ⟨0x80900510, 1, 0x8, 1, 0x8, .rw, .none, 0x0, 0xFFFFFFFFFFFF, 0x0, 0x0⟩,  -- ES_ITEM_BASE
  ⟨0x80900518, 1, 0x8, 1, 0x8, .rw, .none, 0x927C0, 0xFFFFFFFF, 0x0, 0x0⟩,  -- ES_ITEM_CFG
  ⟨0x80802000, 1, 0x8, 1, 0x8, .rw, .none, 0x1D00000000, 0xFFFFFFFFFFFF, 0x0, 0x0⟩,  -- MC_CTX_BASE
  ⟨0x80802008, 1, 0x8, 1, 0x8, .ro, .none, 0x0, 0x0, 0x0, 0x0⟩,  -- MC_CTX_SUSP_0
  ⟨0x80802010, 1, 0x8, 1, 0x8, .ro, .none, 0x0, 0x0, 0x0, 0x0⟩,  -- MC_CTX_SUSP_1
  ⟨0x80802018, 1, 0x8, 1, 0x8, .ro, .none, 0x0, 0x0, 0x0, 0x0⟩,  -- MC_CTX_ALARMS
  ⟨0x80C00000, 1, 0x8, 1, 0x8, .rw, .none, 0x3, 0xE00000000000000F, 0x0, 0x0⟩,  -- EP_CTRL
  ⟨0x80C00008, 1, 0x8, 1, 0x8, .rwt, .none, 0x280320, 0xFFFFFFFF, 0x0, 0x0⟩,  -- EP_PWR_LIMIT
  ⟨0x80C00010, 1, 0x8, 1, 0x8, .rwt, .none, 0x645A, 0xFFFF, 0x0, 0x0⟩,  -- EP_THERM
  ⟨0x80C00018, 1, 0x8, 1, 0x8, .rwt, .none, 0xFFFFFFFFFFFFFFFF, 0xFFFFFFFFFFFFFFFF, 0x0, 0x0⟩,  -- EP_SEPIA_MASK
  ⟨0x80C00020, 1, 0x8, 1, 0x8, .ro, .none, 0x0, 0x0, 0x0, 0x0⟩,  -- EP_ADMIT
  ⟨0x80C00028, 1, 0x8, 1, 0x8, .ro, .none, 0x0, 0x0, 0x0, 0x0⟩,  -- EP_BUDGET
  ⟨0x80C00030, 1, 0x8, 1, 0x8, .ro, .none, 0x0, 0x0, 0x0, 0x0⟩  -- EP_LAST
  ]

/-- Part 6 of `gxRegFams`. -/
def gxRegFams6 : List RegFam := [
  ⟨0x80C00038, 1, 0x8, 1, 0x8, .ro, .none, 0x0, 0x0, 0x0, 0x0⟩,  -- EP_DEBT
  ⟨0x80C00040, 1, 0x8, 1, 0x8, .ro, .none, 0x0, 0x0, 0x0, 0x0⟩,  -- EP_TOTAL
  ⟨0x80C00048, 1, 0x8, 1, 0x8, .ro, .none, 0x0, 0x0, 0x0, 0x0⟩,  -- EP_TJ
  ⟨0x80C00050, 1, 0x8, 1, 0x8, .rw, .none, 0x100000000000000, 0xFFFFFFFFFFFFFFFF, 0x0, 0x0⟩,  -- EP_AUDIT_CFG
  ⟨0x80C00058, 1, 0x8, 1, 0x8, .ro, .none, 0x0, 0x0, 0x0, 0x0⟩,  -- EP_AUDIT_THR
  ⟨0x80C00060, 1, 0x8, 1, 0x8, .rw, .none, 0x640000100000, 0xFFFFFFFFFFFFFFFF, 0x0, 0x0⟩,  -- EP_GREY_CFG
  ⟨0x80C00100, 40, 0x8, 1, 0x8, .ro, .none, 0x0, 0x0, 0x0, 0x0⟩,  -- EP_ACCT
  ⟨0x80C00400, 64, 0x8, 1, 0x8, .ro, .none, 0x0, 0x0, 0x0, 0x0⟩,  -- EP_LINE
  ⟨0x80C00600, 1, 0x8, 1, 0x8, .ro, .none, 0x0, 0x0, 0x0, 0x0⟩,  -- EP_STAT
  ⟨0x80300000, 1, 0x8, 1, 0x8, .rw, .none, 0xFA0, 0xC0000000FFFFFFFF, 0x0, 0x0⟩,  -- TS_CTRL
  ⟨0x80300100, 1, 0x8, 1, 0x8, .rwt, .none, 0x300004E20, 0xCFFFFFFFF, 0x0, 0x0⟩,  -- TS_GATE_0
  ⟨0x80300108, 1, 0x8, 1, 0x8, .rwt, .none, 0xFFFFFFFFF, 0xCFFFFFFFF, 0x0, 0x0⟩,  -- TS_GATE_1
  ⟨0x80300110, 62, 0x8, 1, 0x8, .rwt, .none, 0x300000000, 0xCFFFFFFFF, 0x0, 0x0⟩,  -- TS_GATE_2..63
  ⟨0x80300300, 1, 0x8, 1, 0x8, .rwt, .none, 0x30, 0xFFFF, 0x0, 0x0⟩,  -- TS_WEIGHT_2
  ⟨0x80300308, 1, 0x8, 1, 0x8, .rwt, .none, 0x30, 0xFFFF, 0x0, 0x0⟩,  -- TS_WEIGHT_3
  ⟨0x80300310, 1, 0x8, 1, 0x8, .rwt, .none, 0x30, 0xFFFF, 0x0, 0x0⟩,  -- TS_WEIGHT_4
  ⟨0x80300318, 1, 0x8, 1, 0x8, .rwt, .none, 0x30, 0xFFFF, 0x0, 0x0⟩,  -- TS_WEIGHT_5
  ⟨0x80300320, 1, 0x8, 1, 0x8, .rwt, .none, 0x10, 0xFFFF, 0x0, 0x0⟩,  -- TS_WEIGHT_6
  ⟨0x80300328, 1, 0x8, 1, 0x8, .rwt, .none, 0x10, 0xFFFF, 0x0, 0x0⟩,  -- TS_WEIGHT_7
  ⟨0x80300400, 8, 0x20, 4, 0x8, .rw, .none, 0x0, 0xFFFFFF0000FFFFFF, 0x0, 0x0⟩,  -- TS_SHAPE
  ⟨0x80300500, 2, 0x8, 1, 0x8, .rwt, .none, 0x0, 0xFFFFFF0000FFFFFF, 0x0, 0x0⟩,  -- TS_GREY
  ⟨0x80300520, 1, 0x8, 1, 0x8, .rwt, .none, 0x0, 0xC, 0x0, 0x0⟩,  -- TS_BLACKOUT
  ⟨0x80300600, 8, 0x20, 2, 0x10, .rw, .none, 0x0, 0xFFFFFFFFFFFFFFFF, 0x0, 0x0⟩,  -- TS_METER_RATE
  ⟨0x80300608, 8, 0x20, 2, 0x10, .rw, .none, 0x0, 0xFFFFFFFFFFFFFFFF, 0x0, 0x0⟩,  -- TS_METER_SIZE
  ⟨0x80300700, 1, 0x8, 1, 0x8, .rw, .none, 0x0, 0x7777, 0x0, 0x0⟩  -- TS_ROLE_PORT
  ]

/-- Part 7 of `gxRegFams`. -/
def gxRegFams7 : List RegFam := [
  ⟨0x80300710, 4, 0x8, 1, 0x8, .rw, .none, 0x0, 0x80000000000000FF, 0x0, 0x0⟩,  -- TS_ALARM_DEST
  ⟨0x80300800, 1, 0x8, 1, 0x8, .ro, .none, 0x0, 0x0, 0x0, 0x0⟩,  -- TS_CMD_COUNT
  ⟨0x80300808, 1, 0x8, 1, 0x8, .ro, .none, 0x0, 0x0, 0x0, 0x0⟩,  -- TS_CMD_STAT
  ⟨0x80300810, 1, 0x8, 1, 0x8, .ro, .none, 0x0, 0x0, 0x0, 0x0⟩,  -- TS_CMD_SEQ
  ⟨0x80300900, 8, 0x8, 1, 0x8, .ro, .none, 0x0, 0x0, 0x0, 0x0⟩,  -- TS_STALE
  ⟨0x80300940, 8, 0x8, 1, 0x8, .ro, .none, 0x0, 0x0, 0x0, 0x0⟩,  -- TS_BLACKOUT_DROP
  ⟨0x80300980, 1, 0x8, 1, 0x8, .row1c, .none, 0x0, 0x0, 0x8000000000000000, 0x0⟩,  -- TS_GATE_STAT
  ⟨0x80102000, 64, 0x40, 3, 0x10, .rw, .none, 0x0, 0xFFFFFFFFFFFFFFFF, 0x0, 0x0⟩,  -- TP_METER_RATE
  ⟨0x80102008, 64, 0x40, 3, 0x10, .rw, .none, 0x0, 0xFFFFFFFFFFFFFFFF, 0x0, 0x0⟩,  -- TP_METER_SIZE
  ⟨0x80102030, 64, 0x40, 1, 0x8, .ro, .none, 0x0, 0x0, 0x0, 0x0⟩,  -- TP_METER_RED
  ⟨0x80400000, 1, 0x8, 1, 0x8, .rw, .none, 0x0, 0x8000000000000000, 0x0, 0x0⟩,  -- RM_CTRL
  ⟨0x80400008, 1, 0x8, 1, 0x8, .rw, .none, 0x80008020002710, 0xFFFFFFFFFFFFFFFF, 0x0, 0x0⟩,  -- RM_CC
  ⟨0x80400010, 1, 0x8, 1, 0x8, .rw, .none, 0x40000000002000, 0xFFFFFFFFFFFFFFFF, 0x0, 0x0⟩,  -- RM_CC_WIN
  ⟨0x80400018, 1, 0x8, 1, 0x8, .wo, .none, 0x0, 0xFFFFFFFFFFFF, 0x0, 0x0⟩,  -- RM_POST
  ⟨0x80400020, 1, 0x8, 1, 0x8, .ro, .none, 0x0, 0x0, 0x0, 0x0⟩,  -- RM_RX_BAD
  ⟨0x80400028, 1, 0x8, 1, 0x8, .ro, .none, 0x0, 0x0, 0x0, 0x0⟩,  -- RM_RX_WINDOW
  ⟨0x80400030, 1, 0x8, 1, 0x8, .ro, .none, 0x0, 0x0, 0x0, 0x0⟩,  -- RM_NAK_CNT
  ⟨0x80400038, 1, 0x8, 1, 0x8, .ro, .none, 0x0, 0x0, 0x0, 0x0⟩,  -- RM_RETX
  ⟨0x80400040, 1, 0x8, 1, 0x8, .ro, .none, 0x0, 0x0, 0x0, 0x0⟩,  -- RM_RING_OVER
  ⟨0x80400048, 1, 0x8, 1, 0x8, .wo, .none, 0x0, 0x3FFF, 0x0, 0x0⟩,  -- RM_MR_REKEY
  ⟨0x80400050, 1, 0x8, 1, 0x8, .ro, .none, 0x0, 0x0, 0x0, 0x0⟩,  -- RM_MR_REFUSED
  ⟨0x80400100, 1, 0x8, 1, 0x8, .rw, .none, 0x0, 0x800000000000000F, 0x0, 0x0⟩,  -- RM_BOOT_CTRL
  ⟨0x80400108, 1, 0x8, 1, 0x8, .rw, .none, 0x0, 0xFFF00FF, 0x0, 0x0⟩,  -- RM_BOOT_EP
  ⟨0x80400110, 1, 0x8, 1, 0x8, .rw, .none, 0x0, 0xFFFFFFFF, 0x0, 0x0⟩,  -- RM_BOOT_KEY
  ⟨0x80400118, 1, 0x8, 1, 0x8, .rw, .none, 0x0, 0xFFFFFFFFFFFFFFFF, 0x0, 0x0⟩  -- RM_BOOT_MAP
  ]

/-- Part 8 of `gxRegFams`. -/
def gxRegFams8 : List RegFam := [
  ⟨0x80400120, 1, 0x8, 1, 0x8, .rw, .none, 0x0, 0x1FFFFFFF, 0x0, 0x0⟩,  -- RM_BOOT_LEN
  ⟨0x80400128, 1, 0x8, 1, 0x8, .rw, .none, 0x0, 0xFFFFFFFFFFFFFFFF, 0x0, 0x0⟩,  -- RM_BOOT_IMG
  ⟨0x80400130, 1, 0x8, 1, 0x8, .rw, .none, 0x0, 0x1FFFFFFF, 0x0, 0x0⟩,  -- RM_BOOT_IMGLEN
  ⟨0x80410000, 4096, 0x20, 1, 0x8, .rw, .none, 0x0, 0xFFFFFFCFFF0000FF, 0x0, 0x0⟩,  -- RM_QP_CFG
  ⟨0x80410008, 4096, 0x20, 1, 0x8, .ro, .none, 0x0, 0x0, 0x0, 0x0⟩,  -- RM_QP_STAT
  ⟨0x80410010, 4096, 0x20, 1, 0x8, .ro, .none, 0x0, 0x0, 0x0, 0x0⟩,  -- RM_QP_CCST
  ⟨0x80410018, 4096, 0x20, 1, 0x8, .ro, .none, 0x0, 0x0, 0x0, 0x0⟩,  -- RM_QP_ERR
  ⟨0x80430000, 16384, 0x20, 1, 0x8, .rw, .none, 0x0, 0xFFFFFFFFFFFF, 0x0, 0x0⟩,  -- RM_MR_BASE
  ⟨0x80430008, 16384, 0x20, 1, 0x8, .rw, .none, 0x0, 0xFFFEFF00FFFFFFFF, 0x0, 0x0⟩,  -- RM_MR_ATTR
  ⟨0x80430010, 16384, 0x20, 1, 0x8, .rw, .none, 0x0, 0xFFFFFFFFFFFF, 0x0, 0x0⟩,  -- RM_MR_RING
  ⟨0x80430018, 16384, 0x20, 1, 0x8, .ro, .none, 0x0, 0x0, 0x0, 0x0⟩,  -- RM_MR_HEAD
  ⟨0x80B00000, 1, 0x8, 1, 0x8, .rw, .none, 0x0, 0x8000000000000000, 0x0, 0x0⟩,  -- CE_CTRL
  ⟨0x80B00008, 1, 0x8, 1, 0x8, .ro, .none, 0x0, 0x0, 0x0, 0x0⟩,  -- CE_STAT
  ⟨0x80B00010, 1, 0x8, 1, 0x8, .ro, .none, 0x0, 0x0, 0x0, 0x0⟩,  -- CE_BYTES_IN
  ⟨0x80B00018, 1, 0x8, 1, 0x8, .ro, .none, 0x0, 0x0, 0x0, 0x0⟩,  -- CE_BYTES_OUT
  ⟨0x80B00020, 1, 0x8, 1, 0x8, .ro, .none, 0x0, 0x0, 0x0, 0x0⟩,  -- CE_XOP_ERR
  ⟨0x80B00100, 13, 0x8, 1, 0x8, .ro, .none, 0x0, 0x0, 0x0, 0x0⟩,  -- CE_STATUS_CNT
  ⟨0x80E00000, 1, 0x8, 1, 0x8, .ro, .none, 0x0, 0x0, 0x0, 0x0⟩,  -- MG_STATUS
  ⟨0x80E00008, 1, 0x8, 1, 0x8, .ro, .none, 0x0, 0x0, 0x0, 0x0⟩,  -- MG_FW_INFO
  ⟨0x80E00010, 1, 0x8, 1, 0x8, .rw, .none, 0x7D0, 0xFFFFFFFF, 0x0, 0x0⟩,  -- MG_WDOG
  ⟨0x80E00018, 1, 0x8, 1, 0x8, .wo, .none, 0x0, 0xFFFFFFFFFFFFFFFF, 0x0, 0x0⟩,  -- MG_WDOG_KICK
  ⟨0x80E00020, 1, 0x8, 1, 0x8, .wo, .none, 0x0, 0xFFFFFFFF, 0x0, 0x0⟩,  -- MG_RESTART
  ⟨0x80E00100, 1, 0x8, 1, 0x8, .ro, .none, 0x0, 0x0, 0x0, 0x0⟩,  -- MG_EVR_HEAD
  ⟨0x80E00108, 1, 0x8, 1, 0x8, .ro, .none, 0x0, 0x0, 0x0, 0x0⟩,  -- MG_EVR_OLDEST
  ⟨0x80E00110, 1, 0x8, 1, 0x8, .rw, .none, 0x0, 0xFFFFFFFFFFFFFFFF, 0x0, 0x0⟩  -- MG_EVR_CURSOR
  ]

/-- Part 9 of `gxRegFams`. -/
def gxRegFams9 : List RegFam := [
  ⟨0x80E00118, 1, 0x8, 1, 0x8, .ro, .none, 0x0, 0x0, 0x0, 0x0⟩,  -- MG_EVR_STAT
  ⟨0x80E00120, 1, 0x8, 1, 0x8, .ro, .none, 0x0, 0x0, 0x0, 0x0⟩,  -- MG_EVR_MIRRORED
  ⟨0x80E00140, 8, 0x8, 1, 0x8, .ro, .none, 0x0, 0x0, 0x0, 0x0⟩,  -- MG_EVR_WIN
  ⟨0x80E00200, 6, 0x8, 1, 0x8, .ro, .none, 0x8000800080008000, 0x0, 0x0, 0x0⟩,  -- MG_TEMP
  ⟨0x80E00240, 16, 0x8, 1, 0x8, .ro, .none, 0x0, 0x0, 0x0, 0x0⟩,  -- MG_RAIL
  ⟨0x80E002C0, 16, 0x8, 1, 0x8, .rw, .none, 0x0, 0xFFFFFFFF0000FFFF, 0x0, 0x0⟩,  -- MG_RAIL_LIM
  ⟨0x80E00340, 1, 0x8, 1, 0x8, .ro, .none, 0x0, 0x0, 0x0, 0x0⟩,  -- MG_TRIP
  ⟨0x80E00400, 1, 0x8, 1, 0x8, .rw, .none, 0x0, 0xFFFFFFFFFFFFFFFF, 0x0, 0x0⟩,  -- MG_IMG_ACT
  ⟨0x80E00500, 8, 0x8, 1, 0x8, .rw, .none, 0x0, 0x80000000000000FF, 0x0, 0x0⟩,  -- MG_ALERT_DEST
  ⟨0x80E00540, 1, 0x8, 1, 0x8, .rw, .none, 0x1, 0x3, 0x0, 0x0⟩,  -- MG_ALERT_CFG
  ⟨0x80E00548, 1, 0x8, 1, 0x8, .ro, .none, 0x0, 0x0, 0x0, 0x0⟩,  -- MG_ALERT_STAT
  ⟨0x80E01000, 1, 0x8, 1, 0x8, .rw, .none, 0x0, 0x3F, 0x0, 0x0⟩,  -- MG_MBX_REQ_PI
  ⟨0x80E01008, 1, 0x8, 1, 0x8, .ro, .none, 0x0, 0x0, 0x0, 0x0⟩,  -- MG_MBX_REQ_CI
  ⟨0x80E01010, 1, 0x8, 1, 0x8, .ro, .none, 0x0, 0x0, 0x0, 0x0⟩,  -- MG_MBX_RSP_PI
  ⟨0x80E01018, 1, 0x8, 1, 0x8, .rw, .none, 0x0, 0x3F, 0x0, 0x0⟩,  -- MG_MBX_RSP_CI
  ⟨0x80E02000, 64, 0x40, 8, 0x8, .rw, .none, 0x0, 0xFFFFFFFFFFFFFFFF, 0x0, 0x0⟩,  -- MG_MBX_REQ
  ⟨0x80E03000, 64, 0x40, 8, 0x8, .ro, .none, 0x0, 0x0, 0x0, 0x0⟩,  -- MG_MBX_RSP
  ⟨0x80E08000, 256, 0x20, 4, 0x8, .rw, .none, 0x0, 0xFFFFFFFFFFFFFFFF, 0x0, 0x0⟩,  -- MG_EP
  ⟨0x80E0A000, 1, 0x8, 1, 0x8, .ro, .none, 0x0, 0x0, 0x0, 0x0⟩,  -- MG_AUTH_REFUSED
  ⟨0x80E0A008, 1, 0x8, 1, 0x8, .ro, .none, 0x0, 0x0, 0x0, 0x0⟩,  -- MG_POWER_CYCLES
  ⟨0x80E0A010, 1, 0x8, 1, 0x8, .ro, .none, 0x0, 0x0, 0x0, 0x0⟩,  -- MG_OP_SECONDS
  ⟨0x80D00000, 1, 0x8, 1, 0x8, .rwt, .none, 0x0, 0xE000000000000003, 0x0, 0x0⟩,  -- OB_CTRL
  ⟨0x80D00008, 1, 0x8, 1, 0x8, .row1c, .none, 0x0, 0x0, 0xC000000000000000, 0x0⟩,  -- OB_STAT
  ⟨0x80D00010, 1, 0x8, 1, 0x8, .rw, .none, 0x2180000000, 0xFFFFFFFFFFFF, 0x0, 0x0⟩,  -- OB_BUF_BASE
  ⟨0x80D00018, 1, 0x8, 1, 0x8, .rw, .none, 0x1000, 0x1FFFF, 0x0, 0x0⟩  -- OB_BUF_ENTRIES
  ]

/-- Part 10 of `gxRegFams`. -/
def gxRegFams10 : List RegFam := [
  ⟨0x80D00020, 1, 0x8, 1, 0x8, .ro, .none, 0x0, 0x0, 0x0, 0x0⟩,  -- OB_BUF_SEQ
  ⟨0x80D00028, 1, 0x8, 1, 0x8, .ro, .none, 0x0, 0x0, 0x0, 0x0⟩,  -- OB_SNAP_TICK
  ⟨0x80D00030, 1, 0x8, 1, 0x8, .rwt, .none, 0x0, 0x80FFFF00, 0x0, 0x0⟩,  -- OB_TRC_SRC
  ⟨0x80D00038, 1, 0x8, 1, 0x8, .ro, .none, 0x0, 0x0, 0x0, 0x0⟩,  -- OB_TRC_LOST
  ⟨0x80D00040, 1, 0x8, 1, 0x8, .ro, .none, 0x0, 0x0, 0x0, 0x0⟩,  -- OB_TRC_SENT
  ⟨0x80D00100, 256, 0x8, 1, 0x8, .rwt, .none, 0x0, 0xFFFFFF, 0x0, 0x0⟩,  -- OB_SEL
  ⟨0x80D00900, 256, 0x8, 1, 0x8, .ro, .none, 0x0, 0x0, 0x0, 0x0⟩,  -- OB_SNAP
  ⟨0x80E00600, 1, 0x8, 1, 0x8, .ro, .none, 0x0, 0x0, 0x0, 0x0⟩,  -- MG_BU_STATE
  ⟨0x80E00608, 1, 0x8, 1, 0x8, .rw, .none, 0x641388, 0xFFFFFFFF, 0x0, 0x0⟩,  -- MG_BU_CFG
  ⟨0x80E00610, 9, 0x8, 1, 0x8, .ro, .none, 0x0, 0x0, 0x0, 0x0⟩,  -- MG_BU_TIME
  ⟨0x80E00660, 1, 0x8, 1, 0x8, .ro, .none, 0x0, 0x0, 0x0, 0x0⟩,  -- MG_BU_MAP
  ⟨0x80E00668, 1, 0x8, 1, 0x8, .ro, .none, 0x0, 0x0, 0x0, 0x0⟩  -- MG_BU_ANN
  ]

/-- The registers of the Glexon CSR space, by address. -/
def gxRegFams : List RegFam :=
  gxRegFams0 ++ gxRegFams1 ++ gxRegFams2 ++ gxRegFams3 ++ gxRegFams4 ++ gxRegFams5 ++ gxRegFams6 ++ gxRegFams7 ++ gxRegFams8 ++ gxRegFams9 ++ gxRegFams10

/-! The addresses, under the names of the spec. -/

/-- `RE_ROLE_CFG_0` (R31, 01_fleet_and_tick.md). -/
def Reg.RE_ROLE_CFG_0 : Nat := 0x80601000
/-- `RE_ROLE_CFG_1` (R31, 01_fleet_and_tick.md). -/
def Reg.RE_ROLE_CFG_1 : Nat := 0x80601008
/-- `RE_ROLE_CFG_2` (R31, 01_fleet_and_tick.md). -/
def Reg.RE_ROLE_CFG_2 : Nat := 0x80601010
/-- `RE_ROLE_CFG_3` (R31, 01_fleet_and_tick.md). -/
def Reg.RE_ROLE_CFG_3 : Nat := 0x80601018
/-- `RE_ROLE_OVERRUN_n` (R31, 01_fleet_and_tick.md). -/
def Reg.RE_ROLE_OVERRUN (n : Nat) : Nat := 0x80601040 + 0x8 * n
/-- `RE_ROLE_STALE_n` (R31, 01_fleet_and_tick.md). -/
def Reg.RE_ROLE_STALE (n : Nat) : Nat := 0x80601060 + 0x8 * n
/-- `RE_ROLE_LATE_n` (R31, 01_fleet_and_tick.md). -/
def Reg.RE_ROLE_LATE (n : Nat) : Nat := 0x80601080 + 0x8 * n
/-- `TK_NOW_SEC` (R77, 02_time.md). -/
def Reg.TK_NOW_SEC : Nat := 0x80000000
/-- `TK_NOW_SUB` (R77, 02_time.md). -/
def Reg.TK_NOW_SUB : Nat := 0x80000008
/-- `TK_CFG` (R77, 02_time.md). -/
def Reg.TK_CFG : Nat := 0x80000010
/-- `TK_STATE` (R77, 02_time.md). -/
def Reg.TK_STATE : Nat := 0x80000018
/-- `TK_ADDEND` (R77, 02_time.md). -/
def Reg.TK_ADDEND : Nat := 0x80000020
/-- `TK_STEP` (R77, 02_time.md). -/
def Reg.TK_STEP : Nat := 0x80000028
/-- `TK_SLEW` (R77, 02_time.md). -/
def Reg.TK_SLEW : Nat := 0x80000030
/-- `TK_SERVO_CFG` (R77, 02_time.md). -/
def Reg.TK_SERVO_CFG : Nat := 0x80000038
/-- `TK_OFFSET` (R77, 02_time.md). -/
def Reg.TK_OFFSET : Nat := 0x80000040
/-- `TK_MEANPATH` (R77, 02_time.md). -/
def Reg.TK_MEANPATH : Nat := 0x80000048
/-- `TK_PTP_CFG` (R77, 02_time.md). -/
def Reg.TK_PTP_CFG : Nat := 0x80000100
/-- `TK_PTP_CLASS` (R77, 02_time.md). -/
def Reg.TK_PTP_CLASS : Nat := 0x80000108
/-- `TK_PTP_DISCARD` (R77, 02_time.md). -/
def Reg.TK_PTP_DISCARD : Nat := 0x80000110
/-- `TK_TSC_ING_m` (R77, 02_time.md). -/
def Reg.TK_TSC_ING (m : Nat) : Nat := 0x80000200 + 0x8 * m
/-- `TK_TSC_EGR_m` (R77, 02_time.md). -/
def Reg.TK_TSC_EGR (m : Nat) : Nat := 0x80000240 + 0x8 * m
/-- `TK_EPOCH_SEC` (R77, 02_time.md). -/
def Reg.TK_EPOCH_SEC : Nat := 0x80000300
/-- `TK_EPOCH_NS` (R77, 02_time.md). -/
def Reg.TK_EPOCH_NS : Nat := 0x80000308
/-- `TK_PERIOD` (R77, 02_time.md). -/
def Reg.TK_PERIOD : Nat := 0x80000310
/-- `TK_TICKNO` (R77, 02_time.md). -/
def Reg.TK_TICKNO : Nat := 0x80000318
/-- `TK_PCHG` (R77, 02_time.md). -/
def Reg.TK_PCHG : Nat := 0x80000320
/-- `TK_EPOCH_PREV_SEC` (R77, 02_time.md). -/
def Reg.TK_EPOCH_PREV_SEC : Nat := 0x80000340
/-- `TK_EPOCH_PREV_NS` (R77, 02_time.md). -/
def Reg.TK_EPOCH_PREV_NS : Nat := 0x80000348
/-- `TK_PREV_CHG` (R77, 02_time.md). -/
def Reg.TK_PREV_CHG : Nat := 0x80000350
/-- `TK_CMP_CFG_k` (R77, 02_time.md). -/
def Reg.TK_CMP_CFG (k : Nat) : Nat := 0x80000400 + 0x10 * k
/-- `TK_CMP_TIME_k` (R77, 02_time.md). -/
def Reg.TK_CMP_TIME (k : Nat) : Nat := 0x80000408 + 0x10 * k
/-- `TK_CAPT_CFG_j` (R77, 02_time.md). -/
def Reg.TK_CAPT_CFG (j : Nat) : Nat := 0x80000500 + 0x10 * j
/-- `TK_CAPT_DATA_j` (R77, 02_time.md). -/
def Reg.TK_CAPT_DATA (j : Nat) : Nat := 0x80000508 + 0x10 * j
/-- `TK_CAPT_STAT_j` (R77, 02_time.md). -/
def Reg.TK_CAPT_STAT (j : Nat) : Nat := 0x80000580 + 0x8 * j
/-- `TK_PPS_CFG` (R77, 02_time.md). -/
def Reg.TK_PPS_CFG : Nat := 0x80000600
/-- `TK_PPS_STAT` (R77, 02_time.md). -/
def Reg.TK_PPS_STAT : Nat := 0x80000608
/-- `TK_HOLD_TICKS` (R77, 02_time.md). -/
def Reg.TK_HOLD_TICKS : Nat := 0x80000700
/-- `BM_ID` (R97, 03_bumas_boundary.md). -/
def Reg.BM_ID : Nat := 0x0
/-- `BM_DIE_INDEX` (R97, 03_bumas_boundary.md). -/
def Reg.BM_DIE_INDEX : Nat := 0x8
/-- `BM_CTRL` (R97, 03_bumas_boundary.md). -/
def Reg.BM_CTRL : Nat := 0x10
/-- `BM_STATUS` (R97, 03_bumas_boundary.md). -/
def Reg.BM_STATUS : Nat := 0x18
/-- `BM_WS` (R97, 03_bumas_boundary.md). -/
def Reg.BM_WS : Nat := 0x20
/-- `BM_TICKNO` (R97, 03_bumas_boundary.md). -/
def Reg.BM_TICKNO : Nat := 0x28
/-- `BM_TIME_SEC` (R97, 03_bumas_boundary.md). -/
def Reg.BM_TIME_SEC : Nat := 0x30
/-- `BM_TIME_SUB` (R97, 03_bumas_boundary.md). -/
def Reg.BM_TIME_SUB : Nat := 0x38
/-- `BM_IRQ_STAT` (R97, 03_bumas_boundary.md). -/
def Reg.BM_IRQ_STAT : Nat := 0x40
/-- `BM_IRQ_EN` (R97, 03_bumas_boundary.md). -/
def Reg.BM_IRQ_EN : Nat := 0x48
/-- `BM_HOST_SCRATCH` (R97, 03_bumas_boundary.md). -/
def Reg.BM_HOST_SCRATCH : Nat := 0x50
/-- `BM_CLK_MEAS` (R97, 03_bumas_boundary.md). -/
def Reg.BM_CLK_MEAS : Nat := 0x58
/-- `BM_SNAP_TICK` (R97, 03_bumas_boundary.md). -/
def Reg.BM_SNAP_TICK : Nat := 0x60
/-- `BM_MARK_STAT` (R97, 03_bumas_boundary.md). -/
def Reg.BM_MARK_STAT : Nat := 0x100
/-- `BM_PCS_STAT` (R97, 03_bumas_boundary.md). -/
def Reg.BM_PCS_STAT : Nat := 0x108
/-- `BM_SNP_STAT` (R97, 03_bumas_boundary.md). -/
def Reg.BM_SNP_STAT : Nat := 0x110
/-- `BM_CSR_REFUSED` (R97, 03_bumas_boundary.md). -/
def Reg.BM_CSR_REFUSED : Nat := 0x118
/-- `BM_AW_CFG` (R97, 03_bumas_boundary.md). -/
def Reg.BM_AW_CFG : Nat := 0x180
/-- `BM_AW_STAT` (R97, 03_bumas_boundary.md). -/
def Reg.BM_AW_STAT : Nat := 0x188
/-- `BM_AW_SLOTS` (R97, 03_bumas_boundary.md). -/
def Reg.BM_AW_SLOTS : Nat := 0x190
/-- `BM_SNS_EN` (R134, 04_bumas_probe.md). -/
def Reg.BM_SNS_EN : Nat := 0x400
/-- `BM_DROOP_THR_0` (R134, 04_bumas_probe.md). -/
def Reg.BM_DROOP_THR_0 : Nat := 0x408
/-- `BM_DROOP_THR_1` (R134, 04_bumas_probe.md). -/
def Reg.BM_DROOP_THR_1 : Nat := 0x410
/-- `BM_SNS_THERM_q` (R134, 04_bumas_probe.md). -/
def Reg.BM_SNS_THERM (q : Nat) : Nat := 0x480 + 0x8 * q
/-- `BM_SNS_VMON_q` (R134, 04_bumas_probe.md). -/
def Reg.BM_SNS_VMON (q : Nat) : Nat := 0x4C0 + 0x8 * q
/-- `BM_SNS_DROOP_q` (R134, 04_bumas_probe.md). -/
def Reg.BM_SNS_DROOP (q : Nat) : Nat := 0x4E0 + 0x8 * q
/-- `BM_ENERGY_SNAP` (R134, 04_bumas_probe.md). -/
def Reg.BM_ENERGY_SNAP : Nat := 0x500
/-- `BM_ENERGY_TICK` (R134, 04_bumas_probe.md). -/
def Reg.BM_ENERGY_TICK : Nat := 0x508
/-- `BM_ENERGY_INCS` (R134, 04_bumas_probe.md). -/
def Reg.BM_ENERGY_INCS : Nat := 0x510
/-- `BM_SNP_CFG_i` (R134, 04_bumas_probe.md). -/
def Reg.BM_SNP_CFG (i : Nat) : Nat := 0x800 + 0x8 * i
/-- `BM_SNP_SEED_i` (R134, 04_bumas_probe.md). -/
def Reg.BM_SNP_SEED (i : Nat) : Nat := 0x880 + 0x8 * i
/-- `BM_SNP_MSGS_i` (R134, 04_bumas_probe.md). -/
def Reg.BM_SNP_MSGS (i : Nat) : Nat := 0x900 + 0x8 * i
/-- `BM_PROBE_CTRL` (R134, 04_bumas_probe.md). -/
def Reg.BM_PROBE_CTRL : Nat := 0x1000
/-- `BM_PROBE_STAT` (R134, 04_bumas_probe.md). -/
def Reg.BM_PROBE_STAT : Nat := 0x1008
/-- `BM_PROBE_ACTIVE` (R134, 04_bumas_probe.md). -/
def Reg.BM_PROBE_ACTIVE : Nat := 0x1010
/-- `BM_PCS_CFG` (R134, 04_bumas_probe.md). -/
def Reg.BM_PCS_CFG : Nat := 0x1018
/-- `BM_STALL_MAP_k` (R134, 04_bumas_probe.md). -/
def Reg.BM_STALL_MAP (k : Nat) : Nat := 0x1080 + 0x8 * k
/-- `BM_PROG_0_w` (R134, 04_bumas_probe.md). -/
def Reg.BM_PROG_0 (w : Nat) : Nat := 0x2000 + 0x8 * w
/-- `BM_PROG_1_w` (R134, 04_bumas_probe.md). -/
def Reg.BM_PROG_1 (w : Nat) : Nat := 0x3000 + 0x8 * w
/-- `BM_TAP_STATE` (R164, 05_tap_link.md). -/
def Reg.BM_TAP_STATE : Nat := 0xC00
/-- `BM_TAP_ERR` (R164, 05_tap_link.md). -/
def Reg.BM_TAP_ERR : Nat := 0xC08
/-- `BM_TAP_CORR` (R164, 05_tap_link.md). -/
def Reg.BM_TAP_CORR : Nat := 0xC10
/-- `BM_TAP_SHAPE_c` (R164, 05_tap_link.md). -/
def Reg.BM_TAP_SHAPE (c : Nat) : Nat := 0xC18 + 0x8 * (c - 1)
/-- `BM_TAP_METER_c` (R164, 05_tap_link.md). -/
def Reg.BM_TAP_METER (c : Nat) : Nat := 0xC38 + 0x8 * (c - 1)
/-- `BM_TAP_BLACKOUT` (R164, 05_tap_link.md). -/
def Reg.BM_TAP_BLACKOUT : Nat := 0xC58
/-- `BM_AUDIT_THRESH` (R164, 05_tap_link.md). -/
def Reg.BM_AUDIT_THRESH : Nat := 0xC60
/-- `BM_TAP_DROP_c` (R164, 05_tap_link.md). -/
def Reg.BM_TAP_DROP (c : Nat) : Nat := 0xC68 + 0x8 * c
/-- `BM_TAP_DELAY` (R164, 05_tap_link.md). -/
def Reg.BM_TAP_DELAY : Nat := 0xC88
/-- `BM_TAP_OFFSET` (R164, 05_tap_link.md). -/
def Reg.BM_TAP_OFFSET : Nat := 0xC90
/-- `BM_TAP_CMD_STAT` (R164, 05_tap_link.md). -/
def Reg.BM_TAP_CMD_STAT : Nat := 0xC98
/-- `TP_PORT_CFG_p` (R165, 05_tap_link.md). -/
def Reg.TP_PORT_CFG (p : Nat) : Nat := 0x80100000 + 0x40 * p
/-- `TP_PORT_STAT_p` (R165, 05_tap_link.md). -/
def Reg.TP_PORT_STAT (p : Nat) : Nat := 0x80100008 + 0x40 * p
/-- `TP_LOSS_INDIGO_p` (R165, 05_tap_link.md). -/
def Reg.TP_LOSS_INDIGO (p : Nat) : Nat := 0x80100010 + 0x40 * p
/-- `TP_LOSS_TEAL_p` (R165, 05_tap_link.md). -/
def Reg.TP_LOSS_TEAL (p : Nat) : Nat := 0x80100018 + 0x40 * p
/-- `TP_LOSS_SIENNA_p` (R165, 05_tap_link.md). -/
def Reg.TP_LOSS_SIENNA (p : Nat) : Nat := 0x80100020 + 0x40 * p
/-- `TP_LOSS_MAUVE_p` (R165, 05_tap_link.md). -/
def Reg.TP_LOSS_MAUVE (p : Nat) : Nat := 0x80100028 + 0x40 * p
/-- `TP_BLKERR_p` (R165, 05_tap_link.md). -/
def Reg.TP_BLKERR (p : Nat) : Nat := 0x80100030 + 0x40 * p
/-- `TP_TIME_p` (R165, 05_tap_link.md). -/
def Reg.TP_TIME (p : Nat) : Nat := 0x80100038 + 0x40 * p
/-- `ID_CHIP` (R187, 06_glexon_organisation.md). -/
def Reg.ID_CHIP : Nat := 0x80F00000
/-- `ID_SERIAL` (R187, 06_glexon_organisation.md). -/
def Reg.ID_SERIAL : Nat := 0x80F00008
/-- `ID_CAPS` (R187, 06_glexon_organisation.md). -/
def Reg.ID_CAPS : Nat := 0x80F00010
/-- `ID_STRAP` (R187, 06_glexon_organisation.md). -/
def Reg.ID_STRAP : Nat := 0x80F00018
/-- `ID_GLEXON_INDEX` (R187, 06_glexon_organisation.md). -/
def Reg.ID_GLEXON_INDEX : Nat := 0x80F00020
/-- `ID_BADADDR` (R187, 06_glexon_organisation.md). -/
def Reg.ID_BADADDR : Nat := 0x80F00028
/-- `ID_PCIE_DROP` (R187, 06_glexon_organisation.md). -/
def Reg.ID_PCIE_DROP : Nat := 0x80F00030
/-- `ID_ECID` (R187, 06_glexon_organisation.md). -/
def Reg.ID_ECID : Nat := 0x80F00038
/-- `MC_CORE_STAT_n` (R231, 07_tick_isa.md). -/
def Reg.MC_CORE_STAT (n : Nat) : Nat := 0x80800000 + 0x40 * n
/-- `MC_FAULT_INFO_n` (R231, 07_tick_isa.md). -/
def Reg.MC_FAULT_INFO (n : Nat) : Nat := 0x80800008 + 0x40 * n
/-- `MC_FAULT_TICK_n` (R231, 07_tick_isa.md). -/
def Reg.MC_FAULT_TICK (n : Nat) : Nat := 0x80800010 + 0x40 * n
/-- `MC_FAULT_ADDR_n` (R231, 07_tick_isa.md). -/
def Reg.MC_FAULT_ADDR (n : Nat) : Nat := 0x80800018 + 0x40 * n
/-- `MC_FAULT_CNT_n` (R231, 07_tick_isa.md). -/
def Reg.MC_FAULT_CNT (n : Nat) : Nat := 0x80800020 + 0x40 * n
/-- `MC_STALL_n` (R231, 07_tick_isa.md). -/
def Reg.MC_STALL (n : Nat) : Nat := 0x80800028 + 0x40 * n
/-- `MC_PROG_LEN_n` (R231, 07_tick_isa.md). -/
def Reg.MC_PROG_LEN (n : Nat) : Nat := 0x80800030 + 0x40 * n
/-- `MC_ENG_FAULT_n` (R263, 08_engines_and_ordering.md). -/
def Reg.MC_ENG_FAULT (n : Nat) : Nat := 0x80800038 + 0x40 * n
/-- `MC_VARIANT` (R263, 08_engines_and_ordering.md). -/
def Reg.MC_VARIANT : Nat := 0x80801000
/-- `MC_WITHDRAWN` (R263, 08_engines_and_ordering.md). -/
def Reg.MC_WITHDRAWN : Nat := 0x80801008
/-- `MC_WITHDRAW_REQ` (R263, 08_engines_and_ordering.md). -/
def Reg.MC_WITHDRAW_REQ : Nat := 0x80801010
/-- `MC_RESTORE_REQ` (R263, 08_engines_and_ordering.md). -/
def Reg.MC_RESTORE_REQ : Nat := 0x80801018
/-- `MC_SELFCHK_FAIL` (R263, 08_engines_and_ordering.md). -/
def Reg.MC_SELFCHK_FAIL : Nat := 0x80801020
/-- `MC_CMD_REFUSED` (R263, 08_engines_and_ordering.md). -/
def Reg.MC_CMD_REFUSED : Nat := 0x80801028
/-- `MC_TICK_DONE` (R263, 08_engines_and_ordering.md). -/
def Reg.MC_TICK_DONE : Nat := 0x80801030
/-- `AU_CTRL` (R292, 09_audit_replay.md). -/
def Reg.AU_CTRL : Nat := 0x80700000
/-- `AU_STAT` (R292, 09_audit_replay.md). -/
def Reg.AU_STAT : Nat := 0x80700008
/-- `AU_PROF_BASE` (R292, 09_audit_replay.md). -/
def Reg.AU_PROF_BASE : Nat := 0x80700010
/-- `AU_LIST_BASE` (R292, 09_audit_replay.md). -/
def Reg.AU_LIST_BASE : Nat := 0x80700018
/-- `AU_STAGE_BASE` (R292, 09_audit_replay.md). -/
def Reg.AU_STAGE_BASE : Nat := 0x80700020
/-- `AU_STAGE_END` (R292, 09_audit_replay.md). -/
def Reg.AU_STAGE_END : Nat := 0x80700028
/-- `AU_PROF_CHECK` (R292, 09_audit_replay.md). -/
def Reg.AU_PROF_CHECK : Nat := 0x80700030
/-- `AU_PROF_RESULT` (R292, 09_audit_replay.md). -/
def Reg.AU_PROF_RESULT : Nat := 0x80700038
/-- `AU_PROF_OK_q` (R292, 09_audit_replay.md). -/
def Reg.AU_PROF_OK (q : Nat) : Nat := 0x80700040 + 0x8 * q
/-- `AU_TOL_ULP` (R292, 09_audit_replay.md). -/
def Reg.AU_TOL_ULP : Nat := 0x80700060
/-- `AU_MAX_AGE` (R292, 09_audit_replay.md). -/
def Reg.AU_MAX_AGE : Nat := 0x80700068
/-- `AU_VERDICTS_v` (R292, 09_audit_replay.md). -/
def Reg.AU_VERDICTS (v : Nat) : Nat := 0x80700100 + 0x8 * v
/-- `AU_REJECTS_s` (R292, 09_audit_replay.md). -/
def Reg.AU_REJECTS (s : Nat) : Nat := 0x80700140 + 0x8 * (s - 1)
/-- `AU_UNREPLAYED` (R292, 09_audit_replay.md). -/
def Reg.AU_UNREPLAYED : Nat := 0x80700190
/-- `AU_REREPLAY` (R292, 09_audit_replay.md). -/
def Reg.AU_REREPLAY : Nat := 0x80700198
/-- `AU_CORE_c` (R292, 09_audit_replay.md). -/
def Reg.AU_CORE (c : Nat) : Nat := 0x80700200 + 0x8 * c
/-- `AU_PORT_CNT_p` (R292, 09_audit_replay.md). -/
def Reg.AU_PORT_CNT (p : Nat) : Nat := 0x80700400 + 0x10 * p
/-- `AU_PORT_STAT_p` (R292, 09_audit_replay.md). -/
def Reg.AU_PORT_STAT (p : Nat) : Nat := 0x80700408 + 0x10 * p
/-- `BM_COLL_SEED` (R310, 10_digests.md). -/
def Reg.BM_COLL_SEED : Nat := 0x1A0
/-- `BM_PEER_MARK` (R310, 10_digests.md). -/
def Reg.BM_PEER_MARK : Nat := 0x1A8
/-- `DG_CTRL` (R311, 10_digests.md). -/
def Reg.DG_CTRL : Nat := 0x80A00000
/-- `DG_PEER_MARK` (R311, 10_digests.md). -/
def Reg.DG_PEER_MARK : Nat := 0x80A00008
/-- `DG_COLL_KEY` (R311, 10_digests.md). -/
def Reg.DG_COLL_KEY : Nat := 0x80A00010
/-- `DG_CHAN_CFG_p` (R311, 10_digests.md). -/
def Reg.DG_CHAN_CFG (p : Nat) : Nat := 0x80A00100 + 0x8 * p
/-- `DG_ALIVE_p` (R311, 10_digests.md). -/
def Reg.DG_ALIVE (p : Nat) : Nat := 0x80A00300 + 0x10 * p
/-- `DG_ALIVE_CNT_p` (R311, 10_digests.md). -/
def Reg.DG_ALIVE_CNT (p : Nat) : Nat := 0x80A00308 + 0x10 * p
/-- `DG_BAL_OK` (R311, 10_digests.md). -/
def Reg.DG_BAL_OK : Nat := 0x80A00800
/-- `DG_BAL_FAIL` (R311, 10_digests.md). -/
def Reg.DG_BAL_FAIL : Nat := 0x80A00808
/-- `DG_BAL_VOID` (R311, 10_digests.md). -/
def Reg.DG_BAL_VOID : Nat := 0x80A00810
/-- `DG_PEER_REPORTS` (R311, 10_digests.md). -/
def Reg.DG_PEER_REPORTS : Nat := 0x80A00818
/-- `DG_ALIVE_MISMATCH` (R311, 10_digests.md). -/
def Reg.DG_ALIVE_MISMATCH : Nat := 0x80A00820
/-- `DG_XOP_ERR` (R311, 10_digests.md). -/
def Reg.DG_XOP_ERR : Nat := 0x80A00828
/-- `RE_CTRL` (R348, 11_reduction.md). -/
def Reg.RE_CTRL : Nat := 0x80600000
/-- `RE_INGEST_BAD` (R348, 11_reduction.md). -/
def Reg.RE_INGEST_BAD : Nat := 0x80600008
/-- `RE_XOP_ERR` (R348, 11_reduction.md). -/
def Reg.RE_XOP_ERR : Nat := 0x80600010
/-- `RE_LIST_BAD` (R348, 11_reduction.md). -/
def Reg.RE_LIST_BAD : Nat := 0x80600018
/-- `RE_ROLE_BUDGET_n` (R348, 11_reduction.md). -/
def Reg.RE_ROLE_BUDGET (n : Nat) : Nat := 0x80601100 + 0x8 * n
/-- `RE_ROLE_SAT_n` (R348, 11_reduction.md). -/
def Reg.RE_ROLE_SAT (n : Nat) : Nat := 0x80601120 + 0x8 * n
/-- `RE_ROLE_COARSE_n` (R348, 11_reduction.md). -/
def Reg.RE_ROLE_COARSE (n : Nat) : Nat := 0x80601140 + 0x8 * n
/-- `RE_SLOT_BASE` (R348, 11_reduction.md). -/
def Reg.RE_SLOT_BASE : Nat := 0x80601200
/-- `RE_SLOT_COUNT` (R348, 11_reduction.md). -/
def Reg.RE_SLOT_COUNT : Nat := 0x80601208
/-- `RE_PUBLISHED` (R348, 11_reduction.md). -/
def Reg.RE_PUBLISHED : Nat := 0x80601210
/-- `RE_SLOT_UNACKED` (R348, 11_reduction.md). -/
def Reg.RE_SLOT_UNACKED : Nat := 0x80601218
/-- `RE_INST_STAT` (R348, 11_reduction.md). -/
def Reg.RE_INST_STAT : Nat := 0x80601220
/-- `HM_RW_HEAD` (R349, 11_reduction.md). -/
def Reg.HM_RW_HEAD : Nat := 0x80502000
/-- `HM_RW_SKIP` (R349, 11_reduction.md). -/
def Reg.HM_RW_SKIP : Nat := 0x80502008
/-- `HM_RW_OLDEST` (R349, 11_reduction.md). -/
def Reg.HM_RW_OLDEST : Nat := 0x80502010
/-- `HM_RW_INDEX_BASE` (R349, 11_reduction.md). -/
def Reg.HM_RW_INDEX_BASE : Nat := 0x80502018
/-- `HM_RW_PULLQ_BASE` (R349, 11_reduction.md). -/
def Reg.HM_RW_PULLQ_BASE : Nat := 0x80502020
/-- `HM_RW_PULL_STAT` (R349, 11_reduction.md). -/
def Reg.HM_RW_PULL_STAT : Nat := 0x80502028
/-- `ES_CTRL` (R377, 12_scoring.md). -/
def Reg.ES_CTRL : Nat := 0x80900000
/-- `ES_STAT` (R377, 12_scoring.md). -/
def Reg.ES_STAT : Nat := 0x80900008
/-- `ES_TABLE_BASE_t` (R377, 12_scoring.md). -/
def Reg.ES_TABLE_BASE (t : Nat) : Nat := 0x80900100 + 0x10 * t
/-- `ES_TABLE_DIM_t` (R377, 12_scoring.md). -/
def Reg.ES_TABLE_DIM (t : Nat) : Nat := 0x80900108 + 0x10 * t
/-- `ES_MODEL_ADDR_k` (R377, 12_scoring.md). -/
def Reg.ES_MODEL_ADDR (k : Nat) : Nat := 0x80900200 + 0x10 * k
/-- `ES_MODEL_STAT_k` (R377, 12_scoring.md). -/
def Reg.ES_MODEL_STAT (k : Nat) : Nat := 0x80900208 + 0x10 * k
/-- `ES_EVALS` (R377, 12_scoring.md). -/
def Reg.ES_EVALS : Nat := 0x80900400
/-- `ES_CACHE_MISS` (R377, 12_scoring.md). -/
def Reg.ES_CACHE_MISS : Nat := 0x80900408
/-- `ES_XOP_ERR` (R377, 12_scoring.md). -/
def Reg.ES_XOP_ERR : Nat := 0x80900410
/-- `ES_UPD_SKIP` (R377, 12_scoring.md). -/
def Reg.ES_UPD_SKIP : Nat := 0x80900418
/-- `ES_ALARM_SPEC` (R377, 12_scoring.md). -/
def Reg.ES_ALARM_SPEC : Nat := 0x80900500
/-- `ES_ALARM_STAT` (R377, 12_scoring.md). -/
def Reg.ES_ALARM_STAT : Nat := 0x80900508
/-- `ES_ITEM_BASE` (R377, 12_scoring.md). -/
def Reg.ES_ITEM_BASE : Nat := 0x80900510
/-- `ES_ITEM_CFG` (R377, 12_scoring.md). -/
def Reg.ES_ITEM_CFG : Nat := 0x80900518
/-- `MC_CTX_BASE` (R378, 12_scoring.md). -/
def Reg.MC_CTX_BASE : Nat := 0x80802000
/-- `MC_CTX_SUSP_0` (R378, 12_scoring.md). -/
def Reg.MC_CTX_SUSP_0 : Nat := 0x80802008
/-- `MC_CTX_SUSP_1` (R378, 12_scoring.md). -/
def Reg.MC_CTX_SUSP_1 : Nat := 0x80802010
/-- `MC_CTX_ALARMS` (R378, 12_scoring.md). -/
def Reg.MC_CTX_ALARMS : Nat := 0x80802018
/-- `EP_CTRL` (R393, 13_energy_planner.md). -/
def Reg.EP_CTRL : Nat := 0x80C00000
/-- `EP_PWR_LIMIT` (R393, 13_energy_planner.md). -/
def Reg.EP_PWR_LIMIT : Nat := 0x80C00008
/-- `EP_THERM` (R393, 13_energy_planner.md). -/
def Reg.EP_THERM : Nat := 0x80C00010
/-- `EP_SEPIA_MASK` (R393, 13_energy_planner.md). -/
def Reg.EP_SEPIA_MASK : Nat := 0x80C00018
/-- `EP_ADMIT` (R393, 13_energy_planner.md). -/
def Reg.EP_ADMIT : Nat := 0x80C00020
/-- `EP_BUDGET` (R393, 13_energy_planner.md). -/
def Reg.EP_BUDGET : Nat := 0x80C00028
/-- `EP_LAST` (R393, 13_energy_planner.md). -/
def Reg.EP_LAST : Nat := 0x80C00030
/-- `EP_DEBT` (R393, 13_energy_planner.md). -/
def Reg.EP_DEBT : Nat := 0x80C00038
/-- `EP_TOTAL` (R393, 13_energy_planner.md). -/
def Reg.EP_TOTAL : Nat := 0x80C00040
/-- `EP_TJ` (R393, 13_energy_planner.md). -/
def Reg.EP_TJ : Nat := 0x80C00048
/-- `EP_AUDIT_CFG` (R393, 13_energy_planner.md). -/
def Reg.EP_AUDIT_CFG : Nat := 0x80C00050
/-- `EP_AUDIT_THR` (R393, 13_energy_planner.md). -/
def Reg.EP_AUDIT_THR : Nat := 0x80C00058
/-- `EP_GREY_CFG` (R393, 13_energy_planner.md). -/
def Reg.EP_GREY_CFG : Nat := 0x80C00060
/-- `EP_ACCT_a` (R393, 13_energy_planner.md). -/
def Reg.EP_ACCT (a : Nat) : Nat := 0x80C00100 + 0x8 * a
/-- `EP_LINE_i` (R393, 13_energy_planner.md). -/
def Reg.EP_LINE (i : Nat) : Nat := 0x80C00400 + 0x8 * i
/-- `EP_STAT` (R393, 13_energy_planner.md). -/
def Reg.EP_STAT : Nat := 0x80C00600
/-- `TS_CTRL` (R416, 14_traffic.md). -/
def Reg.TS_CTRL : Nat := 0x80300000
/-- `TS_GATE_e` (R416, 14_traffic.md). -/
def Reg.TS_GATE (e : Nat) : Nat := 0x80300100 + 0x8 * e
/-- `TS_WEIGHT_q` (R416, 14_traffic.md). -/
def Reg.TS_WEIGHT (q : Nat) : Nat := 0x80300300 + 0x8 * (q - 2)
/-- `TS_SHAPE_p_c` (R416, 14_traffic.md). -/
def Reg.TS_SHAPE (p c : Nat) : Nat := 0x80300400 + 0x20 * p + 0x8 * c
/-- `TS_GREY_c` (R416, 14_traffic.md). -/
def Reg.TS_GREY (c : Nat) : Nat := 0x80300500 + 0x8 * (c - 2)
/-- `TS_BLACKOUT` (R416, 14_traffic.md). -/
def Reg.TS_BLACKOUT : Nat := 0x80300520
/-- `TS_METER_RATE_p_k` (R416, 14_traffic.md). -/
def Reg.TS_METER_RATE (p k : Nat) : Nat := 0x80300600 + 0x20 * p + 0x10 * k
/-- `TS_METER_SIZE_p_k` (R416, 14_traffic.md). -/
def Reg.TS_METER_SIZE (p k : Nat) : Nat := 0x80300608 + 0x20 * p + 0x10 * k
/-- `TS_ROLE_PORT` (R416, 14_traffic.md). -/
def Reg.TS_ROLE_PORT : Nat := 0x80300700
/-- `TS_ALARM_DEST_k` (R416, 14_traffic.md). -/
def Reg.TS_ALARM_DEST (k : Nat) : Nat := 0x80300710 + 0x8 * k
/-- `TS_CMD_COUNT` (R416, 14_traffic.md). -/
def Reg.TS_CMD_COUNT : Nat := 0x80300800
/-- `TS_CMD_STAT` (R416, 14_traffic.md). -/
def Reg.TS_CMD_STAT : Nat := 0x80300808
/-- `TS_CMD_SEQ` (R416, 14_traffic.md). -/
def Reg.TS_CMD_SEQ : Nat := 0x80300810
/-- `TS_STALE_p` (R416, 14_traffic.md). -/
def Reg.TS_STALE (p : Nat) : Nat := 0x80300900 + 0x8 * p
/-- `TS_BLACKOUT_DROP_p` (R416, 14_traffic.md). -/
def Reg.TS_BLACKOUT_DROP (p : Nat) : Nat := 0x80300940 + 0x8 * p
/-- `TS_GATE_STAT` (R416, 14_traffic.md). -/
def Reg.TS_GATE_STAT : Nat := 0x80300980
/-- `TP_METER_RATE_p_c` (R416, 14_traffic.md). -/
def Reg.TP_METER_RATE (p c : Nat) : Nat := 0x80102000 + 0x40 * p + 0x10 * (c - 1)
/-- `TP_METER_SIZE_p_c` (R416, 14_traffic.md). -/
def Reg.TP_METER_SIZE (p c : Nat) : Nat := 0x80102008 + 0x40 * p + 0x10 * (c - 1)
/-- `TP_METER_RED_p` (R416, 14_traffic.md). -/
def Reg.TP_METER_RED (p : Nat) : Nat := 0x80102030 + 0x40 * p
/-- `RM_CTRL` (R438, 15_remote_memory.md). -/
def Reg.RM_CTRL : Nat := 0x80400000
/-- `RM_CC` (R438, 15_remote_memory.md). -/
def Reg.RM_CC : Nat := 0x80400008
/-- `RM_CC_WIN` (R438, 15_remote_memory.md). -/
def Reg.RM_CC_WIN : Nat := 0x80400010
/-- `RM_POST` (R438, 15_remote_memory.md). -/
def Reg.RM_POST : Nat := 0x80400018
/-- `RM_RX_BAD` (R438, 15_remote_memory.md). -/
def Reg.RM_RX_BAD : Nat := 0x80400020
/-- `RM_RX_WINDOW` (R438, 15_remote_memory.md). -/
def Reg.RM_RX_WINDOW : Nat := 0x80400028
/-- `RM_NAK_CNT` (R438, 15_remote_memory.md). -/
def Reg.RM_NAK_CNT : Nat := 0x80400030
/-- `RM_RETX` (R438, 15_remote_memory.md). -/
def Reg.RM_RETX : Nat := 0x80400038
/-- `RM_RING_OVER` (R438, 15_remote_memory.md). -/
def Reg.RM_RING_OVER : Nat := 0x80400040
/-- `RM_MR_REKEY` (R438, 15_remote_memory.md). -/
def Reg.RM_MR_REKEY : Nat := 0x80400048
/-- `RM_MR_REFUSED` (R438, 15_remote_memory.md). -/
def Reg.RM_MR_REFUSED : Nat := 0x80400050
/-- `RM_BOOT_CTRL` (R438, 15_remote_memory.md). -/
def Reg.RM_BOOT_CTRL : Nat := 0x80400100
/-- `RM_BOOT_EP` (R438, 15_remote_memory.md). -/
def Reg.RM_BOOT_EP : Nat := 0x80400108
/-- `RM_BOOT_KEY` (R438, 15_remote_memory.md). -/
def Reg.RM_BOOT_KEY : Nat := 0x80400110
/-- `RM_BOOT_MAP` (R438, 15_remote_memory.md). -/
def Reg.RM_BOOT_MAP : Nat := 0x80400118
/-- `RM_BOOT_LEN` (R438, 15_remote_memory.md). -/
def Reg.RM_BOOT_LEN : Nat := 0x80400120
/-- `RM_BOOT_IMG` (R438, 15_remote_memory.md). -/
def Reg.RM_BOOT_IMG : Nat := 0x80400128
/-- `RM_BOOT_IMGLEN` (R438, 15_remote_memory.md). -/
def Reg.RM_BOOT_IMGLEN : Nat := 0x80400130
/-- `RM_QP_CFG_q` (R438, 15_remote_memory.md). -/
def Reg.RM_QP_CFG (q : Nat) : Nat := 0x80410000 + 0x20 * q
/-- `RM_QP_STAT_q` (R438, 15_remote_memory.md). -/
def Reg.RM_QP_STAT (q : Nat) : Nat := 0x80410008 + 0x20 * q
/-- `RM_QP_CCST_q` (R438, 15_remote_memory.md). -/
def Reg.RM_QP_CCST (q : Nat) : Nat := 0x80410010 + 0x20 * q
/-- `RM_QP_ERR_q` (R438, 15_remote_memory.md). -/
def Reg.RM_QP_ERR (q : Nat) : Nat := 0x80410018 + 0x20 * q
/-- `RM_MR_BASE_r` (R438, 15_remote_memory.md). -/
def Reg.RM_MR_BASE (r : Nat) : Nat := 0x80430000 + 0x20 * r
/-- `RM_MR_ATTR_r` (R438, 15_remote_memory.md). -/
def Reg.RM_MR_ATTR (r : Nat) : Nat := 0x80430008 + 0x20 * r
/-- `RM_MR_RING_r` (R438, 15_remote_memory.md). -/
def Reg.RM_MR_RING (r : Nat) : Nat := 0x80430010 + 0x20 * r
/-- `RM_MR_HEAD_r` (R438, 15_remote_memory.md). -/
def Reg.RM_MR_HEAD (r : Nat) : Nat := 0x80430018 + 0x20 * r
/-- `CE_CTRL` (R452, 16_compression.md). -/
def Reg.CE_CTRL : Nat := 0x80B00000
/-- `CE_STAT` (R452, 16_compression.md). -/
def Reg.CE_STAT : Nat := 0x80B00008
/-- `CE_BYTES_IN` (R452, 16_compression.md). -/
def Reg.CE_BYTES_IN : Nat := 0x80B00010
/-- `CE_BYTES_OUT` (R452, 16_compression.md). -/
def Reg.CE_BYTES_OUT : Nat := 0x80B00018
/-- `CE_XOP_ERR` (R452, 16_compression.md). -/
def Reg.CE_XOP_ERR : Nat := 0x80B00020
/-- `CE_STATUS_CNT_s` (R452, 16_compression.md). -/
def Reg.CE_STATUS_CNT (s : Nat) : Nat := 0x80B00100 + 0x8 * (s - 1)
/-- `MG_STATUS` (R475, 17_management.md). -/
def Reg.MG_STATUS : Nat := 0x80E00000
/-- `MG_FW_INFO` (R475, 17_management.md). -/
def Reg.MG_FW_INFO : Nat := 0x80E00008
/-- `MG_WDOG` (R475, 17_management.md). -/
def Reg.MG_WDOG : Nat := 0x80E00010
/-- `MG_WDOG_KICK` (R475, 17_management.md). -/
def Reg.MG_WDOG_KICK : Nat := 0x80E00018
/-- `MG_RESTART` (R475, 17_management.md). -/
def Reg.MG_RESTART : Nat := 0x80E00020
/-- `MG_EVR_HEAD` (R475, 17_management.md). -/
def Reg.MG_EVR_HEAD : Nat := 0x80E00100
/-- `MG_EVR_OLDEST` (R475, 17_management.md). -/
def Reg.MG_EVR_OLDEST : Nat := 0x80E00108
/-- `MG_EVR_CURSOR` (R475, 17_management.md). -/
def Reg.MG_EVR_CURSOR : Nat := 0x80E00110
/-- `MG_EVR_STAT` (R475, 17_management.md). -/
def Reg.MG_EVR_STAT : Nat := 0x80E00118
/-- `MG_EVR_MIRRORED` (R475, 17_management.md). -/
def Reg.MG_EVR_MIRRORED : Nat := 0x80E00120
/-- `MG_EVR_WIN_w` (R475, 17_management.md). -/
def Reg.MG_EVR_WIN (w : Nat) : Nat := 0x80E00140 + 0x8 * w
/-- `MG_TEMP_q` (R475, 17_management.md). -/
def Reg.MG_TEMP (q : Nat) : Nat := 0x80E00200 + 0x8 * q
/-- `MG_RAIL_j` (R475, 17_management.md). -/
def Reg.MG_RAIL (j : Nat) : Nat := 0x80E00240 + 0x8 * j
/-- `MG_RAIL_LIM_j` (R475, 17_management.md). -/
def Reg.MG_RAIL_LIM (j : Nat) : Nat := 0x80E002C0 + 0x8 * j
/-- `MG_TRIP` (R475, 17_management.md). -/
def Reg.MG_TRIP : Nat := 0x80E00340
/-- `MG_IMG_ACT` (R475, 17_management.md). -/
def Reg.MG_IMG_ACT : Nat := 0x80E00400
/-- `MG_ALERT_DEST_k` (R475, 17_management.md). -/
def Reg.MG_ALERT_DEST (k : Nat) : Nat := 0x80E00500 + 0x8 * k
/-- `MG_ALERT_CFG` (R475, 17_management.md). -/
def Reg.MG_ALERT_CFG : Nat := 0x80E00540
/-- `MG_ALERT_STAT` (R475, 17_management.md). -/
def Reg.MG_ALERT_STAT : Nat := 0x80E00548
/-- `MG_MBX_REQ_PI` (R475, 17_management.md). -/
def Reg.MG_MBX_REQ_PI : Nat := 0x80E01000
/-- `MG_MBX_REQ_CI` (R475, 17_management.md). -/
def Reg.MG_MBX_REQ_CI : Nat := 0x80E01008
/-- `MG_MBX_RSP_PI` (R475, 17_management.md). -/
def Reg.MG_MBX_RSP_PI : Nat := 0x80E01010
/-- `MG_MBX_RSP_CI` (R475, 17_management.md). -/
def Reg.MG_MBX_RSP_CI : Nat := 0x80E01018
/-- `MG_MBX_REQ_i_w` (R475, 17_management.md). -/
def Reg.MG_MBX_REQ (i w : Nat) : Nat := 0x80E02000 + 0x40 * i + 0x8 * w
/-- `MG_MBX_RSP_i_w` (R475, 17_management.md). -/
def Reg.MG_MBX_RSP (i w : Nat) : Nat := 0x80E03000 + 0x40 * i + 0x8 * w
/-- `MG_EP_k_w` (R475, 17_management.md). -/
def Reg.MG_EP (k w : Nat) : Nat := 0x80E08000 + 0x20 * k + 0x8 * w
/-- `MG_AUTH_REFUSED` (R475, 17_management.md). -/
def Reg.MG_AUTH_REFUSED : Nat := 0x80E0A000
/-- `MG_POWER_CYCLES` (R475, 17_management.md). -/
def Reg.MG_POWER_CYCLES : Nat := 0x80E0A008
/-- `MG_OP_SECONDS` (R475, 17_management.md). -/
def Reg.MG_OP_SECONDS : Nat := 0x80E0A010
/-- `OB_CTRL` (R491, 18_observation.md). -/
def Reg.OB_CTRL : Nat := 0x80D00000
/-- `OB_STAT` (R491, 18_observation.md). -/
def Reg.OB_STAT : Nat := 0x80D00008
/-- `OB_BUF_BASE` (R491, 18_observation.md). -/
def Reg.OB_BUF_BASE : Nat := 0x80D00010
/-- `OB_BUF_ENTRIES` (R491, 18_observation.md). -/
def Reg.OB_BUF_ENTRIES : Nat := 0x80D00018
/-- `OB_BUF_SEQ` (R491, 18_observation.md). -/
def Reg.OB_BUF_SEQ : Nat := 0x80D00020
/-- `OB_SNAP_TICK` (R491, 18_observation.md). -/
def Reg.OB_SNAP_TICK : Nat := 0x80D00028
/-- `OB_TRC_SRC` (R491, 18_observation.md). -/
def Reg.OB_TRC_SRC : Nat := 0x80D00030
/-- `OB_TRC_LOST` (R491, 18_observation.md). -/
def Reg.OB_TRC_LOST : Nat := 0x80D00038
/-- `OB_TRC_SENT` (R491, 18_observation.md). -/
def Reg.OB_TRC_SENT : Nat := 0x80D00040
/-- `OB_SEL_k` (R491, 18_observation.md). -/
def Reg.OB_SEL (k : Nat) : Nat := 0x80D00100 + 0x8 * k
/-- `OB_SNAP_k` (R491, 18_observation.md). -/
def Reg.OB_SNAP (k : Nat) : Nat := 0x80D00900 + 0x8 * k
/-- `MG_BU_STATE` (R514, 19_bringup_and_failure.md). -/
def Reg.MG_BU_STATE : Nat := 0x80E00600
/-- `MG_BU_CFG` (R514, 19_bringup_and_failure.md). -/
def Reg.MG_BU_CFG : Nat := 0x80E00608
/-- `MG_BU_TIME_s` (R514, 19_bringup_and_failure.md). -/
def Reg.MG_BU_TIME (s : Nat) : Nat := 0x80E00610 + 0x8 * s
/-- `MG_BU_MAP` (R514, 19_bringup_and_failure.md). -/
def Reg.MG_BU_MAP : Nat := 0x80E00660
/-- `MG_BU_ANN` (R514, 19_bringup_and_failure.md). -/
def Reg.MG_BU_ANN : Nat := 0x80E00668
/-- `BM_AUDIT_SEED` (R265, 09_audit_replay.md): Glexon-owned, at window offset `0x0198`. -/
def Reg.BM_AUDIT_SEED : Nat := 0x198
/-- `RE_ROLE_CFG_n` (R31, 01_fleet_and_tick.md). -/
def Reg.RE_ROLE_CFG (n : Nat) : Nat := 0x80601000 + 0x8 * n

/-- Does the family hold a register at address `a`? -/
def RegFam.covers (f : RegFam) (a : Nat) : Bool :=
  decide (f.base ≤ a) &&
    (let o := a - f.base
     decide (o / f.st1 < f.n1) && decide (o % f.st1 / f.st2 < f.n2) && decide (o % f.st1 % f.st2 = 0))

/-- The family of the register at `a`, if the table has one. -/
def regFind (l : List RegFam) (a : Nat) : Option RegFam := l.find? fun f => f.covers a

/-- The reset value of the register at `a`; 0 where the table has none (R15). -/
def regReset (l : List RegFam) (a : Nat) : Word :=
  match regFind l a with
  | some f => f.reset
  | none => 0

end Sys2Proof.Machine
end

