-- ==== Sys2Proof/Machine/BumasRegs.lean ====
section
/-! DEFINITION. The Bumas host window (R95 to R97, Tables 3.8 to 3.12, 4.14 to 4.17, 5.9, 5.10, 10.6): reading,
writing under the owner rules, and taking RWT values into force. -/

namespace Sys2Proof.Machine

/-- The value in force of the register at window offset `a`, as stored. -/
def Bumas.rd (b : Bumas) (a : Nat) : Word := SMap.get (regReset bmRegFams a) b.regs a

/-- The block with `v` in force at window offset `a`. -/
def Bumas.wr (b : Bumas) (a : Nat) (v : Word) : Bumas :=
  { b with regs := SMap.put (regReset bmRegFams a) b.regs a v }

/-- Out of reset with its supplies good (R100): not UNPOWERED and not RESET. -/
def Bumas.alive (b : Bumas) : Bool := b.pwrOk && b.rstN

/-- The four control bits of BM_CTRL (Table 3.10), as in force. -/
def Bumas.en (b : Bumas) : Bool := bit (b.rd Reg.BM_CTRL) 0
/-- AW_EN. -/
def Bumas.awEn (b : Bumas) : Bool := bit (b.rd Reg.BM_CTRL) 1
/-- PCS_EN. -/
def Bumas.pcsEn (b : Bumas) : Bool := bit (b.rd Reg.BM_CTRL) 2
/-- SNP_EN. -/
def Bumas.snpEn (b : Bumas) : Bool := bit (b.rd Reg.BM_CTRL) 3
/-- HOST_CFG_EN. -/
def Bumas.hostCfgEn (b : Bumas) : Bool := bit (b.rd Reg.BM_CTRL) 7

/-- RUNNING or UNLINKED of Table 3.13: out of reset with EN = 1. -/
def Bumas.running (b : Bumas) : Bool := b.alive && b.en

/-- The Tap link is UP. -/
def Bumas.linkUp (b : Bumas) : Bool := decide (b.tap.tr.st = .up)

/-- The die index held by BM_DIE_INDEX. -/
def Bumas.dieIndex (b : Bumas) : Nat := fld (b.rd Reg.BM_DIE_INDEX) 0 18

/-- Code of TIME_STATE (Table 3.11). -/
def TimeState.code : TimeState → Nat
  | .none => 0
  | .acquiring => 1
  | .locked => 2
  | .holdover => 3

/-- Code of RESET_CAUSE (Table 3.11). -/
def RstCause.code : RstCause → Nat
  | .pwr => 0
  | .rst => 1
  | .tap => 2

/-- Code of TSTATE (Table 5.7). -/
def TState.code : TState → Nat
  | .disabled => 0
  | .detect => 1
  | .train => 2
  | .fecAlign => 3
  | .deskew => 4
  | .init => 5
  | .up => 6

/-- Code of VAL_STATE (Table 4.17). -/
def ValState.code : ValState → Nat
  | .none => 0
  | .running => 1
  | .passed => 2
  | .failed => 3

/-- BM_STATUS (Table 3.11). -/
def Bumas.status (b : Bumas) : Word :=
  word (b.time.clkGap.toNat * 2 ^ 15 + b.time.state.code * 2 ^ 12 + b.tap.tr.width * 2 ^ 10
    + b.probe.progBuf.toNat * 2 ^ 7 + b.probe.progValid.toNat * 2 ^ 6 + b.cause.code * 2 ^ 4
    + b.time.ticking.toNat * 2 ^ 3)

/-- One tick of the local clock is 2⁻³² ns (R48). -/
def nsUnit : Nat := 2 ^ 32

/-- Whole nanoseconds of an instant. -/
def nsOf (t : Nat) : Nat := t / nsUnit

/-- Seconds of an instant, 48 bits. -/
def secOf (t : Nat) : Nat := nsOf t / 1000000000 % 2 ^ 48

/-- Nanoseconds in [45:16] and the visible fraction in [15:0] of an instant (R48, R50). -/
def subOf (t : Nat) : Nat := (nsOf t % 1000000000) * 2 ^ 16 + t % nsUnit / 2 ^ 16

/-- Slots marked in use (BM_AW_SLOTS): granted, sealed or being cleared (R90). -/
def BmAudit.slotMap (a : BmAudit) : Nat :=
  bitsToNat ((List.range 32).map fun s => decide ((SMap.get ({} : AuditSlot) a.slots s).st ≠ .free))

/-- Four 16-bit readings from index `i` up, lowest in [15:0]. -/
def reads4 (d : BitVec 16) (m : SMap (BitVec 16)) (i : Nat) : Word :=
  word ((SMap.get d m i).toNat + (SMap.get d m (i + 1)).toNat * 2 ^ 16
    + (SMap.get d m (i + 2)).toNat * 2 ^ 32 + (SMap.get d m (i + 3)).toNat * 2 ^ 48)

/-- One droop input's half of BM_SNS_DROOP_q (Table 4.14): deepest above events, of the last closed interval. Before any
interval has closed the register holds its reset value. -/
def Droop.half (d : Droop) (any : Bool) : Nat :=
  if any then d.deepestP.toNat * 2 ^ 16 + min d.eventsP 0xFFFF else 0

/-- The value a read of the window returns when nothing is pending: computed fields over the stored ones. -/
def Bumas.view (b : Bumas) (a : Nat) : Word :=
  if a = Reg.BM_STATUS then b.status
  else if a = Reg.BM_TICKNO then b.time.tickNo
  else if a = Reg.BM_TIME_SEC then word (secOf b.time.clk)
  else if a = Reg.BM_AW_SLOTS then word b.audit.slotMap
  else if a = Reg.BM_ENERGY_SNAP then b.energyN
  else if a = Reg.BM_ENERGY_TICK then b.energyN - b.energyP
  else if a = Reg.BM_ENERGY_INCS then word (satN 32 b.incsP)
  else if a = Reg.BM_PROBE_STAT then
    putFld (putFld (b.rd a) 30 2 b.probe.val.code) 14 10 b.probe.valPc
  else if a = Reg.BM_PROBE_ACTIVE then word (b.probe.tag.toNat * 2 ^ 32 + b.probe.len * 2 ^ 16)
  else if a = Reg.BM_TAP_STATE then
    word (satN 8 b.tap.tr.retrains * 2 ^ 24 + b.tap.tr.st.code * 2 ^ 12 + b.tap.tr.width * 2 ^ 10
      + b.tap.tr.lane1.toNat * 2 ^ 9 + b.tap.tr.lane0.toNat * 2 ^ 8)
  else if a = Reg.BM_TAP_CMD_STAT then putFld (b.rd a) 32 32 b.tap.next.toNat
  else if 0x8000 ≤ a then SMap.get 0 b.snapN ((a - 0x8000) / 8)
  else if Reg.BM_SNS_THERM 0 ≤ a ∧ a < Reg.BM_SNS_THERM 8 then
    reads4 0x8000 b.therm.reads ((a - Reg.BM_SNS_THERM 0) / 8 * 4)
  else if Reg.BM_SNS_VMON 0 ≤ a ∧ a < Reg.BM_SNS_VMON 4 then
    reads4 0xFFFF b.volt.reads ((a - Reg.BM_SNS_VMON 0) / 8 * 4)
  else if Reg.BM_SNS_DROOP 0 ≤ a ∧ a < Reg.BM_SNS_DROOP 4 then
    let q := (a - Reg.BM_SNS_DROOP 0) / 8
    let any := decide (b.time.firstTick ≠ none)
    word ((SMap.get {} b.droop (2 * q)).half any + (SMap.get {} b.droop (2 * q + 1)).half any * 2 ^ 32)
  else if Reg.BM_SNP_MSGS 0 ≤ a ∧ a < Reg.BM_SNP_MSGS 16 then
    word (SMap.get {} b.snoop ((a - Reg.BM_SNP_MSGS 0) / 8)).prev.msgs
  else b.rd a

/-- Who reads or writes: the host port or a Tap command (R95). -/
inductive BmAgent where
  | host | tap
  deriving DecidableEq, Repr

/-- A read of the window (R96): an RWT register reads the written value at once (R14); BM_AUDIT_SEED reads 0 on the host
port (R265); offsets with no register read 0 (R15). -/
def Bumas.csrRead (b : Bumas) (who : BmAgent) (a : Nat) : Word :=
  if who = .host ∧ a = Reg.BM_AUDIT_SEED then 0
  else match SMap.get none b.rwt a with
    | some v => v
    | none => b.view a

/-- The probe buffer that the window offset `a` belongs to. -/
def progBufOf (a : Nat) : Option Bool :=
  if 0x2000 ≤ a ∧ a < 0x3000 then some false
  else if 0x3000 ≤ a ∧ a < 0x4000 then some true
  else none

/-- May buffer `buf` be written now (R116, R117)? -/
def Bumas.bufWritable (b : Bumas) (buf : Bool) : Bool :=
  !b.probe.swap && (!b.probe.progValid || buf != b.probe.progBuf)

/-- Does the register accept a write by this agent (R96, R116)? Offsets with no register accept and ignore it. -/
def Bumas.csrMayWrite (b : Bumas) (who : BmAgent) (a : Nat) : Bool :=
  if 0x8000 ≤ a then false
  else match regFind bmRegFams a with
    | none => true
    | some f =>
      (match f.acc with
       | .ro => false
       | _ => match who, f.own with
         | .host, .host => true
         | .host, .glexon => b.hostCfgEn
         | .host, .none => false
         | .tap, .glexon => true
         | .tap, _ => false)
      && (match progBufOf a with
          | some buf => b.bufWritable buf
          | none => true)

/-- The value an RW or RWT register takes from written data: reserved bits stay 0 (R15). The host cannot set
HOST_CFG_EN, only the Glexon can (R96). -/
def Bumas.csrValue (b : Bumas) (who : BmAgent) (f : RegFam) (a : Nat) (v : Word) : Word :=
  let w := v &&& f.wmask
  if who = .host ∧ a = Reg.BM_CTRL then putBit w 7 (bit w 7 && bit (b.csrRead .tap a) 7) else w

/-- SWAP = 1 written to BM_PROBE_CTRL (R116): validation of the inactive buffer starts. -/
def Bumas.startValidation (b : Bumas) (v : Word) : Bumas :=
  { b with probe := { b.probe with
      swap := true, val := .running, valPc := 0, valLen := fld v 16 11, valTag := BitVec.ofNat 32 (fld v 32 32) } }

/-- An accepted write takes effect by its access code (R14): at once, or at the next boundary for RWT. -/
def Bumas.csrApply (b : Bumas) (who : BmAgent) (a : Nat) (v : Word) : Bumas :=
  match regFind bmRegFams a with
  | none => b
  | some f =>
    match f.acc with
    | .rw => b.wr a (b.csrValue who f a v)
    | .w1c => b.wr a (b.rd a &&& ~~~(v &&& f.cmask))
    | .rwt =>
      let b1 := { b with rwt := SMap.put none b.rwt a (some (b.csrValue who f a v)) }
      if a = Reg.BM_PROBE_CTRL ∧ bit v 0 then b1.startValidation v else b1
    | _ => b

/-- A write through the window: the block after it, and whether it was accepted. A refused write has no effect. -/
def Bumas.csrWrite (b : Bumas) (who : BmAgent) (a : Nat) (v : Word) : Bumas × Bool :=
  if b.csrMayWrite who a then (b.csrApply who a v, true) else (b, false)

/-- Sets bits of BM_IRQ_STAT (R94). -/
def Bumas.irqSet (b : Bumas) (i : Nat) : Bumas := b.wr Reg.BM_IRQ_STAT (putBit (b.rd Reg.BM_IRQ_STAT) i true)

/-- `bm_irq` (R94): high while an enabled interrupt bit is set; at its reset level unless EN = 1 (Table 3.13). -/
def Bumas.irq (b : Bumas) : Bool :=
  b.running && decide (b.rd Reg.BM_IRQ_STAT &&& b.rd Reg.BM_IRQ_EN ≠ 0)

/-- `bm_aw_ready` (R91). -/
def Bumas.awReady (b : Bumas) : Bool := b.running && b.awEn

/-- Puts every written RWT value in force (R14, R16) and forgets it as pending. -/
def Bumas.commitRwt (b : Bumas) : Bumas :=
  { (b.rwt.foldl (fun b p => b.wr p.1 (p.2.getD 0)) b) with rwt := [] }

end Sys2Proof.Machine
end

