-- ==== Sys2Proof/Machine/BumasTx.lean ====
section
/-! DEFINITION. How the Bumas closes records, meters them, queues them on the Tap link and discards them
(R132, R145 to R150, R270). -/

namespace Sys2Proof.Machine

/-- Whole ns of the Bumas local clock. -/
def Bumas.nowNs (b : Bumas) : Nat := nsOf b.time.clk

/-- Short time (R64): ns since the fleet epoch modulo 2³². -/
def shortOf (epoch ns : Nat) : BitVec 32 := BitVec.ofInt 32 ((ns : Int) - (epoch : Int))

/-- A record of the current tick before it closes (R132): source, tick, short time of S_n, stamp, alive counter. -/
def Bumas.mkRec (b : Bumas) (typ cls : Nat) (payload : List Byte) (part : Bool) : Rec :=
  let ws := b.rd Reg.BM_WS
  { typ := BitVec.ofNat 16 typ, cls := BitVec.ofNat 4 cls, colour := 0,
    flags := mkFlags (part || b.time.partialT || b.time.clkGap) false false b.time.holdTick,
    src := BitVec.ofNat 32 b.dieIndex, tick := b.time.tickNo,
    shortTime := shortOf b.time.epoch (nsOf b.time.sEdge), seq := 0,
    wsId := BitVec.ofNat 12 (fld ws 0 12), wsGen := BitVec.ofNat 16 (fld ws 16 16),
    alive := b.tap.alive, payload := payload }

/-- Bytes of a queued record still in transmit space (R149): space returns as its blocks leave. -/
def TxRec.space (t : TxRec) : Nat := Rec.size t.r - 56 * t.sent

/-- Transmit space in use by the classes for which `f` holds. -/
def BmTap.used (t : BmTap) (f : Nat → Bool) : Nat :=
  ((t.q.filter fun x => f x.r.cls.toNat).map TxRec.space).sum

/-- Frees an audit slot (R90): its bytes are zeroed, and it counts as free once the clearing has ended. -/
def Bumas.freeSlot (b : Bumas) (s : Nat) : Bumas :=
  { b with audit := { b.audit with
      slots := SMap.put {} b.audit.slots s { (SMap.get {} b.audit.slots s) with st := .clearing } } }

/-- Discards one record (R149, R150): a LOSS record's counts and range merge into the next one; any other adds to
BM_TAP_DROP_c and the loss counts; a Sienna record's slot is freed. -/
def Bumas.discard (b : Bumas) (t : TxRec) : Bumas :=
  match t.loss with
  | some l =>
    let add (m x : SMap Nat) : SMap Nat :=
      (List.range 4).foldl (fun m c => SMap.mod 0 m c fun v => satN 32 (v + SMap.get 0 x c)) m
    { b with tap := { b.tap with
        lossRecs := add b.tap.lossRecs l.recs, lossWords := add b.tap.lossWords l.words,
        lossFirst := some l.first } }
  | none =>
    let c := t.r.cls.toNat
    let w := 5 + Rec.words t.r
    let b1 := b.wr (Reg.BM_TAP_DROP c) (satFld (satFld (b.rd (Reg.BM_TAP_DROP c)) 32 32 1) 0 32 w)
    let b2 := { b1 with tap := { b1.tap with
        lossRecs := SMap.mod 0 b1.tap.lossRecs c fun v => satN 32 (v + 1),
        lossWords := SMap.mod 0 b1.tap.lossWords c fun v => satN 32 (v + w) } }
    match t.slot with
    | some s => b2.freeSlot s
    | none => b2

/-- Discards the queued records for which `p` holds, oldest first. -/
def Bumas.discardWhere (b : Bumas) (p : TxRec → Bool) : Bumas :=
  let gone := b.tap.q.filter p
  gone.foldl Bumas.discard { b with tap := { b.tap with q := b.tap.q.filter fun t => !p t } }

/-- The meter's bucket sizes for a BM_TAP_METER_c value, in 1/8,000 byte: CBS and EBS (R147). -/
def meterCaps (w : Word) : Nat × Nat := (fld w 20 20 * 64 * 8000, fld w 0 20 * 64 * 8000)

/-- Brings a single-rate three-colour marker up to time `ns` (RFC 2697): CIR Mb/s adds CIR units of 1/8,000 byte per
ns, to the committed bucket first. -/
def Meter.refill (m : Meter) (w : Word) (ns : Nat) : Meter :=
  let caps := meterCaps w
  let add := fld w 40 24 * (ns - m.last)
  let x := min add (caps.1 - m.tc)
  { tc := m.tc + x, te := min caps.2 (m.te + (add - x)), last := ns }

/-- The colour of a record of `size` bytes (R147), colour-blind: 0 green, 1 yellow, 2 red, and the meter after it. -/
def Meter.colour (m : Meter) (w : Word) (ns size : Nat) : Nat × Meter :=
  if fld w 40 24 = 0 then (0, m)
  else
    let m := m.refill w ns
    let s := size * 8000
    if s ≤ m.tc then (0, { m with tc := m.tc - s })
    else if s ≤ m.te then (1, { m with te := m.te - s })
    else (2, m)

/-- Appends a metered record to the transmit queue. -/
def Bumas.pushTx (b : Bumas) (t : TxRec) : Bumas :=
  let c := t.r.cls.toNat
  if c = 0 then { b with tap := { b.tap with q := b.tap.q ++ [t] } }
  else
    let cm := (SMap.get {} b.tap.meters c).colour (b.rd (Reg.BM_TAP_METER c)) b.nowNs (Rec.size t.r)
    { b with tap := { b.tap with
        meters := SMap.put {} b.tap.meters c cm.2,
        q := b.tap.q ++ [{ t with r := { t.r with colour := BitVec.ofNat 2 cm.1 } }] } }

/-- Evicts one queued, unstarted record of class `c` and colour `col`, the oldest; none where there is none. -/
def Bumas.evictOne (b : Bumas) (c : Nat) (col : Nat) : Option Bumas :=
  match b.tap.q.find? fun t => decide (t.r.cls.toNat = c ∧ t.sent = 0 ∧ t.r.colour.toNat = col) with
  | some v => some ({ b with tap := { b.tap with q := b.tap.q.erase v } }.discard v)
  | none => none

/-- Evicts Mauve records until `need` bytes fit the shared buffer of 256 KiB (R149 item 1): red, yellow, green. -/
def Bumas.evictMauve : Nat → Bumas → Nat → Bumas
  | 0, b, _ => b
  | f + 1, b, need =>
    if b.tap.used (fun c => c = 1 || c = 3) + need ≤ 262144 then b
    else match b.evictOne 3 2 with
      | some b' => Bumas.evictMauve f b' need
      | none => match b.evictOne 3 1 with
        | some b' => Bumas.evictMauve f b' need
        | none => match b.evictOne 3 0 with
          | some b' => Bumas.evictMauve f b' need
          | none => b

/-- Evicts Indigo records until `need` bytes fit the reserve of 8 KiB (R149 item 4). -/
def Bumas.evictIndigo : Nat → Bumas → Nat → Bumas
  | 0, b, _ => b
  | f + 1, b, need =>
    if b.tap.used (fun c => c = 0) + need ≤ 8192 then b
    else match b.evictOne 0 0 with
      | some b' => Bumas.evictIndigo f b' need
      | none => b

/-- A closing record meets R149 items 6, 5, 4 and 1, and is queued or discarded. -/
def Bumas.enqueue (b : Bumas) (t : TxRec) : Bumas :=
  let c := t.r.cls.toNat
  let size := Rec.size t.r
  if ¬ b.linkUp then b.discard t
  else if c ≠ 0 ∧ bit (b.rd Reg.BM_TAP_BLACKOUT) c then b.discard t
  else if c = 0 then (b.evictIndigo b.tap.q.length size).pushTx t
  else if c = 2 then b.pushTx t
  else
    let b1 := if c = 1 then b.evictMauve b.tap.q.length size else b
    if b1.tap.used (fun c => c = 1 || c = 3) + size ≤ 262144 then b1.pushTx t else b1.discard t

/-- A record closes (R132): it takes the next sequence number and enters the Tap transmit queue. -/
def Bumas.close (b : Bumas) (r : Rec) (slot : Option Nat := none) (loss : Option LossInfo := none) : Bumas :=
  let r' := { r with seq := b.tap.seq }
  { b with tap := { b.tap with seq := b.tap.seq + 1 } }.enqueue { r := r', slot := slot, loss := loss }

/-- The payload of a LOSS record (Table 4.13). -/
def LossInfo.payload (l : LossInfo) : List Byte :=
  leBytes 8 l.first.toNat ++ leBytes 4 l.ticks ++ leBytes 4 0
  ++ ((List.range 4).map fun c => leBytes 4 (SMap.get 0 l.recs c) ++ leBytes 4 (SMap.get 0 l.words c)).flatten

/-- At a boundary (R150): unstarted LOSS records merge, and one LOSS record closes if any loss count is not zero
and EN = 1. -/
def Bumas.closeLoss (b : Bumas) : Bumas :=
  if ¬ b.en ∨ (b.tap.lossRecs = [] ∧ b.tap.lossWords = []) then b
  else
    let b1 := b.discardWhere fun t => t.loss.isSome && decide (t.sent = 0)
    let first := b1.tap.lossFirst.getD (b1.time.firstTick.getD b1.time.tickNo)
    let l : LossInfo := { recs := b1.tap.lossRecs, words := b1.tap.lossWords, first := first,
                          ticks := (b1.time.tickNo - first).toNat }
    let b2 := { b1 with tap := { b1.tap with lossRecs := [], lossWords := [] } }
    b2.close (b2.mkRec 0x010A 0 l.payload false) none (some l)

/-- Fills a meter to its caps and a shaper to its burst when their registers take effect (R147, R148). -/
def Bumas.refillWritten (b : Bumas) (written : List Nat) : Bumas :=
  [1, 2, 3].foldl (fun b c =>
    let b1 := if Reg.BM_TAP_METER c ∈ written then
        let caps := meterCaps (b.rd (Reg.BM_TAP_METER c))
        { b with tap := { b.tap with
            meters := SMap.put {} b.tap.meters c { tc := caps.1, te := caps.2, last := b.nowNs } } }
      else b
    if Reg.BM_TAP_SHAPE c ∈ written then
      { b1 with tap := { b1.tap with
          shapers := SMap.put {} b1.tap.shapers c
            { tok := fld (b1.rd (Reg.BM_TAP_SHAPE c)) 0 24 * 8000, last := b1.nowNs } } }
    else b1) b

end Sys2Proof.Machine
end

