-- ==== Sys2Proof/Machine/CoreState.lean ====
section
/-! DEFINITION. The state of the audit cores and model cores (chapters 7 and 8): register files, results still in their
latency, far accesses, tags, engine queues, tiles, configuration slots, and the trace sources that watch them. -/

namespace Sys2Proof.Machine

/-- A vector register (R198). -/
abbrev VReg := BitVec 1024

/-- What a far access does when it is performed (Table 7.11). -/
inductive FarKind where
  | load (n : Nat) (signed : Bool)
  | add (v : Word)
  | cas (v c : Word)
  deriving DecidableEq, Repr

/-- A far load or atomic that has not returned (R215): its destination, address, the bundle it stands in, and the value
it took, once it has been performed. -/
structure FarAccess where
  reg  : Nat
  addr : Nat
  kind : FarKind
  pc   : Nat
  got  : Option Word := none
  deriving DecidableEq, Repr

/-- A result on its way (R195): what it changes when it becomes visible. -/
inductive Effect where
  | g (r : Nat) (v : Word)
  | v (r : Nat) (val mask : VReg)
  | p (r : Nat) (val mask : BitVec 32)
  | fpstat (v : Word)
  | flags (f : Nat)
  | store (segs : List (Nat × List Byte))
  | amo (f : FarAccess)
  | far (f : FarAccess)
  deriving DecidableEq, Repr

/-- A result with the cycle it becomes visible in, the cycle it was issued in, and its slot (R195, R196). -/
structure Flight where
  due  : Nat
  sent : Nat
  slot : Nat
  eff  : Effect
  deriving DecidableEq, Repr

/-- What a core waits for (R197). -/
inductive Wait where
  | none
  /-- the next bundle names these registers, which await far loads -/
  | farLoad (regs : List Nat)
  /-- all eight far-load places are taken -/
  | farPlace
  | tags (mask : BitVec 32) (reg : Nat)
  | fenceM | fenceE | fenceX | fenceF
  | ticksync
  deriving DecidableEq, Repr

/-- Where a core stands in its tick (Table 7.17). -/
inductive CorePhase where
  /-- before ENTRY, or kept from working -/
  | idle
  | issuing
  | joined
  | dozing
  | aborted
  deriving DecidableEq, Repr

/-- An engine operation and its operands as issued (Table 8.1). -/
inductive EngKind where
  | mma (tile : Nat) (a b : Nat) (kq fmtA fmtB : Nat) (zero : Bool) (net : Nat)
  | tld (tile : Nat) (a : Nat) (isInt : Bool)
  | tst (tile : Nat) (a : Nat) (out : Nat)
  | accnet (a : Nat) (net : Nat)
  | dma (loc far len : Nat) (toFar : Bool)
  | xop (a : Nat) (code : Nat)
  | vprog (a : Nat) (count : Nat)
  deriving DecidableEq, Repr

/-- An operation in a queue (R232, R233): issued, perhaps begun, not completed. -/
structure EngOp where
  q     : EngQueue
  tag   : Nat
  kind  : EngKind
  begun : Bool := false
  /-- the bytes read when it began -/
  data  : List Byte := []
  /-- the configuration slot captured when an MMA began (R238) -/
  cfg   : List Byte := []
  /-- poisoned data was read -/
  bad   : Bool := false
  /-- a shared engine rejected the descriptor or reports an error -/
  err   : Bool := false
  /-- another access overlapped it, so that its result is unspecified (R251) -/
  spoilt : Bool := false
  /-- the pc and `g` registers at its issue -/
  pc    : Nat := 0
  gs    : SMap Word := []
  deriving DecidableEq, Repr

/-- A tile (R241): the kind, the 4,096 words in row order, and whether it is poisoned. `free k` is a tile whose contents
are unspecified, the k-th such. -/
inductive Tile where
  | known (isInt : Bool) (words : List Word)
  | free (k : Nat)
  deriving DecidableEq, Repr

/-- The registers of one vector engine 1 to 3 of a model core (R246). -/
structure VecEngine where
  v : SMap VReg := []
  p : SMap (BitVec 32) := []
  deriving DecidableEq, Repr

/-! ### Trace sources (R482 to R486) -/

/-- Why a source's next instruction is preceded by SYNC (Table 18.3). -/
inductive SyncWhy where
  | enable | wake | resync | periodic
  deriving DecidableEq, Repr

/-- A trace source. -/
structure TrcSrc where
  on     : Bool := false
  due    : Option SyncWhy := none
  issued : Nat := 0
  /-- reference cycle of the last packet, in the source's always-on count -/
  refCyc : Nat := 0
  since  : Nat := 0
  fifo   : List (List Byte) := []
  lost   : Nat := 0
  deriving DecidableEq, Repr

/-- A core. Register maps list what is not 0; `tiles` what was written in this tick, `slots` the valid configuration slots. -/
structure Core where
  phase  : CorePhase := .idle
  wait   : Wait := .none
  pc     : Nat := 0
  /-- issue cycle (TCYC) of the open or last bundle -/
  cyc    : Nat := 0
  /-- a bundle is open, and the lowest slot that it may still issue -/
  isOpen : Bool := false
  next   : Nat := 0
  /-- where and in which cycle the next bundle issues -/
  npc    : Nat := 0
  ncyc   : Nat := 0
  g      : SMap Word := []
  v      : SMap VReg := []
  p      : SMap (BitVec 32) := []
  fpstat : Word := 0
  flight : List Flight := []
  far    : List FarAccess := []
  stall  : Nat := 0
  tags   : SMap (BitVec 2) := []
  ops    : List EngOp := []
  tiles  : SMap Tile := []
  /-- tiles (by engine and number) that are poisoned -/
  badTile : SMap Bool := []
  /-- index of the unspecified contents that every tile not listed has -/
  tileGen : Nat := 0
  slots  : SMap (List Byte) := []
  vecs   : SMap VecEngine := []
  /-- Entry bundle of this tick's work -/
  entry  : Nat := 0
  /-- admission bits of the core's Sepia lines (R387) -/
  lineMask  : Word := 0
  /-- in the barrier set of R253 -/
  inSet  : Bool := false
  /-- local times, ns, of the last residue faults, newest first (R256) -/
  resid  : List Nat := []
  /-- boundary number at which a withdrawal takes effect, and its cause code (R257) -/
  wdraw  : Option (Word × Nat) := none
  /-- the tick in which it was withdrawn -/
  wTick  : Nat := 0
  /-- its self-check of this tick has yet to end; it is for a restore -/
  check  : Bool := false
  restore : Bool := false
  /-- writes posted to the Remote Memory Engine and not acknowledged (R252) -/
  posted : Nat := 0
  /-- the core's trace source as it stood before the open bundle -/
  undo   : Option TrcSrc := none
  deriving DecidableEq, Repr

end Sys2Proof.Machine
end

