-- ==== Sys2Proof/Machine/Deflate.lean ====
section
/-! DEFINITION. RFC 1951 streams as the Compression Engine makes and reads them (R444 to R449): greedy hash-chain matching,
block choice, package-merge codes, and inflation with its outcomes. Pure functions; the engine is in Compress.lean. -/

namespace Sys2Proof.Machine

/-! ### Tables of RFC 1951 -/

/-- First length and extra bits of length codes 257 to 285. -/
def lenTable : List (Nat × Nat) :=
  [(3, 0), (4, 0), (5, 0), (6, 0), (7, 0), (8, 0), (9, 0), (10, 0), (11, 1), (13, 1), (15, 1), (17, 1), (19, 2), (23, 2),
   (27, 2), (31, 2), (35, 3), (43, 3), (51, 3), (59, 3), (67, 4), (83, 4), (99, 4), (115, 4), (131, 5), (163, 5), (195, 5),
   (227, 5), (258, 0)]

/-- First distance and extra bits of distance codes 0 to 29. -/
def distTable : List (Nat × Nat) :=
  [(1, 0), (2, 0), (3, 0), (4, 0), (5, 1), (7, 1), (9, 2), (13, 2), (17, 3), (25, 3), (33, 4), (49, 4), (65, 5), (97, 5),
   (129, 6), (193, 6), (257, 7), (385, 7), (513, 8), (769, 8), (1025, 9), (1537, 9), (2049, 10), (3073, 10), (4097, 11),
   (6145, 11), (8193, 12), (12289, 12), (16385, 13), (24577, 13)]

/-- The order in which code-length code lengths stand. -/
def clOrder : List Nat := [16, 17, 18, 0, 8, 7, 9, 6, 10, 5, 11, 4, 12, 3, 13, 2, 14, 1, 15]

/-- The lengths of the fixed literal/length code. -/
def fixedLit : List Nat :=
  List.replicate 144 8 ++ List.replicate 112 9 ++ List.replicate 24 7 ++ List.replicate 8 8

/-- The lengths of the fixed distance code. -/
def fixedDist : List Nat := List.replicate 32 5

/-- The canonical codes of a list of code lengths: (length, code) for each symbol, length 0 for an unused one. -/
def canonical (ls : List Nat) : List (Nat × Nat) :=
  let cnt (l : Nat) : Nat := if l = 0 then 0 else (ls.filter fun x => x = l).length
  let first : List Nat := ((List.range 15).foldl (fun (acc : List Nat × Nat) l =>
    let c := (acc.2 + cnt l) * 2
    (acc.1 ++ [c], c)) ([0], 0)).1
  (ls.foldl (fun (acc : List (Nat × Nat) × List Nat) l =>
    if l = 0 then (acc.1 ++ [(0, 0)], acc.2)
    else (acc.1 ++ [(l, acc.2.getD l 0)], acc.2.set l (acc.2.getD l 0 + 1))) ([], first)).1

/-! ### Inflating -/

/-- Bit `i` of a byte stream, least significant first in each byte. -/
def streamBit (l : Array Byte) (i : Nat) : Option Bool := (l[i / 8]?).map fun b => b.getLsbD (i % 8)

/-- `n` bits at position `i`, least significant first. -/
def streamBits (l : Array Byte) (i n : Nat) : Option Nat :=
  (List.range n).foldr (fun j acc => match acc, streamBit l (i + j) with
    | some a, some b => some (2 * a + b.toNat)
    | _, _ => none) (some 0)

/-- The outcome of reading a Huffman symbol. -/
inductive SymRes where
  | sym (s : Nat) (pos : Nat)
  | short
  | none
  deriving DecidableEq, Repr

/-- Reads one symbol of a canonical code; `code` and `len` are what has been read of it. -/
def readSym (l : Array Byte) (codes : List (Nat × Nat)) : Nat → Nat → Nat → Nat → SymRes
  | 0, _, _, _ => .none
  | f + 1, pos, len, code =>
    match streamBit l pos with
    | none => .short
    | some b =>
      let c := 2 * code + b.toNat
      match codes.findIdx? (fun e => e.1 = len + 1 && e.2 = c) with
      | some s => .sym s (pos + 1)
      | none => readSym l codes f (pos + 1) (len + 1) c

/-- Is a set of code lengths complete; or, for distances, one code of length 1 (R448)? -/
def treeOk (dist : Bool) (ls : List Nat) : Bool :=
  let used := ls.filter fun x => x ≠ 0
  let sum := (used.map fun x => 2 ^ (15 - x)).sum
  decide (sum = 2 ^ 15) || (dist && decide (used = [1]))

/-- How inflation stands. `out` is in reverse order. -/
structure Inf where
  pos : Nat
  out : List Byte
  n   : Nat
  deriving DecidableEq, Repr

/-- How a stretch of inflation ends: it goes on, the output cap, the end of the input, or a malformed stream's status. -/
inductive InfEnd where
  | more
  | cap
  | input
  | bad (status : Nat)
  deriving DecidableEq, Repr

/-- Copies a match; only bytes below the cap are written. -/
def copyMatch (cap dist : Nat) : Nat → Inf → Inf × Bool
  | 0, s => (s, true)
  | k + 1, s =>
    if cap ≤ s.n then (s, false)
    else copyMatch cap dist k { s with out := s.out.getD (dist - 1) 0 :: s.out, n := s.n + 1 }

/-- At the end of the input: the cap prevails where the output has reached it (R449). -/
def inputEnd (cap : Nat) (s : Inf) : Inf × InfEnd := (s, if cap ≤ s.n then .cap else .input)

/-- The symbols of one compressed block, up to its end-of-block. -/
def inflateSyms (l : Array Byte) (lit dist : List (Nat × Nat)) (cap : Nat) : Nat → Inf → Inf × InfEnd
  | 0, s => (s, .input)
  | f + 1, s =>
    match readSym l lit 15 s.pos 0 0 with
    | .short => inputEnd cap s
    | .none => (s, .bad 12)
    | .sym v p =>
      if v = 256 then ({ s with pos := p }, .more)
      else if 285 < v then (s, .bad 12)
      else if v < 256 then
        if cap ≤ s.n then (s, .cap)
        else inflateSyms l lit dist cap f { pos := p, out := BitVec.ofNat 8 v :: s.out, n := s.n + 1 }
      else
        let le := lenTable.getD (v - 257) (0, 0)
        match streamBits l p le.2 with
        | none => inputEnd cap s
        | some lx =>
          match readSym l dist 15 (p + le.2) 0 0 with
          | .short => inputEnd cap s
          | .none => (s, .bad 12)
          | .sym d p2 =>
            if 29 < d then (s, .bad 12)
            else
              let de := distTable.getD d (0, 0)
              match streamBits l p2 de.2 with
              | none => inputEnd cap s
              | some dx =>
                let di := de.1 + dx
                if 32768 < di ∨ s.n < di then (s, .bad 13)
                else
                  let r := copyMatch cap di (le.1 + lx) s
                  if r.2 then inflateSyms l lit dist cap f { r.1 with pos := p2 + de.2 } else (r.1, .cap)

/-- The code lengths of a dynamic block's two trees, run-length coded. -/
def readLens (l : Array Byte) (cl : List (Nat × Nat)) (total : Nat) : Nat → Nat → List Nat → Option (List Nat × Nat) × Nat
  | 0, _, _ => (none, 11)
  | f + 1, pos, acc =>
    if total ≤ acc.length then (if acc.length = total then (some (acc, pos), 0) else (none, 11))
    else
      match readSym l cl 7 pos 0 0 with
      | .short => (none, 6)
      | .none => (none, 11)
      | .sym v p =>
        if v < 16 then readLens l cl total f p (acc ++ [v])
        else
          let n := if v = 18 then 7 else if v = 17 then 3 else 2
          match streamBits l p n with
          | none => (none, 6)
          | some x =>
            if v = 16 then
              match acc.getLast? with
              | none => (none, 11)
              | some b => readLens l cl total f (p + n) (acc ++ List.replicate (3 + x) b)
            else readLens l cl total f (p + n) (acc ++ List.replicate ((if v = 18 then 11 else 3) + x) 0)

/-- One block: whether it is the last, the state after it, and how it ended. -/
def inflateBlock (l : Array Byte) (cap : Nat) (s : Inf) : Bool × Inf × InfEnd :=
  match streamBits l s.pos 3 with
  | none => let r := inputEnd cap s
            (false, r.1, r.2)
  | some h =>
    let fin := decide (h % 2 = 1)
    let fuel := 8 * l.size + 1
    match h / 2 with
    | 0 =>
      let p := (s.pos + 3 + 7) / 8 * 8
      match streamBits l p 16, streamBits l (p + 16) 16 with
      | some n, some m =>
        if m ≠ 65535 - n then (fin, s, .bad 10)
        else
          let have_ := (l.toList.drop (p / 8 + 4)).take n
          let room := cap - s.n
          let w := have_.take room
          let s1 : Inf := { pos := p + 32 + 8 * w.length, out := w.reverse ++ s.out, n := s.n + w.length }
          if w.length = n then (fin, s1, .more)
          else if room < n ∧ w.length = room then (fin, s1, .cap)
          else (fin, s1, .input)
      | _, _ => let r := inputEnd cap s
                (fin, r.1, r.2)
    | 1 =>
      let r := inflateSyms l (canonical fixedLit) (canonical fixedDist) cap fuel { s with pos := s.pos + 3 }
      (fin, r.1, r.2)
    | 2 =>
      match streamBits l (s.pos + 3) 5, streamBits l (s.pos + 8) 5, streamBits l (s.pos + 13) 4 with
      | some hl, some hd, some hc =>
        if 286 < hl + 257 ∨ 30 < hd + 1 then (fin, s, .bad 11)
        else
          match (List.range (hc + 4)).mapM fun i => streamBits l (s.pos + 17 + 3 * i) 3 with
          | none => let r := inputEnd cap s
                    (fin, r.1, r.2)
          | some cs =>
            let cl := (List.range 19).map fun sym => ((clOrder.findIdx? (· = sym)).bind (cs[·]?)).getD 0
            if treeOk false cl = false then (fin, s, .bad 11)
            else
              match readLens l (canonical cl) (hl + 257 + hd + 1) 400 (s.pos + 17 + 3 * (hc + 4)) [] with
              | (none, e) => if e = 6 then (let r := inputEnd cap s
                                            (fin, r.1, r.2)) else (fin, s, .bad e)
              | (some (ls, p), _) =>
                let lit := ls.take (hl + 257)
                let dst := ls.drop (hl + 257)
                if treeOk false lit = false ∨ treeOk true dst = false then (fin, s, .bad 11)
                else
                  let r := inflateSyms l (canonical lit) (canonical dst) cap fuel { s with pos := p }
                  (fin, r.1, r.2)
      | _, _, _ => let r := inputEnd cap s
                   (fin, r.1, r.2)
    | _ => (fin, s, .bad 9)

/-- The result of inflating: the status (Table 16.3), the output, the input bytes consumed, and blocks decoded. -/
structure InfRes where
  status   : Nat
  out      : List Byte
  consumed : Nat
  blocks   : Nat
  deriving DecidableEq, Repr

/-- Inflates from the start of a stream, to an output cap (R448, R449). -/
def inflate (l : Array Byte) (cap : Nat) : Nat → Inf → Nat → InfRes
  | 0, s, k => ⟨6, s.out.reverse, l.size, k⟩
  | f + 1, s, k =>
    match inflateBlock l cap s with
    | (true, s1, .more) =>
      let used := (s1.pos + 7) / 8
      ⟨if used < l.size then 8 else 0, s1.out.reverse, used, k + 1⟩
    | (false, s1, .more) => inflate l cap f s1 (k + 1)
    | (_, s1, .cap) => ⟨7, s1.out.reverse, min l.size ((s1.pos + 7) / 8), k + 1⟩
    | (_, s1, .input) => ⟨6, s1.out.reverse, l.size, k + 1⟩
    | (_, s1, .bad e) => ⟨e, s1.out.reverse, min l.size ((s1.pos + 7) / 8), k + 1⟩

/-- Inflates a whole stream. -/
def inflateAll (l : List Byte) (cap : Nat) : InfRes :=
  inflate l.toArray cap (8 * l.length + 2) { pos := 0, out := [], n := 0 } 0

/-! ### Compressing -/

/-- A symbol of a block: a literal, or a match of a length at a distance. -/
inductive Tok where
  | lit (b : Byte)
  | copy (len dist : Nat)
  deriving DecidableEq, Repr

/-- Input bytes that a symbol covers. -/
def Tok.len : Tok → Nat
  | .lit _ => 1
  | .copy l _ => l

/-- The hash of three bytes (R444). -/
def hash3 (a b c : Byte) : Nat := ((a.toNat * 1024) ^^^ (b.toNat * 32) ^^^ c.toNat) &&& 0x7FFF

/-- Bytes that agree from positions `p` and `i` on, up to `k`. -/
def runLen (t : Array Byte) (p i : Nat) : Nat → Nat
  | 0 => 0
  | k + 1 => if t.getD p 0 = t.getD i 0 then 1 + runLen t (p + 1) (i + 1) k else 0

/-- The longest match at `i` among the candidates, nearest first (R444): length and distance, or length 0. -/
def bestMatch (t : Array Byte) (i lim : Nat) : Nat → List Nat → Nat × Nat → Nat × Nat
  | 0, _, best => best
  | _, [], best => best
  | k + 1, p :: r, best =>
    if 32768 < i - p then best
    else
      let m := runLen t p i lim
      bestMatch t i lim k r (if best.1 < m then (m, i - p) else best)

/-- The state of the matcher: the chains (position and hash, nearest first). -/
abbrev Chains := List (Nat × Nat)

/-- Enters positions `i` to `i + k − 1` into their chains; a position needs three bytes before `fin`. -/
def enter (t : Array Byte) (fin : Nat) : Nat → Nat → Chains → Chains
  | 0, _, c => c
  | k + 1, i, c =>
    let c1 := if i + 3 ≤ fin then (i, hash3 (t.getD i 0) (t.getD (i + 1) 0) (t.getD (i + 2) 0)) :: c else c
    enter t fin k (i + 1) c1

/-- The symbols of an operation's input, positions `i` to `fin` of the text `t` (R444). -/
def tokens (t : Array Byte) (fin climit : Nat) : Nat → Nat → Chains → List Tok × Chains
  | 0, _, c => ([], c)
  | f + 1, i, c =>
    if fin ≤ i then ([], c)
    else
      let best :=
        if i + 3 ≤ fin then
          let h := hash3 (t.getD i 0) (t.getD (i + 1) 0) (t.getD (i + 2) 0)
          bestMatch t i (min 258 (fin - i)) climit ((c.filter fun e => e.2 = h).map (·.1)) (0, 0)
        else (0, 0)
      let tok := if 3 ≤ best.1 then Tok.copy best.1 best.2 else Tok.lit (t.getD i 0)
      let r := tokens t fin climit f (i + tok.len) (enter t fin tok.len i c)
      (tok :: r.1, r.2)

/-- Cuts symbols into blocks (R445): 16,384 symbols or 65,535 bytes at most. -/
def cutBlocks : List Tok → List Tok → Nat → Nat → List (List Tok)
  | [], [], _, _ => []
  | [], acc, _, _ => [acc.reverse]
  | x :: r, acc, k, n =>
    if 16384 ≤ k ∨ 65535 < n + x.len then acc.reverse :: cutBlocks r [x] 1 x.len
    else cutBlocks r (x :: acc) (k + 1) (n + x.len)

/-- The index of the last table entry whose base is at most `v`. -/
def codeOf (tab : List (Nat × Nat)) (v : Nat) : Nat := (tab.filter fun e => e.1 ≤ v).length - 1

/-- A symbol as literal/length and distance codes with extra bits: (lit code, extra value, extra bits, distance part). -/
def tokCodes (t : Tok) : Nat × Nat × Nat × Option (Nat × Nat × Nat) :=
  match t with
  | .lit b => (b.toNat, 0, 0, none)
  | .copy l d =>
    let li := codeOf lenTable l
    let le := lenTable.getD li (0, 0)
    let di := codeOf distTable d
    let de := distTable.getD di (0, 0)
    (257 + li, l - le.1, le.2, some (di, d - de.1, de.2))

/-- Adds 1 at an index. -/
def bumpAt (l : List Nat) (i : Nat) : List Nat := l.modify i (· + 1)

/-- Symbol frequencies of a block: literal/length (with the end-of-block) and distance. -/
def freqs (b : List Tok) : List Nat × List Nat :=
  let z := (bumpAt (List.replicate 286 0) 256, List.replicate 30 0)
  b.foldl (fun acc t =>
    let c := tokCodes t
    (bumpAt acc.1 c.1, match c.2.2.2 with
      | some d => bumpAt acc.2 d.1
      | none => acc.2)) z

/-- A coin of package-merge: a weight and the symbols in it. -/
abbrev Coin := Nat × List Nat

/-- Inserts a coin by weight, after the coins of equal weight. -/
def insCoin (c : Coin) : List Coin → List Coin
  | [] => [c]
  | h :: r => if c.1 < h.1 then c :: h :: r else h :: insCoin c r

/-- Pairs up coins into packages. -/
def packagesOf : List Coin → List Coin
  | a :: b :: r => (a.1 + b.1, a.2 ++ b.2) :: packagesOf r
  | _ => []

/-- Package-merge code lengths, limited to `lim` bits (R445): equal frequencies in symbol order, coins before packages. -/
def packageMerge (lim : Nat) (fr : List Nat) : List Nat :=
  let coins : List Coin := (fr.zipIdx.filter fun e => e.1 ≠ 0).foldl (fun acc e => insCoin (e.1, [e.2]) acc) []
  let n := coins.length
  if n ≤ 1 then fr.map fun f => if f = 0 then 0 else 1
  else
    let top := (List.range (lim - 1)).foldl (fun l _ => (packagesOf l).foldl (fun acc p => insCoin p acc) coins) coins
    let picked := ((top.take (2 * n - 2)).map (·.2)).flatten
    picked.foldl bumpAt (fr.map fun _ => 0)

/-- The distance code lengths: fewer than two used codes get two codes of length 1 (R445). -/
def distLens (fr : List Nat) : List Nat :=
  let used := (fr.zipIdx.filter fun e => e.1 ≠ 0).map (·.2)
  match used with
  | [] => fr.zipIdx.map fun e => if e.2 < 2 then 1 else 0
  | [u] => fr.zipIdx.map fun e => if e.2 = u ∨ e.2 = (if u = 0 then 1 else 0) then 1 else 0
  | _ => packageMerge 15 fr

/-- A list without its trailing zeros, but at least `m` long. -/
def trimTo (m : Nat) (l : List Nat) : List Nat :=
  let n := (l.reverse.dropWhile fun x => x = 0).length
  l.take (max m n)

/-- Greedy run-length coding of code lengths: (symbol, extra value, extra bits). -/
def rle : Nat → List Nat → List (Nat × Nat × Nat)
  | 0, _ => []
  | _, [] => []
  | f + 1, x :: r =>
    let run := 1 + (r.takeWhile fun y => y = x).length
    if x = 0 then
      if 11 ≤ run then
        let k := min run 138
        (18, k - 11, 7) :: rle f (r.drop (k - 1))
      else if 3 ≤ run then (17, run - 3, 3) :: rle f (r.drop (run - 1))
      else (0, 0, 0) :: rle f r
    else
      let rest := run - 1
      let reps (g : Nat) : List (Nat × Nat × Nat) × Nat :=
        (List.range g).foldl (fun (acc : List (Nat × Nat × Nat) × Nat) _ =>
          if 3 ≤ acc.2 then (acc.1 ++ [(16, min acc.2 6 - 3, 2)], acc.2 - min acc.2 6) else acc) ([], rest)
      let q := reps 50
      ((x, 0, 0) :: q.1) ++ List.replicate q.2 (x, 0, 0) ++ rle f (r.drop rest)

/-- `n` bits of a value, least significant first. -/
def lsbBits (n v : Nat) : List Bool := (List.range n).map fun i => v.testBit i

/-- A Huffman code, most significant bit first. -/
def huffBits (c : Nat × Nat) : List Bool := ((List.range c.1).map fun i => c.2.testBit i).reverse

/-- The bits of a block's symbols and its end-of-block under two codes. -/
def symBits (b : List Tok) (lit dist : List (Nat × Nat)) : List Bool :=
  let one (t : Tok) : List Bool :=
    let c := tokCodes t
    huffBits (lit.getD c.1 (0, 0)) ++ lsbBits c.2.2.1 c.2.1 ++ (match c.2.2.2 with
      | some d => huffBits (dist.getD d.1 (0, 0)) ++ lsbBits d.2.2 d.2.1
      | none => [])
  b.flatMap one ++ huffBits (lit.getD 256 (0, 0))

/-- A dynamic block after its three header bits. -/
def dynBits (b : List Tok) : List Bool :=
  let fr := freqs b
  let litL := trimTo 257 (packageMerge 15 fr.1)
  let dstL := trimTo 1 (distLens fr.2)
  let code := rle 400 (litL ++ dstL)
  let clF := code.foldl (fun acc e => bumpAt acc e.1) (List.replicate 19 0)
  let clL := packageMerge 7 clF
  let clP := trimTo 4 (clOrder.map fun s => clL.getD s 0)
  let clC := canonical clL
  lsbBits 5 (litL.length - 257) ++ lsbBits 5 (dstL.length - 1) ++ lsbBits 4 (clP.length - 4)
    ++ clP.flatMap (lsbBits 3) ++ code.flatMap (fun e => huffBits (clC.getD e.1 (0, 0)) ++ lsbBits e.2.2 e.2.1)
    ++ symBits b (canonical litL) (canonical dstL)

/-- The bits of a block from bit offset `off` in its byte (R445): the cheapest of the three types, or the forced one
(1 stored, 2 fixed). `raw` is what the block covers. -/
def blockBits (off : Nat) (fin : Bool) (force : Nat) (b : List Tok) (raw : List Byte) : List Bool :=
  let pad := (8 - (off + 3) % 8) % 8
  let stored := List.replicate pad false ++ lsbBits 16 raw.length ++ lsbBits 16 (65535 - raw.length)
    ++ raw.flatMap fun x => lsbBits 8 x.toNat
  let fixed := symBits b (canonical fixedLit) (canonical fixedDist)
  let dyn := dynBits b
  let typ := if force = 1 then 0 else if force = 2 then 1
    else if stored.length ≤ fixed.length ∧ stored.length ≤ dyn.length then 0
    else if fixed.length ≤ dyn.length then 1 else 2
  [fin] ++ lsbBits 2 typ ++ (if typ = 0 then stored else if typ = 1 then fixed else dyn)

/-- Whole bytes of a bit list, and the bits left over. -/
def packBits : Nat → List Bool → List Byte × List Bool
  | 0, l => ([], l)
  | f + 1, l =>
    if l.length < 8 then ([], l)
    else
      let r := packBits f (l.drop 8)
      (BitVec.ofNat 8 (bitsToNat (l.take 8)) :: r.1, r.2)

/-- A DEFLATE stream carried between operations: history that matches may reach (with its chains), bits of a partial byte,
bytes formed and not written, and whether the final block has been formed. -/
structure DefStream where
  hist   : List Byte := []
  chains : Chains := []
  bits   : List Bool := []
  held   : List Byte := []
  final  : Bool := false
  deriving DecidableEq, Repr

/-- The result of a DEFLATE operation. -/
structure DefRes where
  st       : DefStream
  out      : List Byte
  consumed : Nat
  full     : Bool
  deriving DecidableEq, Repr

/-- Writes bytes to the output up to the cap; the rest is held. -/
def DefRes.write (r : DefRes) (cap : Nat) (l : List Byte) : DefRes :=
  let room := cap - r.out.length
  { r with out := r.out ++ l.take room, st := { r.st with held := r.st.held ++ l.drop room },
           full := r.full || decide (room < l.length) }

/-- Emits bits: whole bytes to the output, the rest to the state. -/
def DefRes.emit (r : DefRes) (cap : Nat) (b : List Bool) (pad : Bool) : DefRes :=
  let all := r.st.bits ++ b
  let all := if pad then all ++ List.replicate ((8 - all.length % 8) % 8) false else all
  let p := packBits (all.length / 8 + 1) all
  ({ r with st := { r.st with bits := p.2 } }).write cap p.1

/-- Emits the blocks of an operation in order, stopping after one that fills the output (R447). -/
def DefRes.blocks (cap force : Nat) (finish : Bool) : List (List Tok) → List Byte → DefRes → DefRes
  | [], _, r => r
  | b :: rest, input, r =>
    if r.full then r
    else
      let n := (b.map Tok.len).sum
      let last := finish && rest.isEmpty
      let r1 := r.emit cap (blockBits r.st.bits.length last force b (input.take n)) last
      DefRes.blocks cap force finish rest (input.drop n)
        { r1 with consumed := r1.consumed + n, st := { r1.st with final := r1.st.final || last } }

/-- A DEFLATE operation on a stream (R444 to R447): `flush` 0 NONE, 1 SYNC, 2 FULL, 3 FINISH; `force` 1 stored, 2 fixed. -/
def deflateOp (s : DefStream) (input : List Byte) (flush force climit cap : Nat) : DefRes :=
  let r0 : DefRes := ({ st := { s with held := [] }, out := [], consumed := 0, full := false } : DefRes).write cap s.held
  if r0.full ∨ s.final then r0
  else
    let base := s.hist.length
    let text := (s.hist ++ input).toArray
    let toks := tokens text (base + input.length) climit (input.length + 1) base s.chains
    let blocks := cutBlocks toks.1 [] 0 0
    let r1 := r0.blocks cap force (flush = 3) blocks input
    let used := input.take r1.consumed
    let chains := toks.2.filter fun e => e.1 < base + r1.consumed
    let r2 : DefRes := { r1 with st := { r1.st with hist := s.hist ++ used, chains := chains } }
    if r2.full then r2
    else if flush = 0 then r2
    else if flush = 3 then
      if blocks = [] then
        let r3 := r2.emit cap ([true] ++ lsbBits 2 1 ++ huffBits ((canonical fixedLit).getD 256 (0, 0))) true
        { r3 with st := { r3.st with final := true } }
      else r2
    else
      let pad := (8 - (r2.st.bits.length + 3) % 8) % 8
      let r3 := r2.emit cap ([false, false, false] ++ List.replicate pad false ++ lsbBits 16 0 ++ lsbBits 16 65535) false
      if flush = 2 then { r3 with st := { r3.st with hist := [], chains := [] } } else r3

end Sys2Proof.Machine
end

