-- ==== Sys2Proof/Machine/FleetState.lean ====
section
/-! DEFINITION. State of the Glexon's fleet-side subsystems (chapters 9 to 20): audit staging, digests, reduction, scoring,
energy, traffic, remote memory, compression, management, observation and bring-up. -/

namespace Sys2Proof.Machine

/-! ### Audit Replay Array (chapter 9) -/

/-- How a first witness disagreed (R284). -/
structure Witness where
  core  : Nat
  crc   : Word
  diffs : Nat
  first : Nat
  ulp   : Nat
  deriving DecidableEq, Repr

/-- Which queue of R277 an item stands in: witness, re-replay, first replay. -/
inductive ItemKind where
  | witness | again | first
  deriving DecidableEq, Repr

/-- A tile in staging, with its replay item. -/
structure Tile9 where
  id      : Nat
  port    : Nat
  r       : Rec
  arrived : Word
  kind    : ItemKind
  /-- failed attempts of the replay in hand -/
  tries   : Nat
  /-- cores that have replayed the tile, the one of a failed attempt included -/
  cores   : List Nat
  w1      : Option Witness
  /-- line and core of the work list that the item is in -/
  on      : Option (Nat × Nat)
  deriving DecidableEq, Repr

/-- The Audit Replay Array. -/
structure Audit where
  /-- tiles in staging, in order of arrival -/
  tiles   : List Tile9 := []
  nextId  : Nat := 0
  /-- items of the work lists in force, in order: tile identifiers -/
  work    : List Nat := []
  /-- profile entry whose check is running, and marks that take effect at the boundary -/
  check   : Option Nat := none
  marks   : List (Nat × Bool) := []
  /-- verdicts formed in the tick by code, rejections by subcode, tiles discarded, lines admitted (Table 9.12) -/
  verd    : SMap Nat := []
  rej     : SMap Nat := []
  gone    : Nat := 0
  /-- rejections without suspicion by port: count and last subcode -/
  conf    : SMap (Nat × Nat) := []
  /-- ticks of attributed mismatches by port, newest first -/
  hits    : SMap (List Word) := []
  deriving DecidableEq, Repr

/-! ### Watch sets, ingest and reduction (chapters 1, 10, 11) -/

/-- A watch-set entry of a role (R37). -/
inductive WsEntry where
  | free
  | active (g : Nat)
  | draining (g : Nat) (e : Word)
  deriving DecidableEq, Repr

/-- A watch-set command that a role will apply at a boundary (R39, R40). -/
structure WsPend where
  slot   : Nat
  at_    : Word
  create : Bool
  id     : Nat
  gen    : Nat
  cmd    : Rec
  deriving DecidableEq, Repr

/-- A watch-set submission that waits for the apex's decision (R505): the mailbox request, the type, the arguments. -/
structure MbxSub where
  id   : BitVec 32
  typ  : Nat
  args : List Byte
  deriving DecidableEq, Repr

/-- A tally of membership reports at the apex (R47): reporting leaves, the sum of their n, busy sets named, overflow, and the
instant of the last report in ns. -/
structure Tally where
  id    : Nat
  gen   : Nat
  from_ : List Nat
  dies  : Nat
  busy  : List Nat
  more  : Bool
  last  : Nat
  deriving DecidableEq, Repr

/-- A membership slot whose LIST_HELD is repeated (R47): generation, and the instants of the first and the last sending. -/
structure Held where
  gen   : Nat
  since : Nat
  last  : Nat
  deriving DecidableEq, Repr

/-- An alive baseline (R307): the last checked tick and its value. -/
structure Alive where
  n : Word
  a : BitVec 16
  deriving DecidableEq, Repr

/-- A record in an ingest area: data tick, and the child (Tap port at the leaf, CHILD_POS above). -/
structure Ing where
  tick  : Word
  child : Nat
  r     : Rec
  deriving DecidableEq, Repr

/-- What a role has built in the tick in progress (R329 to R332). -/
structure RoleTick where
  recs    : List Rec := []
  stages  : Nat := 0
  folded  : List Nat := []
  offered : Nat := 0
  sat     : Bool := false
  /-- saturated in the tick before -/
  satPrev : Bool := false
  level   : Nat := 0
  dropped : Nat := 0
  /-- DETAIL_DROPPED, ARRIVALS_DROPPED -/
  noDet   : Bool := false
  noArr   : Bool := false
  done    : Bool := false
  /-- a core of the role aborted (R228), or the tick is one in which every record carries PARTIAL -/
  part    : Bool := false
  /-- alarm records of the tick, for the role's alarm slot pair -/
  alarms  : List Rec := []
  deriving DecidableEq, Repr

/-- A balance window of a set at the apex (R305). -/
structure Balance where
  isOpen : Bool := false
  first  : Word := 0
  ticks  : Nat := 0
  outs   : Nat := 0
  ins    : Nat := 0
  void   : Bool := false
  deriving DecidableEq, Repr

/-- An open arrival instance at the apex (R337). -/
structure Instance where
  set_  : Nat
  gen   : Nat
  mark  : Nat
  arg   : Nat
  since : Word
  entry : List Byte
  deriving DecidableEq, Repr

/-- The pull in progress (R344 to R346): its queue entry, the tick it is at, ticks left, bytes written, ticks missing. -/
structure Pull where
  slot  : Nat
  tick  : Word
  left  : Nat
  bytes : Nat
  miss  : Nat
  full  : Bool
  /-- status of a failed remote write, or 0 -/
  err   : Nat := 0
  /-- the queue pair of its writes, and whether their last tick has been staged -/
  qpn   : Nat := 0
  ended : Bool := false
  deriving DecidableEq, Repr

/-- A record retained in the rewind ring: the tick in which it was appended, its virtual position and Tap port. -/
structure Kept where
  tick : Word
  pos  : Nat
  port : Nat
  r    : Rec
  deriving DecidableEq, Repr

/-- Reduction, digests and watch sets. -/
structure Fleet where
  /-- SEQ of the next record that this Glexon originates (R46) -/
  seq     : BitVec 32 := 0
  /-- entries by 4,096 × slot + ID; the fleet set is always active -/
  ws      : SMap WsEntry := []
  /-- last generation of each ID at the apex -/
  wsGen   : SMap Nat := []
  wsPend  : List WsPend := []
  /-- watch-set submissions that the apex decides at the next boundary -/
  wsAsk   : List MbxSub := []
  tallies : List Tally := []
  held    : SMap Held := []
  /-- stamps of the die on a port: (first data tick, ID, generation), newest first -/
  stamps  : SMap (List (Word × Nat × Nat)) := []
  /-- alive counters of the roles, by slot -/
  alive   : SMap (BitVec 16) := []
  /-- baselines: by port at the leaf; by 64 × slot + child above -/
  base    : SMap (Option Alive) := []
  /-- ticks for which a child's records are refused, since the tick's check failed: by the same index -/
  bad     : SMap (List Word) := []
  /-- ingest areas by role slot -/
  ing     : SMap (List Ing) := []
  /-- ports that wrote INGEST_BAD in this tick -/
  told    : List Nat := []
  /-- by 4 × port + class: the increase of TP_LOSS_c_p over the tick just ended, and its value at the last boundary -/
  lossInc : SMap Nat := []
  lossAt  : SMap Nat := []
  /-- latest COLL_ENTRY and COLL_EXIT arguments of the die on a port -/
  collIn  : SMap (Option Nat) := []
  collOut : SMap (Option Nat) := []
  /-- peer reports forwarded per port in the tick -/
  peers   : SMap Nat := []
  roles   : SMap RoleTick := []
  bal     : SMap Balance := []
  inst    : List Instance := []
  /-- closed instances that await publication -/
  closed  : List Instance := []
  /-- the boundary from which the collective key last changed -/
  keyTick : Option Word := none
  /-- slot pairs published in the tick -/
  pub     : List Nat := []
  pull    : Option Pull := none
  /-- retained records, oldest first -/
  kept    : List Kept := []
  /-- the last tick of which a retained record has been overwritten -/
  rwGone  : Option Word := none
  /-- bytes retained, records retained and skipped in the tick -/
  rwTick  : Nat × Nat × Nat := (0, 0, 0)
  deriving DecidableEq, Repr

/-! ### Scoring (chapter 12) -/

/-- A model image, read when its check passed. -/
structure Model where
  id    : Nat
  table : Nat
  depth : Nat
  base  : Nat
  /-- per tree: node words, then leaves -/
  trees : List (List Nat × List Nat)
  deriving DecidableEq, Repr

/-- A model slot: the model in force, the image being checked, and the one that passed and waits for a boundary. -/
structure ModelSlot where
  live  : Option Model := none
  check : Option Nat := none
  next  : Option Model := none
  deriving DecidableEq, Repr

/-- The alarm state of a (rule, entity) pair (R371), and the data tick at which its run began. -/
structure AlarmSt where
  raised : Bool := false
  up     : Nat := 0
  down   : Nat := 0
  since  : Word := 0
  deriving DecidableEq, Repr

/-- An entry of the item table (R376). -/
structure Item where
  id     : Nat
  dies   : List Nat
  epochs : List Nat
  first  : Word
  last   : Word
  flagged : Bool
  deriving DecidableEq, Repr

/-- A decode pair of a die (R375). -/
structure DecPair where
  id   : Nat
  tick : Word
  deriving DecidableEq, Repr

/-- Scoring. -/
structure Scoring where
  models  : SMap ModelSlot := []
  /-- feature cache: row and stamp bytes by 262,144 × table + entity -/
  cache   : SMap (List Byte) := []
  /-- INV written -/
  inv     : Bool := false
  /-- XOPs completed in the tick -/
  xops    : Nat := 0
  alarms  : SMap AlarmSt := []
  /-- raises and deferrals of the tick by role slot -/
  raised  : SMap Nat := []
  deferred : SMap Nat := []
  items   : List Item := []
  displaced : Nat := 0
  /-- decode rings by port, oldest first -/
  dec     : SMap (List DecPair) := []
  /-- next place of the flagged-item ring of this leaf -/
  itemAt  : Nat := 0
  deriving DecidableEq, Repr

/-! ### Energy Planner (chapter 13) -/

/-- The exact value of a running mean of weight 1/8: `num / 8ᵏ`. -/
structure Mean8 where
  num : Int := 0
  k   : Nat := 0
  deriving DecidableEq, Repr

/-- The mean after a sample: x + (s − x) / 8. -/
def Mean8.add (m : Mean8) (s : Int) : Mean8 := { num := 7 * m.num + s * (8 : Int) ^ m.k, k := m.k + 1 }

/-- The whole part of a mean. -/
def Mean8.floor (m : Mean8) : Int := m.num / (8 : Int) ^ m.k

/-- The Energy Planner. Energies in µJ. -/
structure Planner where
  debt    : Nat := 0
  /-- Ivory energy of the last closed tick, and its mean; `none` before the first close after reset or a new image -/
  ivory   : Option (Int × Mean8) := none
  est     : SMap (Option Nat) := []
  /-- the tick at which ESTIMATE_CLAMPED was last written for a line -/
  clampAt : SMap (Option Word) := []
  /-- mean of audit queries, and the queries of the TICK_SUMMARY records of the tick -/
  q       : Mean8 := {}
  asked   : Nat := 0
  /-- the threshold last sent, and the tick in which it last rose -/
  sent    : Nat := 0
  rose    : Option Word := none
  /-- consecutive ticks over and within the budget, and whether the Greyout is applied -/
  overB   : Nat := 0
  inB     : Nat := 0
  grey    : Bool := false
  soft    : Bool := false
  hard    : Bool := false
  ivOver  : Bool := false
  /-- a missing account of the tick just closed, and a Tj reading too old at the boundary -/
  missing : Option Nat := none
  stale   : Bool := false
  /-- every unmasked line was admitted in the last tick -/
  all     : Bool := true
  /-- the admission of the tick is still to come -/
  due     : Bool := false
  /-- length of the tick in progress, ns -/
  per     : Nat := 0
  deriving DecidableEq, Repr

/-! ### Traffic (chapter 14) -/

/-- What a frame carries. -/
inductive Load where
  | cmd (r : Rec) (dst : Nat)
  | record (r : Rec) (dst : Nat)
  | packet (qpn psn : Nat) (bytes : List Byte)
  deriving DecidableEq, Repr

/-- The buckets of a two-rate three-colour marker (RFC 2698), in 1/8,000 byte, and the instant they stand at, ns. -/
structure Meter98 where
  tc   : Nat := 0
  tp   : Nat := 0
  last : Nat := 0
  deriving DecidableEq, Repr

/-- A frame of an egress queue: its length with headers and FCS, its colour, what it carries. -/
structure Frame where
  len    : Nat
  colour : Nat
  load   : Load
  deriving DecidableEq, Repr

/-- An egress queue (R395, R400): frames, the head's tag, the finish tag of the last selected frame. -/
structure EgressQ where
  frames : List Frame := []
  tag    : Nat := 0
  fLast  : Nat := 0
  deriving DecidableEq, Repr

/-- A fabric port's egress side. Tokens in 1/125 byte by class; meters of Amber and Umber in 1/8,000 byte. -/
structure Egress where
  qs     : SMap EgressQ := []
  v      : Nat := 0
  tok    : SMap Nat := []
  meters : SMap Meter98 := []
  sent   : Option Frame := none
  deriving DecidableEq, Repr

/-- A de-duplication entry (R411): power-cycle count, highest sequence, map of the 64 below. -/
structure Dedup where
  c : Nat := 0
  h : Nat := 0
  m : BitVec 64 := 0
  deriving DecidableEq, Repr

/-- A command copy that waits for a Cobalt window (R410): the record, the role slot whose children it goes to or the Glexon
index it is for. -/
structure CmdCopy where
  r    : Rec
  slot : Option Nat
  dst  : Nat
  deriving DecidableEq, Repr

/-- The Traffic Scheduler. -/
structure Traffic where
  ports  : SMap Egress := []
  /-- the Amber and Umber gates, and the entry in force -/
  amber  : Bool := true
  umber  : Bool := true
  entry  : Nat := 64
  fifo   : List Rec := []
  dedup  : SMap Dedup := []
  outq   : List CmdCopy := []
  /-- the command copy last sent over the management network -/
  mgCopy : Option CmdCopy := none
  /-- greyouts and blackouts executed and not yet in force: target word, mask, rate; true for Greyout -/
  applied : List (Bool × Nat × Nat × Nat) := []
  /-- collective key and gate list that a command named for a boundary -/
  key    : Option (Word × Word) := none
  gates  : Option (Word × List Word) := none
  /-- meters of the Tap ports by 4 × port + class -/
  tapM   : SMap Meter98 := []
  deriving DecidableEq, Repr

/-! ### Remote memory (chapter 15) -/

/-- Who posted an operation of a queue pair. -/
inductive RmOwner where
  | core (n tag : Nat)
  | post
  | boot (image : Bool)
  | pull
  deriving DecidableEq, Repr

/-- An operation of a queue pair not yet complete (R430): code of Table 15.6, descriptor address (if it has one), local address,
length, key, remote offset, MSN, first PSN and packets; the READ_RESP packets received, and the status it has while lower MSNs are not complete. -/
structure RmOp where
  owner : RmOwner
  code  : Nat
  desc  : Option Nat
  loc   : Nat
  len   : Nat
  key   : Nat
  off   : Nat
  msn   : Nat
  psn   : Nat
  pkts  : Nat
  got   : List Nat := []
  done  : Option Nat := none
  deriving DecidableEq, Repr

/-- A packet sent and not acknowledged: PSN, bytes, times transmitted, path. -/
structure RmSent where
  psn   : Nat
  bytes : List Byte
  times : Nat
  path  : Nat
  deriving DecidableEq, Repr

/-- A message in assembly, or complete and waiting for its turn (R427, R428): region, offset of its first byte, total once
known, packets placed, whether it failed, whether it counts as a response to a READ. -/
structure RmAsm where
  msn   : Nat
  reg   : Nat
  off   : Nat
  total : Option Nat
  got   : List Nat
  fail  : Bool
  key   : Nat
  deriving DecidableEq, Repr

/-- A queue pair. -/
structure Qp where
  nextPsn : Nat := 0
  nextMsn : Nat := 0
  ops     : List RmOp := []
  sent    : List RmSent := []
  /-- packets of operations that the congestion window holds back -/
  wait    : List RmSent := []
  base    : Nat := 0
  got     : List Nat := []
  asm     : List RmAsm := []
  /-- next MSN to deliver -/
  deliver : Nat := 0
  /-- MSNs above it that hold nothing to deliver: one-packet requests and responses -/
  skip    : List Nat := []
  w       : Nat := 262144
  srtt    : Nat := 0
  cut     : Nat := 0
  placed  : Nat := 0
  /-- old values of the last 64 atomics by PSN -/
  atoms   : List (Nat × Word) := []
  path    : Nat := 0
  /-- consecutive timeouts by path, and the instants until which paths are suspended -/
  fails   : SMap Nat := []
  susp    : SMap Nat := []
  /-- KEY_FAULT written in this tick -/
  told    : Bool := false
  /-- SEND_TIME of the last packet received, and its arrival as short time -/
  echo    : Nat × Nat := (0, 0)
  /-- a boundary has passed since the last packet (R435) -/
  gap     : Bool := false
  deriving DecidableEq, Repr

/-- The boot load (R436): the phase, the next byte to ask for, whether it runs, and when it started in ns. -/
structure Boot where
  image : Bool := false
  next  : Nat := 0
  begun : Nat := 0
  busy  : Bool := false
  /-- firmware activates the image once it is loaded (R498) -/
  auto  : Bool := false
  deriving DecidableEq, Repr

/-- The Remote Memory Engine. -/
structure Remote where
  qps   : SMap Qp := []
  /-- instants of the last registration or rekey by region, ns -/
  keyAt : SMap (Option Nat) := []
  /-- queue pair (plus 1) that wrote VALID of a pull descriptor, by queue entry -/
  pullQp : SMap Nat := []
  boot  : Boot := {}
  deriving DecidableEq, Repr

/-! ### Compression (chapter 16) -/

/-- A stream of the Compression Engine (R442). -/
inductive CeStream where
  | none
  | deflate (s : DefStream)
  | inflate (input : List Byte) (given : Nat)
  | done
  deriving DecidableEq, Repr

/-! ### Management (chapters 17, 19, 20) -/

/-- A boot record (R458). -/
structure BootRec where
  pref  : Bool := false
  commA : Bool := true
  commB : Bool := false
  tries : Nat := 0
  deriving DecidableEq, Repr

/-- A child's ANNOUNCE (Table 19.5). -/
structure Announce where
  map   : Word
  h     : Word
  roles : Nat
  up    : Nat
  dies  : Nat
  deriving DecidableEq, Repr

/-- The JTAG instruction register (R526). -/
inductive Jtag where
  | bypass | sample | extest | clamp | highz | pulse | train
  deriving DecidableEq, Repr

/-- The state of the management processor (R457): held in reset, running firmware, or stopped by the boot ROM. -/
inductive MgRun where
  | reset | running | noFirmware
  deriving DecidableEq, Repr

/-- What an overflow of the recorder's FIFO has lost (R463): how many, the instant and tick of the first, and how many events
stood in the FIFO when it was refused. -/
structure EvLost where
  n    : Nat
  time : Nat
  tick : Word
  left : Nat
  deriving DecidableEq, Repr

/-- The Management Subsystem. -/
structure Mgmt where
  run     : MgRun := .reset
  ready   : Bool := false
  /-- slot B runs -/
  slotB   : Bool := false
  /-- contents of the firmware slots: header and body -/
  slots   : SMap (List Byte) := []
  bootRec : BootRec := {}
  staged  : Bool := false
  /-- a restart into the staged slot at a boundary -/
  actAt   : Option Word := none
  /-- blown anti-rollback fuses (R457) -/
  fuses   : Nat := 0
  /-- recorder slots -/
  recs    : SMap (List Byte) := []
  lost    : Option EvLost := none
  /-- mirror rings: records of devices 0 and 1 in SEQ order, and the brown-out reserve -/
  mirror  : List (List Byte) := []
  reserve : List (List Byte) := []
  /-- power cycles counted in the configuration area -/
  cycles  : Nat := 0
  /-- rail samples taken: microseconds of management time -/
  us      : Nat := 0
  /-- alert tokens, in 1/1000 -/
  tokens  : Nat := 256000
  /-- the instant in us at which the watchdog expires, once it has been kicked -/
  wdogAt  : Option Nat := none
  dropped : Nat := 0
  alert   : List Byte := []
  /-- consecutive readings of 105 °C or more by sensor, and sensors that failed -/
  hot     : SMap Nat := []
  bad     : SMap Bool := []
  tripped : Bool := false
  /-- the thermal state last told: 1 normal, 2 soft, 3 hard, 4 trip -/
  thermal : Nat := 1
  /-- instant of the last sensor sample -/
  tempAt  : Option Nat := none
  /-- energy in units of 2.5 pJ of the tick in progress, of the second in progress and of the last second -/
  energy  : Nat := 0
  secAcc  : Nat := 0
  secE    : Nat := 0
  railAt  : SMap (Option Nat) := []
  hbmHot  : BitVec 2 := 0
  /-- a doubled refresh rate of each stack -/
  hbmFast : BitVec 2 := 0
  trained : Bool := false
  /-- registers whose write was refused in the tick: how many, and the first address (R474) -/
  auth    : Nat × Nat := (0, 0)
  /-- MCTP and PLDM: endpoint ID, terminus ID, event receiver, the last response -/
  eid     : Byte := 0
  tid     : Byte := 0
  evRecv  : Option (Byte × Byte) := none
  reply   : List Byte := []
  /-- the PlatformEventMessage last sent to the event receiver -/
  evMsg   : List Byte := []
  /-- the expected image hash that firmware holds -/
  sha     : List Byte := []
  imgOk   : Bool := false
  /-- provisional boundary, phases -/
  mapOk   : Bool := false
  /-- the upper image half is the active one -/
  half    : Bool := false
  /-- of the map in force: die index, leaf and port of every die, and the apex's Glexon index -/
  dies    : List (Nat × Nat × Nat) := []
  apexIx  : Option Nat := none
  ann     : SMap (Option Announce) := []
  annTold : List Nat := []
  /-- slots that have announced -/
  annDone : SMap Bool := []
  hTick   : Word := 0
  rejoin  : Bool := false
  /-- the tick in which every released record carries PARTIAL (R472, R511) -/
  partAt  : Option Word := none
  /-- PWR_WARN_N is low -/
  warn    : Bool := false
  /-- JTAG instruction in force -/
  jtag    : Jtag := .bypass
  deriving DecidableEq, Repr

/-! ### Observation (chapter 18) -/

/-- The Observation Unit's output side. -/
structure Observe where
  /-- output FIFO: packets whole, and the bytes still to send of one that a frame has begun -/
  out    : List (List Byte) := []
  part   : List Byte := []
  /-- FRAME_SEQ of the next frame, the last frame sent, and the source whose turn it is -/
  seq    : BitVec 16 := 0
  frame  : List Byte := []
  turn   : Nat := 0
  /-- selector generation -/
  gen    : Nat := 0
  /-- a set of counts is still to be written, and whether its interval saw HOLDOVER -/
  due    : Bool := false
  hold   : Bool := false
  deriving DecidableEq, Repr

end Sys2Proof.Machine
end

