-- ==== Sys2Proof/Machine/ImageState.lean ====
section
/-! DEFINITION. The program image (R168, R186, R258, R278, R330, R365, R380): what mtc compiles and firmware activates, as
plain data. -/

namespace Sys2Proof.Machine

/-- A cycle window of a shared engine that belongs to one core (R168). -/
structure EngWin where
  eng  : Nat
  core : Nat
  frm  : Nat
  upto : Nat
  deriving DecidableEq, Repr

/-- A cycle window that a Sepia line occupies on a core (R380). -/
structure LineWin where
  line : Nat
  core : Nat
  frm  : Nat
  upto : Nat
  deriving DecidableEq, Repr

/-- What the image holds for one fence variant (R258). -/
structure Variant where
  entry   : SMap Nat := []
  wins    : List EngWin := []
  lines   : List LineWin := []
  /-- for each role slot, the mask of the cores that work for it -/
  roleMap : SMap Nat := []
  /-- sequences that the variant suspends (R370) -/
  susp    : List Nat := []
  deriving DecidableEq, Repr

/-- A Sepia line (R380): rank, estimate in µJ, first-replay capacity in tiles (0 for other lines). -/
structure SepiaLine where
  line : Nat
  rank : Nat
  est  : Nat
  cap  : Nat
  deriving DecidableEq, Repr

/-- A replay line (R278): its number among the image's replay lines, audit core, the Sepia line that admits it (none for an
Ivory line), engine-cycle budget, byte budget. -/
structure ReplayLine where
  id     : Nat
  core   : Nat
  sepia  : Option Nat
  cycles : Nat
  bytes  : Nat
  deriving DecidableEq, Repr

/-- Where a field's value stands in a die's records (R319): in every record of type `typ` whose `keyLen` payload bytes at
`keyAt` hold `key`, the `len` payload bytes at `at`. Only LIST takes more than the first. -/
structure FieldSrc where
  typ    : Nat
  keyAt  : Nat
  keyLen : Nat
  key    : Nat
  at_    : Nat
  len    : Nat
  deriving DecidableEq, Repr

/-- A field of the reduction spec (R319): ID, operator, value type, parameter, LIST entry size, source. -/
structure Field where
  id    : Nat
  op    : Nat
  vtype : Nat
  param : Nat
  size  : Nat
  src   : FieldSrc
  deriving DecidableEq, Repr

/-- What the reduction spec says of a watch set (R319, R335). -/
structure SetSpec where
  fields : List Field := []
  marks  : List Nat := []
  arrB   : Nat := 0
  deriving DecidableEq, Repr

/-- The role table's entry of a role slot above the leaf: its children as positions and Glexon indices (R30). -/
structure RoleImg where
  children : List (Nat × Nat) := []
  deriving DecidableEq, Repr

/-- A result slot pair (R338): SIZE, watch set and generation, result kind. -/
structure PairImg where
  size : Nat
  set_ : Nat
  gen  : Nat
  kind : Nat
  deriving DecidableEq, Repr

/-- A sequence descriptor (R365, Table 12.9): the fields that the chip's hardware shows. -/
structure SeqImg where
  seq  : Nat
  prio : Nat
  slot : Nat
  cusum : Bool
  learn : Bool
  deriving DecidableEq, Repr

/-- A program image: what mtc declares, as plain data. -/
structure Image where
  variants : SMap Variant := []
  sepia    : List SepiaLine := []
  replay   : List ReplayLine := []
  ivoryEst : Nat := 0
  specs    : SMap SetSpec := []
  roles    : SMap RoleImg := []
  pairs    : List PairImg := []
  /-- slot pair of closed arrival instances and of alarms, by role slot -/
  arrPair  : Option Nat := none
  alarmPair : SMap (Option Nat) := []
  seqs     : List SeqImg := []
  /-- bundles per core, and bundle words as in the bundle stores -/
  lens     : SMap Nat := []
  /-- the HM region registers of its layout (R186): rewind index and pull queue -/
  indexBase : Word := 0x1D80000000
  pullqBase : Word := 0x1D80800000
  words    : SMap Word := []
  /-- the image passes the image check (R261, R330, R338, R339, R365) -/
  ok       : Bool := false
  deriving DecidableEq, Repr, Inhabited

/-- The program image that the bytes of an image file hold: the spec leaves the file's layout to mtc (R168). -/
opaque Config.imageOf : List Byte → Image

end Sys2Proof.Machine
end

