-- ==== Sys2Proof/Machine/GlexonState.lean ====
section
/-! DEFINITION. The state of the Glexon GX-64 (chapters 1, 2 and 5 to 20): plain data, every piece the spec names. -/

namespace Sys2Proof.Machine

/-! ### Events on their way to the recorder -/

/-- An event handed to the recorder (R463): code, source agent, severity, argument words, and the instant it arose. -/
structure EvItem where
  code  : Nat
  agent : Nat
  sev   : BitVec 2
  args  : List Word
  time  : Nat
  tick  : Word
  deriving DecidableEq, Repr

/-! ### Time Keeper -/

/-- TK_STATE.MODE (Table 2.1). -/
inductive TkMode where
  | free | acquiring | locked | holdover
  deriving DecidableEq, Repr

/-- An epoch change that waits for its instant (R58, R61): the boundary's instant in ns, its number, epoch and period, the
argument of EPOCH_ADOPTED, and whether no further boundary is taken under the present values (a beacon's). -/
structure EpochPend where
  at_    : Nat
  n      : Word
  epoch  : Nat
  period : Nat
  arg    : Word
  stop   : Bool
  deriving DecidableEq, Repr

/-- A capture FIFO (R71): its words, the last word read, the last captured edge in 1/16 ns, and misses. -/
structure CaptFifo where
  words  : List Word := []
  last   : Word := 0
  edge   : Option Nat := none
  miss   : Nat := 0
  under  : Bool := false
  /-- CAPT_OVERFLOW was written in this tick -/
  told   : Bool := false
  deriving DecidableEq, Repr

/-- A trigger pin's pulse (R69): active, and the instant it ends in ns. -/
structure TrigPin where
  active : Bool := false
  endAt  : Nat := 0
  deriving DecidableEq, Repr

/-- A PTP message that the clock sends (R54). -/
inductive PtpOut where
  | sync (seq : BitVec 16) (twoStep : Bool) (t : Int)
  | followUp (seq : BitVec 16) (t : Int)
  | delayReq (seq : BitVec 16)
  | delayResp (clock : Word) (seq : BitVec 16) (t : Int)
  | announce (cls : Byte) (acc : Byte) (prio1 : Byte) (prio2 : Byte) (seq : BitVec 16)
  deriving DecidableEq, Repr

/-- The Time Keeper (chapter 2). Instants of the local clock are in 2⁻³² ns, the epoch in ns. -/
structure TimeKeeper where
  clk     : Nat := 0
  /-- slew still to apply, in 2⁻³² ns -/
  slew    : Int := 0
  mode    : TkMode := .free
  ticking : Bool := false
  tickNo  : Word := 0
  period  : Nat := 2
  epoch   : Nat := 0
  /-- an epoch is held: EPOCH or a beacon has given one -/
  hasEpoch : Bool := false
  /-- earliest instant of the first boundary, ns -/
  startAt : Nat := 0
  pend    : Option EpochPend := none
  /-- the boundary number that an adopted epoch gives the next boundary -/
  next    : Option Word := none
  pchg    : Word := 0
  /-- values that were in force before: the first tick of the values that followed, the epoch in ns and the period code, newest
  first (R63) -/
  past    : List (Nat × Nat × Nat) := []
  /-- an instant in ns at which the next boundary is not taken because time was lost (R510) -/
  lost    : Bool := false
  good    : Nat := 0
  bad     : Nat := 0
  measN   : Nat := 0
  /-- addends of LOCKED with their instants, newest first, for the holdover mean (R73) -/
  addends : List (Nat × Nat) := []
  master  : Option PtpAnn := none
  /-- foreign masters heard, with how many Announces of each -/
  foreign : List (PtpAnn × Nat) := []
  /-- this clock is the PTP master -/
  isMaster : Bool := false
  lastSeq : Option (BitVec 16) := none
  /-- a two-step Sync that waits for its Follow_Up: sequence, t2, correction -/
  twoStep : Option (BitVec 16 × Int × Int) := none
  /-- t2 − t1 of the last Sync -/
  down    : Option Int := none
  dreqSeq : BitVec 16 := 0
  dreq    : Option (BitVec 16 × Int) := none
  syncSeq : BitVec 16 := 0
  annSeq  : BitVec 16 := 0
  meanPath : Int := 0
  offset  : Int := 0
  ppsOk   : Bool := false
  refOk   : Bool := false
  everLocked : Bool := false
  ppsOut  : Bool := false
  armed   : SMap Bool := []
  trig    : SMap TrigPin := []
  capt    : SMap CaptFifo := []
  cmpIrq  : BitVec 16 := 0
  captIrq : BitVec 4 := 0
  /-- the tick in force began in holdover (R73) -/
  holdTick : Bool := false
  /-- the PTP message last sent -/
  ptpOut  : Option PtpOut := none
  deriving DecidableEq, Repr

/-! ### Tap Port Complex -/

/-- A Tap command queued or unacknowledged at a port (R151, R152): number, opcode, arguments, how often it was resent, and
the registers it writes, which the leaf's record takes as held once it is acknowledged OK. -/
structure PortCmd where
  seq    : BitVec 32 := 0
  op     : Nat
  args   : List Byte
  resent : Nat := 0
  regs   : List (Nat × Word) := []
  deriving DecidableEq, Repr

/-- Reassembly of one class at a port (R144): the bytes and blocks so far, or the blocks after a discard. -/
inductive Reasm where
  | idle
  | part (bytes : List Byte) (blocks : Nat)
  | dropping
  deriving DecidableEq, Repr

/-- A Tap port (R141 to R166). -/
structure TapPort where
  tr      : Train := {}
  /-- held in INIT because the port is not EXPECTED (R163) -/
  held    : Bool := false
  /-- the far end came from a block reset when the link was initialised -/
  fresh   : Bool := false
  heldTwo : Bool := false
  /-- a TICK_SUMMARY has arrived since the link came up -/
  observed : Bool := false
  /-- TAP_DOWN was written for this loss -/
  downTold : Bool := false
  reasm   : SMap Reasm := []
  /-- complete records in the ingest FIFOs, oldest first, with their blocks -/
  fifo    : List (Rec × Nat) := []
  limit   : SMap (BitVec 32) := []
  /-- Sienna blocks whose credit is withheld while staging is full (R271) -/
  owed    : Nat := 0
  creditDue : Bool := false
  tickDue : Bool := false
  timeDue : Bool := false
  nextSeq : BitVec 32 := 1
  cmdQ    : List PortCmd := []
  unacked : List PortCmd := []
  resend  : List (BitVec 32) := []
  /-- the leaf's record of the die: values last decided, and values the die is known to hold, by window offset -/
  want    : SMap (Option Word) := []
  known   : SMap (Option Word) := []
  /-- status and data of the last acknowledgement -/
  ack     : Option (BitVec 32 × Byte × Word) := none
  timeId  : BitVec 16 := 0
  /-- the exchange in progress: ID and t1 -/
  t1      : Option (BitVec 16 × Int) := none
  /-- t4 and the ID it answers, for the next TIME block -/
  t4      : Option (BitVec 16 × Int) := none
  /-- the last block sent -/
  block   : List Byte := []
  deriving DecidableEq, Repr

/-- The Glexon. -/
structure Glexon where
  /-- pins `SYS_RST_N`, `CORE_PWROK` and `MG_RST_N` -/
  sysRstN : Bool := false
  corePwrOk : Bool := true
  mgRstN  : Bool := false
  /-- `CORE_PWROK` fell while `SYS_RST_N` was high, and no pulse of `SYS_RST_N` has followed (R523) -/
  coreLost : Bool := false
  /-- registers in force, by address; an unlisted one holds its reset value -/
  regs    : SMap Word := []
  /-- RWT values written since the last boundary -/
  rwt     : SMap (Option Word) := []
  /-- memory by address: core SRAM and record memory; unlisted bytes read 0 -/
  mem     : SMap Byte := []
  /-- poisoned bytes, by 32-byte granule (R183) -/
  poison  : SMap Bool := []
  /-- HM_ECC_CORR and HM_ECC_UNCORR (R183), which have no address -/
  eccCorr : Word := 0
  eccUncorr : Word := 0
  /-- lanes in use of each fabric port: 4, 2, 1, or 0 when down (R508) -/
  portLanes : SMap Nat := []
  /-- data of the last read by register port or window -/
  rdData  : Word := 0
  tk      : TimeKeeper := {}
  ports   : SMap TapPort := []
  /-- the probe program that the leaf loads into its dies, and its tag (R162) -/
  probe   : List (BitVec 32) := []
  probeTag : BitVec 32 := 0
  /-- events on their way to the recorder (256 entries) -/
  events  : List EvItem := []
  cores   : SMap Core := []
  /-- ABORTMASK (Table 7.5) -/
  abortMask : BitVec 24 := 0
  /-- bundle stores: slot `k` of bundle `b` of core `n` at 65,536·n + 4·b + k (R192) -/
  code    : SMap Word := []
  /-- the program image in force -/
  image   : Image := {}
  /-- always-on core_clk count since reset, in quarters of a cycle, and CYCLES at the last tick pulse -/
  coreClk : Nat := 0
  pulse   : Nat := 0
  /-- the model's own counter of free values: how many unspecified values have arisen -/
  freeN   : Nat := 0
  /-- counts of the interval in progress, by selector (R478) -/
  obs     : SMap Nat := []
  trc     : SMap TrcSrc := []
  /-- the staged image half, once its bytes have been read -/
  staged  : Option Image := none
  au      : Audit := {}
  fl      : Fleet := {}
  es      : Scoring := {}
  ep      : Planner := {}
  ts      : Traffic := {}
  rm      : Remote := {}
  /-- streams of the Compression Engine by state address, and its operations and busy cycles of the tick -/
  ce      : SMap CeStream := []
  ceTick  : Nat × Nat := (0, 0)
  mg      : Mgmt := {}
  ob      : Observe := {}
  deriving DecidableEq, Repr

/-- The Glexon at reset. -/
def Glexon.reset : Glexon := {}

end Sys2Proof.Machine
end

