-- ==== Sys2Proof/Machine/State.lean ====
section
/-! DEFINITION. The state of the block, its faults and refusals, and the state after reset. -/

namespace Sys2Proof.Machine

/-- The machine: the Bumas BT-4, the Glexon GX-64, and the commands that wait, first in, first out. -/
structure State where
  bm      : Bumas
  gx      : Glexon
  pending : List Instr
  deriving DecidableEq, Repr

/-- Why the machine stops. No meaning of this model stops it: the spec gives every command an effect. -/
inductive Fault where
  /-- Raised by nothing: the machine has no stuck state. Safe. -/
  | none
  deriving DecidableEq, Repr

/-- Why a command has no meaning in the model. -/
inductive Refusal where
  /-- Raised by exec for a command whose meaning is not written. Safe: the model stops where the hardware goes on. -/
  | notModelled (mnemonic : String)
  deriving DecidableEq, Repr

/-- The machine right after reset: both parts held in reset with every field at its reset value, and no command waiting. -/
def State.reset : State := { bm := Bumas.reset, gx := Glexon.reset, pending := [] }

end Sys2Proof.Machine
end

