-- ==== Sys2Proof/Machine/Ops.lean ====
section
/-! DEFINITION. How a command of one part acts on the whole machine. -/

namespace Sys2Proof.Machine

/-- The answer of every meaning of this model. -/
abbrev Answer := Host.Outcome State Fault Refusal

/-- A command on the Bumas whatever its power and reset pins are. -/
def onBumasPins (f : Bumas → Bumas) (s : State) : Answer := .next { s with bm := f s.bm }

/-- A command on the Bumas: no effect while it is UNPOWERED or in RESET (R3, R100). -/
def onBumas (f : Bumas → Bumas) (s : State) : Answer :=
  .next { s with bm := if s.bm.alive then f s.bm else s.bm }

end Sys2Proof.Machine
end

