-- ==== Sys2Proof/Machine/GxOps.lean ====
section
/-! DEFINITION. Shared operations of the Glexon: registers, events, memory, time, and how a command acts on it. -/

namespace Sys2Proof.Machine

/-- The value in force of the register at address `a`, as stored. -/
def Glexon.rd (g : Glexon) (a : Nat) : Word := SMap.get (regReset gxRegFams a) g.regs a

/-- The Glexon with `v` in force at address `a`. -/
def Glexon.wr (g : Glexon) (a : Nat) (v : Word) : Glexon :=
  { g with regs := SMap.put (regReset gxRegFams a) g.regs a v }

/-- Adds `n` to a 64-bit counter register, saturating. -/
def Glexon.bump (g : Glexon) (a n : Nat) : Glexon := g.wr a (satAdd (g.rd a) n)

/-- Adds `n` to a field of a register, saturating at the field's width. -/
def Glexon.bumpFld (g : Glexon) (a lo len n : Nat) : Glexon := g.wr a (satFld (g.rd a) lo len n)

/-- The Time Keeper runs: it is out of reset and powered (R523); a thermal trip does not stop it (R462). -/
def Glexon.tkUp (g : Glexon) : Bool := g.sysRstN && g.corePwrOk && !g.coreLost

/-- The core domain runs: it is out of reset and powered, and no thermal trip has stopped it (R462, R523). -/
def Glexon.coreUp (g : Glexon) : Bool := g.tkUp && !g.mg.tripped

/-- A command on the Time Keeper: no effect while it is in reset. -/
def onTk (f : Glexon → Glexon) (s : State) : Answer :=
  .next { s with gx := if s.gx.tkUp then f s.gx else s.gx }

/-- A command on the core domain: no effect while it is in reset. -/
def onCore (f : Glexon → Glexon) (s : State) : Answer :=
  .next { s with gx := if s.gx.coreUp then f s.gx else s.gx }

/-- A command on the management domain: no effect while MG_RST_N is low. -/
def onMgmt (f : Glexon → Glexon) (s : State) : Answer :=
  .next { s with gx := if s.gx.mgRstN then f s.gx else s.gx }

/-- A command on the Glexon's pins and supplies. -/
def onGxPins (f : Glexon → Glexon) (s : State) : Answer := .next { s with gx := f s.gx }

/-! ### Events -/

/-- Whole ns of the local clock. -/
def Glexon.nowNs (g : Glexon) : Nat := nsOf g.tk.clk

/-- The tick number an event carries: 0 while not ticking (R76). -/
def Glexon.eventTick (g : Glexon) : Word := if g.tk.ticking then g.tk.tickNo else 0

/-- The fleet time an event carries: 0 unless LOCKED or HOLDOVER (R463). -/
def Glexon.eventTime (g : Glexon) : Nat :=
  if g.tk.mode = .locked ∨ g.tk.mode = .holdover then g.nowNs else 0

/-- Hands an event to the recorder's 256-entry FIFO; one that finds it full is lost and counted (R463). -/
def Glexon.event (g : Glexon) (code agent : Nat) (args : List Word) : Glexon :=
  let e : EvItem := { code := code, agent := agent,
                      sev := if code = 0x070C then 3 else Config.eventSeverity code,
                      args := args, time := g.eventTime, tick := g.eventTick }
  if g.events.length < 256 then { g with events := g.events ++ [e] }
  else
    let lost : EvLost := match g.mg.lost with
      | some x => { x with n := x.n + 1 }
      | none => { n := 1, time := e.time, tick := e.tick, left := 256 }
    { g with mg := { g.mg with lost := some lost } }.bumpFld Reg.MG_EVR_STAT 32 32 1

/-! ### Memory (R177, Table 6.5) -/

/-- What an address is. -/
inductive AddrKind where
  | sram (core : Nat)
  | csr
  | hbm
  | none
  deriving DecidableEq, Repr

/-- The region of an address (Table 6.5). -/
def addrKind (a : Nat) : AddrKind :=
  if 0x10000000 ≤ a ∧ a < 0x28000000 then
    let n := (a - 0x10000000) / 0x1000000
    if (a - 0x10000000) % 0x1000000 < (if n < 8 then 0x800000 else 0x400000) then .sram n else .none
  else if 0x80000000 ≤ a ∧ a < 0x81000000 then .csr
  else if 0x001000000000 ≤ a ∧ a < 0x002200000000 then .hbm
  else .none

/-- Is the byte at `a` a byte of memory? -/
def isMem (a : Nat) : Bool :=
  match addrKind a with
  | .sram _ => true
  | .hbm => true
  | _ => false

/-- Are all `n` bytes from `a` memory? Regions are far larger than any access, so the two ends and the middle decide. -/
def memRange (a n : Nat) : Bool :=
  n = 0 || (isMem a && isMem (a + n - 1) && decide (addrKind a = addrKind (a + n - 1)))

/-- The canonical form of memory: addresses strictly rising, and no byte listed that equals what an unlisted one reads as. -/
def Memory.wf (m : SMap Byte) : Bool := SMap.wf 0 m

/-- The byte at `a`; a byte that nothing has written reads 0. -/
def memByte (m : SMap Byte) (a : Nat) : Byte := SMap.get 0 m a

/-- The `n` bytes from `a`. -/
def memBytes (m : SMap Byte) (a n : Nat) : List Byte := (List.range n).map fun i => memByte m (a + i)

/-- The memory with the bytes `l` from `a`. -/
def memWrite (m : SMap Byte) (a : Nat) (l : List Byte) : SMap Byte :=
  match l with
  | [] => m
  | b :: r => memWrite (SMap.put 0 m a b) (a + 1) r

/-- The `n`-byte little-endian number at `a`. -/
def memNat (m : SMap Byte) (a n : Nat) : Nat := leNat (memBytes m a n)

/-- The Glexon with bytes written at `a`. -/
def Glexon.memPut (g : Glexon) (a : Nat) (l : List Byte) : Glexon := { g with mem := memWrite g.mem a l }

/-- The granules of 32 bytes that `n` bytes from `a` touch. -/
def granules (a n : Nat) : List Nat :=
  if n = 0 then [] else (List.range ((a + n - 1) / 32 + 1 - a / 32)).map fun i => a / 32 + i

/-- Is any of the `n` bytes from `a` poisoned? -/
def Glexon.poisoned (g : Glexon) (a n : Nat) : Bool := (granules a n).any fun k => SMap.get false g.poison k

/-- Marks or clears the poison of the granules that `n` bytes from `a` touch. -/
def Glexon.setPoison (g : Glexon) (a n : Nat) (p : Bool) : Glexon :=
  { g with poison := (granules a n).foldl (fun m k => SMap.put false m k p) g.poison }

/-- A read of record memory that the SEC-DED code cannot correct (R183) is logged. -/
def Glexon.uncorrectable (g : Glexon) (a : Nat) : Glexon :=
  { (g.event 0x0710 29 [word a]) with eccUncorr := satAdd g.eccUncorr 1 }

/-! ### Time -/

/-- The tick period in ns. -/
def Glexon.pNs (g : Glexon) : Nat := 250000 * 2 ^ g.tk.period

/-- Short time of an instant in ns (R64). -/
def Glexon.short (g : Glexon) (ns : Nat) : BitVec 32 := shortOf g.tk.epoch ns

/-- The epoch in ns and the period code in force for tick `n`: those it ran under, or those in force now (R62, R63). -/
def Glexon.inForce (g : Glexon) (n : Word) : Nat × Nat :=
  match (g.tk.past.filter fun p => decide (n.toNat < p.1)).getLast? with
  | some p => p.2
  | none => (g.tk.epoch, g.tk.period)

/-- The epoch in force for tick `n`, in ns (R63). -/
def Glexon.epochOf (g : Glexon) (n : Word) : Nat := (g.inForce n).1

/-- The period in force for tick `n`, in ns. -/
def Glexon.periodOf (g : Glexon) (n : Word) : Nat := 250000 * 2 ^ (g.inForce n).2

/-- The values in force are kept for the ticks before `n`, which is the first of other values; eight changes are kept. -/
def Glexon.keepPast (g : Glexon) (n : Nat) : Glexon :=
  { g with tk := { g.tk with past := ((n, g.tk.epoch, g.tk.period) :: g.tk.past).take 8 } }

/-- Instant of boundary `n`, in ns (R60), under the values in force for it. -/
def Glexon.boundNs (g : Glexon) (n : Word) : Nat := g.epochOf n + n.toNat * g.periodOf n

/-- Short time of the boundary that begins tick `n` (R63, R64). -/
def Glexon.shortAt (g : Glexon) (n : Word) : BitVec 32 := shortOf (g.epochOf n) (g.boundNs n)

/-- Local time in 2⁻¹⁶ ns. -/
def Glexon.stamp (g : Glexon) : Int := (g.tk.clk / 65536 : Nat)

/-- The Glexon index, if it has one (Table 6.10). -/
def Glexon.index (g : Glexon) : Nat := fld (g.rd Reg.ID_GLEXON_INDEX) 0 14
/-- ID_GLEXON_INDEX.VALID. -/
def Glexon.indexValid (g : Glexon) : Bool := bit (g.rd Reg.ID_GLEXON_INDEX) 63

/-! ### Bring-up (R492, R514) -/

/-- Milliseconds since the Glexon's own reset release: core_clk counts in quarters of a cycle of 1.8 GHz. -/
def Glexon.upMs (g : Glexon) : Nat := g.coreClk / 7200000

/-- A bring-up step is complete: its time is recorded once. -/
def Glexon.buDone (g : Glexon) (s : Nat) : Glexon :=
  if g.rd (Reg.MG_BU_TIME s) = 0 then g.wr (Reg.MG_BU_TIME s) (word (max 1 g.upMs % 2 ^ 32)) else g

/-- PHASE of MG_BU_STATE (Table 19.8). -/
def Glexon.buPhase (g : Glexon) : Nat := fld (g.rd Reg.MG_BU_STATE) 60 4

/-- Bring-up enters a phase: phases only rise, but for 9 FAILED. -/
def Glexon.buEnter (g : Glexon) (phase failed : Nat) : Glexon :=
  if g.buPhase < phase ∧ g.buPhase ≠ 9 then
    g.wr Reg.MG_BU_STATE (word (phase * 2 ^ 60 + failed % 16 * 2 ^ 56 + g.upMs % 2 ^ 32))
  else g

end Sys2Proof.Machine
end

