-- ==== Sys2Proof/Machine/ObsOps.lean ====
section
/-! DEFINITION. What the Observation Unit sees of the rest of the chip (R477 to R486): event counts and trace packets. -/

namespace Sys2Proof.Machine

/-- The selector of an event: class, unit, event (Table 18.1). -/
def obsSel (cls unit ev : Nat) : Nat := cls * 65536 + unit * 256 + ev

/-- Counts `n` occurrences of an event, while CNT_EN = 1 (R479). -/
def Glexon.count (g : Glexon) (cls unit ev n : Nat) : Glexon :=
  if bit (g.rd Reg.OB_CTRL) 63 then { g with obs := SMap.mod 0 g.obs (obsSel cls unit ev) (· + n) } else g

/-- What the SEC-DED code did to a read of record memory at `a` (R183, R478). -/
def Glexon.eccRead (g : Glexon) (a : Nat) (e : Ecc) : Glexon :=
  if addrKind a = .hbm then
    match e with
    | .ok => g
    | .corrected => { (g.count 4 (a / 256 % 64) 4 1) with eccCorr := satAdd g.eccCorr 1 }
    | .uncorrectable => g.uncorrectable a
  else g

/-- A fresh index for a free value. -/
def Glexon.fresh (g : Glexon) : Nat × Glexon := (g.freeN, { g with freeN := g.freeN + 1 })

/-- A varint (R482). -/
def varint : Nat → Nat → List Byte
  | 0, _ => []
  | f + 1, n => if n < 128 then [BitVec.ofNat 8 n] else BitVec.ofNat 8 (128 + n % 128) :: varint f (n / 128)

/-- A trace source. -/
def Glexon.src (g : Glexon) (a : Nat) : TrcSrc := SMap.get {} g.trc a

/-- The Glexon with a trace source replaced. -/
def Glexon.setSrc (g : Glexon) (a : Nat) (t : TrcSrc) : Glexon := { g with trc := SMap.put {} g.trc a t }

/-- Bytes waiting in a source's FIFO. -/
def TrcSrc.used (t : TrcSrc) : Nat := (t.fifo.map List.length).sum

/-- Puts a packet into a source's 2 KiB FIFO; one that finds no room, or a source that has lost packets, loses it
(R486). -/
def TrcSrc.push (t : TrcSrc) (p : List Byte) : TrcSrc :=
  if 0 < t.lost ∨ 2048 < t.used + p.length then { t with lost := t.lost + 1 }
  else { t with fifo := t.fifo ++ [p] }

/-- The reason byte of a SYNC (Table 18.3). -/
def SyncWhy.code : SyncWhy → Nat
  | .enable => 0
  | .wake => 1
  | .resync => 2
  | .periodic => 3

/-- A source emits SYNC for the instruction at `pc` (`pcLen` bytes), issued at cycle `cyc` of its always-on count. -/
def TrcSrc.sync (t : TrcSrc) (a : Nat) (why : SyncWhy) (pcLen pc : Nat) (tick : Word) (cyc : Nat) : TrcSrc :=
  let t1 : TrcSrc := t.push ([0x10, BitVec.ofNat 8 a, BitVec.ofNat 8 why.code] ++ leBytes pcLen pc
    ++ leBytes 8 tick.toNat ++ leBytes 8 cyc)
  { t1 with due := none, issued := 0, refCyc := cyc, since := 0 }

/-- A source emits a packet with ISSUED and DELTA: its type, the bytes before them and the bytes after. -/
def TrcSrc.packet (t : TrcSrc) (a typ : Nat) (pre post : List Byte) (cyc : Nat) : TrcSrc :=
  let t1 : TrcSrc := t.push ([BitVec.ofNat 8 typ, BitVec.ofNat 8 a] ++ pre ++ varint 10 t.issued
    ++ varint 10 (cyc - t.refCyc) ++ post)
  { t1 with issued := 0, refCyc := cyc, since := t.since + 1 }

/-- A bundle of a core issues: it is counted, and a SYNC that is due, or the periodic one, is made for it (R484). -/
def Glexon.trcIssue (g : Glexon) (n pc cyc : Nat) : Glexon :=
  let t := g.src n
  if t.on = false then g
  else
    let tick := g.tk.tickNo
    match t.due with
    | some why => g.setSrc n (t.sync n why 2 pc tick cyc)
    | none =>
      if 4095 ≤ t.since then g.setSrc n (t.sync n .periodic 2 pc tick cyc)
      else g.setSrc n { t with issued := t.issued + 1 }

/-- A core emits BRANCH for a taken branch (Table 18.3). -/
def Glexon.trcBranch (g : Glexon) (n target cyc : Nat) : Glexon :=
  let t := g.src n
  if t.on then g.setSrc n (t.packet n 0x21 [] (leBytes 2 target) cyc) else g

/-- A core emits DOZE (R485). -/
def Glexon.trcDoze (g : Glexon) (n cyc : Nat) : Glexon :=
  let t := g.src n
  if t.on then g.setSrc n (t.packet n 0x40 [] (leBytes 8 cyc) cyc) else g

/-- A core emits ABORT and then DOZE with ISSUED = 0 and DELTA = 0 (R485). -/
def Glexon.trcAbort (g : Glexon) (n cause pc cyc : Nat) : Glexon :=
  let t := g.src n
  if t.on then
    (g.setSrc n (t.packet n 0x41 [BitVec.ofNat 8 cause] (leBytes 2 pc) cyc)).trcDoze n cyc
  else g

end Sys2Proof.Machine
end

