-- ==== Sys2Proof/Machine/Snoop.lean ====
section
/-! DEFINITION. Snoop channels (R87, R88, R126, R127, R298): beats, messages, digests and statistics. -/

namespace Sys2Proof.Machine

/-- Element width in bytes by format code (Table 3.6); 0 for raw and reserved codes. -/
def snoopWidth (fmt : Nat) : Nat :=
  if fmt = 1 then 8
  else if fmt = 2 ∨ fmt = 5 then 4
  else if fmt = 3 ∨ fmt = 4 ∨ fmt = 6 then 2
  else if fmt = 7 ∨ fmt = 8 then 1
  else 0

/-- Is the format code an integer format (R297)? -/
def snoopIsInt (fmt : Nat) : Bool := decide (5 ≤ fmt ∧ fmt ≤ 8)

/-- The integer an element of an integer format holds (R297). -/
def snoopInt (fmt v : Nat) : Int :=
  if fmt = 8 then v else sextN (8 * snoopWidth fmt) v

/-- An element's value, exact (R127). -/
def snoopVal (fmt v : Nat) : FVal :=
  if fmt = 1 then fp64.decode v
  else if fmt = 2 then fp32.decode v
  else if fmt = 3 then bf16.decode v
  else if fmt = 4 then fp16.decode v
  else FVal.ofInt (snoopInt fmt v)

/-- The kept bytes of a beat, ascending (R88). -/
def keptBytes (data : BitVec 512) (keep : BitVec 64) : List Byte :=
  (onesBelow 64 keep.toNat).map fun i => BitVec.ofNat 8 (fldN data.toNat (8 * i) 8)

/-- The elements of a beat: index in the beat, how many of its bytes are kept, and its bits. -/
def beatElems (w : Nat) (data : BitVec 512) (keep : BitVec 64) : List (Nat × Nat × Nat) :=
  if w = 0 then []
  else (List.range (64 / w)).map fun j =>
    (j, popN w (fldN keep.toNat (j * w) w), fldN data.toNat (8 * j * w) (8 * w))

/-- Exponent histogram bin of e = ⌊log₂|x|⌋ (R127). -/
def expBin (e : Int) : Nat :=
  if e < -56 then 0 else if 56 ≤ e then 15 else ((e + 64) / 8).toNat

/-- One fully kept element into the statistics (R127). -/
def SnoopAcc.elem (a : SnoopAcc) (fmt v : Nat) : SnoopAcc :=
  let x := snoopVal fmt v
  if x.isNan then { a with nans := satN 32 (a.nans + 1) }
  else if x.isInf then { a with infs := satN 32 (a.infs + 1) }
  else
    let d := f64of x
    let a1 := { a with
      elems := a.elems + 1,
      sum := BitVec.ofNat 64 (f64add a.sum.toNat d),
      sumSq := BitVec.ofNat 64 (f64add a.sumSq.toNat (f64mul d d)),
      min := if ordKey 64 d < ordKey 64 a.min.toNat then BitVec.ofNat 64 d else a.min,
      max := if ordKey 64 a.max.toNat < ordKey 64 d then BitVec.ofNat 64 d else a.max }
    if x.isZero then { a1 with zeros := satN 32 (a1.zeros + 1) }
    else { a1 with hist := SMap.mod 0 a1.hist (expBin x.expo) fun n => satN 32 (n + 1) }

/-- One beat of a completed message into the interval's results; `k` is the beat's number in the message. -/
def SnoopAcc.beat (a : SnoopAcc) (m : SnoopMsg) (k : Nat) (bt : BitVec 512 × BitVec 64) : SnoopAcc :=
  let fmt := m.fmt.toNat
  let w := snoopWidth fmt
  let kb := keptBytes bt.1 bt.2
  let es := beatElems w bt.1 bt.2
  let full := es.filter fun e => decide (e.2.1 = w)
  let part := es.filter fun e => decide (0 < e.2.1 ∧ e.2.1 < w)
  let a1 := { a with bytes := a.bytes + kb.length, crcReg := crc64Run a.crcReg kb,
                     split := satN 32 (a.split + part.length) }
  let a2 := if m.stats then full.foldl (fun a e => a.elem fmt e.2.2) a1 else a1
  if m.m61 && snoopIsInt fmt then
    { a2 with m61 := full.foldl (fun d e =>
        (d + m61coef m.seed (k * (64 / w) + e.1) * m61elem (snoopInt fmt e.2.2)) % m61p) a2.m61 }
  else a2

/-- The beats of a message in order. -/
def SnoopAcc.beats (m : SnoopMsg) : Nat → List (BitVec 512 × BitVec 64) → SnoopAcc → SnoopAcc
  | _, [], a => a
  | k, bt :: r, a => SnoopAcc.beats m (k + 1) r (a.beat m k bt)

/-- A completed message counts in the interval of its last beat (R107). -/
def SnoopAcc.message (a : SnoopAcc) (m : SnoopMsg) : SnoopAcc :=
  let a1 := SnoopAcc.beats m 0 m.beats a
  let bad := decide (9 ≤ m.fmt.toNat)
  { a1 with
    msgs := satN 32 (a1.msgs + 1), lastFmt := m.fmt.toNat,
    lastCrc := word (crc64 (m.beats.map fun p => keptBytes p.1 p.2).flatten),
    m61Ok := a1.m61Ok && snoopIsInt m.fmt.toNat,
    fmtBad := if bad then a1.fmtBad + 1 else a1.fmtBad }

/-- The configuration of channel `i` in force: a DIGSET.E value over EN of BM_SNP_CFG_i (R126). -/
def Bumas.chanEn (b : Bumas) (i : Nat) (c : SnoopCh) : Bool :=
  c.enCur.getD (bit (b.rd (Reg.BM_SNP_CFG i)) 63)

/-- At a first beat a waiting DIGSET value comes into force (R126). -/
def SnoopCh.firstBeat (c : SnoopCh) : SnoopCh :=
  { c with seedCur := c.seedSet <|> c.seedCur, seedSet := none, enCur := c.enSet <|> c.enCur, enSet := none }

/-- A captured beat on a channel that captures (R87): the channel after it, and whether it counted FMT_BAD. -/
def Bumas.chanBeat (b : Bumas) (i : Nat) (c : SnoopCh) (bt : SnoopBeat) : SnoopCh × Bool :=
  if c.skip then ({ c with skip := !bt.last }, false)
  else
    let c1 : SnoopCh := match c.msg with
      | some _ => c
      | none =>
        let c0 := c.firstBeat
        let cfg := b.rd (Reg.BM_SNP_CFG i)
        if b.chanEn i c0 then
          { c0 with msg := some {
              fmt := bt.fmt,
              seed := c0.seedCur.getD (fld (b.rd (Reg.BM_SNP_SEED i)) 0 61),
              stats := bit cfg 62, m61 := bit cfg 61 } }
        else { c0 with skip := !bt.last }
    match c1.msg with
    | none => (c1, false)
    | some m =>
      let m1 := { m with beats := m.beats ++ [(bt.data, bt.keep)] }
      if bt.last then ({ c1 with msg := none, cur := c1.cur.message m1 }, decide (9 ≤ m1.fmt.toNat))
      else ({ c1 with msg := some m1 }, false)

/-- SNOOP_BEAT (R87): captured while the block runs with SNP_EN = 1. -/
def Bumas.snoopBeat (b : Bumas) (bt : SnoopBeat) : Bumas :=
  if b.running && b.snpEn then
    let i := bt.ch.toNat
    let r := b.chanBeat i (SMap.get {} b.snoop i) bt
    let b1 := { b with snoop := SMap.put {} b.snoop i r.1 }
    if r.2 then b1.irqSet 4 else b1
  else b

/-- The snoop statistics swap at S_n (R107), and DIGSET values end where a register write took effect (R126). -/
def Bumas.swapSnoop (b : Bumas) (written : List Nat) : Bumas :=
  { b with snoop := (List.range 16).foldl (fun m i => SMap.mod {} m i fun c =>
      let c1 := if Reg.BM_SNP_SEED i ∈ written then { c with seedSet := none, seedCur := none } else c
      let c2 := if Reg.BM_SNP_CFG i ∈ written then { c1 with enSet := none, enCur := none } else c1
      { c2 with prev := c2.cur, cur := {} }) b.snoop }

/-- The DIGEST entry of channel `i` (Table 4.11) over the interval closed by S_n. -/
def Bumas.digestEntry (b : Bumas) (i : Nat) : List Byte :=
  let c := SMap.get {} b.snoop i
  let a := c.prev
  let cfg := b.rd (Reg.BM_SNP_CFG i)
  let en := b.chanEn i c
  let flags := (en && bit cfg 62).toNat + (en && bit cfg 61 && a.m61Ok).toNat * 2
    + (decide (0 < a.fmtBad)).toNat * 4
  [BitVec.ofNat 8 i, BitVec.ofNat 8 a.lastFmt] ++ leBytes 2 flags ++ leBytes 4 a.msgs ++ leBytes 8 a.bytes
  ++ leBytes 8 (a.crcReg ^^^ 0xFFFFFFFFFFFFFFFF) ++ leBytes 8 a.lastCrc.toNat ++ leBytes 8 a.m61
  ++ leBytes 8 a.elems ++ leBytes 8 a.sum.toNat ++ leBytes 8 a.sumSq.toNat
  ++ leBytes 8 a.min.toNat ++ leBytes 8 a.max.toNat ++ leBytes 4 a.nans ++ leBytes 4 a.infs
  ++ leBytes 4 a.zeros ++ leBytes 4 a.split
  ++ ((List.range 16).map fun k => leBytes 4 (SMap.get 0 a.hist k)).flatten

end Sys2Proof.Machine
end

