-- ==== Sys2Proof/Machine/BumasBoundary.lean ====
section
/-! DEFINITION. The Bumas at its boundary (chapter 3, and R128 to R130): power and reset, counting, markers, PC
samples, audit sites and window, the host register port, and the sensor rounds. -/

namespace Sys2Proof.Machine

/-! ### Power and reset (R100 to R102) -/

/-- Reset (R102): every register, counter, buffer, slot and output returns to its reset value. The pins stay, the cause
is kept, and the model's own count of free values goes on. -/
def Bumas.resetBy (b : Bumas) (c : RstCause) : Bumas :=
  { Bumas.reset with pwrOk := b.pwrOk, rstN := b.rstN, cause := c, free := b.free }

/-- `bm_pwr_ok` falls (R102). -/
def Bumas.pwrFall (b : Bumas) : Bumas := { b with pwrOk := false }.resetBy .pwr

/-- Link training begins: the endpoint looks for a far end (R101, R160). -/
def Bumas.startTraining (b : Bumas) : Bumas := { b with tap := { b.tap with tr := { st := .detect } } }

/-- `bm_pwr_ok` rises (R100): with `bm_rst_n` low, as R101 has it, the block rests in RESET. -/
def Bumas.pwrRise (b : Bumas) : Bumas :=
  if b.pwrOk then b
  else if b.rstN then { b with pwrOk := true }.startTraining
  else { b with pwrOk := true }

/-- `bm_rst_n` is asserted (R102). -/
def Bumas.rstAssert (b : Bumas) : Bumas :=
  { b with rstN := false }.resetBy (if b.pwrOk && b.rstN then .rst else b.cause)

/-- `bm_rst_n` is released (R101): the block leaves RESET for IDLE and link training begins. -/
def Bumas.rstRelease (b : Bumas) : Bumas :=
  if b.pwrOk && !b.rstN then { b with rstN := true }.startTraining
  else { b with rstN := true }

/-- BM_PWR_OK_FALL. -/
def execBmPwrOkFall (s : State) : Answer := onBumasPins Bumas.pwrFall s
/-- BM_PWR_OK_RISE. -/
def execBmPwrOkRise (s : State) : Answer := onBumasPins Bumas.pwrRise s
/-- BM_RST_N_ASSERT. -/
def execBmRstNAssert (s : State) : Answer := onBumasPins Bumas.rstAssert s
/-- BM_RST_N_RELEASE. -/
def execBmRstNRelease (s : State) : Answer := onBumasPins Bumas.rstRelease s

/-- CLK_GAP (R81). -/
def execClkGap (s : State) : Answer :=
  onBumas (fun b => { b with time := { b.time with clkGap := true } }.irqSet 3) s

/-! ### Counting (R82, R93) -/

/-- Adds to one counter, modulo 2⁶⁴. -/
def Bumas.count (b : Bumas) (c n : Nat) : Bumas :=
  { b with cnt := SMap.mod 0 b.cnt c fun v => v + word n }

/-- The additions of one edge (R82): the event lines captured high and the valid increment ports. -/
def Bumas.eventCount (b : Bumas) (evt : BitVec 256) (incs : List CntInc) : Bumas :=
  if b.running then
    let b1 := (onesBelow 256 evt.toNat).foldl (fun b c => b.count c 1) b
    incs.foldl (fun b i => b.count i.id.toNat i.inc.toNat) b1
  else b

/-- EVENT_COUNT. -/
def execEventCount (evt : BitVec 256) (incs : List CntInc) (s : State) : Answer :=
  onBumas (fun b => b.eventCount evt incs) s

/-- An energy increment in nJ (R93). -/
def Bumas.energyInc (b : Bumas) (nJ : BitVec 32) : Bumas :=
  if b.running then { b with energy := b.energy + word nJ.toNat, incs := b.incs + 1 } else b

/-- ENERGY_INCREMENT. -/
def execEnergyIncrement (nJ : BitVec 32) (s : State) : Answer := onBumas (fun b => b.energyInc nJ) s

/-! ### Markers (R84) -/

/-- A marker is latched with its argument and local time, or dropped and counted. -/
def Bumas.marker (b : Bumas) (id : BitVec 16) (arg : BitVec 32) : Bumas :=
  if ¬ b.running then b
  else if id = 0 then { b with markC := { b.markC with zeroId := b.markC.zeroId + 1 } }.irqSet 4
  else if b.markC.marks.length < 256 then
    { b with markC := { b.markC with marks := b.markC.marks ++ [⟨id, arg, b.nowNs⟩] } }
  else { b with markC := { b.markC with dropped := b.markC.dropped + 1 } }

/-- MARKER_CAPTURE. -/
def execMarkerCapture (id : BitVec 16) (arg : BitVec 32) (s : State) : Answer :=
  onBumas (fun b => b.marker id arg) s

/-! ### PC samples (R86, R124) -/

/-- A sample is kept in the open window, replaces the core's earlier one, or is dropped. -/
def Bumas.pcSample (b : Bumas) (core : BitVec 9) (pc : BitVec 48) (stall : BitVec 6) : Bumas :=
  let p := b.pcs
  let c := core.toNat
  if ¬ b.running then b
  else if ¬ p.isOpen ∨ fld (b.rd Reg.BM_PCS_CFG) 0 10 ≤ c then
    { b with pcs := { p with stray := p.stray + 1 } }.irqSet 4
  else if p.mode = .stride ∧ c % p.stride ≠ b.time.tickNo.toNat % p.stride then b
  else match SMap.get none p.samples c with
    | none => { b with pcs := { p with
          taken := p.taken + 1,
          samples := SMap.put none p.samples c (some ⟨pc, stall, false⟩) } }
    | some _ =>
      { b with pcs := { p with
          dup := p.dup + 1,
          samples := SMap.put none p.samples c (some ⟨pc, stall, true⟩) } }.irqSet 4

/-- PC_SAMPLE. -/
def execPcSample (core : BitVec 9) (pc : BitVec 48) (stall : BitVec 6) (s : State) : Answer :=
  onBumas (fun b => b.pcSample core pc stall) s

/-- The collection window closes. -/
def Bumas.closeWindow (b : Bumas) : Bumas := { b with pcs := { b.pcs with isOpen := false } }

/-- PC_WINDOW_CLOSE (R86): at edge q + 4,096. -/
def execPcWindowClose (s : State) : Answer := onBumas Bumas.closeWindow s

/-- SNOOP_BEAT. -/
def execSnoopBeat (bt : SnoopBeat) (s : State) : Answer := onBumas (fun b => b.snoopBeat bt) s

/-! ### Audit sites (R89, R90, R98, R264) -/

/-- Bytes of a slot under the SLOT_SIZE in force; none for the two codes without slots (Table 3.12). -/
def BmAudit.slotSize (a : BmAudit) : Option Nat :=
  if a.sizeCode ≤ 5 then some (65536 * 2 ^ a.sizeCode) else none

/-- Are all slots free? -/
def BmAudit.allFree (a : BmAudit) : Bool := decide (a.slotMap = 0)

/-- A change of SLOT_SIZE waits (R98). -/
def Bumas.sizePending (b : Bumas) : Bool := decide (fld (b.rd Reg.BM_AW_CFG) 0 3 ≠ b.audit.sizeCode)

/-- A query of `site` is captured (R89, R264). -/
def Bumas.auditQuery (b : Bumas) (site : BitVec 16) : Bumas :=
  if ¬ b.running then b
  else
    let thr : BitVec 32 := BitVec.ofNat 32 (fld (b.rd Reg.BM_AUDIT_THRESH) 0 32)
    let h := auditHash (b.rd Reg.BM_AUDIT_SEED).toNat b.time.tickNo.toNat b.dieIndex site.toNat
    { b with audit := { b.audit with
        cur := { b.audit.cur with queries := b.audit.cur.queries + 1 },
        pend := b.audit.pend ++ [{ site := site, tick := b.time.tickNo, hash := h, thr := thr,
                                   sel := decide (h.toNat < thr.toNat), aw := b.awEn, lk := b.linkUp }] } }

/-- AUDIT_QUERY. -/
def execAuditQuery (site : BitVec 16) (s : State) : Answer := onBumas (fun b => b.auditQuery site) s

/-- The lowest-numbered free slot, if any. -/
def BmAudit.freeSlot? (a : BmAudit) : Option Nat :=
  match a.slotSize with
  | none => none
  | some z => (List.range (2097152 / z)).find? fun s => decide ((SMap.get {} a.slots s).st = .free)

/-- Counts in the interval in which the query was captured. -/
def BmAudit.tally (a : BmAudit) (now tick : Word) (f : AuditCounts → AuditCounts) : BmAudit :=
  if tick = now then { a with cur := f a.cur } else { a with prev := f a.prev }

/-- The answer to the oldest captured query (R89). -/
def Bumas.auditAnswer (b : Bumas) : Bumas :=
  match b.audit.pend with
  | [] => { b with audit := { b.audit with take := false, slotOut := 0 } }
  | q :: rest =>
    let a0 := { b.audit with pend := rest, take := false, slotOut := 0 }
    let now := b.time.tickNo
    if ¬ q.sel ∨ (q.lk ∧ ¬ b.linkUp) then { b with audit := a0 }
    else
      let a1 := a0.tally now q.tick fun c => { c with selected := c.selected + 1 }
      if ¬ b.running ∨ ¬ q.aw ∨ ¬ q.lk ∨ b.sizePending ∨ a1.slotSize = none ∨ (q.tick, q.site) ∈ a1.sites then
        { b with audit := a1 }
      else match a1.freeSlot? with
        | none =>
          { b with audit := { (a1.tally now q.tick fun c => { c with noslot := c.noslot + 1 }) with
              noslot := a1.noslot + 1 } }
        | some s =>
          let a2 := a1.tally now q.tick fun c => { c with granted := c.granted + 1 }
          { b with audit := { a2 with
              sites := a2.sites ++ [(q.tick, q.site)], take := true, slotOut := BitVec.ofNat 5 s,
              slots := SMap.put {} a2.slots s
                { st := .granted, grantTick := q.tick, site := q.site, hash := q.hash, thr := q.thr } } }

/-- AUDIT_ANSWER. -/
def execAuditAnswer (s : State) : Answer := onBumas Bumas.auditAnswer s

/-- Applies the strobed bytes of one beat at window byte `base`. -/
def writeBeat (w : SMap Byte) (base : Nat) (data : BitVec 512) (strb : BitVec 64) : SMap Byte :=
  (onesBelow 64 strb.toNat).foldl (fun w i =>
    SMap.put 0 w (base + i) (BitVec.ofNat 8 (fldN data.toNat (8 * i) 8))) w

/-- The `n` window bytes from `base`. -/
def BmAudit.bytes (a : BmAudit) (base n : Nat) : List Byte :=
  (List.range n).map fun i => SMap.get 0 a.window (base + i)

/-- The AUDIT_TILE payload of slot `s` (R270, Table 9.2) and whether OVERSIZE is set. -/
def BmAudit.tile (a : BmAudit) (s size : Nat) : List Byte :=
  let sl := SMap.get {} a.slots s
  let used := leNat (a.bytes (s * size + 4) 4)
  let bad := decide (used % 64 ≠ 0 ∨ used < 128 ∨ size < used ∨ 524224 < used)
  leBytes 8 sl.grantTick.toNat ++ leBytes 2 sl.site.toNat ++ [BitVec.ofNat 8 s, BitVec.ofNat 8 bad.toNat]
  ++ leBytes 4 sl.hash.toNat ++ leBytes 4 sl.thr.toNat ++ leBytes 4 used ++ leBytes 8 0
  ++ a.bytes (s * size) (if bad then 64 else used)

/-- The seal (R90, R270): one AUDIT_TILE closes in Sienna, with the seal tick and the short time of the seal edge. -/
def Bumas.seal (b : Bumas) (s size : Nat) : Bumas :=
  let r := { (b.mkRec 0x0109 2 (b.audit.tile s size) false) with shortTime := shortOf b.time.epoch b.nowNs }
  { b with audit := { b.audit with
      slots := SMap.mod {} b.audit.slots s fun x => { x with st := .sealed } } }.close r (some s)

/-- A write to the audit window (R91). -/
def Bumas.auditWrite (b : Bumas) (addr : BitVec 21) (data : BitVec 512) (strb : BitVec 64) : Bumas :=
  if ¬ b.awReady then b
  else
    let base := addr.toNat / 64 * 64
    let size := b.audit.slotSize.getD 2097152
    let s := base / size
    if (SMap.get {} b.audit.slots s).st ≠ .granted then
      { b with audit := { b.audit with stray := b.audit.stray + 1 } }.irqSet 4
    else
      let a := { b.audit with window := writeBeat b.audit.window base data strb }
      let b1 := if addr.toNat % 64 ≠ 0 then
          { b with audit := { a with unalign := a.unalign + 1 } }.irqSet 4
        else { b with audit := a }
      if base % size = 0 then b1.seal s size else b1

/-- AUDIT_WINDOW_WRITE. -/
def execAuditWindowWrite (addr : BitVec 21) (data : BitVec 512) (strb : BitVec 64) (s : State) : Answer :=
  onBumas (fun b => b.auditWrite addr data strb) s

/-- A slot granted in tick g and not sealed by the end of tick g + 1 is freed at the boundary that ends it (R90). -/
def Bumas.slotExpire (b : Bumas) (s : Nat) : Bumas :=
  let sl := SMap.get {} b.audit.slots s
  if sl.st = .granted ∧ sl.grantTick.toNat + 1 ≤ b.time.tickNo.toNat then
    let b1 := b.freeSlot s
    { b1 with audit := { b1.audit with expired := b1.audit.expired + 1 } }.irqSet 2
  else b

/-- AUDIT_SLOT_EXPIRE. -/
def execAuditSlotExpire (slot : BitVec 5) (s : State) : Answer := onBumas (fun b => b.slotExpire slot.toNat) s

/-- The clearing of a freed slot ends (R90): its bytes are zero and it counts as free. -/
def Bumas.clearDone (b : Bumas) (s : Nat) : Bumas :=
  if (SMap.get {} b.audit.slots s).st = .clearing then
    let size := b.audit.slotSize.getD 2097152
    { b with audit := { b.audit with
        window := b.audit.window.filter fun e => decide (e.1 / size ≠ s),
        slots := SMap.put {} b.audit.slots s {} } }
  else b

/-- AUDIT_SLOT_CLEAR_DONE. -/
def execAuditSlotClearDone (slot : BitVec 5) (s : State) : Answer := onBumas (fun b => b.clearDone slot.toNat) s

/-! ### Droop inputs and conversions (R128 to R130) -/

/-- The threshold of droop input `d`, in 0.25 mV. -/
def Bumas.droopThr (b : Bumas) (d : Nat) : Nat :=
  fld (b.rd (if d < 4 then Reg.BM_DROOP_THR_0 else Reg.BM_DROOP_THR_1)) (16 * (d % 4)) 16

/-- A fall below the threshold for at least 2 ns on an armed, enabled input (R130). -/
def Bumas.droopEvent (b : Bumas) (d : Nat) (level : BitVec 16) : Bumas :=
  let x := SMap.get {} b.droop d
  if b.running ∧ bit (b.rd Reg.BM_SNS_EN) (48 + d) ∧ ¬ x.below ∧ level.toNat < b.droopThr d then
    { b with
      droop := SMap.put {} b.droop d
        { x with below := true, events := satN 16 (x.events + 1),
                 deepest := if level.toNat < x.deepest.toNat then level else x.deepest } }
  else b

/-- DROOP_EVENT. -/
def execDroopEvent (input : BitVec 3) (level : BitVec 16) (s : State) : Answer :=
  onBumas (fun b => b.droopEvent input.toNat level) s

/-- DROOP_RECOVERY (R130): the input is armed again. -/
def execDroopRecovery (input : BitVec 3) (s : State) : Answer :=
  onBumas (fun b => { b with droop := SMap.mod {} b.droop input.toNat fun x => { x with below := false } }) s

/-- Asks a group for a round over `mask` (R128): at once if it is idle, else it waits in place of an earlier request. A
round over no input takes no time. -/
def Conv.request (c : Conv) (mask : Nat) : Conv :=
  match c.running with
  | some _ => { c with waiting := some mask }
  | none => if mask = 0 then { c with rounds := c.rounds + 1 } else { c with running := some mask }

/-- The running round ends with its results `res`; a waiting one starts. -/
def Conv.finish (c : Conv) (d : BitVec 16) (res : Nat → BitVec 16) : Conv :=
  match c.running with
  | none => c
  | some m =>
    let c1 := { c with running := none, waiting := none, rounds := c.rounds + 1,
                       reads := (onesBelow 32 m).foldl (fun r i => SMap.put d r i (res i)) c.reads }
    match c.waiting with
    | some w => c1.request w
    | none => c1

/-- The inputs of a group that BM_SNS_EN enables. -/
def Bumas.sensEn (b : Bumas) (g : SensGroup) : Nat :=
  match g with
  | .therm => fld (b.rd Reg.BM_SNS_EN) 0 32
  | .volt => fld (b.rd Reg.BM_SNS_EN) 32 16

/-- The reading of a thermal input (R129). -/
def thermReading : ThermIn → BitVec 16
  | .temp v => v
  | .broken => 0x8000

/-- A free reading of an unconnected monitor, from 0x04B0 to 0x1770 (R129). -/
def freeVmon (k : Nat) : BitVec 16 := BitVec.ofNat 16 (0x04B0 + (Config.freeVmon k).toNat % 0x12C1)

/-- The reading of an enabled monitor (R129): clamped, or free where unconnected. -/
def vmonReading (k : Nat) : VmonIn → BitVec 16
  | .volt v => if v.toNat < 0x04B0 then 0x04B0 else if 0x1770 < v.toNat then 0x1770 else v
  | .unconnected => freeVmon k

/-- THERMAL_ROUND_DONE (R128): reading `i` of the list is that of input `i`. -/
def execThermalRoundDone (reads : List ThermIn) (s : State) : Answer :=
  onBumas (fun b => { b with therm := b.therm.finish 0x8000 fun i => thermReading (reads.getD i .broken) }) s

/-- VOLTAGE_ROUND_DONE (R128): reading `j` of the list is that of monitor `j`. -/
def execVoltageRoundDone (reads : List VmonIn) (s : State) : Answer :=
  onBumas (fun b => { b with
    volt := b.volt.finish 0xFFFF fun j => vmonReading (b.free + j) (reads.getD j .unconnected), free := b.free + 16 }) s

/-- Readings of inputs that are no longer enabled return to their disabled values (R129). -/
def Bumas.dropDisabled (b : Bumas) : Bumas :=
  { b with
    therm := { b.therm with reads := b.therm.reads.filter fun e => (b.sensEn .therm).testBit e.1 },
    volt := { b.volt with reads := b.volt.reads.filter fun e => (b.sensEn .volt).testBit e.1 } }

/-! ### Host register port (R95, R96) -/

/-- A host write: applied, or refused with `bm_csr_err` and counted in BM_CSR_REFUSED. -/
def Bumas.hostWrite (b : Bumas) (a : Nat) (v : Word) : Bumas :=
  let r := b.csrWrite .host a v
  if r.2 then { r.1 with csrErr := false, csrData := 0 }
  else { (r.1.wr Reg.BM_CSR_REFUSED (satAdd (r.1.rd Reg.BM_CSR_REFUSED) 1)) with csrErr := true, csrData := 0 }

/-- The ring responder's answer in UNPOWERED and RESET (Table 3.13). -/
def Bumas.ringAnswer (b : Bumas) : Bumas := { b with csrErr := true, csrData := 0 }

/-- HOST_CSR_WRITE: `addr` is `bm_csr_addr[15:3]`. -/
def execHostCsrWrite (addr : BitVec 13) (data : Word) (s : State) : Answer :=
  onBumasPins (fun b => if b.alive then b.hostWrite (addr.toNat * 8) data else b.ringAnswer) s

/-- BM_TIME_SEC_READ (R96, R50): the read latches BM_TIME_SUB. -/
def execBmTimeSecRead (s : State) : Answer :=
  onBumasPins (fun b =>
    if b.alive then
      { (b.wr Reg.BM_TIME_SUB (word (subOf b.time.clk))) with
        csrErr := false, csrData := b.csrRead .host Reg.BM_TIME_SEC }
    else b.ringAnswer) s

end Sys2Proof.Machine
end

