-- ==== Sys2Proof/Machine/Probe.lean ====
section
/-! DEFINITION. The probe sequencer (chapter 4): encoding and validation, running, faults, arithmetic, histograms,
thresholds, requests and waits. -/

namespace Sys2Proof.Machine

/-! ### Encoding and validation (R113, R114, R116) -/

/-- The instruction word (Table 4.2) of opcode `op`, variant `v` and operand fields `o`. -/
def probeWord (op v : Nat) (o : ProbeOp) : Nat :=
  op * 2 ^ 26 + o.rd.toNat * 2 ^ 22 + o.ra.toNat * 2 ^ 18 + o.rb.toNat * 2 ^ 14 + v * 2 ^ 12 + o.imm.toNat

/-- Which of RD, RA, RB an instruction uses, and how many low bits of IMM; none for an undefined opcode or variant
(Table 4.3). -/
def probeUses (op v imm : Nat) : Option (Bool × Bool × Bool × Nat) :=
  match op, v with
  | 0x01, 0 => some (true, true, false, 12)
  | 0x01, 1 => some (true, true, false, 12)
  | 0x01, 2 => some (true, false, false, 12)
  | 0x01, 3 => some (true, false, false, 12)
  | 0x02, 0 => some (true, true, false, 12)
  | 0x02, 1 => some (true, false, false, 0)
  | 0x03, 0 => some (true, true, true, 4)
  | 0x04, 0 => some (true, true, true, 0)
  | 0x04, 1 => some (true, true, false, 12)
  | 0x05, 0 => some (true, true, true, 0)
  | 0x05, 1 => some (true, true, false, 12)
  | 0x06, 0 => some (true, true, true, 0)
  | 0x06, 1 => some (true, true, false, 12)
  | 0x07, 0 => some (true, true, true, 0)
  | 0x07, 1 => some (true, true, false, 12)
  | 0x07, 2 => some (true, true, true, 12)
  | 0x08, _ => some (true, true, true, 6)
  | 0x09, 0 => if imm % 8 ≤ 5 then some (true, true, true, 3) else none
  | 0x0A, 0 => some (false, false, false, 12)
  | 0x0A, 1 => some (false, true, false, 12)
  | 0x0A, 2 => some (false, true, false, 12)
  | 0x0B, 0 => some (false, true, false, 4)
  | 0x0B, 1 => some (false, true, true, 4)
  | 0x0C, 0 => some (true, true, true, 0)
  | 0x0C, 1 => some (true, true, true, 5)
  | 0x0D, 0 => some (false, true, false, 12)
  | 0x0D, 1 => some (false, true, true, 12)
  | 0x0D, 2 => some (false, false, false, 4)
  | 0x0D, 3 => some (false, true, false, 12)
  | 0x0E, 0 => some (false, false, false, 0)
  | 0x0E, 1 => some (false, false, false, 9)
  | 0x0E, 2 => some (false, false, false, 0)
  | 0x0F, 0 => some (false, true, false, 4)
  | 0x0F, 1 => some (false, true, false, 0)
  | 0x10, 0 => some (false, true, false, 0)
  | 0x10, 1 => some (false, true, false, 0)
  | 0x11, 0 => some (false, false, false, 12)
  | 0x11, 1 => some (false, false, false, 0)
  | 0x11, 2 => some (false, false, false, 0)
  | 0x3F, 0 => some (false, false, false, 0)
  | _, _ => none

/-- Does the word at index `pc` of a program of `len` words pass validation (R116)? -/
def probeWordOk (len pc w : Nat) : Bool :=
  let op := fldN w 26 6
  let v := fldN w 12 2
  let imm := fldN w 0 12
  match probeUses op v imm with
  | none => false
  | some (d, a, b, n) =>
    (d || fldN w 22 4 == 0) && (a || fldN w 18 4 == 0) && (b || fldN w 14 4 == 0) && decide (imm < 2 ^ n)
    && (op != 0x0A || (let t : Int := pc + sextN 12 imm
                       decide (0 ≤ t) && decide (t < len)))

/-- Instruction `i` of buffer `buf`. -/
def Bumas.progWord (b : Bumas) (buf : Bool) (i : Nat) : Nat :=
  fld (b.rd ((if buf then Reg.BM_PROG_1 else Reg.BM_PROG_0) (i / 2))) (32 * (i % 2)) 32

/-- The first failing word of a buffer, if any (R117). -/
def Bumas.firstBad (b : Bumas) (buf : Bool) (len : Nat) : Option Nat :=
  (List.range len).find? fun i => !probeWordOk len i (b.progWord buf i)

/-- Validation ends (R116, R117). -/
def Bumas.valDone (b : Bumas) : Bumas :=
  if b.probe.val ≠ .running then b
  else
    let len := b.probe.valLen
    if len = 0 ∨ 1024 < len then { b with probe := { b.probe with val := .failed, valPc := 0 } }
    else match b.firstBad (!b.probe.progBuf) len with
      | some i => { b with probe := { b.probe with val := .failed, valPc := i } }
      | none => { b with probe := { b.probe with val := .passed } }

/-- PROGRAM_VALIDATION_DONE. -/
def execProgramValidationDone (s : State) : Answer := onBumas Bumas.valDone s

/-- PROGRAM_SWAP (R116): BM_PROBE_CTRL is written with SWAP = 1, on the host port or by a Tap command. -/
def execProgramSwap (byTap : Bool) (data : Word) (s : State) : Answer :=
  onBumasPins (fun b =>
    if byTap then (if b.alive then (b.csrWrite .tap Reg.BM_PROBE_CTRL (putBit data 0 true)).1 else b)
    else if b.alive then b.hostWrite Reg.BM_PROBE_CTRL (putBit data 0 true)
    else b.ringAnswer) s

/-! ### Running (R108, R111, R112, R115) -/

/-- Register s_i; s0 reads 0 (R111). -/
def BmProbe.reg (p : BmProbe) (i : BitVec 4) : Word := if i = 0 then 0 else SMap.get 0 p.s i.toNat

/-- Register s_i written; a write to s0 is discarded (R111). -/
def BmProbe.setReg (p : BmProbe) (i : BitVec 4) (v : Word) : BmProbe :=
  if i = 0 then p else { p with s := SMap.put 0 p.s i.toNat v }

/-- Register s_i of the block's sequencer. -/
def Bumas.sreg (b : Bumas) (i : BitVec 4) : Word := b.probe.reg i

/-- Writes register s_i. -/
def Bumas.setSreg (b : Bumas) (i : BitVec 4) (v : Word) : Bumas := { b with probe := b.probe.setReg i v }

/-- The sequencer issues this instruction now: a run is in progress, no WAITT waits, and the word at pc of the active
buffer is this one. -/
def Bumas.issues (b : Bumas) (op v : Nat) (o : ProbeOp) : Bool :=
  b.running && b.probe.running && b.probe.wait.isNone && decide (b.probe.pc < b.probe.len)
  && b.progWord b.probe.progBuf b.probe.pc == probeWord op v o

/-- The tick period in ns by its code (Table 2.4). -/
def periodNs (code : Nat) : Nat := 250000 * 2 ^ code

/-- The TICK_SUMMARY payload (Table 4.8). -/
def Bumas.summaryPayload (b : Bumas) (status faultPc cause : Nat) : List Byte :=
  let p := b.probe
  let a := b.audit.prev
  leBytes 2 (status + p.emitFull.toNat * 8 + p.takeover.toNat * 16 + p.swapRej.toNat * 32 + b.time.clkGap.toNat * 128)
  ++ leBytes 2 (faultPc % 1024) ++ [BitVec.ofNat 8 cause, BitVec.ofNat 8 b.time.state.code, BitVec.ofNat 8 b.tap.tr.width, 0]
  ++ leBytes 4 p.tag.toNat ++ leBytes 2 (satN 16 p.instrs) ++ leBytes 2 (satN 16 p.cycles)
  ++ leBytes 4 (b.rd Reg.BM_CLK_MEAS).toNat ++ leBytes 4 p.alert.toNat
  ++ leBytes 2 (satN 16 p.closed) ++ leBytes 2 (satN 16 (p.emitUsed / 8))
  ++ leBytes 2 (satN 16 b.markP.marks.length) ++ leBytes 2 (satN 16 b.markP.dropped)
  ++ leBytes 4 (satN 32 a.queries) ++ leBytes 4 (satN 32 a.selected) ++ leBytes 4 (satN 32 a.granted)
  ++ leBytes 4 (satN 32 a.noslot) ++ leBytes 4 b.thrPrev.toNat ++ leBytes 4 0
  ++ leBytes 8 (b.energyN - b.energyP).toNat ++ leBytes 2 (satN 16 p.unmatched) ++ leBytes 2 (satN 16 p.tabOver)
  ++ leBytes 4 0

/-- Status bits of the summary (Table 4.8). -/
def stDone : Nat := 1
/-- OVERRUN. -/
def stOverrun : Nat := 2
/-- FAULT. -/
def stFault : Nat := 4
/-- NO_PROGRAM. -/
def stNoProgram : Nat := 64

/-- The TICK_SUMMARY closes, in Indigo (R132). -/
def Bumas.summary (b : Bumas) (status faultPc cause : Nat) (part : Bool) : Bumas :=
  b.close (b.mkRec 0x0101 0 (b.summaryPayload status faultPc cause) part)

/-- A record of the run closes (R132) and counts. -/
def Bumas.closeRun (b : Bumas) (typ cls : Nat) (payload : List Byte) (part : Bool) : Bumas :=
  let b1 := b.close (b.mkRec typ cls payload part)
  { b1 with probe := { b1.probe with closed := b1.probe.closed + 1 } }

/-- The open COUNTER_BLOCK, if any, closes. -/
def Bumas.closeBlock (b : Bumas) (part : Bool) : Bumas :=
  match b.probe.block with
  | some p => { b with probe := { b.probe with block := none } }.closeRun 0x0102 1 p part
  | none => b

/-- The run ends with the given status: open records close, the TICK_SUMMARY last. -/
def Bumas.endRun (b : Bumas) (status faultPc cause : Nat) (part : Bool) : Bumas :=
  let b1 := (b.closeBlock part).summary status faultPc cause part
  { b1 with probe := { b1.probe with running := false, wait := none } }

/-- A fault ends the run (R115). -/
def Bumas.probeFault (b : Bumas) (cause pc : Nat) : Bumas :=
  let st := b.rd Reg.BM_PROBE_STAT
  (b.wr Reg.BM_PROBE_STAT (putFld (satFld st 32 16 1) 0 10 pc)).endRun stFault pc cause true

/-- Fault causes (Table 4.5). -/
def pfIndex : Nat := 1
/-- PC_RANGE. -/
def pfPcRange : Nat := 2
/-- OPERAND. -/
def pfOperand : Nat := 3

/-- What an issued instruction does: completes in some cycles, with a branch target if it branches; waits; or faults. -/
inductive ProbeRes where
  | done (b : Bumas) (cycles : Nat) (target : Option Int)
  | waits (b : Bumas) (w : ProbeWait)
  | fault (cause : Nat)

/-- Moves the run past an instruction of `n` cycles; past the end it faults with PC_RANGE (R115). -/
def Bumas.advance (b : Bumas) (n : Nat) (target : Option Int) : Bumas :=
  let t : Int := target.getD (b.probe.pc + 1)
  let b1 := { b with probe := { b.probe with cycles := b.probe.cycles + n, instrs := b.probe.instrs + 1 } }
  if 0 ≤ t ∧ t < b.probe.len then { b1 with probe := { b1.probe with pc := t.toNat } }
  else b1.probeFault pfPcRange (wrapI 10 t)

/-- Issues the instruction with opcode `op`, variant `v` and fields `o`, whose operation is `f`. -/
def Bumas.probeStep (op v : Nat) (o : ProbeOp) (f : Bumas → ProbeRes) (b : Bumas) : Bumas :=
  if b.issues op v o then
    let b0 := { b with pcsReq := false }
    match f b0 with
    | .done b1 n t => b1.advance n t
    | .waits b1 w => { b1 with probe := { b1.probe with wait := some w } }
    | .fault c => b0.probeFault c b0.probe.pc
  else b

/-- An instruction that writes one register in `n` cycles. -/
def probeAlu (o : ProbeOp) (n : Nat) (f : Bumas → Word) (b : Bumas) : ProbeRes :=
  .done (b.setSreg o.rd (f b)) n none

/-- IMM, sign-extended. -/
def probeSx (o : ProbeOp) : Word := o.imm.signExtend 64
/-- IMM, zero-extended. -/
def probeZx (o : ProbeOp) : Word := o.imm.zeroExtend 64

/-- A command that issues one probe instruction. -/
def probeExec (op v : Nat) (o : ProbeOp) (f : Bumas → ProbeRes) (s : State) : Answer :=
  onBumas (Bumas.probeStep op v o f) s

/-! ### Snapshots and deltas (R114, R118) -/

/-- An instruction on counter c = s_RA + zext(IMM); INDEX above 4,095. -/
def probeCounter (o : ProbeOp) (f : Bumas → Nat → Word) (b : Bumas) : ProbeRes :=
  let c := (b.sreg o.ra + probeZx o).toNat
  if 4095 < c then .fault pfIndex else .done (b.setSreg o.rd (f b c)) 2 none

/-- SNAP.C. -/
def execSnapC (o : ProbeOp) (s : State) : Answer :=
  probeExec 0x01 0 o (probeCounter o fun b c => SMap.get 0 b.snapN c) s
/-- SNAP.P. -/
def execSnapP (o : ProbeOp) (s : State) : Answer :=
  probeExec 0x01 1 o (probeCounter o fun b c => SMap.get 0 b.snapP c) s
/-- SNAP.E. -/
def execSnapE (o : ProbeOp) (s : State) : Answer :=
  probeExec 0x01 2 o (fun b =>
    if o.imm = 0 then .done (b.setSreg o.rd b.energyN) 2 none
    else if o.imm = 1 then .done (b.setSreg o.rd b.energyP) 2 none
    else .fault pfOperand) s

/-- The status items (Table 4.4). -/
def Bumas.statusItem (b : Bumas) (i : Nat) : Word :=
  match i with
  | 0 => b.time.tickNo
  | 1 => word (periodNs b.time.period)
  | 2 => word b.thrPrev.toNat
  | 3 => word b.audit.prev.queries
  | 4 => word b.audit.prev.selected
  | 5 => word b.audit.prev.granted
  | 6 => word b.audit.prev.noslot
  | 7 => word b.markP.marks.length
  | 8 => word b.markP.dropped
  | 9 => b.rd Reg.BM_CLK_MEAS
  | 10 => word b.time.state.code
  | 11 => b.rd Reg.BM_WS
  | 12 => b.rd Reg.BM_DIE_INDEX
  | 13 => word b.pcs.samples.length
  | _ => 0

/-- SNAP.S. -/
def execSnapS (o : ProbeOp) (s : State) : Answer :=
  probeExec 0x01 3 o (probeAlu o 1 fun b => b.statusItem o.imm.toNat) s
/-- DELTA.C. -/
def execDeltaC (o : ProbeOp) (s : State) : Answer :=
  probeExec 0x02 0 o (probeCounter o fun b c => SMap.get 0 b.snapN c - SMap.get 0 b.snapP c) s
/-- DELTA.E. -/
def execDeltaE (o : ProbeOp) (s : State) : Answer :=
  probeExec 0x02 1 o (probeAlu o 2 fun b => b.energyN - b.energyP) s

/-! ### Arithmetic, shifts, compares and branches (R114) -/

/-- SEL: s_RA if s_rc ≠ 0, else s_RB. -/
def execProbeSel (o : ProbeOp) (s : State) : Answer :=
  probeExec 0x03 0 o (probeAlu o 1 fun b =>
    if b.sreg (o.imm.setWidth 4) ≠ 0 then b.sreg o.ra else b.sreg o.rb) s
/-- ADD. -/
def execProbeAdd (o : ProbeOp) (s : State) : Answer :=
  probeExec 0x04 0 o (probeAlu o 1 fun b => b.sreg o.ra + b.sreg o.rb) s
/-- ADD.I. -/
def execProbeAddI (o : ProbeOp) (s : State) : Answer :=
  probeExec 0x04 1 o (probeAlu o 1 fun b => b.sreg o.ra + probeSx o) s
/-- SUB. -/
def execProbeSub (o : ProbeOp) (s : State) : Answer :=
  probeExec 0x05 0 o (probeAlu o 1 fun b => b.sreg o.ra - b.sreg o.rb) s
/-- SUB.I. -/
def execProbeSubI (o : ProbeOp) (s : State) : Answer :=
  probeExec 0x05 1 o (probeAlu o 1 fun b => b.sreg o.ra - probeSx o) s
/-- AND. -/
def execProbeAnd (o : ProbeOp) (s : State) : Answer :=
  probeExec 0x06 0 o (probeAlu o 1 fun b => b.sreg o.ra &&& b.sreg o.rb) s
/-- AND.I. -/
def execProbeAndI (o : ProbeOp) (s : State) : Answer :=
  probeExec 0x06 1 o (probeAlu o 1 fun b => b.sreg o.ra &&& probeZx o) s
/-- OR. -/
def execProbeOr (o : ProbeOp) (s : State) : Answer :=
  probeExec 0x07 0 o (probeAlu o 1 fun b => b.sreg o.ra ||| b.sreg o.rb) s
/-- OR.I. -/
def execProbeOrI (o : ProbeOp) (s : State) : Answer :=
  probeExec 0x07 1 o (probeAlu o 1 fun b => b.sreg o.ra ||| probeZx o) s
/-- OR.K: k in RB, 0 to 5. -/
def execOrK (o : ProbeOp) (s : State) : Answer :=
  probeExec 0x07 2 o (fun b =>
    if 5 < o.rb.toNat then .fault pfOperand
    else .done (b.setSreg o.rd (b.sreg o.ra ||| ((probeZx o) <<< (12 * o.rb.toNat)))) 1 none) s

/-- The shift amount (s_RB + IMM[5:0]) mod 64. -/
def Bumas.shAmt (b : Bumas) (o : ProbeOp) : Nat := ((b.sreg o.rb).toNat + fld o.imm 0 6) % 64

/-- SHF.L. -/
def execShfL (o : ProbeOp) (s : State) : Answer :=
  probeExec 0x08 0 o (probeAlu o 1 fun b => b.sreg o.ra <<< b.shAmt o) s
/-- SHF.R. -/
def execShfR (o : ProbeOp) (s : State) : Answer :=
  probeExec 0x08 1 o (probeAlu o 1 fun b => b.sreg o.ra >>> b.shAmt o) s
/-- SHF.A. -/
def execShfA (o : ProbeOp) (s : State) : Answer :=
  probeExec 0x08 2 o (probeAlu o 1 fun b => (b.sreg o.ra).sshiftRight (b.shAmt o)) s
/-- SHF.O. -/
def execShfO (o : ProbeOp) (s : State) : Answer :=
  probeExec 0x08 3 o (probeAlu o 1 fun b => (b.sreg o.ra).rotateRight (b.shAmt o)) s

/-- A compare with its relation code in IMM[2:0]. -/
def probeCmp (rel : Nat) (f : Word → Word → Bool) (o : ProbeOp) (s : State) : Answer :=
  probeExec 0x09 0 { o with imm := BitVec.ofNat 12 rel }
    (probeAlu o 1 fun b => boolW (f (b.sreg o.ra) (b.sreg o.rb))) s

/-- CMP.EQ. -/
def execProbeCmpEq (o : ProbeOp) (s : State) : Answer := probeCmp 0 (fun x y => x == y) o s
/-- CMP.NE. -/
def execProbeCmpNe (o : ProbeOp) (s : State) : Answer := probeCmp 1 (fun x y => x != y) o s
/-- CMP.LTU. -/
def execProbeCmpLtu (o : ProbeOp) (s : State) : Answer := probeCmp 2 (fun x y => x.ult y) o s
/-- CMP.GEU. -/
def execProbeCmpGeu (o : ProbeOp) (s : State) : Answer := probeCmp 3 (fun x y => !x.ult y) o s
/-- CMP.LT, signed. -/
def execProbeCmpLt (o : ProbeOp) (s : State) : Answer := probeCmp 4 (fun x y => x.slt y) o s
/-- CMP.GE, signed. -/
def execProbeCmpGe (o : ProbeOp) (s : State) : Answer := probeCmp 5 (fun x y => !x.slt y) o s

/-- A branch: 2 cycles if taken, to pc + sext(IMM). -/
def probeBranch (o : ProbeOp) (c : Bumas → Bool) (b : Bumas) : ProbeRes :=
  if c b then .done b 2 (some (b.probe.pc + sextN 12 o.imm.toNat)) else .done b 1 none

/-- BR. -/
def execProbeBr (o : ProbeOp) (s : State) : Answer := probeExec 0x0A 0 o (probeBranch o fun _ => true) s
/-- BR.Z. -/
def execProbeBrZ (o : ProbeOp) (s : State) : Answer := probeExec 0x0A 1 o (probeBranch o fun b => b.sreg o.ra == 0) s
/-- BR.NZ. -/
def execProbeBrNz (o : ProbeOp) (s : State) : Answer := probeExec 0x0A 2 o (probeBranch o fun b => b.sreg o.ra != 0) s

/-! ### Histograms and alerts (R119, R120) -/

/-- The log-scale bin of a value (R119). -/
def histBin (v : Nat) : Nat := if v = 0 then 0 else min 63 (Nat.log2 v + 1)

/-- Adds `n` to a bin of histogram `h`, saturating at 32 bits. -/
def Bumas.histAdd (b : Bumas) (h v n : Nat) : Bumas :=
  { b with probe := { b.probe with
      hists := SMap.mod 0 b.probe.hists (64 * h + histBin v) fun x => satN 32 (x + n) } }

/-- HIST.V. -/
def execHistV (o : ProbeOp) (s : State) : Answer :=
  probeExec 0x0B 0 o (fun b => .done (b.histAdd (fld o.imm 0 4) (b.sreg o.ra).toNat 1) 2 none) s
/-- HIST.W. -/
def execHistW (o : ProbeOp) (s : State) : Answer :=
  probeExec 0x0B 1 o (fun b =>
    .done (b.histAdd (fld o.imm 0 4) (b.sreg o.ra).toNat (fld (b.sreg o.rb) 0 32)) 2 none) s
/-- THRESH.C. -/
def execThreshC (o : ProbeOp) (s : State) : Answer :=
  probeExec 0x0C 1 o (fun b =>
    if (b.sreg o.rb).toNat ≤ (b.sreg o.ra).toNat then
      .done ({ b with probe := { b.probe with
          alert := b.probe.alert ||| (1#32 <<< fld o.imm 0 5) } }.setSreg o.rd 1) 1 none
    else .done (b.setSreg o.rd 0) 1 none) s

/-! ### PC sampling, DIGSET, ADCSTART and waits (R124, R126, R128) -/

/-- PCSAMP: only the first of a run acts, and only with PCS_EN = 1. -/
def pcsamp (m : PcMode) (stride : Nat) (b : Bumas) : ProbeRes :=
  if b.pcs.acted then .done b 1 none
  else if b.pcsEn then
    .done { b with pcsReq := true, pcs := { b.pcs with
        acted := true, isOpen := true, mode := m, stride := stride, samples := [] } } 1 none
  else .done { b with pcs := { b.pcs with acted := true, mode := m, stride := stride } } 1 none

/-- PCSAMP.F. -/
def execPcsampF (o : ProbeOp) (s : State) : Answer := probeExec 0x0E 0 o (pcsamp .full 1) s
/-- PCSAMP.S. -/
def execPcsampS (o : ProbeOp) (s : State) : Answer := probeExec 0x0E 1 o (pcsamp .stride (fld o.imm 0 9 + 1)) s
/-- PCSAMP.H. -/
def execPcsampH (o : ProbeOp) (s : State) : Answer := probeExec 0x0E 2 o (pcsamp .hist 1) s

/-- DIGSET.S: takes effect at the channel's next first beat; until then an earlier value stays in force. -/
def execDigsetS (o : ProbeOp) (s : State) : Answer :=
  probeExec 0x0F 0 o (fun b =>
    .done { b with snoop := SMap.mod {} b.snoop (fld o.imm 0 4) fun c =>
      { c with seedSet := some (fld (b.sreg o.ra) 0 61) } } 1 none) s
/-- DIGSET.E: the enables of all channels, each from its next first beat. -/
def execDigsetE (o : ProbeOp) (s : State) : Answer :=
  probeExec 0x0F 1 o (fun b =>
    .done { b with snoop := (List.range 16).foldl (fun m i =>
      SMap.mod {} m i fun c => { c with enSet := some (bit (b.sreg o.ra) i) }) b.snoop } 1 none) s

/-- ADCSTART.T: inputs that are named and enabled. -/
def execAdcstartT (o : ProbeOp) (s : State) : Answer :=
  probeExec 0x10 0 o (fun b =>
    .done { b with therm := b.therm.request (fld (b.sreg o.ra) 0 32 &&& b.sensEn .therm) } 1 none) s
/-- ADCSTART.V: monitors that are named and enabled. -/
def execAdcstartV (o : ProbeOp) (s : State) : Answer :=
  probeExec 0x10 1 o (fun b =>
    .done { b with volt := b.volt.request (fld (b.sreg o.ra) 0 16 &&& b.sensEn .volt) } 1 none) s

/-- The pb_clk cycles (8/5 ns) of the run up to the instant `ns` after the boundary: a late snapshot edge leaves fewer. -/
def Bumas.cyclesTo (b : Bumas) (ns : Nat) : Nat :=
  (5 * (ns * nsUnit - (b.time.sEdge - b.time.bound)) + 8 * nsUnit - 1) / (8 * nsUnit)

/-- Does the condition of a wait hold now? -/
def Bumas.waitHolds (b : Bumas) : ProbeWait → Bool
  | .time imm => decide (b.cyclesTo (16 * imm.toNat) ≤ b.probe.cycles)
  | .adc => b.therm.running.isNone && b.therm.waiting.isNone && b.volt.running.isNone && b.volt.waiting.isNone
  | .pcs => !b.pcs.isOpen

/-- WAITT: one cycle if the condition already holds. -/
def waitt (w : ProbeWait) (b : Bumas) : ProbeRes := if b.waitHolds w then .done b 1 none else .waits b w

/-- WAITT.T. -/
def execWaittT (o : ProbeOp) (s : State) : Answer := probeExec 0x11 0 o (waitt (.time o.imm)) s
/-- WAITT.A. -/
def execWaittA (o : ProbeOp) (s : State) : Answer := probeExec 0x11 1 o (waitt .adc) s
/-- WAITT.P. -/
def execWaittP (o : ProbeOp) (s : State) : Answer := probeExec 0x11 2 o (waitt .pcs) s

/-- The condition of the waiting WAITT comes to hold: after the `n` cycles it took, or for WAITT.T at its instant. -/
def Bumas.waitDone (b : Bumas) (n : Nat) : Bumas :=
  if ¬ (b.running && b.probe.running) then b
  else match b.probe.wait with
    | none => b
    | some w =>
      let b0 := { b with probe := { b.probe with wait := none } }
      match w with
      | .time imm => b0.advance (max 1 (b.cyclesTo (16 * imm.toNat) - b.probe.cycles)) none
      | _ => if b.waitHolds w then b0.advance (max 1 n) none else b

/-- PROBE_WAIT_DONE. -/
def execProbeWaitDone (cycles : BitVec 16) (s : State) : Answer := onBumas (fun b => b.waitDone cycles.toNat) s

/-- END. -/
def execProbeEnd (o : ProbeOp) (s : State) : Answer :=
  onBumas (fun b =>
    if b.issues 0x3F 0 o then
      { b with pcsReq := false, probe := { b.probe with
          cycles := b.probe.cycles + 1, instrs := b.probe.instrs + 1 } }.endRun stDone 0 0 false
    else b) s

end Sys2Proof.Machine
end

