-- ==== Sys2Proof/Machine/ProbeEmit.lean ====
section
/-! DEFINITION. What a probe run emits (R121 to R133), the 50 µs limit (R109), and the Bumas boundary (R83, R106 to
R110, R117, R150, R159). -/

namespace Sys2Proof.Machine

/-! ### EMIT -/

/-- The emit buffer of 64 KiB has room for `n` more bytes (R112). -/
def Bumas.emitFits (b : Bumas) (n : Nat) : Bool := decide (b.probe.emitUsed + n ≤ 65536)

/-- Uses `n` bytes of the emit buffer. -/
def Bumas.emitUse (b : Bumas) (n : Nat) : Bumas :=
  { b with probe := { b.probe with emitUsed := b.probe.emitUsed + n } }

/-- EMIT_FULL (R112). -/
def Bumas.emitFull (b : Bumas) : Bumas := { b with probe := { b.probe with emitFull := true } }

/-- Cycles of an EMIT that adds `n` bytes. -/
def emitCycles (n : Nat) : Nat := 4 + (n + 63) / 64

/-- One COUNTER_BLOCK entry (Table 4.9). -/
def cbEntry (id kind n : Nat) (words : List Byte) : List Byte :=
  leBytes 2 id ++ [BitVec.ofNat 8 kind, 0] ++ leBytes 2 n ++ leBytes 2 0 ++ words

/-- Appends an entry to the open COUNTER_BLOCK; one that does not fit 16 KiB closes it and starts a new one (R133). -/
def Bumas.addEntry (b : Bumas) (e : List Byte) : Bumas :=
  match b.probe.block with
  | none => { b with probe := { b.probe with block := some e } }
  | some p =>
    if p.length + e.length ≤ 16384 then { b with probe := { b.probe with block := some (p ++ e) } }
    else let b1 := b.closeBlock false
         { b1 with probe := { b1.probe with block := some e } }

/-- An EMIT of one entry. -/
def emitEntry (b : Bumas) (e : List Byte) : ProbeRes :=
  if b.emitFits e.length then .done ((b.emitUse e.length).addEntry e) (emitCycles e.length) none
  else .done b.emitFull (emitCycles 0) none

/-- EMIT.W. -/
def execEmitW (o : ProbeOp) (s : State) : Answer :=
  probeExec 0x0D 0 o (fun b => emitEntry b (cbEntry o.imm.toNat 1 1 (leBytes 8 (b.sreg o.ra).toNat))) s

/-- EMIT.H. -/
def execEmitH (o : ProbeOp) (s : State) : Answer :=
  probeExec 0x0D 2 o (fun b =>
    let h := fld o.imm 0 4
    emitEntry b (cbEntry h 3 32 ((List.range 64).map fun k => leBytes 4 (SMap.get 0 b.probe.hists (64 * h + k))).flatten)) s

/-- The deltas of counters `c` to `c + n − 1` as words. -/
def Bumas.deltas (b : Bumas) (c n : Nat) : List Byte :=
  ((List.range n).map fun k => leBytes 8 (SMap.get 0 b.snapN (c + k) - SMap.get 0 b.snapP (c + k)).toNat).flatten

/-- How a DELTA_RANGE of `n` counters from `c` splits into ranges (R133), given the bytes used of the open block: each
takes what fits the 16 KiB; at least one counter fits an empty block. -/
def splitRange : Nat → Nat → Nat → Nat → List (Nat × Nat)
  | 0, _, _, _ => []
  | f + 1, used, c, n =>
    if n = 0 then []
    else if 16384 < used + 16 then splitRange f 0 c n
    else
      let k := min n ((16384 - used - 8) / 8)
      (c, k) :: splitRange f (used + 8 + 8 * k) (c + k) (n - k)

/-- EMIT.K. -/
def execEmitK (o : ProbeOp) (s : State) : Answer :=
  probeExec 0x0D 1 o (fun b =>
    let c := (b.sreg o.ra + probeZx o).toNat
    let n := (b.sreg o.rb).toNat
    if 4095 < c then .fault pfIndex
    else if n = 0 ∨ 4096 < c + n then .fault pfOperand
    else
      let rs := splitRange 8 ((b.probe.block.map List.length).getD 0) c n
      let bytes := 8 * n + 8 * rs.length
      if b.emitFits bytes then
        .done (rs.foldl (fun b r => b.addEntry (cbEntry r.1 2 r.2 (b.deltas r.1 r.2))) (b.emitUse bytes))
          (emitCycles bytes) none
      else .done b.emitFull (emitCycles 0) none) s

/-- An EMIT.R whose IMM is the low byte of the record type: the whole record is added and closes. -/
def emitRecord (typ cls : Nat) (payload : Bumas → List Byte) (b : Bumas) : ProbeRes :=
  let p := payload b
  if b.emitFits p.length then .done ((b.emitUse p.length).closeRun typ cls p false) (emitCycles p.length) none
  else .done b.emitFull (emitCycles 0) none

/-- The MARKER payload: one entry per latched marker of the interval (R133). -/
def Bumas.markerPayload (b : Bumas) : List Byte :=
  (b.markP.marks.map fun m => leBytes 2 m.id.toNat ++ leBytes 2 0 ++ leBytes 4 m.arg.toNat
    ++ leBytes 4 (shortOf b.time.epoch m.time).toNat ++ leBytes 4 0).flatten

/-- EMIT.R with a type of the table; any other IMM faults with OPERAND (Table 4.3). This row is IMM = 0x003 and every IMM
that names no record. -/
def execEmitRMarker (o : ProbeOp) (s : State) : Answer :=
  if o.imm = 4 ∨ o.imm = 5 ∨ o.imm = 6 ∨ o.imm = 7 then .next s
  else probeExec 0x0D 3 o (fun b =>
    if o.imm = 3 then emitRecord 0x0103 1 Bumas.markerPayload b else .fault pfOperand) s

/-- The mapped stall code of a host code (R125). -/
def Bumas.stallCode (b : Bumas) (h : Nat) : Nat :=
  let v := fld (b.rd (Reg.BM_STALL_MAP (h / 8))) (8 * (h % 8)) 6
  if (0x0D ≤ v ∧ v ≤ 0x1F) ∨ 0x38 ≤ v then 0x3D else v

/-- Kept cores of the mode (R124): all below CORES, or those of the stride. -/
def Bumas.keptCores (b : Bumas) : Nat :=
  let n := fld (b.rd Reg.BM_PCS_CFG) 0 10
  if b.pcs.mode = .stride then
    ((List.range n).filter fun c => decide (c % b.pcs.stride = b.time.tickNo.toNat % b.pcs.stride)).length
  else n

/-- The PC_SAMPLES payload (Table 4.10). -/
def Bumas.pcPayload (b : Bumas) : List Byte :=
  let p := b.pcs
  let kept := p.samples.length
  let mode := match p.mode with
    | .full => 0
    | .stride => 1
    | .hist => 2
  let head := [BitVec.ofNat 8 mode, 0] ++ leBytes 2 p.stride ++ leBytes 2 kept ++ leBytes 2 (b.keptCores - kept)
  let code := fun (e : Nat × Option PcSample) => b.stallCode ((e.2.map fun x => x.stall.toNat).getD 0)
  if p.mode = .hist then
    let cnt := fun k => (p.samples.filter fun e => decide (code e = k)).length
      + if k = 0x3E then b.keptCores - kept else 0
    head ++ ((List.range 64).map fun k => leBytes 4 (cnt k)).flatten
  else
    head ++ (p.samples.map fun e =>
      leBytes 8 (((e.2.map fun x => x.pc.toNat).getD 0) * 2 ^ 16 + e.1 * 2 ^ 7 + code e * 2
        + ((e.2.map fun x => x.dup.toNat).getD 0))).flatten

/-- EMIT.R PC_SAMPLES: the collection window closes early (R124). -/
def execEmitRPcSamples (o : ProbeOp) (s : State) : Answer :=
  probeExec 0x0D 3 { o with imm := 4 } (fun b => emitRecord 0x0104 3 Bumas.pcPayload b.closeWindow) s

/-- EMIT.R DIGEST for the channels set in s_RA[15:0]. -/
def execEmitRDigest (o : ProbeOp) (s : State) : Answer :=
  probeExec 0x0D 3 { o with imm := 5 } (fun b =>
    emitRecord 0x0105 1 (fun b => ((onesBelow 16 (b.sreg o.ra).toNat).map b.digestEntry).flatten) b) s

/-- The SENSOR payload (Table 4.12). -/
def Bumas.sensorPayload (b : Bumas) : List Byte :=
  ((List.range 32).map fun i => leBytes 2 (SMap.get 0x8000 b.therm.reads i).toNat).flatten
  ++ ((List.range 16).map fun j => leBytes 2 (SMap.get 0xFFFF b.volt.reads j).toNat).flatten
  ++ ((List.range 8).map fun d => leBytes 4 ((SMap.get {} b.droop d).half true)).flatten
  ++ leBytes 2 (satN 16 b.therm.rounds) ++ leBytes 2 (satN 16 b.volt.rounds) ++ leBytes 4 0

/-- EMIT.R SENSOR. -/
def execEmitRSensor (o : ProbeOp) (s : State) : Answer :=
  probeExec 0x0D 3 { o with imm := 6 } (emitRecord 0x0106 1 Bumas.sensorPayload) s

/-- Mean power in mW: energy × 1,000 / P, saturating (R131). -/
def Bumas.meanPower (b : Bumas) : Nat :=
  satN 32 ((b.energyN - b.energyP).toNat * 1000 / periodNs b.time.period)

/-- The ENERGY payload (R133). -/
def Bumas.energyPayload (b : Bumas) : List Byte :=
  leBytes 8 (b.energyN - b.energyP).toNat ++ leBytes 8 b.energyN.toNat ++ leBytes 4 b.meanPower
  ++ leBytes 4 (satN 32 b.incsP) ++ leBytes 8 0

/-- EMIT.R ENERGY. -/
def execEmitREnergy (o : ProbeOp) (s : State) : Answer :=
  probeExec 0x0D 3 { o with imm := 7 } (emitRecord 0x0107 1 Bumas.energyPayload) s

/-! ### THRESH.MI (R121 to R123) -/

/-- The LONG_SAMPLE payload (Table 4.13). -/
def longSample (arg epoch : BitVec 32) (d : Nat) (isOpen : Bool) (dur : Nat) (st en : BitVec 32) : List Byte :=
  leBytes 4 arg.toNat ++ leBytes 4 epoch.toNat ++ [BitVec.ofNat 8 d, BitVec.ofNat 8 isOpen.toNat, 0, 0]
  ++ leBytes 4 dur ++ leBytes 4 st.toNat ++ leBytes 4 en.toNat ++ leBytes 8 0

/-- Emits one LONG_SAMPLE if it fits; says whether it did. -/
def Bumas.emitLong (b : Bumas) (p : List Byte) : Bumas × Bool :=
  if b.emitFits 32 then ((b.emitUse 32).closeRun 0x0108 1 p false, true) else (b.emitFull, false)

/-- One marker of the scan (R122 items 1 to 4), with the number of records so far. -/
def miMark (base thr : Nat) (x : Bumas × Nat) (m : Mark) : Bumas × Nat :=
  let b := x.1
  let p := b.probe
  let id := m.id.toNat
  if id = 5 then ({ b with probe := { p with dataEpoch := m.arg } }, x.2)
  else if id = 6 then ({ b with probe := { p with opens := [] } }, x.2)
  else if base ≤ id ∧ id < base + 16 then
    let d := id - base
    let rest := p.opens.filter fun e => !(e.d == d && e.arg == m.arg)
    if rest.length < 256 then
      ({ b with probe := { p with opens := rest ++ [⟨d, m.arg, m.time, false⟩] } }, x.2)
    else ({ b with probe := { p with tabOver := p.tabOver + 1 } }, x.2)
  else if base + 16 ≤ id ∧ id < base + 32 then
    let d := id - base - 16
    match p.opens.find? fun e => e.d == d && e.arg == m.arg with
    | none => ({ b with probe := { p with unmatched := p.unmatched + 1 } }, x.2)
    | some e =>
      let dur := satN 32 (m.time - e.time)
      let b1 := { b with probe := { p with opens := p.opens.erase e } }
      if thr ≤ dur ∨ e.reported then
        let r := b1.emitLong (longSample m.arg p.dataEpoch d false dur (shortOf b.time.epoch e.time)
          (shortOf b.time.epoch m.time))
        (r.1, x.2 + r.2.toNat)
      else (b1, x.2)
  else x

/-- One remaining entry after the scan: emitted once with OPEN set if it is old enough and not yet reported. -/
def miOpen (thr : Nat) (x : Bumas × Nat) (e : OpenEnt) : Bumas × Nat :=
  let b := x.1
  let age := satN 32 (nsOf b.time.sEdge - e.time)
  if thr ≤ age ∧ ¬ e.reported then
    let r := b.emitLong (longSample e.arg b.probe.dataEpoch e.d true age (shortOf b.time.epoch e.time) 0)
    if r.2 then
      ({ r.1 with probe := { r.1.probe with
          opens := r.1.probe.opens.map fun y => if y = e then { e with reported := true } else y } }, x.2 + 1)
    else (r.1, x.2)
  else x

/-- The whole scan of THRESH.MI: its block, and how many records it emitted. -/
def Bumas.miScan (b : Bumas) (base thr : Nat) : Bumas × Nat :=
  let b0 := { b with probe := { b.probe with scanned := true } }
  let x := b.markP.marks.foldl (miMark base thr) (b0, 0)
  x.1.probe.opens.foldl (miOpen thr) x

/-- Is the base ID in range (R122)? -/
def miBaseOk (base : Nat) : Bool := decide (0x0100 ≤ base ∧ base ≤ 0xFFE0)

/-- THRESH.MI: only the first of a run scans (R121). -/
def execThreshMi (o : ProbeOp) (s : State) : Answer :=
  probeExec 0x0C 0 o (fun b =>
    let base := fld (b.sreg o.ra) 0 16
    if ¬ miBaseOk base then .fault pfOperand
    else if b.probe.scanned then .done (b.setSreg o.rd 0) 2 none
    else
      let x := b.miScan base (b.sreg o.rb).toNat
      .done (x.1.setSreg o.rd (word x.2)) (2 + b.markP.marks.length + 4 * x.2) none) s

/-! ### The 50 µs limit (R109) -/

/-- A THRESH.MI cut off: what its scan had reached stands, the rest is never scanned. -/
def Bumas.miCut (b : Bumas) (c : ProbeCut) : Bumas :=
  let base := fld (b.sreg c.ra) 0 16
  let thr := (b.sreg c.rb).toNat
  if b.probe.scanned || !miBaseOk base then b
  else
    let b0 := { b with probe := { b.probe with scanned := true } }
    let x := (b.markP.marks.take c.reached).foldl (miMark base thr) (b0, 0)
    if c.reached < b.markP.marks.length then x.1
    else
      let due := x.1.probe.opens.filter fun e =>
        decide (thr ≤ satN 32 (nsOf b.time.sEdge - e.time)) && !e.reported
      ((due.take c.opened).foldl (miOpen thr) x).1

/-- The run is stopped at the limit: open records close as PARTIAL, the summary carries OVERRUN. -/
def Bumas.overrun (b : Bumas) (cut : Option ProbeCut) : Bumas :=
  if b.running && b.probe.running then
    let b1 := match cut with
      | some c => b.miCut c
      | none => b
    let st := b1.rd Reg.BM_PROBE_STAT
    let b2 := b1.wr Reg.BM_PROBE_STAT (satFld st 48 16 1)
    { b2 with probe := { b2.probe with cycles := max b2.probe.cycles (b2.cyclesTo 50000) } }.endRun stOverrun 0 0 true
  else b

/-- PROBE_OVERRUN. -/
def execProbeOverrun (cut : Option ProbeCut) (s : State) : Answer := onBumas (fun b => b.overrun cut) s

/-! ### The boundary -/

/-- The number and epoch of the boundary about to be taken, with the period from it on: adopted values (R159), a pending
period change (R62), or the next of the present ones. -/
def BmTime.nextTick (t : BmTime) : Word × Nat × Nat × Word × Bool :=
  match t.adopt with
  | some a => (a.n, a.epoch, a.period, t.pchg, true)
  | none =>
    let n := t.tickNo + 1
    let code := fld t.pchg 0 3
    if t.pchg ≠ 0 ∧ fld t.pchg 3 61 = n.toNat % 2 ^ 61 ∧ code ≠ 7 then
      let tc := t.epoch + n.toNat * periodNs t.period
      (n, tc - n.toNat * periodNs code, code, 0, false)
    else (n, t.epoch, t.period, t.pchg, false)

/-- The counts of the tick that ends enter the statistics registers (R97). -/
def Bumas.latchStats (b : Bumas) : Bumas :=
  let split := ((List.range 16).map fun i => (SMap.get {} b.snoop i).cur.split).sum
  let bad := ((List.range 16).map fun i => (SMap.get {} b.snoop i).cur.fmtBad).sum
  let b1 := b.wr Reg.BM_MARK_STAT
    (word (satN 32 b.markC.dropped * 2 ^ 32 + satN 16 b.markC.zeroId * 2 ^ 16 + satN 9 b.markC.marks.length))
  let b2 := b1.wr Reg.BM_PCS_STAT
    (word (satN 16 b.pcs.stray * 2 ^ 48 + satN 16 b.pcs.dup * 2 ^ 32 + satN 10 b.pcs.taken))
  let b3 := b2.wr Reg.BM_SNP_STAT (word (satN 32 split * 2 ^ 32 + satN 16 bad))
  let a := b.audit
  b3.wr Reg.BM_AW_STAT
    (word (satN 16 a.noslot * 2 ^ 48 + satN 16 a.expired * 2 ^ 32 + satN 16 a.stray * 2 ^ 16 + satN 16 a.unalign))

/-- The snapshot at S_n (R83, R107): counters, energy, markers and audit counts swap, and their counts restart. -/
def Bumas.snapshot (b : Bumas) : Bumas :=
  { b with
    snapP := b.snapN, snapN := b.cnt, energyP := b.energyN, energyN := b.energy, incsP := b.incs, incs := 0,
    markP := b.markC, markC := {},
    pcs := { b.pcs with samples := [], acted := false, taken := 0, stray := 0, dup := 0, mode := .full, stride := 1 },
    audit := { b.audit with prev := b.audit.cur, cur := {}, noslot := 0, expired := 0, stray := 0, unalign := 0,
                            sites := b.audit.sites.filter fun x => decide (x.1 = b.time.tickNo) },
    droop := (List.range 8).foldl (fun m d => SMap.mod {} m d fun x =>
      { x with eventsP := x.events, deepestP := x.deepest, events := 0, deepest := 0xFFFF }) b.droop }

/-- SLOT_SIZE changes only when all slots are free (R98). -/
def Bumas.applySlotSize (b : Bumas) : Bumas :=
  if b.audit.allFree then { b with audit := { b.audit with sizeCode := fld (b.rd Reg.BM_AW_CFG) 0 3 } } else b

/-- The validation is judged (R117): takeover, rejection, or, if it still runs, at the following boundary. -/
def Bumas.judgeSwap (b : Bumas) : Bumas :=
  let p := { b.probe with takeover := false, swapRej := false }
  let c := b.rd Reg.BM_PROBE_CTRL
  if ¬ p.swap then { b with probe := p }
  else if ¬ bit c 0 then { b with probe := { p with swap := false } }
  else if p.val = .running then { b with probe := p }
  else
    let b1 := b.wr Reg.BM_PROBE_CTRL (putBit c 0 false)
    if p.val = .passed then
      { b1 with probe := { p with
          swap := false, progBuf := !p.progBuf, progValid := true, len := p.valLen, tag := p.valTag,
          s := [], opens := [], dataEpoch := 0, takeover := true } }
    else { b1 with probe := { p with swap := false, swapRej := true } }

/-- Starts the run of the tick, or closes the summary of a tick without a run (R108, R110). -/
def Bumas.startRun (b : Bumas) : Bumas :=
  let b1 := { b with probe := { b.probe with
      pc := 0, hists := [], alert := 0, emitUsed := 0, block := none, closed := 0, instrs := 0, cycles := 0,
      emitFull := false, wait := none, scanned := false, unmatched := 0, tabOver := 0 } }
  if ¬ b1.en then b1
  else if b1.probe.progValid && !bit (b1.rd Reg.BM_PROBE_CTRL) 1 then
    { b1 with probe := { b1.probe with running := true } }
  else b1.summary stNoProgram 0 0 false

/-- Sensor rounds start over the enabled inputs (R128); rounds are counted from S_n. -/
def Bumas.startRounds (b : Bumas) : Bumas :=
  let b1 := { b with therm := { b.therm with rounds := 0 }, volt := { b.volt with rounds := 0 } }
  if b.en then
    { b1 with therm := b1.therm.request (b1.sensEn .therm), volt := b1.volt.request (b1.sensEn .volt) }
  else b1

/-- The time side of a boundary: the tick, its instant, and the clock brought to it. -/
def BmTime.boundary (t : BmTime) : BmTime :=
  let x := t.nextTick
  let bound := (x.2.1 + x.1.toNat * periodNs x.2.2.1) * nsUnit
  let clk := max t.clk bound
  { t with tickNo := x.1, epoch := x.2.1, period := x.2.2.1, pchg := x.2.2.2.1, adopt := none, clk := clk,
           bound := bound, sEdge := clk, partialT := x.2.2.2.2, clkGap := false,
           holdTick := decide (t.state = .holdover) || t.glexHold, firstTick := some (t.firstTick.getD x.1) }

/-- The alive counter at a boundary (R306): with EN = 1 it adds 1, and on adoption the difference to the expected tick. -/
def Bumas.bumpAlive (b : Bumas) (old : BmTime) : Bumas :=
  let jump := if old.adopt.isSome ∧ old.firstTick.isSome then b.time.tickNo - (old.tickNo + 1) else 0
  { b with tap := { b.tap with
      alive := b.tap.alive + BitVec.ofNat 16 jump.toNat + (if b.en then 1 else 0) } }

/-- BUMAS_BOUNDARY (R83): the block takes its next boundary; `khz` is bm_clk as measured over the tick that ends. -/
def Bumas.boundary (b : Bumas) (khz : BitVec 21) : Bumas :=
  if ¬ b.time.ticking then b
  else
    let b0 := b.overrun none
    let thr : BitVec 32 := BitVec.ofNat 32 (fld (b0.rd Reg.BM_AUDIT_THRESH) 0 32)
    let written := b0.rwt.map (·.1)
    let b1 := (b0.latchStats.swapSnoop written).snapshot
    let b2 := { b1 with time := b1.time.boundary, thrPrev := thr }
    let b3 := ((b2.commitRwt).refillWritten written).bumpAlive b.time
    let b4 := (b3.wr Reg.BM_CLK_MEAS (word khz.toNat)).wr Reg.BM_SNAP_TICK b3.time.tickNo
    let b5 := ((b4.dropDisabled).applySlotSize).judgeSwap
    let b6 := (b5.closeLoss).startRounds
    let b7 := if b6.en then b6.irqSet 0 else b6
    b7.startRun

/-- BUMAS_BOUNDARY. -/
def execBumasBoundary (khz : BitVec 21) (s : State) : Answer := onBumas (fun b => b.boundary khz) s

end Sys2Proof.Machine
end

