-- ==== Sys2Proof/Machine/Training.lean ====
section
/-! DEFINITION. Link training (R160, R161, Table 5.7): the states that either end of a Tap link runs. -/

namespace Sys2Proof.Machine

/-- A lane's flag set in a pair of lane flags. -/
def setLane (lane : Bool) (x y : Bool) : Bool × Bool := if lane then (x, true) else (true, y)

/-- A far-end signal is found on a lane in DETECT, and the lane enters TRAIN; the other lane may follow. -/
def Train.signal (t : Train) (lane : Bool) : Train :=
  if t.st = .detect ∨ t.st = .train then
    let p := setLane lane t.sig0 t.sig1
    { t with st := .train, sig0 := p.1, sig1 := p.2 }
  else t

/-- Every lane with a signal has been trained. -/
def Train.allTrained (t : Train) : Bool := (t.trn0 || !t.sig0) && (t.trn1 || !t.sig1)

/-- Transmitter equalisation training of a lane ends; FEC_ALIGN begins when no lane is still in training. -/
def Train.trained (t : Train) (lane : Bool) : Train :=
  if t.st = .train ∧ (if lane then t.sig1 else t.sig0) then
    let p := setLane lane t.trn0 t.trn1
    let t1 := { t with trn0 := p.1, trn1 := p.2 }
    if t1.allTrained then { t1 with st := .fecAlign } else t1
  else t

/-- Both lanes are used: both passed TRAIN, and the pair is set. -/
def Train.two (t : Train) (pair : Bool) : Bool := t.trn0 && t.trn1 && pair && t.want != 1

/-- Codeword lock on a lane. A ×2 link goes on to DESKEW when both lanes are in lock, a ×1 link to INIT when its lane is,
lane 0 being preferred. -/
def Train.lock (t : Train) (pair : Bool) (lane : Bool) : Train :=
  if t.st = .fecAlign ∧ (if lane then t.trn1 else t.trn0) then
    let p := setLane lane t.lane0 t.lane1
    let t1 := { t with lane0 := p.1, lane1 := p.2 }
    if t1.two pair then (if t1.lane0 && t1.lane1 then { t1 with st := .deskew } else t1)
    else if (if t1.trn0 then t1.lane0 else t1.lane1) then { t1 with st := .init } else t1
  else t

/-- The lanes of a ×2 link are aligned. -/
def Train.deskewed (t : Train) : Train := if t.st = .deskew then { t with st := .init } else t

/-- A link back in DETECT. -/
def Train.toDetect (t : Train) : Train :=
  { st := .detect, want := t.want, retrains := t.retrains + (if t.st = .up then 1 else 0) }

/-- A state exceeds its limit: back to DETECT; in TRAIN, a link with one lane that passed goes on with it alone. -/
def Train.timeout (t : Train) : Train :=
  match t.st with
  | .disabled => t
  | .up => t
  | .train =>
    if t.trn0 then { t with st := .fecAlign, trn1 := false, sig1 := false }
    else if t.trn1 then { t with st := .fecAlign, sig0 := false }
    else t.toDetect
  | _ => t.toDetect

/-- A lane fails in UP: a ×2 link goes to FEC_ALIGN on the surviving lane, a ×1 link to DETECT if it is its lane. -/
def Train.laneFail (t : Train) (lane : Bool) : Train :=
  if t.st ≠ .up then t
  else if t.width = 2 then
    { st := .fecAlign, sig0 := lane, trn0 := lane, sig1 := !lane, trn1 := !lane, degr := true,
      retrains := t.retrains + 1 }
  else if (if lane then t.lane1 else t.lane0) then t.toDetect
  else t

/-- Enters UP at the agreed width. -/
def Train.enterUp (t : Train) (two : Bool) : Train :=
  if t.st = .init then
    { t with st := .up, degr := false, width := if two && t.lane0 && t.lane1 then 2 else 1 }
  else t

/-- Retrains from TRAIN at a requested width: both lanes for 2, the lane in use for 1. -/
def Train.retrain (t : Train) (two : Bool) : Train :=
  let l1 := t.lane1 && !t.lane0
  { st := .train, sig0 := two || !l1, sig1 := two || l1, retrains := t.retrains, want := if two then 2 else 1 }

end Sys2Proof.Machine
end

