-- ==== Sys2Proof/Machine/TapBumas.lean ====
section
/-! DEFINITION. The Tap link endpoint of the Bumas (chapter 5): blocks sent and received, credit, shaping, Tap commands,
time transfer and tick markers. -/

namespace Sys2Proof.Machine

/-! ### Ageing (R149) -/

/-- At the boundary that ends the current tick n: unstarted Teal and Mauve records of tick n or earlier, and Sienna
records sealed in tick n − 1 or earlier, are discarded. -/
def Bumas.ageOut (b : Bumas) : Bumas :=
  let n := b.time.tickNo.toNat
  b.discardWhere fun t =>
    decide (t.sent = 0) && (((t.r.cls = 1 || t.r.cls = 3) && decide (t.r.tick.toNat ≤ n))
      || (t.r.cls = 2 && decide (t.r.tick.toNat + 1 ≤ n)))

/-- TAP_QUEUE_AGE_OUT. -/
def execTapQueueAgeOut (s : State) : Answer := onBumas Bumas.ageOut s

/-! ### Link state changes (R149 item 6, R156, R161) -/

/-- The link leaves UP: records in progress are discarded, exchanges end, and the clock goes to holdover. -/
def Bumas.linkLost (b : Bumas) : Bumas :=
  let b1 := (b.discardWhere fun t => decide (0 < t.sent)).irqSet 1
  { b1 with
    tap := { b1.tap with acks := [], after := none },
    time := { b1.time with
      exch := none, echo := none, offsets := [], inBand := 0, lossSince := true,
      state := if b1.time.state = .none then .none else .holdover } }

/-- Puts the endpoint in another training state, with what leaving or entering UP brings. Entering UP restarts credit
(R145) and, unless a degrade brought the link back, command numbering (R151, R161). -/
def Bumas.setTrain (b : Bumas) (t : Train) : Bumas :=
  let was := b.linkUp
  let degr := b.tap.tr.degr
  let b1 := { b with tap := { b.tap with tr := t } }
  if was ∧ t.st ≠ .up then b1.linkLost
  else if ¬ was ∧ t.st = .up then
    { b1 with tap := { b1.tap with
        sent := [], limit := [(0, 64), (1, 1024), (2, 1024), (3, 256)],
        next := if degr then b1.tap.next else 1, hist := if degr then b1.tap.hist else [] } }.irqSet 1
  else b1

/-! ### Sending (R139, R141 to R145, R148) -/

/-- A 64-byte block: its first 60 bytes and the link CRC (R139). -/
def mkBlock (l : List Byte) : List Byte := let l := padTo 60 l; l ++ leBytes 4 (crc32c l)

/-- A time word of 12 bytes from an instant in 2⁻¹⁶ ns (R155): seconds, nanoseconds, fraction, from the low byte. -/
def timeWordBytes (t : Int) : List Byte :=
  let n := t.toNat
  let ns := n / 65536
  leBytes 12 (ns / 1000000000 % 2 ^ 48 + (ns % 1000000000) * 2 ^ 48 + n % 65536 * 2 ^ 78)

/-- An instant in 2⁻¹⁶ ns from a time word. -/
def ofTimeWord (t : TimeWord) : Int := ((t.sec.toNat * 1000000000 + t.ns.toNat) * 65536 + t.frac.toNat : Nat)

/-- Local time in 2⁻¹⁶ ns. -/
def Bumas.stamp (b : Bumas) : Int := (b.time.clk / 65536 : Nat)

/-- The Tap lane constants of the Bumas end (Table 2.3), in 2⁻¹⁶ ns: ingress 49 ns, egress 35 ns. -/
def bmIngress : Int := 49 * 65536
/-- Egress. -/
def bmEgress : Int := 35 * 65536

/-- Data block credit of class `c` (R145). -/
def BmTap.hasCredit (t : BmTap) (c : Nat) : Bool :=
  let d := (SMap.get 0 t.limit c - SMap.get 0 t.sent c).toNat
  decide (1 ≤ d ∧ d ≤ 2 ^ 31)

/-- The shaper of class `c` brought up to now (R148): RATE Mb/s adds RATE units of 1/8,000 byte per ns. -/
def Bumas.shaperNow (b : Bumas) (c : Nat) : Bucket :=
  let w := b.rd (Reg.BM_TAP_SHAPE c)
  let x := SMap.get {} b.tap.shapers c
  { tok := min (fld w 0 24 * 8000) (x.tok + fld w 40 24 * (b.nowNs - x.last)), last := b.nowNs }

/-- Class `c` may send a block now: Indigo is never shaped, RATE = 0 disables a shaper, else 64 bytes of tokens. -/
def Bumas.shaperOk (b : Bumas) (c : Nat) : Bool :=
  c = 0 || decide (fld (b.rd (Reg.BM_TAP_SHAPE c)) 40 24 = 0) || decide (512000 ≤ (b.shaperNow c).tok)

/-- Spends 64 bytes of the class's tokens. -/
def Bumas.shaperSpend (b : Bumas) (c : Nat) : Bumas :=
  if c = 0 ∨ fld (b.rd (Reg.BM_TAP_SHAPE c)) 40 24 = 0 then b
  else
    let x := b.shaperNow c
    { b with tap := { b.tap with shapers := SMap.put {} b.tap.shapers c { x with tok := x.tok - 512000 } } }

/-- The record of class `c` to send from: the one in progress, else the oldest queued. -/
def BmTap.head (t : BmTap) (c : Nat) : Option TxRec := t.q.find? fun x => decide (x.r.cls.toNat = c)

/-- The highest class that may send a block now (R143). -/
def Bumas.sendClass (b : Bumas) : Option Nat :=
  (List.range 4).find? fun c => (b.tap.head c).isSome && b.tap.hasCredit c && b.shaperOk c

/-- A DATA block (R142): block `k` of a record of class `c`. -/
def dataBlock (c k n : Nat) (bytes : List Byte) : List Byte :=
  mkBlock ([0x11, BitVec.ofNat 8 (c * 64 + (if k = 0 then 32 else 0) + (if k + 1 = n then 16 else 0))]
    ++ leBytes 2 k ++ padTo 56 ((bytes.drop (56 * k)).take 56))

/-- Sends one DATA block of the record `t` of class `c`. -/
def Bumas.sendData (b : Bumas) (c : Nat) (t : TxRec) : Bumas :=
  let n := Rec.blocks t.r
  let b1 := b.shaperSpend c
  let b2 := { b1 with tap := { b1.tap with
      sent := SMap.mod 0 b1.tap.sent c fun v => v + 1,
      block := dataBlock c t.sent n (Rec.bytes t.r),
      lossFirst := match t.loss with
        | some l => if t.sent = 0 then some (l.first + word l.ticks) else b1.tap.lossFirst
        | none => b1.tap.lossFirst } }
  if t.sent + 1 < n then
    { b2 with tap := { b2.tap with
        q := b2.tap.q.map fun x => if x = t then { t with sent := t.sent + 1 } else x } }
  else
    let b3 := { b2 with tap := { b2.tap with q := b2.tap.q.erase t } }
    match t.slot with
    | some s => b3.freeSlot s
    | none => b3

/-- What follows a CMD_ACK that has left (R153). -/
def Bumas.afterAck (b : Bumas) (seq : BitVec 32) : Bumas :=
  match b.tap.after with
  | some (q, act) =>
    if q = seq then
      let b1 := { b with tap := { b.tap with after := none } }
      match act with
      | .reset => (b1.resetBy .tap).startTraining
      | .retrain two => b1.setTrain (b1.tap.tr.retrain two)
    else b
  | none => b

/-- One block slot (R141): CMD_ACK, TIME_ECHO, DATA, else IDLE. -/
def Bumas.blockSlot (b : Bumas) : Bumas :=
  if ¬ b.linkUp then b
  else match b.tap.acks with
    | a :: rest =>
      { b with tap := { b.tap with
          acks := rest,
          block := mkBlock ([0x21, 0, 0, 0] ++ leBytes 4 a.seq.toNat ++ [a.status] ++ leBytes 7 0
            ++ leBytes 8 a.data.toNat) } }.afterAck a.seq
    | [] => match b.time.echo with
      | some (id, t1, t2) =>
        let t3 := b.stamp + bmEgress
        { b with
          time := { b.time with echo := none, exch := some (id, t1, t2, t3) },
          tap := { b.tap with
            block := mkBlock ([0x31, 0, 0, 0] ++ timeWordBytes t2 ++ timeWordBytes t3 ++ leBytes 2 0
              ++ leBytes 2 id.toNat) } }
      | none => match b.sendClass with
        | some c => match b.tap.head c with
          | some t => b.sendData c t
          | none => b
        | none => { b with tap := { b.tap with block := mkBlock [0x00] } }

/-- BUMAS_BLOCK_SLOT. -/
def execBumasBlockSlot (s : State) : Answer := onBumas Bumas.blockSlot s

/-! ### Receiving (R140) -/

/-- A received block: discarded and counted in BM_TAP_ERR unless its codeword was correctable and its CRC matches; not
received at all unless the link is UP. -/
def Bumas.receive (b : Bumas) (k : BlkCheck) (f : Bumas → Bumas) : Bumas :=
  if ¬ b.linkUp then b
  else if k.fecOk && k.crcOk then f b
  else
    let e := satFld (b.rd Reg.BM_TAP_ERR) 16 16 1
    b.wr Reg.BM_TAP_ERR (if k.fecOk then e else satFld e 32 32 1)

/-- CREDIT_RECEIVE (R145, R146). -/
def execCreditReceive (c : CreditBlk) (s : State) : Answer :=
  onBumas (fun b => b.receive c.chk fun b =>
    { b with tap := { b.tap with
        limit := SMap.put 0 (SMap.put 0 (SMap.put 0 (SMap.put 0 b.tap.limit 0 c.lim0) 1 c.lim1) 2 c.lim2) 3 c.lim3 } }) s

/-! ### Tap commands (R151 to R154) -/

/-- Command statuses (R152). -/
def ackOk : Byte := 0
/-- REFUSED. -/
def ackRefused : Byte := 1
/-- BAD_OPCODE. -/
def ackBadOpcode : Byte := 2
/-- BAD_ARG. -/
def ackBadArg : Byte := 3

/-- What executing a command gives: the block, the status and the read data. -/
structure CmdRes where
  b      : Bumas
  status : Byte
  data   : Word := 0

/-- Queues the CMD_ACK of an executed command and remembers it (R151). -/
def Bumas.ackNew (b : Bumas) (seq : BitVec 32) (status : Byte) (data : Word) : Bumas :=
  let a : TapAck := { seq := seq, status := status, data := data }
  let b1 := if status = ackOk then b
    else b.wr Reg.BM_TAP_CMD_STAT (satFld (b.rd Reg.BM_TAP_CMD_STAT) 0 16 1)
  { b1 with tap := { b1.tap with
      next := b1.tap.next + 1, acks := b1.tap.acks ++ [a], hist := (a :: b1.tap.hist).take 16 } }

/-- A received command (R151): executed if its number is NEXT; answered again if it is one of the 16 before; else
discarded. -/
def Bumas.tapCmd (b : Bumas) (c : TapCmd) (f : Bumas → CmdRes) : Bumas :=
  b.receive c.chk fun b =>
    let ahead := (c.seq - b.tap.next).toNat
    let back := (b.tap.next - c.seq).toNat
    if ahead = 0 then
      let r := f b
      r.b.ackNew c.seq r.status r.data
    else if ahead < 2 ^ 31 then b
    else
      let b1 := b.wr Reg.BM_TAP_CMD_STAT (satFld (b.rd Reg.BM_TAP_CMD_STAT) 16 16 1)
      if back ≤ 16 then
        match b1.tap.hist.find? fun a => a.seq == c.seq with
        | some a => { b1 with tap := { b1.tap with acks := b1.tap.acks ++ [a] } }
        | none => b1
      else b1

/-- A command whose argument length must be `n` (R153). -/
def Bumas.tapCmdLen (b : Bumas) (c : TapCmd) (n : Nat) (f : Bumas → CmdRes) : Bumas :=
  b.tapCmd c fun b => if c.argLen.toNat = n then f b else { b := b, status := ackBadArg }

/-- TAP_NOP. -/
def execTapNop (c : TapCmd) (s : State) : Answer :=
  onBumas (fun b => b.tapCmdLen c 0 fun b => { b := b, status := ackOk }) s

/-- The entries of a CSR_WRITE: offset and data. -/
def csrEntries (c : TapCmd) : List (Nat × Word) :=
  (List.range (c.argLen.toNat / 16)).map fun i => (leAt c.args (16 * i) 2, word (leAt c.args (16 * i + 8) 8))

/-- Writes in entry order; the first refused write ends the command. -/
def Bumas.csrWrites (b : Bumas) : List (Nat × Word) → CmdRes
  | [] => { b := b, status := ackOk }
  | (a, v) :: r =>
    let x := b.csrWrite .tap a v
    if x.2 then Bumas.csrWrites x.1 r else { b := b, status := ackRefused }

/-- CSR_WRITE. -/
def execCsrWrite (c : TapCmd) (s : State) : Answer :=
  onBumas (fun b => b.tapCmd c fun b =>
    let n := c.argLen.toNat
    if n = 16 ∨ n = 32 ∨ n = 48 then b.csrWrites (csrEntries c) else { b := b, status := ackBadArg }) s

/-- CSR_READ: a read of BM_TIME_SEC latches BM_TIME_SUB (R96). -/
def execCsrRead (c : TapCmd) (s : State) : Answer :=
  onBumas (fun b => b.tapCmdLen c 2 fun b =>
    let a := leAt c.args 0 2
    let b1 := if a = Reg.BM_TIME_SEC then b.wr Reg.BM_TIME_SUB (word (subOf b.time.clk)) else b
    { b := b1, status := ackOk, data := b.csrRead .tap a }) s

/-- Writes instruction `i` of buffer `buf`. -/
def Bumas.putInstr (b : Bumas) (buf : Bool) (i w : Nat) : Bumas :=
  let a := (if buf then Reg.BM_PROG_1 else Reg.BM_PROG_0) (i / 2)
  b.wr a (putFld (b.rd a) (32 * (i % 2)) 32 w)

/-- PROG_LOAD (R116, Table 5.5): into the inactive buffer. -/
def execProgLoad (c : TapCmd) (s : State) : Answer :=
  onBumas (fun b => b.tapCmd c fun b =>
    let first := leAt c.args 0 2
    let count := leAt c.args 2 1
    let buf := !b.probe.progBuf
    if c.argLen.toNat ≠ 4 + 4 * count ∨ count = 0 ∨ 11 < count ∨ leAt c.args 3 1 ≠ 0 ∨ 1024 < first + count then
      { b := b, status := ackBadArg }
    else if ¬ b.bufWritable buf then { b := b, status := ackRefused }
    else { b := (List.range count).foldl (fun b k => b.putInstr buf (first + k) (leAt c.args (4 + 4 * k) 4)) b,
           status := ackOk }) s

/-- Is a class mask byte within bits [3:1]? -/
def tapMaskOk (m : Nat) : Bool := m % 2 = 0 && decide (m < 16)

/-- TAP_GREYOUT (R154): the shaper word of each class in the mask, for the next boundary. -/
def execTapGreyout (c : TapCmd) (s : State) : Answer :=
  onBumas (fun b => b.tapCmdLen c 16 fun b =>
    let m := leAt c.args 0 1
    if ¬ tapMaskOk m then { b := b, status := ackBadArg }
    else { b := [1, 2, 3].foldl (fun b k =>
             if m.testBit k then b.csrApply .tap (Reg.BM_TAP_SHAPE k) (word (leAt c.args 8 8)) else b) b,
           status := ackOk }) s

/-- TAP_BLACKOUT. -/
def execTapBlackout (c : TapCmd) (s : State) : Answer :=
  onBumas (fun b => b.tapCmdLen c 1 fun b =>
    let m := leAt c.args 0 1
    if ¬ tapMaskOk m then { b := b, status := ackBadArg }
    else { b := b.csrApply .tap Reg.BM_TAP_BLACKOUT (word m), status := ackOk }) s

/-- AUDIT_THRESH. -/
def execAuditThresh (c : TapCmd) (s : State) : Answer :=
  onBumas (fun b => b.tapCmdLen c 4 fun b =>
    { b := b.csrApply .tap Reg.BM_AUDIT_THRESH (word (leAt c.args 0 4)), status := ackOk }) s

/-- RESET: after its CMD_ACK has left. -/
def execTapReset (c : TapCmd) (s : State) : Answer :=
  onBumas (fun b => b.tapCmdLen c 2 fun b =>
    if leAt c.args 0 2 = 0x5A5A then
      { b := { b with tap := { b.tap with after := some (c.seq, .reset) } }, status := ackOk }
    else { b := b, status := ackBadArg }) s

/-- LINK_RETRAIN: after its CMD_ACK has left. -/
def execLinkRetrain (c : TapCmd) (s : State) : Answer :=
  onBumas (fun b => b.tapCmdLen c 1 fun b =>
    let w := leAt c.args 0 1
    if w = 1 ∨ w = 2 then
      { b := { b with tap := { b.tap with after := some (c.seq, .retrain (w = 2)) } }, status := ackOk }
    else { b := b, status := ackBadArg }) s

/-- BAD_OPCODE (R153): an opcode outside Table 5.5. -/
def execBadOpcode (opcode : BitVec 16) (c : TapCmd) (s : State) : Answer :=
  onBumas (fun b =>
    if opcode.toNat ≤ 8 then b else b.tapCmd c fun b => { b := b, status := ackBadOpcode }) s

/-! ### Time transfer (R155 to R157) and tick markers (R159) -/

/-- Steps the local clock by a signed offset in 2⁻¹⁶ ns. -/
def BmTime.step (t : BmTime) (d : Int) : BmTime := { t with clk := ((t.clk : Int) + d * 65536).toNat }

/-- An exchange completes with t4 (R155 item 4): delay and offset, Bumas minus Glexon. The first complete exchange steps
the clock and begins acquiring (R156). -/
def Bumas.exchange (b : Bumas) (t1 t2 t3 t4 : Int) : Bumas :=
  let delay := ((t2 - t1) + (t4 - t3)) / 2
  let offset := (t2 - t1) - delay
  let b1 := b.wr Reg.BM_TAP_DELAY (BitVec.ofInt 64 delay)
  let t : BmTime := { b1.time with exch := none }
  if t.state = .none ∧ ¬ t.ticking then
    { b1 with time := { (t.step (-offset)) with state := .acquiring, offsets := [], inBand := 0 } }
  else if t.state = .holdover then { b1 with time := t }
  else { b1 with time := { t with offsets := t.offsets ++ [offset] } }

/-- HOLDOVER as byte 32 of a TIME block and byte 40 of a TICK block report it: MODE 0b11 in [1:0], or its HOLDOVER state in [5]. -/
def stateHold (x : Byte) : Bool := decide (x.toNat % 4 = 3) || x.toNat.testBit 5

/-- The Glexon reports HOLDOVER or not (R156): the block is in holdover while it does, and acquires again after. -/
def Bumas.reported (b : Bumas) (hold : Bool) : Bumas :=
  let st := b.time.state
  let st' := if hold then (if st = .none then .none else .holdover) else if st = .holdover then .acquiring else st
  { b with time := { b.time with
      glexHold := hold, state := st', inBand := if st' = st then b.time.inBand else 0 } }

/-- A TIME block (R155, R156): stamped, its t4 completes the previous exchange, and a TIME_ECHO is queued. -/
def Bumas.timeRx (b : Bumas) (t : TimeBlk) : Bumas :=
  let t2 := b.stamp - bmIngress
  let b1 := b.reported (stateHold t.state)
  let b2 := match b1.time.exch with
    | some (id, t1, u2, t3) => if id = t.ansId then b1.exchange t1 u2 t3 (ofTimeWord t.ansT4) else b1
    | none => b1
  { b2 with time := { b2.time with echo := some (t.id, ofTimeWord t.t1, t2) } }

/-- TIME_RECEIVE. -/
def execTimeReceive (t : TimeBlk) (s : State) : Answer := onBumas (fun b => b.receive t.chk fun b => b.timeRx t) s

/-- pb_clk cycles in 64 µs. -/
def servoCycles : Int := 40000
/-- 200 ppm of the nominal pb_clk addend. -/
def servoMax : Int := 1374389
/-- The nominal pb_clk addend, 1.6 ns in 2⁻³² ns, truncated. -/
def pbAddend : Nat := 6871947673

/-- One servo update (R155 to R157): the mean of 16 offsets is slewed away by at most 200 ppm; after a loss of the link, one
beyond ±1 µs clears TICKING and steps the clock instead; 16 means within ±5 ns lock. -/
def Bumas.servo (b : Bumas) : Bumas :=
  let t := b.time
  if t.state = .holdover ∨ t.state = .none ∨ t.offsets.length < 16 then b
  else
    let f := (t.offsets.take 16).sum / 16
    let b1 := b.wr Reg.BM_TAP_OFFSET (BitVec.ofInt 64 f)
    let t1 := { t with offsets := t.offsets.drop 16 }
    if t.lossSince ∧ (1000 * 65536 < f ∨ f < -(1000 * 65536)) then
      { b1 with time := { (t1.step (-f)) with ticking := false, state := .acquiring, offsets := [], inBand := 0 } }
    else
      let n := if -(5 * 65536) ≤ f ∧ f ≤ 5 * 65536 then t1.inBand + 1 else 0
      { b1 with time := { t1 with
          inBand := n, corr := clampI (-servoMax) servoMax (-(f * 65536) / servoCycles),
          state := if 16 ≤ n then .locked else t1.state, lossSince := t1.lossSince && decide (n < 16) } }

/-- BUMAS_SERVO_UPDATE. -/
def execBumasServoUpdate (s : State) : Answer := onBumas Bumas.servo s

/-- A TICK block (R159). A locked block that is not ticking starts at the first boundary after it; a ticking one takes over the pending period change and, where it disagrees, adopts the block's values at its next boundary. -/
def Bumas.tickRx (b : Bumas) (t : TickBlk) : Bumas :=
  let ep := t.epochSec.toNat * 1000000000 + t.epochNs.toNat
  let p := t.period.toNat % 8
  let b := b.reported (stateHold t.state)
  if ¬ b.time.ticking then
    if b.time.state = .locked then
      { b with time := { b.time with
          ticking := true, tickNo := word ((b.nowNs - ep) / periodNs p), epoch := ep, period := p, pchg := t.pchg, adopt := none } }
    else b
  else
    let b1 := { b with time := { b.time with pchg := t.pchg } }
    if t.n = b.time.tickNo ∧ ep = b.time.epoch ∧ p = b.time.period then b1
    else
      { (b1.wr Reg.BM_TAP_ERR (satFld (b1.rd Reg.BM_TAP_ERR) 0 16 1)) with
        time := { b1.time with adopt := some { n := t.n + 1, period := p, epoch := ep } } }

/-- TICK_RECEIVE. -/
def execTickReceive (t : TickBlk) (s : State) : Answer := onBumas (fun b => b.receive t.chk fun b => b.tickRx t) s

end Sys2Proof.Machine
end

