-- ==== Sys2Proof/Machine/Time.lean ====
section
/-! DEFINITION. The Time Keeper (chapter 2): the servo, PTP, steps and slews, references, comparators and captures. -/

namespace Sys2Proof.Machine

/-! ### Servo (R49, R52, R53, R73, R75) -/

/-- The nominal addend, 1.25 ns in 2⁻³² ns. -/
def addendNominal : Nat := 0x140000000
/-- 500 ppm of the nominal addend. -/
def addendMax : Nat := 2684354

/-- An addend clamped to ±500 ppm; ADDEND_CLAMPED is written when it was outside (R49). -/
def Glexon.setAddend (g : Glexon) (v : Nat) : Glexon :=
  let lo := addendNominal - addendMax
  let hi := addendNominal + addendMax
  if v < lo then (g.wr Reg.TK_ADDEND (word lo)).event 0x0107 34 [word v]
  else if hi < v then (g.wr Reg.TK_ADDEND (word hi)).event 0x0107 34 [word v]
  else g.wr Reg.TK_ADDEND (word v)

/-- SERVO_EN of TK_CFG. -/
def Glexon.servoEn (g : Glexon) : Bool := bit (g.rd Reg.TK_CFG) 0

/-- PPS_FREE of TK_PPS_CFG. -/
def Glexon.ppsFree (g : Glexon) : Bool := bit (g.rd Reg.TK_PPS_CFG) 32

/-- Enters a mode; PPS_OUT is held low while MODE is FREE unless PPS_FREE is set (R66). -/
def Glexon.setMode (g : Glexon) (m : TkMode) : Glexon :=
  { g with tk := { g.tk with mode := m, good := 0, ppsOut := g.tk.ppsOut && (decide (m ≠ .free) || g.ppsFree) } }

/-- Enters HOLDOVER from LOCKED with its cause (R52, R73): the addend freezes at its mean over the last 16 s of LOCKED. -/
def Glexon.enterHoldover (g : Glexon) (cause : Nat) : Glexon :=
  if g.tk.mode ≠ .locked then g
  else
    let l := (g.tk.addends.filter fun x => decide (g.nowNs ≤ x.1 + 16000000000)).map (·.2)
    let g1 := if l = [] then g else g.wr Reg.TK_ADDEND (word (l.sum / l.length))
    { (g1.event 0x0102 34 [word cause]) with tk := { g1.tk with mode := .holdover, good := 0, addends := [] } }

/-- One measured offset in 2⁻¹⁶ ns drives the servo (R52, R53). -/
def Glexon.measure (g : Glexon) (off : Int) : Glexon :=
  let g0 := { g with tk := { g.tk with offset := off, measN := g.tk.measN + 1 } }
  if ¬ g.servoEn then g0
  else
    let m := if g.tk.mode = .free ∨ g.tk.mode = .holdover then TkMode.acquiring else g.tk.mode
    let good := if -(20 * 65536) ≤ off ∧ off ≤ 20 * 65536 then g.tk.good + 1 else 0
    let bad := if 1000000 * 65536 < off ∨ off < -(1000000 * 65536) then g.tk.bad + 1 else 0
    let g1 := g0.setAddend (Config.servoAddend (g.rd Reg.TK_SERVO_CFG) off g.tk.measN)
    let here : Nat × Nat := (g1.nowNs, (g1.rd Reg.TK_ADDEND).toNat)
    let g2 : Glexon := { g1 with tk := { g1.tk with
        mode := m, good := good, bad := bad, slew := Config.servoSlew (g.rd Reg.TK_SERVO_CFG) off g.tk.measN,
        addends := if m = .locked then here :: g1.tk.addends else [here] } }
    let g3 : Glexon := if m = .acquiring ∧ 16 ≤ good then
        { (g2.event 0x0101 34 [BitVec.ofInt 64 off]) with tk := { g2.tk with mode := .locked, everLocked := true } }
      else g2
    if g3.tk.mode = .locked ∧ g3.tk.ticking ∧ bad = 16 then
      { (g3.event 0x0109 34 [BitVec.ofInt 64 (off.tdiv 65536)]) with tk := { g3.tk with lost := true, bad := 0 } }
    else g3

/-- A write of TK_CFG (Table 2.7): REF_SEL = 1 locks tk_clk to REF10M_IN; with the servo disabled MODE is FREE. -/
def Glexon.writeTkCfg (g : Glexon) (v : Word) : Glexon :=
  let g1 := g.wr Reg.TK_CFG (v &&& 3)
  let g2 := { g1 with tk := { g1.tk with refOk := bit v 1 } }
  if bit v 0 then g2 else g2.setMode .free

/-- TK_REF_SEL_WRITE (R68): a write of TK_CFG. -/
def execTkRefSelWrite (v : Word) (s : State) : Answer := onCore (fun g => g.writeTkCfg v) s

/-- TK_ADDEND_WRITE (R49): ignored while SERVO_EN = 1. -/
def execTkAddendWrite (v : Word) (s : State) : Answer :=
  onCore (fun g => if g.servoEn then g else g.setAddend (fld v 0 40)) s

/-- Steps the local clock by a signed number of ns. -/
def TimeKeeper.step (t : TimeKeeper) (ns : Int) : TimeKeeper :=
  { t with clk := ((t.clk : Int) + ns * (nsUnit : Int)).toNat }

/-- The most a slew may change one tk_clk cycle: SLEW_PPM, no more than 200 ppm, of the nominal addend. -/
def Glexon.slewMax (g : Glexon) : Int :=
  (min (fld (g.rd Reg.TK_SERVO_CFG) 32 16) 200 * addendNominal / 1000000 : Nat)

/-- One tk_clk cycle of the local clock (R48, R51). -/
def Glexon.tkCycle (g : Glexon) : Glexon :=
  let d := clampI (-g.slewMax) g.slewMax g.tk.slew
  { g with tk := { g.tk with
      clk := ((g.tk.clk : Int) + (g.rd Reg.TK_ADDEND).toNat + d).toNat, slew := g.tk.slew - d } }

/-- TK_NOW_SEC_READ (R50): latches TK_NOW_SUB. -/
def execTkNowSecRead (s : State) : Answer :=
  onCore (fun g => { (g.wr Reg.TK_NOW_SUB (word (subOf g.tk.clk))) with rdData := word (secOf g.tk.clk) }) s

/-! ### PTP (R54 to R56) -/

/-- The time-stamp constants of the PTP port (Table 2.3): the fabric mode with 4, 2 or 1 lanes. -/
def Glexon.ptpMode (g : Glexon) : Nat :=
  let n := SMap.get 0 g.portLanes (fld (g.rd Reg.TK_PTP_CFG) 9 3)
  if n = 4 then 0 else if n = 2 then 1 else 2

/-- A signed constant register in 2⁻¹⁶ ns. -/
def Glexon.tsc (g : Glexon) (a : Nat) : Int := (g.rd a).toInt

/-- Corrected ingress time-stamp at the PTP port (R56). -/
def Glexon.ptpIn (g : Glexon) : Int := g.stamp - g.tsc (Reg.TK_TSC_ING g.ptpMode)
/-- Corrected egress time-stamp at the PTP port. -/
def Glexon.ptpEg (g : Glexon) : Int := g.stamp + g.tsc (Reg.TK_TSC_EGR g.ptpMode)

/-- PTP port enabled. -/
def Glexon.ptpEn (g : Glexon) : Bool := bit (g.rd Reg.TK_PTP_CFG) 0
/-- Grandmaster mode on PPS_IN. -/
def Glexon.gmMode (g : Glexon) : Bool := bit (g.rd Reg.TK_PTP_CFG) 6

/-- An instant in 2⁻¹⁶ ns of a PTP time word. -/
def ptpTime (t : TimeWord) : Int := ((t.sec.toNat * 1000000000 + t.ns.toNat) * 65536 + t.frac.toNat : Nat)

/-- t2 − t1 of a Sync is known: the offset is measured against the mean path delay. -/
def Glexon.syncMeasured (g : Glexon) (t1 t2 corr : Int) : Glexon :=
  let d := t2 - t1 - corr
  { g with tk := { g.tk with down := some d, twoStep := none } }.measure (d - g.tk.meanPath)

/-- A Sync is accepted only from the chosen master, in the configured domain, with a later sequenceId (R55). -/
def Glexon.syncOk (g : Glexon) (m : PtpSync) : Bool :=
  g.ptpEn && !g.gmMode && (g.tk.master.map fun x => x.clock) == some m.master
  && decide (m.domain.toNat = fld (g.rd Reg.TK_PTP_CFG) 16 8)
  && (match g.tk.lastSeq with
      | none => true
      | some q => let d := (m.seq - q).toNat
                  decide (0 < d ∧ d < 2 ^ 15))

/-- A Sync arrives (R55). -/
def Glexon.syncRx (g : Glexon) (m : PtpSync) : Glexon :=
  if g.syncOk m then
    let g1 := { g with tk := { g.tk with lastSeq := some m.seq } }
    if m.twoStep then
      { g1 with tk := { g1.tk with twoStep := some (m.seq, g1.ptpIn, m.corr.toInt) } }
    else g1.syncMeasured (ptpTime m.t1) g1.ptpIn m.corr.toInt
  else g.bump Reg.TK_PTP_DISCARD 1

/-- A Follow_Up arrives (R54). -/
def Glexon.followUpRx (g : Glexon) (m : PtpSync) : Glexon :=
  match g.tk.twoStep with
  | some (q, t2, corr) =>
    if q = m.seq ∧ (g.tk.master.map fun x => x.clock) = some m.master then
      g.syncMeasured (ptpTime m.t1) t2 (corr + m.corr.toInt)
    else g
  | none => g

/-- DELAY_REQ_SEND (R54): by a slave with a master. -/
def execDelayReqSend (s : State) : Answer :=
  onCore (fun g =>
    if g.ptpEn ∧ g.tk.master.isSome ∧ ¬ g.tk.isMaster then
      { g with tk := { g.tk with
          dreqSeq := g.tk.dreqSeq + 1, dreq := some (g.tk.dreqSeq, g.ptpEg),
          ptpOut := some (.delayReq g.tk.dreqSeq) } }
    else g) s

/-- DELAY_REQ_RECEIVE (R54): a master answers with its corrected ingress time. -/
def execDelayReqReceive (m : PtpDelay) (s : State) : Answer :=
  onCore (fun g =>
    if g.ptpEn ∧ g.tk.isMaster then
      { g with tk := { g.tk with ptpOut := some (.delayResp m.clock m.seq g.ptpIn) } }
    else g) s

/-- DELAY_RESP_RECEIVE (R54): the mean path delay of an end-to-end measurement. -/
def execDelayRespReceive (m : PtpDelay) (s : State) : Answer :=
  onCore (fun g => match g.tk.dreq, g.tk.down with
    | some (q, t3), some d =>
      if q = m.seq ∧ (g.tk.master.map fun x => x.clock) = some m.clock then
        let p := (d + (ptpTime m.time - t3 - m.corr.toInt)) / 2
        { g with tk := { g.tk with meanPath := p, dreq := none } }
      else g
    | _, _ => g) s

/-- clockClass announced as grandmaster (Table 2.2): 6 locked, 7 in holdover, else 248; the register's value otherwise. -/
def Glexon.clockClass (g : Glexon) : Nat :=
  if g.gmMode then
    (match g.tk.mode with
     | .locked => 6
     | .holdover => 7
     | _ => 248)
  else fld (g.rd Reg.TK_PTP_CLASS) 24 8

/-- SYNC_SEND (R54): two-step sends a Follow_Up with the precise time, kept here as one message with its time. -/
def execSyncSend (s : State) : Answer :=
  onCore (fun g =>
    if g.ptpEn ∧ g.tk.isMaster then
      { g with tk := { g.tk with
          syncSeq := g.tk.syncSeq + 1,
          ptpOut := some (.sync g.tk.syncSeq (!bit (g.rd Reg.TK_PTP_CFG) 7) g.ptpEg) } }
    else g) s

/-- ANNOUNCE_SEND (R54). -/
def execAnnounceSend (s : State) : Answer :=
  onCore (fun g =>
    if g.ptpEn ∧ g.tk.isMaster then
      let c := g.rd Reg.TK_PTP_CLASS
      { g with tk := { g.tk with
          annSeq := g.tk.annSeq + 1,
          ptpOut := some (.announce (BitVec.ofNat 8 g.clockClass) (BitVec.ofNat 8 (fld c 16 8))
            (BitVec.ofNat 8 (fld c 8 8)) (BitVec.ofNat 8 (fld c 0 8)) g.tk.annSeq) } }
    else g) s

/-- The rank of a data set in the default best master clock comparison: smaller is better. -/
def annKey (a : PtpAnn) : List Nat :=
  [a.prio1.toNat, a.cls.toNat, a.acc.toNat, a.var.toNat, a.prio2.toNat, a.clock.toNat, a.steps.toNat]

/-- Lexicographic less-than. -/
def lexLt : List Nat → List Nat → Bool
  | a :: x, b :: y => if a < b then true else if b < a then false else lexLt x y
  | _, _ => false

/-- The best of a list of data sets. -/
def bestAnn : List PtpAnn → Option PtpAnn
  | [] => none
  | a :: r => match bestAnn r with
    | none => some a
    | some b => if lexLt (annKey b) (annKey a) then some b else some a

/-- This clock's own data set; its identity is ID_SERIAL and its variance is not announced as better than any. -/
def Glexon.ownAnn (g : Glexon) : PtpAnn :=
  let c := g.rd Reg.TK_PTP_CLASS
  { clock := g.rd Reg.ID_SERIAL, domain := 0, prio1 := BitVec.ofNat 8 (fld c 8 8),
    cls := BitVec.ofNat 8 g.clockClass, acc := BitVec.ofNat 8 (fld c 16 8), var := 0xFFFF,
    prio2 := BitVec.ofNat 8 (fld c 0 8), steps := 0 }

/-- Chooses the master among foreign masters heard at least twice and this clock (R52, R54). -/
def Glexon.bmca (g : Glexon) : Glexon :=
  let best := bestAnn ((g.tk.foreign.filter fun x => decide (2 ≤ x.2)).map (·.1))
  let slaveOnly := bit (g.rd Reg.TK_PTP_CFG) 5
  let own := !slaveOnly && (match best with
    | none => true
    | some b => lexLt (annKey g.ownAnn) (annKey b))
  if own then
    let g1 : Glexon := { g with tk := { g.tk with isMaster := true, master := none } }
    if g.tk.master.isSome then g1.enterHoldover 1 else g1
  else
    let changed := decide ((g.tk.master.map fun x => x.clock) ≠ (best.map fun x => x.clock))
    let g1 := { g with tk := { g.tk with
        isMaster := false, master := best,
        lastSeq := if changed then none else g.tk.lastSeq,
        twoStep := if changed then none else g.tk.twoStep } }
    if best.isSome ∧ g.servoEn ∧ g.tk.mode = .free then g1.setMode .acquiring else g1

/-- PTP_ANNOUNCE_RECEIVE (R54). -/
def execPtpAnnounceReceive (a : PtpAnn) (s : State) : Answer :=
  onCore (fun g =>
    if g.ptpEn ∧ a.domain.toNat = fld (g.rd Reg.TK_PTP_CFG) 16 8 then
      let n := ((g.tk.foreign.find? fun x => decide (x.1.clock = a.clock)).map (·.2)).getD 0
      { g with tk := { g.tk with
          foreign := (a, n + 1) :: g.tk.foreign.filter fun x => decide (x.1.clock ≠ a.clock) } }.bmca
    else g) s

/-- SYNC_TIMEOUT (R52): no Sync for 8 intervals. -/
def execSyncTimeout (s : State) : Answer := onTk (fun g => g.enterHoldover 0) s

/-- ANNOUNCE_RECEIPT_TIMEOUT (R52): the master is lost by BMCA. -/
def execAnnounceReceiptTimeout (s : State) : Answer :=
  onTk (fun g =>
    let lost := g.tk.master
    let g1 := { g with tk := { g.tk with
        master := none, lastSeq := none, twoStep := none,
        foreign := g.tk.foreign.filter fun x => decide (some x.1.clock ≠ lost.map PtpAnn.clock) } }
    (g1.enterHoldover 1).bmca) s

/-- TICK_STOPPED (R510): the boundary after TIME_LOST is not taken; TICKING clears and MODE goes to ACQUIRING. -/
def execTickStopped (s : State) : Answer :=
  onTk (fun g =>
    if g.tk.lost ∧ g.tk.ticking then
      { (g.event 0x0546 34 [g.tk.tickNo]) with
        tk := { g.tk with lost := false, ticking := false, mode := .acquiring, good := 0, startAt := 0 } }
    else g) s

/-! ### References and pins (R66 to R68) -/

/-- An edge of PPS_IN marks ns 0 of a second; after the first lock one more than 100 µs off is ignored (R67). -/
def Glexon.ppsIn (g : Glexon) : Glexon :=
  if ¬ g.gmMode then g
  else
    let x : Int := (nsOf g.tk.clk % 1000000000 * 65536 + g.tk.clk % nsUnit / 65536 : Nat)
    let off := if x < 500000000 * 65536 then x else x - 1000000000 * 65536
    if g.tk.everLocked ∧ (100000 * 65536 < off ∨ off < -(100000 * 65536)) then g.bump Reg.TK_PPS_STAT 1
    else { g with tk := { g.tk with ppsOk := true } }.measure off

/-- PPS_IN_LOST (R67): no accepted edge for 2 s. -/
def execPpsInLost (s : State) : Answer :=
  onTk (fun g =>
    if g.gmMode then
      { (g.event 0x0106 34 []) with tk := { g.tk with ppsOk := false } }.enterHoldover 2
    else g) s

/-- REF10M_LOST (R68). -/
def execRef10mLost (s : State) : Answer :=
  onTk (fun g =>
    if bit (g.rd Reg.TK_CFG) 1 ∧ g.tk.refOk then
      { (g.event 0x0105 34 []) with tk := { g.tk with refOk := false, mode := .acquiring, good := 0 } }
    else g) s

/-- PPS_OUT_RISE (R66): held low while MODE is FREE unless PPS_FREE is set. -/
def execPpsOutRise (s : State) : Answer :=
  onTk (fun g => { g with tk := { g.tk with
    ppsOut := decide (g.tk.mode ≠ .free) || g.ppsFree } }) s

/-- PPS_OUT_FALL. -/
def execPpsOutFall (s : State) : Answer := onTk (fun g => { g with tk := { g.tk with ppsOut := false } }) s

/-! ### Comparators and captures (R69 to R72) -/

/-- An instant in ns of a comparator target or capture word (Table 2.5), seconds modulo 2³⁰. -/
def cmpTargetNs (w : Word) : Nat := fld w 34 30 * 1000000000 + fld w 4 30

/-- Local time in ns with the seconds modulo 2³⁰, as comparator targets hold it. -/
def Glexon.cmpNow (g : Glexon) : Nat := g.nowNs % (2 ^ 30 * 1000000000)

/-- One firing of comparator `k` (R69): FIRED, the interrupt, and the pulse on its pin. -/
def Glexon.fire (g : Glexon) (k : Nat) : Glexon :=
  let c := g.rd (Reg.TK_CMP_CFG k)
  let g1 := g.wr (Reg.TK_CMP_CFG k) (putBit c 59 true)
  let g2 := if bit c 60 then { g1 with tk := { g1.tk with cmpIrq := g1.tk.cmpIrq ||| (1#16 <<< k) } } else g1
  if bit c 21 then
    let w := max 1 (fld c 0 20) * 8
    { g2 with tk := { g2.tk with
        trig := SMap.mod {} g2.tk.trig (fld c 22 2) fun p =>
          { active := true, endAt := if p.active then max p.endAt (g2.nowNs + w) else g2.nowNs + w } } }
  else g2

/-- MODE of comparator `k`. -/
def Glexon.cmpMode (g : Glexon) (k : Nat) : Nat := fld (g.rd (Reg.TK_CMP_CFG k)) 61 2

/-- A write of TK_CMP_CFG_k (R69, R70): setting EN arms the comparator; a past absolute or periodic target fires at
once. A period below 1,000 ns and the reserved mode leave it unarmed. -/
def Glexon.writeCmpCfg (g : Glexon) (k : Nat) (v : Word) : Glexon :=
  let old := g.rd (Reg.TK_CMP_CFG k)
  let fired := bit old 59 && !bit v 59
  let w := putBit (v &&& 0xF0FFFFFFFFFFFFFF) 59 fired
  let g1 := g.wr (Reg.TK_CMP_CFG k) w
  let mode := fld v 61 2
  let ok := bit v 63 && mode != 3 && (mode != 1 || decide (1000 ≤ fld v 24 32))
  let g2 := { g1 with tk := { g1.tk with armed := SMap.put false g1.tk.armed k ok } }
  if ok ∧ ¬ bit old 63 ∧ mode ≠ 2 ∧ cmpTargetNs (g.rd (Reg.TK_CMP_TIME k)) ≤ g.cmpNow then
    let g3 := g2.fire k
    if mode = 0 then { g3 with tk := { g3.tk with armed := SMap.put false g3.tk.armed k false } } else g3
  else g2

/-- COMPARATOR_ARM. -/
def execComparatorArm (k : BitVec 4) (v : Word) (s : State) : Answer := onCore (fun g => g.writeCmpCfg k.toNat v) s

/-- CMP_FIRE (R69, R70): an armed comparator fires; a tick-relative one whose offset is not below P does not. -/
def execCmpFire (k : BitVec 4) (s : State) : Answer :=
  onTk (fun g =>
    let i := k.toNat
    let mode := g.cmpMode i
    if ¬ SMap.get false g.tk.armed i then g
    else if mode = 2 ∧ (¬ g.tk.ticking ∨ g.pNs ≤ fld (g.rd (Reg.TK_CMP_TIME i)) 4 30) then g
    else
      let g1 := g.fire i
      if mode = 0 then { g1 with tk := { g1.tk with armed := SMap.put false g1.tk.armed i false } } else g1) s

/-- TRIG_PULSE_END (R69). -/
def execTrigPulseEnd (pin : BitVec 2) (s : State) : Answer :=
  onTk (fun g => { g with tk := { g.tk with trig := SMap.put {} g.tk.trig pin.toNat {} } }) s

/-- The comparator that gives a trigger pin its polarity: the lowest with EN and TRIG_EN mapped to it (R69). -/
def Glexon.trigOwner (g : Glexon) (pin : Nat) : Option Nat :=
  (List.range 16).find? fun k =>
    let c := g.rd (Reg.TK_CMP_CFG k)
    bit c 63 && bit c 21 && fld c 22 2 == pin

/-- The level of trigger pin `TRIG_pin` (R69). -/
def Glexon.trigLevel (g : Glexon) (pin : Nat) : Bool :=
  match g.trigOwner pin with
  | none => (SMap.get {} g.tk.trig pin).active
  | some k => bit (g.rd (Reg.TK_CMP_CFG k)) 20 != (SMap.get {} g.tk.trig pin).active

/-- A capture word (Table 2.5) of an instant in 1/16 ns. -/
def captWord (t : Nat) : Word :=
  let ns := t / 16
  word (ns / 1000000000 % 2 ^ 30 * 2 ^ 34 + ns % 1000000000 * 16 + t % 16)

/-- CAPT_EDGE (R71). -/
def execCaptEdge (j : BitVec 2) (rising : Bool) (s : State) : Answer :=
  onTk (fun g =>
    let i := j.toNat
    let c := g.rd (Reg.TK_CAPT_CFG i)
    let sel := fld c 61 2
    if ¬ bit c 63 ∨ ¬ ((sel = 0 ∧ rising) ∨ (sel = 1 ∧ ¬ rising) ∨ sel = 2) then g
    else
      let f := SMap.get {} g.tk.capt i
      let now := g.tk.clk * 16 / nsUnit
      let near : Bool := match f.edge with
        | some e => decide (now < e + 320)
        | none => false
      if near ∨ 16 ≤ f.words.length then
        let g1 := { g with tk := { g.tk with
            capt := SMap.put {} g.tk.capt i { f with miss := satN 32 (f.miss + 1), told := true } } }
        if f.told then g1 else g1.event 0x0108 34 [word i, word (f.miss + 1)]
      else
        let f1 := { f with words := f.words ++ [captWord (now - fld c 0 16)], edge := some now }
        let irq := bit c 60 && f1.words.length == fld c 16 4
        { g with tk := { g.tk with
            capt := SMap.put {} g.tk.capt i f1,
            captIrq := if irq then g.tk.captIrq ||| (1#4 <<< i) else g.tk.captIrq } }) s

/-- A read of TK_CAPT_DATA_j (R71): pops one word; an empty FIFO returns the last word and sets UNDERRUN. -/
def Glexon.captRead (g : Glexon) (i : Nat) : Glexon :=
  let f := SMap.get {} g.tk.capt i
  match f.words with
  | w :: r => { g with
      rdData := w,
      tk := { g.tk with capt := SMap.put {} g.tk.capt i { f with words := r, last := w } } }
  | [] => { g with
      rdData := f.last,
      tk := { g.tk with capt := SMap.put {} g.tk.capt i { f with under := true } } }

/-- CAPT_READ. -/
def execCaptRead (j : BitVec 2) (s : State) : Answer := onCore (fun g => g.captRead j.toNat) s

end Sys2Proof.Machine
end

