-- ==== Sys2Proof/Machine/TapGlexon.lean ====
section
/-! DEFINITION. The Tap Port Complex of the Glexon (chapter 5): ports and training, commands and acknowledgements, time
exchanges, reassembly, credit. -/

namespace Sys2Proof.Machine

/-- Port `p`. -/
def Glexon.port (g : Glexon) (p : Nat) : TapPort := SMap.get {} g.ports p

/-- Port `p` replaced. -/
def Glexon.setPort (g : Glexon) (p : Nat) (t : TapPort) : Glexon := { g with ports := SMap.put {} g.ports p t }

/-- Port `p` changed. -/
def Glexon.modPort (g : Glexon) (p : Nat) (f : TapPort → TapPort) : Glexon := g.setPort p (f (g.port p))

/-- The port's link is UP. -/
def TapPort.up (t : TapPort) : Bool := decide (t.tr.st = .up)

/-- Bits of TP_PORT_CFG_p (Table 5.11). -/
def Glexon.tpEn (g : Glexon) (p : Nat) : Bool := bit (g.rd (Reg.TP_PORT_CFG p)) 63
/-- EXPECTED. -/
def Glexon.tpExpected (g : Glexon) (p : Nat) : Bool := bit (g.rd (Reg.TP_PORT_CFG p)) 62
/-- PAIR, at an even port. -/
def Glexon.tpPair (g : Glexon) (p : Nat) : Bool := p % 2 = 0 && bit (g.rd (Reg.TP_PORT_CFG p)) 61

/-- The die of port `p` is unobserved (R44, R162): expected, and no TICK_SUMMARY since its link came up. -/
def Glexon.unobserved (g : Glexon) (p : Nat) : Bool :=
  g.tpExpected p && !((g.port p).up && (g.port p).observed)

/-- TP_PORT_STAT_p (Table 5.11). -/
def Glexon.portStat (g : Glexon) (p : Nat) : Word :=
  let t := g.port p
  word (t.tr.st.code * 2 ^ 12 + t.tr.width * 2 ^ 10 + t.tr.lane1.toNat * 2 ^ 9 + t.tr.lane0.toNat * 2 ^ 8
    + (g.unobserved p).toNat)

/-! ### Commands to a die (R151, R152, R162) -/

/-- Queues a Tap command at a port. -/
def TapPort.queueCmd (t : TapPort) (c : PortCmd) : TapPort := { t with cmdQ := t.cmdQ ++ [c] }

/-- A CSR_WRITE of one register. -/
def csrWriteCmd (off : Nat) (v : Word) : PortCmd :=
  { op := 1, args := leBytes 2 off ++ leBytes 6 0 ++ leBytes 8 v.toNat, regs := [(off, v)] }

/-- The leaf decides a value of a die's register (R162): entered in its record of the die, and sent by Tap command `c`
if the link is UP. -/
def TapPort.decide (t : TapPort) (off : Nat) (v : Word) (c : PortCmd) : TapPort :=
  let t1 := { t with want := SMap.put none t.want off (some v) }
  if t1.up then t1.queueCmd c else t1

/-- Decides a register by CSR_WRITE. -/
def TapPort.decideReg (t : TapPort) (off : Nat) (v : Word) : TapPort := t.decide off v (csrWriteCmd off v)

/-- The registers of step 1 of R162, in its order. -/
def restoreOrder : List Nat :=
  [Reg.BM_DIE_INDEX, Reg.BM_WS, Reg.BM_AW_CFG, Reg.BM_SNS_EN, Reg.BM_DROOP_THR_0, Reg.BM_DROOP_THR_1, Reg.BM_PCS_CFG]
  ++ (List.range 16).map Reg.BM_SNP_CFG ++ (List.range 16).map Reg.BM_SNP_SEED
  ++ [1, 2, 3].map Reg.BM_TAP_METER ++ [1, 2, 3].map Reg.BM_TAP_SHAPE
  ++ [Reg.BM_TAP_BLACKOUT, Reg.BM_AUDIT_SEED, Reg.BM_AUDIT_THRESH, Reg.BM_COLL_SEED, Reg.BM_PEER_MARK]

/-- PROG_LOAD commands for the words of a program, 11 at a time. -/
def progLoads : Nat → Nat → List (BitVec 32) → List PortCmd
  | 0, _, _ => []
  | _, _, [] => []
  | f + 1, i, l =>
    let h := l.take 11
    { op := 3, args := leBytes 2 i ++ leBytes 1 h.length ++ [0] ++ (h.map fun w => leBytes 4 w.toNat).flatten }
      :: progLoads f (i + 11) (l.drop 11)

/-- After every entry to UP (R162): the registers that differ, the probe program, and BM_CTRL with EN = 1. -/
def Glexon.restoreDie (g : Glexon) (p : Nat) (fresh : Bool) : Glexon :=
  g.modPort p fun t =>
    let t0 := if fresh then { t with known := [] } else t
    let t1 := restoreOrder.foldl (fun t off =>
      match SMap.get none t.want off with
      | some v => if SMap.get none t.known off = some v then t else t.queueCmd (csrWriteCmd off v)
      | none => t) t0
    let ctl := word (g.probeTag.toNat * 2 ^ 32 + g.probe.length * 2 ^ 16 + 1)
    let t2 := if g.probe = [] ∨ SMap.get none t1.known Reg.BM_PROBE_CTRL = some ctl then t1
      else ((progLoads 94 0 g.probe).foldl TapPort.queueCmd t1).queueCmd (csrWriteCmd Reg.BM_PROBE_CTRL ctl)
    let en := ((SMap.get none t2.want Reg.BM_CTRL).getD 0) ||| 1
    if SMap.get none t2.known Reg.BM_CTRL = some en then t2 else t2.queueCmd (csrWriteCmd Reg.BM_CTRL en)

/-! ### Port training (R160, R161, R163, R165, R166) -/

/-- What a port loses when its link leaves UP: partial records count as discarded (R144), commands are dropped (R162). -/
def Glexon.portLost (g : Glexon) (p : Nat) (degr : Bool) : Glexon :=
  let t := g.port p
  let parts := t.reasm.filter fun x => match x.2 with
    | .part _ _ => true
    | _ => false
  let g1 := parts.foldl (fun g x => g.bump (Reg.TP_LOSS_INDIGO p + 8 * x.1) 1) g
  g1.modPort p fun t => { t with
    reasm := [], observed := false, t1 := none, t4 := none, tickDue := false, timeDue := false,
    creditDue := false, owed := 0,
    unacked := if degr then t.unacked else [], cmdQ := if degr then t.cmdQ else [], resend := [] }

/-- Step 4 of bring-up is complete once every port that expects a die is UP (R492). -/
def Glexon.tapsUp (g : Glexon) : Glexon :=
  if (List.range 64).all fun p => !g.tpExpected p || (g.port p).up then g.buDone 4 else g

/-- The port enters UP: initial credit, command numbering unless after a degrade, the event, and R162. -/
def Glexon.portUp (g : Glexon) (p : Nat) (tr : Train) (fresh degr : Bool) : Glexon :=
  let g1 := g.modPort p fun t => { t with
    tr := tr, held := false, limit := [(0, 64), (1, 1024), (2, 1024), (3, 256)], downTold := false,
    nextSeq := if degr then t.nextSeq else 1 }
  let g2 := g1.event (if degr then 0x0203 else 0x0201) 29 [word p, word tr.width]
  let g3 : Glexon := { g2 with fl := { g2.fl with
    base := SMap.put none g2.fl.base p none, collIn := SMap.put none g2.fl.collIn p none, collOut := SMap.put none g2.fl.collOut p none } }
  (g3.restoreDie p fresh).tapsUp

/-- Puts a port in another training state, with what entering or leaving UP brings; an EXPECTED port that leaves UP other than
by a degrade, or fails to reach it, writes TAP_DOWN once per loss (R161, R163, Table 5.12). -/
def Glexon.setPortTrain (g : Glexon) (p : Nat) (tr : Train) : Glexon :=
  let t := g.port p
  if t.up ∧ tr.st ≠ .up then
    let g1 := (g.portLost p tr.degr).modPort p fun t => { t with tr := tr }
    if tr.degr = false ∧ g1.tpExpected p then
      (g1.modPort p fun t => { t with downTold := true }).event 0x0202 29 [word p]
    else g1
  else if tr.st = .detect ∧ t.tr.st ≠ .detect ∧ g.tpExpected p ∧ ¬ t.downTold then
    (g.modPort p fun t => { t with tr := tr, held := false, downTold := true }).event 0x0202 29 [word p]
  else g.modPort p fun t => { t with tr := tr, held := if tr.st = .init then t.held else false }

/-- A training step at either end. -/
def trainAt (e : LinkEnd) (f : Train → Bool → Train) (s : State) : Answer :=
  match e with
  | .bumas => onBumas (fun b => b.setTrain (f b.tap.tr true)) s
  | .port p => onCore (fun g => g.setPortTrain p.toNat (f (g.port p.toNat).tr (g.tpPair p.toNat))) s

/-- SIGNAL_DETECT. -/
def execSignalDetect (e : LinkEnd) (lane : Bool) (s : State) : Answer := trainAt e (fun t _ => t.signal lane) s
/-- TRAIN_DONE. -/
def execTrainDone (e : LinkEnd) (lane : Bool) (s : State) : Answer := trainAt e (fun t _ => t.trained lane) s
/-- CODEWORD_LOCK. -/
def execCodewordLock (e : LinkEnd) (lane : Bool) (s : State) : Answer := trainAt e (fun t pair => t.lock pair lane) s
/-- DESKEW_DONE. -/
def execDeskewDone (e : LinkEnd) (s : State) : Answer := trainAt e (fun t _ => t.deskewed) s
/-- TRAINING_TIMEOUT. -/
def execTrainingTimeout (e : LinkEnd) (s : State) : Answer := trainAt e (fun t _ => t.timeout) s
/-- LANE_FAIL. -/
def execLaneFail (e : LinkEnd) (lane : Bool) (s : State) : Answer := trainAt e (fun t _ => t.laneFail lane) s

/-- LINK_INIT (R160, R163): TRAIN_UP and TRAIN_DN agree on the width; a port that is not EXPECTED holds the link in INIT
and writes TAP_UNEXPECTED. `fresh`: the Bumas comes from a block reset. -/
def execLinkInit (e : LinkEnd) (two fresh : Bool) (s : State) : Answer :=
  match e with
  | .bumas => onBumas (fun b => b.setTrain (b.tap.tr.enterUp two)) s
  | .port q =>
    onCore (fun g =>
      let p := q.toNat
      let t := g.port p
      if t.tr.st ≠ .init then g
      else if g.tpExpected p then g.portUp p (t.tr.enterUp two) fresh t.tr.degr
      else if t.held then g
      else (g.modPort p fun t => { t with held := true, fresh := fresh, heldTwo := two }).event 0x0205 29 [word p]) s

/-- A write of TP_PORT_CFG_p (R161, R163, R165). -/
def Glexon.portCfgWrite (g : Glexon) (p : Nat) (data : Word) : Glexon :=
  let old := g.rd (Reg.TP_PORT_CFG p)
  let v := data &&& 0xF000000000000000
  let v1 := if p % 2 = 0 then v else putBit v 61 false
  let g1 := g.wr (Reg.TP_PORT_CFG p) (putBit v1 60 false)
  if ¬ bit v 63 then
    g1.setPortTrain p { retrains := (g.port p).tr.retrains }
  else if ¬ bit old 63 then g1.setPortTrain p { (g.port p).tr with st := .detect }
  else
    let t := g1.port p
    if bit v 60 ∧ t.up ∧ t.tr.width = 1 ∧ g1.tpPair p then g1.setPortTrain p (t.tr.retrain true)
    else if bit v 62 ∧ t.held ∧ t.tr.st = .init then g1.portUp p (t.tr.enterUp t.heldTwo) t.fresh false
    else g1

/-- TP_PORT_CFG_WRITE. -/
def execTpPortCfgWrite (q : BitVec 6) (data : Word) (s : State) : Answer := onCore (fun g => g.portCfgWrite q.toNat data) s

/-! ### Blocks sent (R141, R146, R155, R159) -/

/-- TK_STATE [4:0]: MODE in [1:0], TICKING in [4]. -/
def Glexon.stateByte (g : Glexon) : Byte :=
  let m := match g.tk.mode with
    | .free => 0
    | .acquiring => 1
    | .locked => 2
    | .holdover => 3
  BitVec.ofNat 8 (m + g.tk.ticking.toNat * 16)

/-- HOLDOVER lasts until a tick begins in LOCKED (R75). -/
def Glexon.holding (g : Glexon) : Bool := decide (g.tk.mode = .holdover) || (g.tk.holdTick && decide (g.tk.mode ≠ .locked))

/-- The state byte of TIME and TICK blocks: MODE and TICKING as in TK_STATE, and the HOLDOVER state in [5]. -/
def Glexon.linkState (g : Glexon) : Byte := g.stateByte ||| (if g.holding then 32 else 0)

/-- A TICK block (R159). -/
def Glexon.tickBlock (g : Glexon) : List Byte :=
  mkBlock ([0x42, 0, 0, 0] ++ leBytes 8 g.tk.tickNo.toNat ++ leBytes 4 g.tk.period
    ++ leBytes 8 (g.tk.epoch / 1000000000) ++ leBytes 4 (g.tk.epoch % 1000000000) ++ leBytes 4 0
    ++ leBytes 8 g.tk.pchg.toNat ++ [g.linkState])

/-- A TIME block with t1, and t4 of the exchange before (R155). -/
def Glexon.timeBlock (g : Glexon) (t1 : Int) (id : BitVec 16) (t4 : Option (BitVec 16 × Int)) : List Byte :=
  let a := t4.getD (0, 0)
  mkBlock ([0x32, 0, 0, 0] ++ timeWordBytes t1 ++ timeWordBytes a.2 ++ leBytes 2 a.1.toNat
    ++ leBytes 2 id.toNat ++ [g.linkState])

/-- A CMD block (R151). -/
def cmdBlock (c : PortCmd) : List Byte :=
  mkBlock ([0x22, 0, 0, 0] ++ leBytes 4 c.seq.toNat ++ leBytes 2 c.op ++ leBytes 2 c.args.length ++ c.args)

/-- A CREDIT block with all four limits (R146). -/
def creditBlock (t : TapPort) : List Byte :=
  mkBlock ([0x12, 0, 0, 0] ++ ((List.range 4).map fun c => leBytes 4 (SMap.get 0 t.limit c).toNat).flatten)

/-- One block slot of a port (R141): TICK, TIME, CMD, CREDIT, else IDLE. -/
def Glexon.blockSlot (g : Glexon) (p : Nat) : Glexon :=
  let t := g.port p
  if ¬ t.up then g
  else if t.tickDue then g.setPort p { t with tickDue := false, block := g.tickBlock }
  else if t.timeDue then
    let t1 := g.stamp + g.tsc (Reg.TK_TSC_EGR 3)
    g.setPort p { t with
      timeDue := false, timeId := t.timeId + 1, t1 := some (t.timeId, t1), t4 := none,
      block := g.timeBlock t1 t.timeId t.t4 }
  else match t.unacked.find? fun c => t.resend.contains c.seq with
    | some c =>
      g.setPort p { t with
        resend := t.resend.filter fun q => q != c.seq,
        block := cmdBlock c }
    | none => match t.cmdQ with
      | c :: rest =>
        if t.unacked.length < 16 then
          let c1 := { c with seq := t.nextSeq }
          g.setPort p { t with
            cmdQ := rest, nextSeq := t.nextSeq + 1, unacked := t.unacked ++ [c1], block := cmdBlock c1 }
        else if t.creditDue then g.setPort p { t with creditDue := false, block := creditBlock t }
        else g.setPort p { t with block := mkBlock [0x00] }
      | [] =>
        if t.creditDue then g.setPort p { t with creditDue := false, block := creditBlock t }
        else g.setPort p { t with block := mkBlock [0x00] }

/-- GLEXON_BLOCK_SLOT. -/
def execGlexonBlockSlot (p : BitVec 6) (s : State) : Answer := onCore (fun g => g.blockSlot p.toNat) s

/-- CREDIT_SEND (R146): a CREDIT block is due. -/
def execCreditSend (p : BitVec 6) (s : State) : Answer :=
  onCore (fun g => g.modPort p.toNat fun t => { t with creditDue := true }) s

/-- TIME_SEND (R155): a TIME block is due. -/
def execTimeSend (p : BitVec 6) (s : State) : Answer :=
  onCore (fun g => g.modPort p.toNat fun t => { t with timeDue := true }) s

/-- CMD_RESEND (R152): an unacknowledged command is sent again; after 16 resends TAP_CMD_TIMEOUT is written and the link
retrains. -/
def execCmdResend (p : BitVec 6) (seq : BitVec 32) (s : State) : Answer :=
  onCore (fun g =>
    let t := g.port p.toNat
    match t.unacked.find? fun c => c.seq == seq with
    | none => g
    | some c =>
      if 16 ≤ c.resent then
        (g.event 0x0204 29 [word p.toNat]).setPortTrain p.toNat (t.tr.retrain (t.tr.width = 2))
      else g.setPort p.toNat { t with
        resend := t.resend ++ [seq],
        unacked := t.unacked.map fun x => if x.seq = seq then { x with resent := x.resent + 1 } else x }) s

/-! ### Blocks received (R140, R144, R152, R155) -/

/-- A block received at a port: counted in TP_BLKERR_p and discarded unless it is good. -/
def Glexon.portRx (g : Glexon) (p : Nat) (k : BlkCheck) (f : Glexon → Glexon) : Glexon :=
  if ¬ (g.port p).up then g
  else if k.fecOk && k.crcOk then f (g.count 5 p 0 1)
  else
    let g1 := g.bumpFld (Reg.TP_BLKERR p) 0 32 1
    if k.fecOk then g1 else g1.bumpFld (Reg.TP_BLKERR p) 32 32 1

/-- CMD_ACK_RECEIVE (R152): acknowledges its own command only. -/
def execCmdAckReceive (p : BitVec 6) (a : AckBlk) (s : State) : Answer :=
  onCore (fun g => g.portRx p.toNat a.chk fun g => g.modPort p.toNat fun t =>
    match t.unacked.find? fun c => c.seq == a.seq with
    | none => t
    | some c => { t with
        unacked := t.unacked.filter fun x => x.seq != a.seq,
        resend := t.resend.filter fun q => q != a.seq,
        ack := some (a.seq, a.status, a.data),
        known := if a.status = 0 then c.regs.foldl (fun m (e : Nat × Word) => SMap.put none m e.1 (some e.2)) t.known
          else t.known }) s

/-- TIME_ECHO_RECEIVE (R155): delay and offset into TP_TIME_p, in 2⁻⁸ ns, and t4 for the next TIME block. -/
def execTimeEchoReceive (p : BitVec 6) (e : EchoBlk) (s : State) : Answer :=
  onCore (fun g => g.portRx p.toNat e.chk fun g =>
    let t := g.port p.toNat
    let t4 := g.stamp - g.tsc (Reg.TK_TSC_ING 3)
    match t.t1 with
    | some (id, t1) =>
      if id = e.id then
        let t2 := ofTimeWord e.t2
        let t3 := ofTimeWord e.t3
        let delay := ((t2 - t1) + (t4 - t3)) / 2
        let off := (t2 - t1) - delay
        (g.setPort p.toNat { t with t1 := none, t4 := some (e.id, t4) }).wr (Reg.TP_TIME p.toNat)
          (word (wrapI 32 (delay / 256) * 2 ^ 32 + wrapI 32 (off / 256)))
      else g
    | none => g) s

/-- Raises the credit limit of class `c` by `n` blocks (R146). -/
def TapPort.raise (t : TapPort) (c n : Nat) : TapPort :=
  { t with limit := SMap.mod 0 t.limit c fun v => v + BitVec.ofNat 32 n, creditDue := true }

/-- The block of Sienna that has arrived leaves for audit staging; its credit is withheld while staging is full. -/
def TapPort.sienna (t : TapPort) (full : Bool) : TapPort :=
  if full then { t with owed := t.owed + 1 } else t.raise 2 1

/-- Discards the partial record of a class (R144). -/
def Glexon.reasmDrop (g : Glexon) (p c : Nat) (next : Reasm) (blocks : Nat) : Glexon :=
  (g.bump (Reg.TP_LOSS_INDIGO p + 8 * c) 1).modPort p fun t =>
    let t1 := { t with reasm := SMap.put .idle t.reasm c next }
    if c = 2 then t1 else t1.raise c blocks

/-- A reassembled record ends with its EOR block: its length and trailer must agree (R144). -/
def Glexon.reasmEnd (g : Glexon) (p c : Nat) (bytes : List Byte) (blocks : Nat) : Glexon :=
  let n := 40 + 8 * leAt bytes 28 2
  if (n + 55) / 56 ≠ blocks ∨ ¬ Rec.crcOk (bytes.take n) then g.reasmDrop p c .idle blocks
  else g.modPort p fun t => { t with
    reasm := SMap.put .idle t.reasm c .idle, fifo := t.fifo ++ [(Rec.ofBytes (bytes.take n), blocks)] }

/-- One DATA block (R142, R144); `full`: audit staging is full. -/
def Glexon.dataBlock (g : Glexon) (p : Nat) (l : List Byte) (full : Bool) : Glexon :=
  let c := leAt l 1 1 / 64
  let sor := (leAt l 1 1).testBit 5
  let eor := (leAt l 1 1).testBit 4
  let idx := leAt l 2 2
  let body := (l.drop 4).take 56
  let g0 := if c = 2 then g.modPort p fun t => t.sienna full else g
  let st := SMap.get .idle (g0.port p).reasm c
  let accept (g : Glexon) (bytes : List Byte) (k : Nat) : Glexon :=
    if eor then g.reasmEnd p c bytes k
    else g.modPort p fun t => { t with reasm := SMap.put .idle t.reasm c (.part bytes k) }
  match st with
  | .part bytes k =>
    if sor then
      let g1 := g0.reasmDrop p c .idle k
      if idx = 0 then accept g1 body 1 else g1.modPort p fun t => { t with reasm := SMap.put .idle t.reasm c .dropping }
    else if idx = k then accept g0 (bytes ++ body) (k + 1)
    else g0.reasmDrop p c (if eor then .idle else .dropping) (k + 1)
  | .idle =>
    if sor ∧ idx = 0 then accept g0 body 1
    else g0.reasmDrop p c (if eor then .idle else .dropping) 1
  | .dropping =>
    if sor ∧ idx = 0 then accept g0 body 1
    else g0.modPort p fun t => if c = 2 then t else t.raise c 1

end Sys2Proof.Machine
end

