-- ==== Sys2Proof/Machine/TrafficOps.lean ====
section
/-! DEFINITION. What every fleet-side family uses: records that the Glexon originates, meters, egress queues, alarms and
alerts (R46, R395 to R404, R467). -/

namespace Sys2Proof.Machine

/-! ### Meters to RFC 2698 (R403, R404) -/

/-- Brings the buckets to `ns`: rates in Mb/s, sizes in bytes. A marker starts full. -/
def Meter98.refill (m : Meter98) (rate size : Word) (ns : Nat) : Meter98 :=
  let capC := fld size 32 32 * 8000
  let capP := fld size 0 32 * 8000
  if m.last = 0 then { tc := capC, tp := capP, last := ns }
  else { tc := min capC (m.tc + fld rate 32 32 * (ns - m.last)), tp := min capP (m.tp + fld rate 0 32 * (ns - m.last)), last := ns }

/-- The colour of `n` bytes with a pre-colour, and the marker after it. A meter with CIR = PIR = 0 is off. -/
def Meter98.mark (m : Meter98) (rate size : Word) (ns pre n : Nat) : Nat × Meter98 :=
  if rate = 0 then (pre, m)
  else
    let m1 := m.refill rate size ns
    let b := n * 8000
    if pre = 2 ∨ m1.tp < b then (2, m1)
    else if pre = 1 ∨ m1.tc < b then (1, { m1 with tp := m1.tp - b })
    else (0, { m1 with tp := m1.tp - b, tc := m1.tc - b })

/-! ### Egress queues (R395, R400, R404, R414) -/

/-- Fabric port `p`. -/
def Glexon.egress (g : Glexon) (p : Nat) : Egress := SMap.get {} g.ts.ports p

/-- Fabric port `p` replaced. -/
def Glexon.setEgress (g : Glexon) (p : Nat) (e : Egress) : Glexon :=
  { g with ts := { g.ts with ports := SMap.put {} g.ts.ports p e } }

/-- A queue of a port. -/
def Egress.q (e : Egress) (i : Nat) : EgressQ := SMap.get {} e.qs i

/-- A queue replaced. -/
def Egress.setQ (e : Egress) (i : Nat) (x : EgressQ) : Egress := { e with qs := SMap.put {} e.qs i x }

/-- The class of a queue: 0 Cobalt, 1 Scarlet, 2 Amber, 3 Umber. -/
def qClass (q : Nat) : Nat := if q = 0 then 0 else if q = 1 then 1 else if q < 6 then 2 else 3

/-- The weight in force of a queue: 0 acts as 1. -/
def Glexon.weight (g : Glexon) (q : Nat) : Nat := max 1 (fld (g.rd (Reg.TS_WEIGHT q)) 0 16)

/-- The tag of a frame of `l` bytes that reaches the head of queue `q` with start `s` (R400). -/
def Glexon.wfqTag (g : Glexon) (q s l : Nat) : Nat := s + (l * 65536 + g.weight q - 1) / g.weight q

/-- A frame enters queue `q` of port `p`: discarded under Blackout, coloured by the port's meter. -/
def Glexon.enqueue (g : Glexon) (p q : Nat) (f : Frame) : Glexon :=
  let c := qClass q
  if 2 ≤ c ∧ bit (g.rd Reg.TS_BLACKOUT) c then g.bump (Reg.TS_BLACKOUT_DROP p) 1
  else
    let e := g.egress p
    let (col, e1) : Nat × Egress :=
      if c < 2 then (0, e)
      else
        let k := c - 2
        let (col, m) := (SMap.get {} e.meters k).mark (g.rd (Reg.TS_METER_RATE p k)) (g.rd (Reg.TS_METER_SIZE p k)) g.nowNs 0 f.len
        (col, { e with meters := SMap.put {} e.meters k m })
    let x := e1.q q
    let x1 : EgressQ := if x.frames = [] then { x with tag := g.wfqTag q e1.v f.len } else x
    g.setEgress p (e1.setQ q { x1 with frames := x.frames ++ [{ f with colour := col }] })

/-- The fabric port of a role slot (TS_ROLE_PORT). -/
def Glexon.rolePort (g : Glexon) (k : Nat) : Nat := fld (g.rd Reg.TS_ROLE_PORT) (4 * k) 3

/-- Bytes of a frame that carries a record over the transport, and of one that carries a command datagram (R408, R417). -/
def recFrame (r : Rec) : Nat := 122 + Rec.size r
/-- A command's frame. -/
def cmdFrame (r : Rec) : Nat := 70 + Rec.size r

/-! ### Alerts (R467) -/

/-- The alert unit sends a record to the management collectors, from READY onward. -/
def Glexon.alertOut (g : Glexon) (r : Rec) : Glexon :=
  if g.mg.ready ∧ (List.range 8).any (fun k => bit (g.rd (Reg.MG_ALERT_DEST k)) 63) then
    ({ g with mg := { g.mg with alert := Rec.bytes r } }).bumpFld Reg.MG_ALERT_STAT 32 32 1
  else g

/-! ### Records that the Glexon originates (R46, R188, R306, R317) -/

/-- Does a value of RE_ROLE_CFG_k make the slot active: EN = 1 with a FAN_IN in its level's range (R32)? -/
def roleOk (k : Nat) (w : Word) : Bool :=
  bit w 63 && decide (1 ≤ fld w 0 7) && decide (fld w 0 7 ≤ if k = 0 then 64 else 32)

/-- A role slot is active; a Glexon with no index accepts no role (R188). -/
def Glexon.roleOn (g : Glexon) (k : Nat) : Bool := roleOk k (g.rd (Reg.RE_ROLE_CFG k)) && g.indexValid

/-- The parent role of a slot is on this Glexon. -/
def Glexon.localUp (g : Glexon) (k : Nat) : Bool := bit (g.rd (Reg.RE_ROLE_CFG k)) 62

/-- What a role has built in this tick. -/
def Glexon.role (g : Glexon) (k : Nat) : RoleTick := SMap.get {} g.fl.roles k

/-- A role's tick changed. -/
def Glexon.modRole (g : Glexon) (k : Nat) (f : RoleTick → RoleTick) : Glexon :=
  { g with fl := { g.fl with roles := SMap.put {} g.fl.roles k (f (g.role k)) } }

/-- The time was in holdover during the tick. -/
def Glexon.inHold (g : Glexon) : Bool := g.tk.holdTick || decide (g.tk.mode = .holdover)

/-- A record that a role of slot `k` originates for tick `n`, and the Glexon with SEQ counted. -/
def Glexon.newRec (g : Glexon) (k typ cls : Nat) (n : Word) (ws gen flags : Nat) (payload : List Byte) : Rec × Glexon :=
  ({ typ := BitVec.ofNat 16 typ, cls := BitVec.ofNat 4 cls, colour := 0,
     flags := BitVec.ofNat 8 (flags ||| (if g.inHold then flagHold else 0)
       ||| (if g.mg.partAt = some g.tk.tickNo then flagPartial else 0)),
     src := BitVec.ofNat 32 (2 ^ 31 + g.index), tick := n, shortTime := g.shortAt n, seq := g.fl.seq,
     wsId := BitVec.ofNat 12 ws, wsGen := BitVec.ofNat 16 gen, alive := SMap.get 0 g.fl.alive k, payload := payload },
   { g with fl := { g.fl with seq := g.fl.seq + 1 } })

/-- The records of an ingest area. -/
def Glexon.ingest (g : Glexon) (k : Nat) : List Ing := SMap.get [] g.fl.ing k

/-- A record enters the ingest area of role slot `k`. -/
def Glexon.putIngest (g : Glexon) (k : Nat) (i : Ing) : Glexon :=
  { g with fl := { g.fl with ing := SMap.put [] g.fl.ing k (g.ingest k ++ [i]) } }

/-- CHILD_POS of a role. -/
def Glexon.childPos (g : Glexon) (k : Nat) : Nat := fld (g.rd (Reg.RE_ROLE_CFG k)) 32 5

/-- An upward record of slot `k` leaves by the role's queue. The apex has no parent, and a parent on this Glexon takes what it
reduces from record memory (R29). -/
def Glexon.upward (g : Glexon) (k : Nat) (r : Rec) : Glexon :=
  if k = 3 ∨ g.localUp k then g
  else g.enqueue (g.rolePort k) (2 + k) { len := recFrame r, colour := 0, load := .record r (fld (g.rd (Reg.RE_ROLE_CFG k)) 42 14) }

/-- A Scarlet record of slot `k` leaves for the parent role, if it is on another Glexon, and for each collector (R398);
`mg`: its chapter sends it to the management network too. -/
def Glexon.alarmOut (g : Glexon) (k : Nat) (r : Rec) (mg : Bool) : Glexon :=
  let f (dst : Nat) : Frame := { len := recFrame r, colour := 0, load := .record r dst }
  let g1 := if k = 3 ∨ g.localUp k then g else g.enqueue (g.rolePort k) 1 (f (fld (g.rd (Reg.RE_ROLE_CFG k)) 42 14))
  let g2 : Glexon := (List.range 4).foldl (fun (h : Glexon) i =>
    let d := h.rd (Reg.TS_ALARM_DEST i)
    let ep := fld d 0 8
    let w := h.rd (Reg.MG_EP ep 2)
    if bit d 63 ∧ bit w 48 ∧ ¬bit w 49 then h.enqueue (fld w 56 3) 1 (f (65536 + ep)) else h) g1
  if mg then g2.alertOut r else g2

/-- Forms a Scarlet record of slot `k` and releases it; nothing while the Glexon has no index (R188). -/
def Glexon.alarm (g : Glexon) (k typ : Nat) (n : Word) (ws gen flags : Nat) (payload : List Byte) (mg : Bool) : Glexon :=
  if g.indexValid then
    let (r, g1) := g.newRec k typ 9 n ws gen flags payload
    g1.alarmOut k r mg
  else g

/-- Forms an Amber record of slot `k` and releases it upward. -/
def Glexon.amber (g : Glexon) (k typ : Nat) (n : Word) (ws gen flags : Nat) (payload : List Byte) : Glexon :=
  if g.indexValid then
    let (r, g1) := g.newRec k typ 10 n ws gen flags payload
    g1.upward k r
  else g

end Sys2Proof.Machine
end

