-- ==== Sys2Proof/Machine/BusOps.lean ====
section
/-! DEFINITION. A core's registers, its results in their latency, its outstanding operations, and accesses to memory
(chapters 7 and 8); what an image puts in place. -/

namespace Sys2Proof.Machine

/-- Core `n`. -/
def Glexon.core (g : Glexon) (n : Nat) : Core := SMap.get {} g.cores n

/-- The Glexon with core `n` replaced. -/
def Glexon.setCore (g : Glexon) (n : Nat) (k : Core) : Glexon := { g with cores := SMap.put {} g.cores n k }

/-- The Glexon with `f` applied to core `n`. -/
def Glexon.modCore (g : Glexon) (n : Nat) (f : Core → Core) : Glexon := g.setCore n (f (g.core n))

/-- Is core `n` withdrawn? MC_WITHDRAWN holds it. -/
def Glexon.withdrawn (g : Glexon) (n : Nat) : Bool := bit (g.rd Reg.MC_WITHDRAWN) n

/-- Slot `s` of bundle `b` of core `n`'s bundle store (R192). -/
def Glexon.slotWord (g : Glexon) (n b s : Nat) : Word := SMap.get 0 g.code (65536 * n + 4 * b + s)

/-- LEN, the bundle count of core `n`'s program (R210). -/
def Glexon.progLen (g : Glexon) (n : Nat) : Nat := fld (g.rd (Reg.MC_PROG_LEN n)) 0 15

/-- TDEAD, the cycle of the work deadline (Table 7.7). -/
def Glexon.tdead (g : Glexon) : Nat := (g.pNs - 20000) * 9 / 5

/-- A role slot is active in this tick (R32). -/
def Glexon.roleActive (g : Glexon) (r : Nat) : Bool := g.roleOn r

/-! ### Register files (R198) -/

/-- `g` register `r`; g0 reads 0. -/
def Core.rg (k : Core) (r : Nat) : Word := if r = 0 then 0 else SMap.get 0 k.g r

/-- The core with `v` in `g` register `r`; a write to g0 is discarded. -/
def Core.setG (k : Core) (r : Nat) (v : Word) : Core := if r = 0 then k else { k with g := SMap.put 0 k.g r v }

/-- Vector register `r`. -/
def Core.rv (k : Core) (r : Nat) : VReg := SMap.get 0 k.v r

/-- The bits of `old` replaced by those of `new` under a mask. -/
def merge {n : Nat} (old new mask : BitVec n) : BitVec n := (old &&& ~~~mask) ||| (new &&& mask)

/-- The core with the masked bits of vector register `r` replaced. -/
def Core.setV (k : Core) (r : Nat) (v mask : VReg) : Core :=
  { k with v := SMap.put 0 k.v r (merge (k.rv r) v mask) }

/-- Predicate `r`; p0 reads all ones. -/
def Core.rp (k : Core) (r : Nat) : BitVec 32 := if r = 0 then BitVec.allOnes 32 else SMap.get 0 k.p r

/-- The core with the masked bits of predicate `r` replaced; a write to p0 is discarded. -/
def Core.setP (k : Core) (r : Nat) (v mask : BitVec 32) : Core :=
  if r = 0 then k else { k with p := SMap.put 0 k.p r (merge (k.rp r) v mask) }

/-- The governing mask of a predicate selector (R203). -/
def Core.mask (k : Core) (c : BitVec 6) : BitVec 32 :=
  let m := k.rp (fld c 0 3)
  if bit c 3 then ~~~m else m

/-! ### Results in their latency (R195, R196, R201) -/

/-- Does result `a` take effect before result `b`? Flags come after an MTS of the same cycle. -/
def Flight.before (a b : Flight) : Bool :=
  let rank : Effect → Nat := fun e => match e with
    | .flags _ => 1
    | _ => 0
  let x := (a.due, rank a.eff, a.sent, a.slot)
  let y := (b.due, rank b.eff, b.sent, b.slot)
  decide (x.1 < y.1) || (x.1 == y.1 && (decide (x.2.1 < y.2.1) || (x.2.1 == y.2.1 &&
    (decide (x.2.2.1 < y.2.2.1) || (x.2.2.1 == y.2.2.1 && decide (x.2.2.2 < y.2.2.2))))))

/-- Places a result among those on their way, in the order in which they take effect. -/
def insFlight (f : Flight) : List Flight → List Flight
  | [] => [f]
  | h :: r => if f.before h then f :: h :: r else h :: insFlight f r

/-- The core sends a result from its open bundle, visible `lat` cycles after its issue. -/
def Core.send (k : Core) (slot lat : Nat) (e : Effect) : Core :=
  { k with flight := insFlight { due := k.cyc + lat, sent := k.cyc, slot := slot, eff := e } k.flight }

/-! ### Engine operations' ranges and overlaps (R237, R240, R251) -/

/-- `n` rounded up to a multiple of 128. -/
def up128 (n : Nat) : Nat := (n + 127) / 128 * 128

/-- Element width in bits of a matrix format (R268). -/
def fmtBits (f : Nat) : Nat := if f = 0 then 4 else if f ≤ 2 then 6 else if f ≤ 5 then 8 else if f = 6 then 16 else 32

/-- Byte stride of the vectors of an MMA operand (R240). -/
def mmaStride (f k : Nat) : Nat := up128 (k * fmtBits f / 8)

/-- Bytes of an MMA operand with scale block `blk` (R240). -/
def mmaBytes (f k blk : Nat) : Nat :=
  64 * mmaStride f k + (if f ≤ 5 ∧ blk ≠ 0 then 64 * up128 (k / blk) else 0)

/-- Bytes that TST writes for each OUT (R241). -/
def tstBytes (out : Nat) : Nat := if out = 0 then 32768 else if out = 2 then 8192 else 16384

/-- Configuration slot `net` of matrix engine `e`. -/
def Core.netSlot (k : Core) (e net : Nat) : List Byte := SMap.get [] k.slots (4 * e + net)

/-- The scale block of a configuration; 32 where the slot is invalid. -/
def cfgBlock (c : List Byte) : Nat := if c.length < 64 then 32 else leAt c 8 1

/-- The scale block that an operation uses, or would use if it began now. -/
def Core.opBlock (k : Core) (o : EngOp) : Nat :=
  match o.q, o.kind with
  | .matrix e, .mma _ _ _ _ _ _ _ net => if o.begun then cfgBlock o.cfg else cfgBlock (k.netSlot e.toNat net)
  | _, _ => 32

/-- What a shared engine reads beside the descriptor `d` that it has taken. -/
def xopReads (eng code : Nat) (d : List Byte) : List (Nat × Nat) :=
  if d = [] then []
  else if eng = 0 then (if code = 5 then [(leAt d 16 8, leAt d 24 4)] else [])
  else if eng = 1 then [(leAt d 0 8, leAt d 16 4 * (if code = 1 then 4 else 16))]
  else if eng = 2 then [(leAt d 0 8, leAt d 8 4)]
  else if eng = 3 then [(leAt d 0 8, leAt d 8 4), (leAt d 16 8, 245760), (leAt d 24 8, 16 * leAt d 32 1)]
  else []

/-- What a shared engine writes beside its descriptor; the chain table of a compression operation stands behind it. -/
def xopWrites (eng code : Nat) (d : List Byte) : List (Nat × Nat) :=
  if d = [] then []
  else if eng = 0 then (if code = 5 then [] else [(leAt d 16 8, leAt d 24 4)])
  else if eng = 1 then (if code = 1 then [(leAt d 8 8, leAt d 16 4 * 4)] else [])
  else if eng = 3 then
    (leAt d 16 8, 245760) :: (leAt d 24 8, 16 * leAt d 32 1) ::
      (chunks 16 ((d.drop 64).length / 16) (d.drop 64)).map fun e => (leAt e 0 8, leAt e 8 4)
  else []

/-- The number of the shared engine whose queue an operation is in. -/
def EngOp.eng (o : EngOp) : Nat :=
  match o.q with
  | .shared e => e.toNat
  | _ => 0

/-- The memory ranges that an operation reads. -/
def Core.opReads (k : Core) (o : EngOp) : List (Nat × Nat) :=
  match o.kind with
  | .mma _ a b kq fa fb _ _ =>
    [(a, mmaBytes fa (16 * kq) (k.opBlock o)), (b, mmaBytes fb (16 * kq) (k.opBlock o))]
  | .tld _ a _ => [(a, 32768)]
  | .tst _ _ _ => []
  | .accnet a _ => [(a, 64)]
  | .dma loc far len toFar => if toFar then [(loc, len)] else [(far, len)]
  | .xop a code => (a, 64) :: xopReads o.eng code o.data
  | .vprog a c => [(a, 8 * c)]

/-- The memory ranges that an operation writes. -/
def EngOp.writes (o : EngOp) : List (Nat × Nat) :=
  match o.kind with
  | .tst _ a out => [(a, tstBytes out)]
  | .dma loc far len toFar => if toFar then [(far, len)] else [(loc, len)]
  | .xop a code => (a, 64) :: xopWrites o.eng code o.data
  | _ => []

/-- The tiles of a core after an operation's destination tile, if it has one, is left unspecified. -/
def EngOp.loseTile (o : EngOp) (gen : Nat) (m : SMap Tile) (f : Nat) : SMap Tile :=
  match o.q, o.kind with
  | .matrix e, .mma t .. => SMap.put (.free gen) m (8 * e.toNat + t) (.free f)
  | .matrix e, .tld t _ _ => SMap.put (.free gen) m (8 * e.toNat + t) (.free f)
  | _, _ => m

/-- Do two ranges share a byte? -/
def overlap (a n b m : Nat) : Bool := decide (a < b + m) && decide (b < a + n)

/-- Does an access (a write, or a read) of `n` bytes at `a` break R251 for an outstanding operation? -/
def Core.opHit (k : Core) (o : EngOp) (wr : Bool) (a n : Nat) : Bool :=
  o.writes.any (fun r => overlap r.1 r.2 a n) || (wr && (k.opReads o).any (fun r => overlap r.1 r.2 a n))

/-- The operation of core `c` with tag `t` that an access belongs to, which it does not clash with. -/
def isSelf (self : Option (Nat × Nat)) (c : Nat) (o : EngOp) : Bool :=
  match self with
  | some (n, t) => decide (n = c) && decide (t = o.tag)
  | none => false

/-- Does an access clash with any outstanding engine operation of any core? -/
def Glexon.clash (g : Glexon) (self : Option (Nat × Nat)) (wr : Bool) (a n : Nat) : Bool :=
  g.cores.any fun (c, k) => k.ops.any fun o => !isSelf self c o && k.opHit o wr a n

/-- The operations that an access clashes with, marked: their results are unspecified. -/
def Glexon.spoil (g : Glexon) (self : Option (Nat × Nat)) (wr : Bool) (a n : Nat) : Glexon :=
  { g with cores := g.cores.map fun (c, k) =>
      (c, { k with ops := k.ops.map fun o =>
              if !isSelf self c o && k.opHit o wr a n then { o with spoilt := true } else o }) }

/-- `n` bytes with unspecified contents. -/
def freeBytes (k n : Nat) : List Byte := (List.range n).map (Config.freeByte k)

/-- Clears the poison of the granules that `n` bytes from `a` cover whole. -/
def Glexon.heal (g : Glexon) (a n : Nat) : Glexon :=
  { g with poison := (granules a n).foldl (fun m k =>
      if a ≤ 32 * k ∧ 32 * k + 32 ≤ a + n then SMap.put false m k false else m) g.poison }

/-- A write of bytes to memory by a core or engine (`self`, or none). -/
def Glexon.busWrite (g : Glexon) (self : Option (Nat × Nat)) (a : Nat) (l : List Byte) : Glexon :=
  if g.clash self true a l.length then
    let (k, g1) := (g.spoil self true a l.length).fresh
    g1.memPut a (freeBytes k l.length)
  else (g.memPut a l).heal a l.length

/-- A read of `n` bytes of memory: the bytes, and the Glexon after it. -/
def Glexon.busRead (g : Glexon) (self : Option (Nat × Nat)) (a n : Nat) : List Byte × Glexon :=
  if g.clash self false a n then
    let (k, g1) := (g.spoil self false a n).fresh
    (freeBytes k n, g1.memPut a (freeBytes k n))
  else (memBytes g.mem a n, g)

/-- Bytes replaced from an offset. -/
def putAt (l : List Byte) (o : Nat) (b : List Byte) : List Byte := l.take o ++ b ++ l.drop (o + b.length)

/-- A 32-bit field of a descriptor written. -/
def setW (l : List Byte) (o v : Nat) : List Byte := putAt l o (leBytes 4 v)

/-- Are all the bytes from `a` to `b` (exclusive) of a descriptor 0? -/
def zeros (d : List Byte) (a b : Nat) : Bool := decide (leAt d a (b - a) = 0)

/-! ### The image's variant and result slots (R258, R338) -/

/-- The variant in force (R258). -/
def Glexon.variantNo (g : Glexon) : Nat := fld (g.rd Reg.MC_VARIANT) 0 5

/-- What the image holds for the variant in force. -/
def Glexon.variant (g : Glexon) : Variant := SMap.get {} g.image.variants g.variantNo

/-- The sequences that the variant in force suspends (R370). -/
def Glexon.applySusp (g : Glexon) : Glexon :=
  let l := g.variant.susp
  let m (o : Nat) : Word := word (((List.range 64).filter fun q => l.contains (o + q)).foldl (fun a q => a + 2 ^ q) 0)
  let g1 := (g.wr Reg.MC_CTX_SUSP_0 (m 0)).wr Reg.MC_CTX_SUSP_1 (m 64)
  if l = [] then g1 else g1.event 0x0533 31 [word g.variantNo, word l.length]

/-- OFF_i of result slot pair `i`. -/
def pairOff (ps : List PairImg) (i : Nat) : Nat := ((ps.take i).map fun p => 64 + 2 * p.size).sum

/-- Writes the control blocks of the slot pairs when an image takes effect (R338, R342). -/
def Glexon.layPairs (g : Glexon) : Glexon :=
  g.image.pairs.zipIdx.foldl (fun (h : Glexon) (x : PairImg × Nat) =>
    let cb := (h.rd Reg.RE_SLOT_BASE).toNat + pairOff h.image.pairs x.2
    let next := if x.2 + 1 = h.image.pairs.length then 0 else pairOff h.image.pairs (x.2 + 1)
    (h.memPut (cb + 24) (leBytes 2 x.1.set_ ++ leBytes 2 x.1.gen ++ leBytes 4 x.1.kind ++ leBytes 4 x.1.size)).memPut (cb + 40)
      (leBytes 8 next)) g

end Sys2Proof.Machine
end

