-- ==== Sys2Proof/Machine/Ingest.lean ====
section
/-! DEFINITION. Ingest at the leaf (R144, R170, R185, R307, R309, R313, R375, R403, R510): DATA blocks, the checks of a complete
record, the rewind ring, alive counters and peer reports. -/

namespace Sys2Proof.Machine

/-! ### Watch sets (R35, R37, R334) -/

/-- The entry of a watch set at role slot `k`; the fleet set is always active with generation 0. -/
def Glexon.wsEntry (g : Glexon) (k id : Nat) : WsEntry :=
  if id = 0 then .active 0 else SMap.get .free g.fl.ws (4096 * k + id)

/-- A watch-set entry replaced. -/
def Glexon.setWs (g : Glexon) (k id : Nat) (e : WsEntry) : Glexon :=
  { g with fl := { g.fl with ws := SMap.put .free g.fl.ws (4096 * k + id) e } }

/-- Does a role accept records of set (id, gen) for a data tick (R37)? -/
def WsEntry.takes (e : WsEntry) (gen : Nat) (n : Word) : Bool :=
  match e with
  | .free => false
  | .active g => g == gen
  | .draining g last => g == gen && decide (n.toNat ≤ last.toNat)

/-- The set and generation to which the die on port `p` belongs in tick `n`. -/
def Glexon.stampAt (g : Glexon) (p : Nat) (n : Word) : Nat × Nat :=
  match (SMap.get [] g.fl.stamps p).find? fun x => decide (x.1.toNat ≤ n.toNat) with
  | some (_, id, gen) => (id, gen)
  | none => (0, 0)

/-- The die index that the leaf wrote to the die on port `p` (R162). -/
def Glexon.dieAt (g : Glexon) (p : Nat) : Option Nat :=
  (SMap.get none (g.port p).want Reg.BM_DIE_INDEX).bind fun w => if bit w 63 then some (fld w 0 18) else none

/-! ### Alive counters (R306, R307) -/

/-- What a role's alive check makes of a record of tick `n` with counter `a`, from the source at index `i` of the baselines:
`true` drops the record. `check`: the record on which the check is made. `who` is the port or the child's index. -/
def Glexon.aliveCheck (g : Glexon) (k i who : Nat) (src : BitVec 32) (n : Word) (a : BitVec 16) (check : Bool) : Bool × Glexon :=
  let put (h : Glexon) : Glexon :=
    let h1 : Glexon := { h with fl := { h.fl with base := SMap.put none h.fl.base i (some { n := n, a := a }) } }
    if k = 0 then h1.wr (Reg.DG_ALIVE who) (word (a.toNat * 2 ^ 48 + n.toNat % 2 ^ 48)) else h1
  let cnt (h : Glexon) (lo len c : Nat) : Glexon := if k = 0 then h.bumpFld (Reg.DG_ALIVE_CNT who) lo len c else h
  if bit (g.rd Reg.DG_CTRL) 61 = false then (false, g)
  else
    match SMap.get none g.fl.base i with
    | none => (false, if check then put g else g)
    | some b =>
      let want := b.a + BitVec.ofNat 16 (n - b.n).toNat
      if check = false then
        if a = want then (false, g) else (true, g.bump Reg.DG_ALIVE_MISMATCH 1)
      else if n.toNat ≤ b.n.toNat then (false, put g)
      else if a = want then (false, put (cnt g 0 32 (n.toNat - b.n.toNat - 1)))
      else
        let jump := decide (a ≠ b.a)
        let g1 := g.alarm k 0x0321 g.tk.tickNo 0 0 0
          (leBytes 4 src.toNat ++ leBytes 2 want.toNat ++ leBytes 2 a.toNat ++ leBytes 8 n.toNat ++ leBytes 4 jump.toNat
            ++ leBytes 4 0 ++ leBytes 8 b.n.toNat) false
        let g2 := g1.event 0x0432 26 [word who, word jump.toNat, n]
        (false, put (cnt g2 (if jump then 32 else 48) 16 1))

/-! ### DATA blocks (R144) -/

/-- Bytes of audit staging in use. -/
def Glexon.stageUse (g : Glexon) : Nat := (g.au.tiles.map fun t => t.r.payload.length).sum

/-- Audit staging takes no more: EN = 0, or no room for a largest tile (R271). -/
def Glexon.stageFull (g : Glexon) : Bool :=
  !bit (g.rd Reg.AU_CTRL) 63
    || decide ((g.rd Reg.AU_STAGE_END).toNat + 1 - (g.rd Reg.AU_STAGE_BASE).toNat < g.stageUse + 524288)

/-- Withheld Sienna credit goes back when staging takes tiles again. -/
def Glexon.siennaRelease (g : Glexon) : Glexon :=
  if g.stageFull then g
  else { g with ports := g.ports.map fun (p, t) => (p, if t.owed = 0 then t else { (t.raise 2 t.owed) with owed := 0 }) }

/-- TAP_DATA_BLOCK (R142, R144). -/
def execTapDataBlock (p : BitVec 6) (chk : BlkCheck) (bytes : List Byte) (s : State) : Answer :=
  onCore (fun g => g.portRx p.toNat chk fun g =>
    let lim (h : Glexon) : Nat := ((h.port p.toNat).limit.map fun x => x.2.toNat).sum
    let g1 := g.dataBlock p.toNat (padTo 64 (bytes.take 64)) g.stageFull
    let g2 := if (g.port p.toNat).fifo.length < (g1.port p.toNat).fifo.length then g1.count 5 p.toNat 1 1 else g1
    g2.count 5 p.toNat 2 (lim g2 - lim g)) s

/-! ### The rewind ring (R185, R343) -/

/-- Bytes of the rewind ring: 48 GiB. -/
def rwSize : Nat := 48 * 2 ^ 30

/-- Retention budget of a tick in bytes: 800 MiB per second of P. -/
def Glexon.rwBudget (g : Glexon) : Nat := (800 * 2 ^ 20 * g.pNs + 999999999) / 1000000000

/-- Writes bytes at virtual position `x` of the ring. -/
def Glexon.rwPut (g : Glexon) (x : Nat) (l : List Byte) : Glexon :=
  let o := x % rwSize
  let n := min l.length (rwSize - o)
  (g.memPut (0x001000000000 + o) (l.take n)).memPut 0x001000000000 (l.drop n)

/-- The index entry of the tick in progress (Table 11.12). -/
def Glexon.rwIndex (g : Glexon) : Glexon :=
  let (b, n, sk) := g.fl.rwTick
  let t := g.tk.tickNo
  g.memPut ((g.rd Reg.HM_RW_INDEX_BASE).toNat + 32 * (t.toNat % 262144))
    (leBytes 8 t.toNat ++ leBytes 8 ((g.rd Reg.HM_RW_HEAD).toNat - b) ++ leBytes 4 b ++ leBytes 4 n ++ leBytes 4 sk ++ leBytes 4 0)

/-- A record that the leaf accepts is appended to the ring, or skipped past the tick's budget. -/
def Glexon.retain (g : Glexon) (p : Nat) (r : Rec) : Glexon :=
  let (b, n, sk) := g.fl.rwTick
  if g.rwBudget < b + Rec.size r then
    (({ g with fl := { g.fl with rwTick := (b, n, sk + 1) } }).bump Reg.HM_RW_SKIP 1).rwIndex
  else
    let x := (g.rd Reg.HM_RW_HEAD).toNat
    let head := x + Rec.size r
    let all := g.fl.kept ++ [{ tick := g.tk.tickNo, pos := x, port := p, r := r }]
    let keep := all.filter fun k => decide (head ≤ k.pos + rwSize)
    let lost := all.filter fun k => decide (k.pos + rwSize < head)
    let gone := match lost.getLast? with
      | some k => some k.tick
      | none => g.fl.rwGone
    let old := (keep.find? fun k => match gone with
      | some t => decide (t.toNat < k.tick.toNat)
      | none => true).elim g.tk.tickNo fun k => k.tick
    let g1 : Glexon := { g with fl := { g.fl with rwTick := (b + Rec.size r, n + 1, sk), kept := keep, rwGone := gone } }
    (((g1.rwPut x (Rec.bytes r)).wr Reg.HM_RW_HEAD (word head)).wr Reg.HM_RW_OLDEST old).rwIndex

/-! ### Markers, samples and summaries (R304, R309, R375) -/

/-- One marker of a MARKER record: a peer report. -/
def Glexon.seeMarker (g : Glexon) (p die : Nat) (n : Word) (m : List Byte) : Glexon :=
  let id := leAt m 0 2
  let arg := leAt m 4 4
  if bit (g.rd Reg.DG_CTRL) 60 ∧ id ≠ 0 ∧ id = fld (g.rd Reg.DG_PEER_MARK) 0 16 then
    if SMap.get 0 g.fl.peers p < 16 then
      let g2 : Glexon := { g with fl := { g.fl with peers := SMap.mod 0 g.fl.peers p (· + 1) } }
      let g3 := g2.alarm 0 0x0323 g2.tk.tickNo 0 0 0
        (leBytes 4 die ++ leBytes 4 (arg % 2 ^ 18) ++ leBytes 8 n.toNat ++ leBytes 4 (leAt m 8 4) ++ leBytes 1 (arg / 2 ^ 30)
          ++ leBytes 3 0 ++ leBytes 8 0) false
      (g3.event 0x0431 26 [word p, word (arg % 2 ^ 18), word (arg / 2 ^ 30)]).bumpFld Reg.DG_PEER_REPORTS 32 32 1
    else g.bumpFld Reg.DG_PEER_REPORTS 0 32 1
  else g

/-- Is a sample ID in the flagged-item table of this leaf (R376)? -/
def Glexon.flagged (g : Glexon) (id : Nat) : Bool :=
  let b := fld (g.rd Reg.ES_ITEM_BASE) 0 48
  memRange b 32768 && (List.range 8192).any fun i => decide (id ≠ 0) && memNat g.mem (b + 4 * i) 4 == id

/-- A LONG_SAMPLE adds its sample ID to the die's ring, each once, at most 64 (R375). -/
def Glexon.seeSample (g : Glexon) (p id : Nat) (n : Word) : Glexon :=
  let l := SMap.get [] g.es.dec p
  if l.any (fun d => d.id == id) || g.flagged id then g
  else
    let l1 := l ++ [{ id := id, tick := n.toNat }]
    { g with es := { g.es with dec := SMap.put [] g.es.dec p (l1.drop (l1.length - 64)) } }

/-- What an accepted record tells the leaf at once. -/
def Glexon.seeRecord (g : Glexon) (p : Nat) (r : Rec) : Glexon :=
  let t := r.typ.toNat
  let die := r.src.toNat % 2 ^ 18
  if t = 0x0101 then
    let g1 := g.modPort p fun x => { x with observed := true }
    { g1 with ep := { g1.ep with asked := g1.ep.asked + leAt r.payload 32 4 } }
  else if t = 0x0103 then (chunks 16 (r.payload.length / 16 + 1) r.payload).foldl (fun h m => h.seeMarker p die r.tick m) g
  else if t = 0x0108 then g.seeSample p (leAt r.payload 0 4) r.tick
  else g

/-! ### Ingest checks (R313, Table 11.1) -/

/-- Check 1 of Table 11.1: a record's type and length. -/
def formatOk (r : Rec) : Bool :=
  let t := r.typ.toNat
  let w := Rec.words r
  if t < 0x0101 ∨ 0x010A < t ∨ t = 0x0109 then false
  else if t = 0x0101 then w == 9
  else if t = 0x0106 then w == 17
  else if t = 0x0107 ∨ t = 0x0108 then w == 4
  else if t = 0x010A then w == 6
  else decide (w ≤ 2048)

/-- The first check before the alive check that a record fails, or 0. -/
def Glexon.ingestFail (g : Glexon) (p : Nat) (r : Rec) : Nat :=
  let cur := g.tk.tickNo
  if formatOk r = false then 1
  else if bit r.flags 2 then 2
  else if g.roleOn 0 = false ∨ bit r.src 31 ∨ some r.src.toNat ≠ g.dieAt p then 3
  else if r.tick.toNat < cur.toNat then 4
  else if cur.toNat + 1 < r.tick.toNat then 5
  else if (g.wsEntry 0 r.wsId.toNat).takes r.wsGen.toNat r.tick = false then 6
  else if g.stampAt p r.tick ≠ (r.wsId.toNat, r.wsGen.toNat) then 7
  else if r.typ = 0x0101 ∧ (g.ingest 0).any (fun i => i.child == p && i.tick == r.tick && i.r.typ == 0x0101) then 8
  else 0

/-- Counts a failed check as Table 11.1 states. -/
def Glexon.countFail (g : Glexon) (c : Nat) : Glexon :=
  if c = 1 then g.bumpFld Reg.RE_INGEST_BAD 48 16 1
  else if c = 2 then g.bumpFld Reg.RE_INGEST_BAD 0 16 1
  else if c = 3 then g.bumpFld Reg.RE_INGEST_BAD 32 16 1
  else if c = 4 then g.bump (Reg.RE_ROLE_LATE 0) 1
  else if c = 5 ∨ c = 8 then g.bumpFld Reg.RE_INGEST_BAD 16 16 1
  else g.bump (Reg.RE_ROLE_STALE 0) 1

/-- INGEST_BAD (R350): at most once per port per tick. -/
def Glexon.tellFail (g : Glexon) (p c : Nat) : Glexon :=
  if g.fl.told.contains p then g
  else ({ g with fl := { g.fl with told := p :: g.fl.told } }).event 0x0513 24 [word p, word c]

/-- A complete record passes the checks into the ingest area and the rewind ring, or is dropped. -/
def Glexon.takeRecord (g : Glexon) (p : Nat) (r : Rec) : Glexon :=
  if g.tk.ticking = false then g.bumpFld Reg.RE_INGEST_BAD 16 16 1
  else
    let c := g.ingestFail p r
    if c ≠ 0 then (g.countFail c).tellFail p c
    else
      let (drop, g1) := g.aliveCheck 0 p p r.src r.tick r.alive (r.typ == 0x0101)
      if drop then g1.tellFail p 9
      else (((g1.putIngest 0 { tick := r.tick, child := p, r := r }).retain p r).seeRecord p r)

/-- A record of a child role reaches the role of slot `k` ≥ 1 (R29, R37, R43, R307, R314, R315). `remote`: the child is on
another Glexon, so its alive counter is checked. A record of a type that no role reduces is left out. -/
def Glexon.childIn (g : Glexon) (k pos : Nat) (r : Rec) (remote : Bool) : Glexon :=
  let cur := g.tk.tickNo.toNat
  let t := r.typ.toNat
  let mine (i : Ing) : Bool := i.child == pos && i.tick == r.tick
  if ¬(t = 0x0230 ∨ (0x0201 ≤ t ∧ t ≤ 0x0204)) then g
  else if bit r.flags 2 then g.bumpFld Reg.RE_INGEST_BAD 0 16 1
  else if g.roleOn k = false ∨ g.tk.ticking = false ∨ bit r.src 31 = false ∨ fld (g.rd (Reg.RE_ROLE_CFG k)) 0 7 ≤ pos then
    g.bumpFld Reg.RE_INGEST_BAD 32 16 1
  else if r.tick.toNat + k < cur then g.bump (Reg.RE_ROLE_LATE k) 1
  else if cur + 1 < r.tick.toNat + k then g.bumpFld Reg.RE_INGEST_BAD 16 16 1
  else if (g.wsEntry k r.wsId.toNat).takes r.wsGen.toNat r.tick = false then g.bump (Reg.RE_ROLE_STALE k) 1
  else if t = 0x0201 ∧ (g.ingest k).any (fun i => mine i && i.r.typ == 0x0201) then g.bumpFld Reg.RE_INGEST_BAD 16 16 1
  else
    let (drop, g1) := if remote then
        g.aliveCheck k (64 * k + pos) (r.src.toNat % 2 ^ 14) r.src r.tick r.alive (!(g.ingest k).any mine)
      else (false, g)
    if drop then g1 else g1.putIngest k { tick := r.tick, child := pos, r := r }

/-- The meter of a Tap class re-colours a record (R403); `none`: a red Mauve record is dropped. -/
def Glexon.tapMeter (g : Glexon) (p : Nat) (r : Rec) : Option Rec × Glexon :=
  let c := r.cls.toNat
  if c = 0 ∨ 3 < c then (some r, g)
  else
    let i := 4 * p + c
    let (col, m) := (SMap.get {} g.ts.tapM i).mark (g.rd (Reg.TP_METER_RATE p c)) (g.rd (Reg.TP_METER_SIZE p c)) g.nowNs
      r.colour.toNat (Rec.size r)
    let g1 : Glexon := { g with ts := { g.ts with tapM := SMap.put {} g.ts.tapM i m } }
    let g2 := if col ≠ r.colour.toNat then g1.bumpFld (Reg.TP_METER_RED p) 0 32 1 else g1
    if c = 3 ∧ col = 2 then (none, g2.bumpFld (Reg.TP_METER_RED p) 32 32 1)
    else (some { r with colour := BitVec.ofNat 2 col }, g2)

/-- Takes the oldest complete record of a class from a port's ingest FIFOs. -/
def Glexon.popFifo (g : Glexon) (p c : Nat) : Option ((Rec × Nat) × Glexon) :=
  let t := g.port p
  match t.fifo.findIdx? fun x => x.1.cls.toNat == c with
  | some i => (t.fifo[i]?).map fun x => (x, g.setPort p { t with fifo := t.fifo.eraseIdx i })
  | none => none

/-- RECORD_INGEST (R170): the oldest complete record of a class leaves its ingest FIFO, returning its credit. -/
def execRecordIngest (p : BitVec 6) (cls : BitVec 2) (s : State) : Answer :=
  onCore (fun g =>
    if cls = 2 then g
    else match g.popFifo p.toNat cls.toNat with
      | none => g
      | some ((r, blocks), g1) =>
        let g2 := (g1.modPort p.toNat fun t => t.raise cls.toNat blocks).count 5 p.toNat 2 blocks
        match g2.tapMeter p.toNat r with
        | (none, g3) => g3
        | (some r1, g3) => g3.takeRecord p.toNat r1) s

end Sys2Proof.Machine
end

