-- ==== Sys2Proof/Machine/MgOps.lean ====
section
/-! DEFINITION. What firmware and the command path share: the mailbox (R468), bring-up times (R514), fabric commands as the
Glexon originates and forwards them (R408 to R410), membership lists (R47) and announcements (R499, R500). -/

namespace Sys2Proof.Machine

/-! ### Firmware and the mailbox -/

/-- The management processor runs firmware (R458, R468). -/
def Glexon.fwOn (g : Glexon) : Bool := g.mgRstN && decide (g.mg.run = .running)

/-- The 8-byte words of a list of bytes. -/
def wordsOf (l : List Byte) : List Word := (chunks 8 ((l.length + 7) / 8) l).map fun b => word (leNat b)

/-- Firmware answers a request in the response ring: request ID, status, data. -/
def Glexon.mbxReply (g : Glexon) (id : BitVec 32) (status : Nat) (data : List Byte) : Glexon :=
  let i := fld (g.rd Reg.MG_MBX_RSP_PI) 0 6
  let ws := wordsOf (padTo 64 (leBytes 4 id.toNat ++ leBytes 4 status ++ data.take 56))
  let g1 : Glexon := (List.range 8).foldl (fun (h : Glexon) w => h.wr (Reg.MG_MBX_RSP i w) (ws.getD w 0)) g
  g1.wr Reg.MG_MBX_RSP_PI (word ((i + 1) % 64))

/-- Firmware takes the next request from the ring, if it runs, and handles it. -/
def onMbx (f : Glexon → Glexon) (s : State) : Answer :=
  let ci := (fld (s.gx.rd Reg.MG_MBX_REQ_CI) 0 6 + 1) % 64
  .next { s with gx := if s.gx.fwOn then f (s.gx.wr Reg.MG_MBX_REQ_CI (word ci)) else s.gx }

/-- As `onMbx`, for a request that acts on the core domain: FAILED while that is in reset or halted. -/
def onMbxCore (q : MbxReq) (f : Glexon → Glexon) (s : State) : Answer :=
  onMbx (fun g => if g.coreUp then f g else g.mbxReply q.id 4 []) s

/-! ### RWT registers (R14, R16) -/

/-- The value an RW or RWT register takes from written data: reserved bits stay as they are. -/
def Glexon.maskW (g : Glexon) (a : Nat) (v : Word) : Word :=
  match regFind gxRegFams a with
  | some f => (g.rd a &&& ~~~f.wmask) ||| (v &&& f.wmask)
  | none => g.rd a

/-- A write of an RWT register: in force at the next boundary. -/
def Glexon.rwtPut (g : Glexon) (a : Nat) (v : Word) : Glexon :=
  { g with rwt := SMap.put none g.rwt a (some (g.maskW a v)) }

/-- What an RWT register reads: the written value at once (R14). -/
def Glexon.rwtRd (g : Glexon) (a : Nat) : Word := (SMap.get none g.rwt a).getD (g.rd a)

/-- Firmware or hardware writes a register of RW or RWT access by its code. -/
def Glexon.put (g : Glexon) (a : Nat) (v : Word) : Glexon :=
  match regFind gxRegFams a with
  | some f => if f.acc = .rwt then g.rwtPut a v else if f.acc = .rw then g.wr a (g.maskW a v) else g
  | none => g

/-! ### Fabric commands (R408 to R412) -/

/-- Payload words of a command type; GATE_LIST has 3 and its entries (Table 14.10). -/
def cmdLen (t : Nat) : Nat :=
  if t = 0x0401 then 4 else if t = 0x0402 then 3 else if t = 0x0403 ∨ t = 0x0404 then 4 else if t = 0x0405 then 5
  else if t = 0x0406 then 3 else if t = 0x0407 then 7 else if t = 0x0408 then 3 else if t = 0x0409 then 3
  else if t = 0x040A then 6 else 5

/-- A fleet command (Table 14.4): the others go direct to their target. -/
def fleetCmd (t : Nat) : Bool := decide (0x0403 ≤ t) && decide (t ≤ 0x0409)

/-- A command's target word, effective boundary and origin power-cycle count (Table 14.5). -/
def Rec.target (r : Rec) : Nat := leAt r.payload 4 4
/-- The effective boundary. -/
def Rec.eff (r : Rec) : Nat := leAt r.payload 8 8
/-- The origin's power-cycle count. -/
def Rec.cycles (r : Rec) : Nat := leAt r.payload 0 4
/-- The origin. -/
def Rec.origin (r : Rec) : Nat := r.src.toNat % 2 ^ 14

/-- Are the payload's bytes from `a` to `b` (exclusive) all 0? -/
def Rec.zero (r : Rec) (a b : Nat) : Bool := decide (leAt r.payload a (b - a) = 0)

/-- Do a command's length, reserved bytes and arguments fit its row (R409, R413, R414)? `n`: entries of a GATE_LIST. -/
def cmdArgsOk (r : Rec) : Bool :=
  let t := r.typ.toNat
  let p := r.payload
  let e := (Rec.eff r)
  let mask := leAt p 16 1
  let die := decide ((Rec.target r) < 2 ^ 31)
  let maskOk := if die then decide (mask % 2 = 0) && decide (mask < 16) else decide (mask % 4 = 0) && decide (mask < 16)
  let late := decide (r.tick.toNat + 8 ≤ e)
  let n := leAt p 16 1
  decide (Rec.words r = if t = 0x0409 then 3 + n else cmdLen t) &&
    (if t = 0x0401 then maskOk && Rec.zero r 17 24 && decide (e = 0)
     else if t = 0x0402 then maskOk && Rec.zero r 17 24 && decide (e = 0)
     else if t = 0x0403 then Rec.zero r 28 32 && decide (leAt p 16 2 < 4096)
     else if t = 0x0404 then Rec.zero r 20 24 && decide (leAt p 16 2 < 4096)
     else if t = 0x0405 then
       Rec.zero r 22 28 && decide (leAt p 28 1 < 7) && Rec.zero r 29 32 && decide (e = 0) && decide (1 ≤ leAt p 32 8)
         && decide (leAt p 32 8 * (250000 * 2 ^ leAt p 28 1) ≤ leAt p 16 6 * 1000000000)
     else if t = 0x0406 then decide (leAt p 16 1 < 7) && Rec.zero r 17 24 && late
     else if t = 0x0407 then
       decide (leAt p 24 1 < 7) && Rec.zero r 25 32 && Rec.zero r 38 40 && Rec.zero r 44 48 && decide (e = 0)
     else if t = 0x0408 then decide (leAt p 16 8 ≠ 0) && late
     else if t = 0x0409 then decide (2 ≤ n) && decide (n ≤ 64) && Rec.zero r 17 24 && late
     else if t = 0x040A then decide (leAt p 32 1 < 4) && Rec.zero r 33 36 && decide (e = 0)
     else
       decide (leAt p 16 2 < 4096) && decide (leAt p 22 1 < 2) && decide (leAt p 23 1 ≤ 4) && Rec.zero r 36 40 && decide (e = 0))

/-- A refused command is counted and CMD_REFUSED written; nothing is applied (R409, R413). -/
def Glexon.cmdRefuse (g : Glexon) (origin seq typ : Nat) : Glexon :=
  (g.bumpFld Reg.TS_CMD_STAT 16 16 1).event 0x0322 30 [word origin, word seq, word typ]

/-- RE_ROLE_CFG of a slot as last written: while TICKING = 0 a role that is still to come into force at the first boundary
already forwards commands and announces itself (R495, R498, R499). -/
def Glexon.roleCfg (g : Glexon) (k : Nat) : Word := g.rwtRd (Reg.RE_ROLE_CFG k)
/-- A slot is active, or will be. -/
def Glexon.roleSet (g : Glexon) (k : Nat) : Bool := roleOk k (g.roleCfg k)

/-- The lowest active role slot; 0 if there is none. -/
def Glexon.lowSlot (g : Glexon) : Nat := ((List.range 4).find? fun k => g.roleSet k).getD 0

/-- The children of a role slot on other Glexons: their Glexon indices (R30). -/
def Glexon.remoteKids (g : Glexon) (k : Nat) : List Nat :=
  (((SMap.get {} g.image.roles k).children).map fun c => c.2).filter fun i => i ≠ g.index

/-- A copy of a command goes over the management network at once, unless it is a BEACON, and waits for a Cobalt window
(R410). -/
def Glexon.sendCopy (g : Glexon) (c : CmdCopy) : Glexon :=
  { g with ts := { g.ts with outq := g.ts.outq ++ [c], mgCopy := if c.r.typ = 0x0407 then g.ts.mgCopy else some c } }

/-- A command goes on to the remote children of a role slot (R38, R408). -/
def Glexon.sendDown (g : Glexon) (r : Rec) (k : Nat) : Glexon :=
  if g.roleSet k ∧ g.remoteKids k ≠ [] then g.sendCopy { r := r, slot := some k, dst := 0 } else g

/-- A fleet command goes on to every remote child of this Glexon. -/
def Glexon.sendAllDown (g : Glexon) (r : Rec) : Glexon := (List.range 4).foldl (fun h k => h.sendDown r k) g

/-- A command enters the command FIFO, unless it is full (R412). -/
def Glexon.fifoPut (g : Glexon) (r : Rec) : Glexon :=
  if g.ts.fifo.length < 256 then { g with ts := { g.ts with fifo := g.ts.fifo ++ [r] } }
  else (g.bumpFld Reg.TS_CMD_STAT 0 16 1).event 0x0321 30 [word (Rec.origin r), word r.seq.toNat]

/-- A new command of this Glexon: the next command sequence number is taken (R408). -/
def Glexon.newCmd (g : Glexon) (typ target : Nat) (eff : Word) (args : List Byte) : Rec × Glexon :=
  let s := fld (g.rd Reg.TS_CMD_SEQ) 0 32
  let s1 := if s = 2 ^ 32 - 1 then 1 else s + 1
  let len := if typ = 0x0409 then 3 + leAt args 0 1 else cmdLen typ
  let pre := leBytes 4 (g.rd Reg.MG_POWER_CYCLES).toNat ++ leBytes 4 target ++ leBytes 8 eff.toNat
  ({ typ := BitVec.ofNat 16 typ, cls := 8, colour := 0, flags := BitVec.ofNat 8 (if g.inHold then flagHold else 0),
     src := BitVec.ofNat 32 (2 ^ 31 + g.index), tick := g.tk.tickNo, shortTime := g.shortAt g.tk.tickNo,
     seq := BitVec.ofNat 32 s1, wsId := 0, wsGen := 0, alive := SMap.get 0 g.fl.alive g.lowSlot,
     payload := (padTo (8 * len) (pre ++ args)).take (8 * len) },
   g.wr Reg.TS_CMD_SEQ (word s1))

/-- The target word of a fleet command and of a Glexon (Table 14.5). -/
def toFleet : Nat := 2 ^ 31 + 2 ^ 30
/-- A Glexon as a target. -/
def toGlexon (i : Nat) : Nat := 2 ^ 31 + i

/-- Originates a command: into this Glexon's own FIFO where it is its own target or a fleet command's first receiver, else
to the target (R408, R410). -/
def Glexon.originate (g : Glexon) (typ target : Nat) (eff : Word) (args : List Byte) (dst : Nat) : Glexon :=
  let (r, g1) := g.newCmd typ target eff args
  if fleetCmd typ ∨ dst = g.index then g1.fifoPut r else g1.sendCopy { r := r, slot := none, dst := dst }

/-! ### Membership lists (R47) -/

/-- The address of the list slot of a set. -/
def listAt (id : Nat) : Nat := 0x1F80000000 + 512 * id

/-- The Tap port that the map gives a die of this leaf. -/
def Glexon.mapPort (g : Glexon) (die : Nat) : Option Nat :=
  (g.mg.dies.find? fun d => d.1 == die && d.2.1 == g.index).map fun d => d.2.2

/-- Strictly ascending. -/
def ascending : List Nat → Bool
  | a :: b :: r => decide (a < b) && ascending (b :: r)
  | _ => true

/-- A list slot that passes the check of item 4: generation, die indices. -/
def Glexon.listOk (g : Glexon) (id : Nat) : Option (Nat × List Nat) :=
  let l := memBytes g.mem (listAt id) 512
  let n := leAt l 4 2
  let ds := (List.range n).map fun i => leAt l (16 + 4 * i) 4
  if leAt l 508 4 = 0x4C495354 ∧ leAt l 504 4 = crc32c (l.take 504) ∧ 1 ≤ n ∧ n ≤ 64 ∧ ascending ds
      ∧ ds.all (fun d => (g.mapPort d).isSome) then some (leAt l 2 2, ds)
  else none

/-- The set to which the die on a port belongs by its newest stamp. -/
def Glexon.belongs (g : Glexon) (p : Nat) : Nat :=
  match SMap.get [] g.fl.stamps p with
  | (_, id, _) :: _ => id
  | [] => 0

/-- The arguments of LIST_HELD for a slot that passed (Table 14.10). -/
def Glexon.heldArgs (g : Glexon) (id gen : Nat) (ds : List Nat) : List Byte :=
  let busy := ((ds.filterMap g.mapPort).map g.belongs).filter (fun i => i ≠ 0 ∧ i ≠ id) |>.eraseDups
  let named := busy.take 4
  leBytes 2 id ++ leBytes 2 gen ++ leBytes 2 ds.length ++ leBytes 1 (if 4 < busy.length then 1 else 0)
    ++ leBytes 1 named.length ++ leBytes 4 (memNat g.mem (listAt id + 504) 4)
    ++ padTo 8 (named.map fun i => leBytes 2 i).flatten ++ leBytes 4 0

/-- The leaf reports a slot to the apex (item 5). -/
def Glexon.sendHeld (g : Glexon) (id gen : Nat) (ds : List Nat) : Glexon :=
  match g.mg.apexIx with
  | some a => if g.indexValid then g.originate 0x040B (toGlexon a) 0 (g.heldArgs id gen ds) a else g
  | none => g

/-- The leaf checks a slot that a write has covered, and reports it if it passes (items 4 and 5). -/
def Glexon.checkList (g : Glexon) (id : Nat) : Glexon :=
  match g.listOk id with
  | some (gen, ds) =>
    let h : Held := { gen := gen, since := g.nowNs, last := g.nowNs }
    ({ g with fl := { g.fl with held := SMap.put { gen := 0, since := 0, last := 0 } g.fl.held id h } }).sendHeld id gen ds
  | none => g.bump Reg.RE_LIST_BAD 1

/-- A slot is rewritten: its report is not repeated. -/
def Glexon.dropHeld (g : Glexon) (id : Nat) : Glexon :=
  { g with fl := { g.fl with held := g.fl.held.filter fun e => e.1 ≠ id } }

/-! ### Announcements (R499, R500) -/

/-- A role of this Glexon is ready: VALID, an active image, LOCKED. -/
def Glexon.ready (g : Glexon) (k : Nat) : Bool :=
  g.roleSet k && g.indexValid && g.image.ok && decide (g.tk.mode = .locked)

/-- What the child at a position of a role has announced. -/
def Glexon.annOf (g : Glexon) (k pos : Nat) : Option Announce := SMap.get none g.mg.ann (64 * k + pos)

/-- Children of a relay's role that have not announced. -/
def Glexon.annMissing (g : Glexon) (k : Nat) : Nat :=
  (((SMap.get {} g.image.roles k).children).filter fun c => (g.annOf k c.1).isNone).length

/-- Die ports that the leaf expects, and those UP. -/
def Glexon.diesUp (g : Glexon) : Nat :=
  ((List.range 64).filter fun p => g.tpExpected p && (g.port p).up).length
/-- The dies a leaf expects. -/
def Glexon.diesExpected (g : Glexon) : Nat := ((List.range 64).filter fun p => g.tpExpected p).length

/-- What a role announces of its subtree (Table 19.5). -/
def Glexon.annSelf (g : Glexon) (k : Nat) : Announce :=
  let kids := ((SMap.get {} g.image.roles k).children).filterMap fun c => g.annOf k c.1
  if k = 0 then { map := g.rd Reg.MG_BU_MAP, h := g.mg.hTick, roles := 1, up := g.diesUp, dies := g.diesExpected }
  else { map := g.rd Reg.MG_BU_MAP,
         h := kids.foldl (fun m a => if m.toNat < a.h.toNat then a.h else m) g.mg.hTick,
         roles := 1 + (kids.map Announce.roles).sum, up := (kids.map Announce.up).sum, dies := (kids.map Announce.dies).sum }

/-- A role announces itself: to a parent on this Glexon without a command, else by ANNOUNCE. -/
def Glexon.announce (g : Glexon) (k : Nat) : Glexon :=
  let a := g.annSelf k
  let g1 : Glexon := ({ g with mg := { g.mg with annDone := SMap.put false g.mg.annDone k true } }).buEnter 6 0
  let g2 := if k = g1.lowSlot ∨ (g1.rd Reg.MG_BU_ANN).toNat < a.roles * 2 ^ 32 + a.up then
      g1.wr Reg.MG_BU_ANN (word (a.roles % 2 ^ 32 * 2 ^ 32 + a.up % 2 ^ 32)) else g1
  if k = 3 then g2
  else if bit (g2.roleCfg k) 62 then
    { g2 with mg := { g2.mg with ann := SMap.put none g2.mg.ann (64 * (k + 1) + fld (g2.roleCfg k) 32 5) (some a) } }
  else
    let parent := fld (g2.roleCfg k) 42 14
    g2.originate 0x040A (toGlexon parent) 0
      (leBytes 8 a.map.toNat ++ leBytes 8 a.h.toNat ++ leBytes 1 k ++ leBytes 3 0 ++ leBytes 4 a.roles ++ leBytes 4 a.up
        ++ leBytes 4 a.dies) parent

/-- Ready roles whose condition is met announce themselves, from the leaf upward. -/
def Glexon.readyCheck (g : Glexon) : Glexon :=
  (List.range 4).foldl (fun (h : Glexon) k =>
    if h.ready k = false then h
    else
      if SMap.get false h.mg.annDone k ∨ h.tk.ticking ∨ h.tk.hasEpoch then h
      else if k = 0 ∨ h.annMissing k = 0 then (h.announce k).buDone 7
      else h) g

end Sys2Proof.Machine
end

