-- ==== Sys2Proof/Machine/ImageOps.lean ====
section
/-! DEFINITION. The program image as firmware stages and activates it (R436, R472, R495). -/

namespace Sys2Proof.Machine

/-- Where the staged image half lies: 0x1C00000000 or 256 MiB above it. -/
def Glexon.stagedAt (g : Glexon) : Nat := if g.mg.half then 0x1C00000000 else 0x1C10000000

/-- Where the active image half lies. -/
def Glexon.activeAt (g : Glexon) : Nat := if g.mg.half then 0x1C10000000 else 0x1C00000000

/-- The staged image takes effect at boundary `b`, or at once (b = 0): halves, bundle banks, window, variant and role tables and
the HM region registers swap together (R472). -/
def Glexon.imageSwap (g : Glexon) (b : Word) : Glexon :=
  match g.staged with
  | none => g
  | some im =>
    let g1 : Glexon := { g with
      image := im, staged := some g.image, code := im.words,
      mg := { g.mg with half := !g.mg.half, imgOk := false, partAt := if b = 0 then g.mg.partAt else some b } }
    let g2 : Glexon := (List.range 24).foldl (fun (h : Glexon) n => h.wr (Reg.MC_PROG_LEN n) (word (SMap.get 0 im.lens n))) g1
    let ep := im.sepia.foldl (fun (h : Glexon) l => h.wr (Reg.EP_LINE l.line) (putFld (h.rd (Reg.EP_LINE l.line)) 32 32 l.est))
      { g2 with ep := { g2.ep with ivory := none, est := [], clampAt := [] } }
    let g3 := ((ep.wr Reg.HM_RW_INDEX_BASE im.indexBase).wr Reg.HM_RW_PULLQ_BASE im.pullqBase).wr Reg.MG_IMG_ACT 0
    ((((g3.applySusp.layPairs).event 0x0806 31 [b]).buDone 5).buEnter 5 0).readyCheck

/-- The first condition of R472 that activation of the staged image does not meet: 1 loaded and hash, 2 image check, 3 bundle
banks; 0 if all are met. -/
def Glexon.imageUnmet (g : Glexon) : Nat :=
  match g.staged with
  | none => 1
  | some im =>
    if g.mg.imgOk = false then 1
    else if im.ok = false then 2
    else if (List.range 24).any fun n => decide (16384 < SMap.get 0 im.lens n) then 3
    else 0

/-- Firmware is asked to activate the staged image at boundary `b` (R472, R495): whether it accepts. 4 is a boundary that comes
too soon. -/
def Glexon.imageActivate (g : Glexon) (b : Word) : Bool × Glexon :=
  let c := g.imageUnmet
  let now := decide (b = 0) && !g.tk.ticking
  let c1 := if c ≠ 0 then c else if now ∨ g.tk.tickNo.toNat + 5 ≤ b.toNat ∧ b.toNat < 2 ^ 63 then 0 else 4
  if c1 ≠ 0 then (false, g.event 0x0807 31 [b, word c1])
  else if now then (true, g.imageSwap 0)
  else (true, g.wr Reg.MG_IMG_ACT (word (2 ^ 63 + b.toNat)))

/-- Is an activation pending for boundary `n` or an earlier one? -/
def Glexon.imageDue (g : Glexon) (n : Word) : Bool :=
  bit (g.rd Reg.MG_IMG_ACT) 63 && decide (fld (g.rd Reg.MG_IMG_ACT) 0 63 ≤ n.toNat)

/-- The staged half has been read: firmware verifies its SHA-384 against the map entry and reads the image it holds. -/
def Glexon.imageRead (g : Glexon) : Glexon :=
  let l := memBytes g.mem g.stagedAt (fld (g.rd Reg.RM_BOOT_IMGLEN) 0 29)
  { g with staged := some (Config.imageOf l), mg := { g.mg with imgOk := decide (sha384 l = g.mg.sha) } }

end Sys2Proof.Machine
end

