-- ==== Sys2Proof/Machine/Map.lean ====
section
/-! DEFINITION. The topology map: its check and its use by firmware (R496 to R498, R34), and the registration of memory
regions (R423, R424). -/

namespace Sys2Proof.Machine

/-! ### Regions (R423, R424) -/

/-- GEN of a region. -/
def Glexon.mrGen (g : Glexon) (r : Nat) : Nat := fld (g.rd (Reg.RM_MR_ATTR r)) 32 8

/-- Does a region at `base` of `len` bytes lie wholly within record memory? -/
def inRecordMem (base len : Nat) : Bool :=
  decide (0x1000000000 ≤ base) && decide (base + len ≤ 0x2200000000) && decide (base < 0x2200000000)

/-- A write of RM_MR_ATTR_r: with VALID = 1 it registers the region at its base and advances GEN, or is refused; with VALID = 0
it deregisters it. -/
def Glexon.mrAttr (g : Glexon) (r : Nat) (v : Word) : Glexon :=
  let a := Reg.RM_MR_ATTR r
  let gen := g.mrGen r
  let w := putFld (v &&& 0xFFFEFF00FFFFFFFF) 32 8 gen
  if bit v 63 then
    if inRecordMem (g.rd (Reg.RM_MR_BASE r)).toNat (64 * fld v 0 32) ∧ (g.rd (Reg.RM_MR_BASE r)).toNat % 64 = 0 then
      let g1 := (g.wr a (putFld w 32 8 ((gen + 1) % 256))).wr (Reg.RM_MR_HEAD r) 0
      { g1 with rm := { g1.rm with keyAt := SMap.put none g1.rm.keyAt r (some g1.nowNs) } }
    else (g.wr a (putBit w 63 false)).bump Reg.RM_MR_REFUSED 1
  else g.wr a w

/-! ### The check of the map (R497) -/

/-- Where the map lies. -/
def mapBase : Nat := 0x1C20000000

/-- A number of the map: offset and bytes. -/
def Glexon.mapNat (g : Glexon) (o n : Nat) : Nat := memNat g.mem (mapBase + o) n

/-- A Glexon entry (Table 19.3), as far as the check reads it: where it stands, serial, index, role values, EXPECTED. -/
structure MapGx where
  at_    : Nat
  serial : Nat
  index  : Nat
  roles  : List Nat
  ports  : Nat
  deriving DecidableEq, Repr

/-- A die entry (Table 19.4). -/
structure MapDie where
  die   : Nat
  leaf  : Nat
  port  : Nat
  width : Nat
  deriving DecidableEq, Repr

/-- The Glexon entries. -/
def Glexon.mapGxs (g : Glexon) : List MapGx :=
  let o := g.mapNat 40 8
  (List.range (g.mapNat 32 2)).map fun i =>
    let a := o + 512 * i
    { at_ := a, serial := g.mapNat a 8, index := g.mapNat (a + 8) 2 % 2 ^ 14,
      roles := (List.range 4).map fun k => g.mapNat (a + 16 + 8 * k) 8, ports := g.mapNat (a + 160) 8 }

/-- The die entries. -/
def Glexon.mapDies (g : Glexon) : List MapDie :=
  let o := g.mapNat 48 8
  (List.range (g.mapNat 36 4)).map fun i =>
    let a := o + 16 * i
    { die := g.mapNat a 4 % 2 ^ 18, leaf := g.mapNat (a + 4) 2 % 2 ^ 14, port := g.mapNat (a + 6) 1, width := g.mapNat (a + 7) 1 }

/-- The role value of a slot. -/
def MapGx.role (e : MapGx) (k : Nat) : Nat := e.roles.getD k 0
/-- An active slot. -/
def MapGx.on (e : MapGx) (k : Nat) : Bool := (e.role k).testBit 63
/-- The Glexon index of a slot's parent. -/
def MapGx.parent (e : MapGx) (k : Nat) : Nat := if (e.role k).testBit 62 then e.index else fldN (e.role k) 42 14

/-- The children of a role slot above the leaf: entries whose slot below names it. -/
def mapKids (es : List MapGx) (p : MapGx) (k : Nat) : List MapGx :=
  es.filter fun e => e.on (k - 1) && e.parent (k - 1) == p.index

/-- Do the roles of an entry keep R27, R28, R30 and R32? -/
def mapRolesOk (es : List MapGx) (ds : List MapDie) (p : MapGx) : Bool :=
  let lanes := ((ds.filter fun d => d.leaf == p.index).map fun d => d.width).sum
  let up := [1, 2, 3].filter fun k => p.on k
  (List.range 4).all (fun k => !p.on k ||
      (let f := p.role k % 128
       decide (1 ≤ f) && decide (f ≤ if k = 0 then 64 else 32))) &&
    (!p.on 0 || decide (lanes ≤ 64)) &&
    up.all (fun k =>
      let kids := mapKids es p k
      let pos := kids.map fun e => fldN (e.role (k - 1)) 32 5
      decide (1 ≤ kids.length) && decide (kids.length ≤ 32) && decide (pos.eraseDups.length = pos.length)) &&
    decide ((up.map fun k => ((mapKids es p k).filter fun e => e.index ≠ p.index).length).sum ≤ 40) &&
    [0, 1, 2].all (fun k => !p.on k || es.any fun e => e.index == p.parent k && e.on (k + 1))

/-- The first failing check of R497, numbered in its order from 1; 0 if none fails. -/
def Glexon.mapCheck (g : Glexon) : Nat :=
  let len := fld (g.rd Reg.RM_BOOT_LEN) 0 29
  let ng := g.mapNat 32 2
  let nd := g.mapNat 36 4
  if g.mapNat 0 4 ≠ 0x544F504D ∨ g.mapNat 4 2 ≠ 1 ∨ len < 4096
      ∨ g.mapNat 56 8 ≠ crc64 (memBytes g.mem (mapBase + 64) (len - 64)) then 1
  else if g.mapNat 6 1 = 7 then 2
  else if ng = 0 ∨ 16384 < ng ∨ 262144 < nd ∨ len < g.mapNat 40 8 + 512 * ng ∨ len < g.mapNat 48 8 + 16 * nd then 3
  else
    let es := g.mapGxs
    let ds := g.mapDies
    let n (k : Nat) : Nat := (es.filter fun e => e.on k).length
    if 8192 < n 0 ∨ 256 < n 1 ∨ 8 < n 2 ∨ 1 < n 3 then 3
    else if (es.map fun e => e.index).eraseDups.length ≠ es.length ∨ (ds.map fun d => d.die).eraseDups.length ≠ ds.length
        ∨ ascending (es.map fun e => e.serial) = false then 4
    else if es.all (mapRolesOk es ds) = false then 5
    else if ds.all (fun d => es.any fun e => e.index == d.leaf && decide (d.port < 64) && e.ports.testBit d.port) = false then 6
    else 0

/-! ### Its use (R498, R47) -/

/-- The membership region is registered once after each chip reset (R47). -/
def Glexon.memberRegion (g : Glexon) (salt : Nat) : Glexon :=
  let r := 16383
  if bit (g.rd (Reg.RM_MR_ATTR r)) 63 then g
  else (g.wr (Reg.RM_MR_BASE r) (word 0x1F80000000)).mrAttr r
    (word (2 ^ 63 + 2 ^ 62 + 2 ^ 60 + salt % 1024 * 2 ^ 49 + 255 * 2 ^ 40 + 32768))

/-- At a leaf, what its record of every die takes from the map (R162, R498): the die index and the fleet audit seed. -/
def Glexon.mapToDies (g : Glexon) (index : Nat) (ds : List MapDie) : Glexon :=
  let seed := word (g.mapNat 24 8)
  (ds.filter fun d => d.leaf == index).foldl (fun (h : Glexon) d =>
    h.modPort d.port fun t => (t.decideReg Reg.BM_DIE_INDEX (word (2 ^ 63 + d.die))).decideReg Reg.BM_AUDIT_SEED seed) g

/-- Firmware applies the chip's entry in the order of R498; the image load and its activation follow. -/
def Glexon.mapApply (g : Glexon) (es : List MapGx) (ds : List MapDie) (e : MapGx) : Glexon :=
  let anyRole := (List.range 4).any fun k => bit (g.rd (Reg.RE_ROLE_CFG k)) 63 || g.roleSet k
  let g1 := if anyRole then g else g.wr Reg.ID_GLEXON_INDEX (word (2 ^ 63 + e.index))
  let g2 : Glexon := (List.range 4).foldl (fun (h : Glexon) k =>
    (if h.rwtRd (Reg.RE_ROLE_CFG k) = h.maskW (Reg.RE_ROLE_CFG k) (word (e.role k)) then h
      else h.put (Reg.RE_ROLE_CFG k) (word (e.role k))).put (Reg.RE_ROLE_BUDGET k) (word (g.mapNat (e.at_ + 48 + 4 * k) 4))) g1
  let g3 := g2.put Reg.TS_ROLE_PORT (word (g.mapNat (e.at_ + 12) 4))
  let g4 := g3.memberRegion (g.mapNat (e.at_ + 176) 2)
  let pair := g.mapNat (e.at_ + 168) 8
  let g5 : Glexon := (List.range 64).foldl (fun (h : Glexon) p =>
    let v := word (2 ^ 63 + (e.ports.testBit p).toNat * 2 ^ 62 + (pair.testBit p).toNat * 2 ^ 61)
    if h.rd (Reg.TP_PORT_CFG p) = v then h else h.portCfgWrite p v) g4
  let g6 : Glexon := { g5 with mg := { g5.mg with
    mapOk := true, sha := memBytes g.mem (mapBase + e.at_ + 80) 48, dies := ds.map fun d => (d.die, d.leaf, d.port),
    apexIx := (es.find? fun x => x.on 3).map fun x => x.index } }
  let g7 := (g6.wr Reg.MG_BU_MAP (word (g.mapNat 8 8))).mapToDies e.index ds
  ((g7.put Reg.RM_BOOT_IMG (word (g.mapNat (e.at_ + 64) 8))).put Reg.RM_BOOT_IMGLEN (word (g.mapNat (e.at_ + 72) 4))).buEnter 4 0

/-- Firmware checks the map that has been read, and uses it or refuses it. -/
def Glexon.mapRead (g : Glexon) : Glexon :=
  if g.fwOn = false then g
  else
    let c := g.mapCheck
    if c ≠ 0 then ({ g with mg := { g.mg with mapOk := false } }).event 0x0540 31 [word c, word (g.mapNat 8 8)]
    else
      let g1 := g.buDone 3
      let es := g1.mapGxs
      match es.find? fun e => e.serial == Config.idSerial.toNat with
      | some e => g1.mapApply es g1.mapDies e
      | none => g1.event 0x0541 31 [Config.idSerial]

end Sys2Proof.Machine
end

