-- ==== Sys2Proof/Machine/QpOps.lean ====
section
/-! DEFINITION. What the Remote Memory Engine does with queue pairs, packets and operations (R417 to R422, R430 to R436). -/

namespace Sys2Proof.Machine

/-! ### Queue pairs (R419, R421, R422) -/

/-- Queue pair `q`. -/
def Glexon.qp (g : Glexon) (q : Nat) : Qp := SMap.get {} g.rm.qps q

/-- Queue pair `q` replaced. -/
def Glexon.setQp (g : Glexon) (q : Nat) (x : Qp) : Glexon := { g with rm := { g.rm with qps := SMap.put {} g.rm.qps q x } }

/-- Queue pair `q` changed. -/
def Glexon.modQp (g : Glexon) (q : Nat) (f : Qp → Qp) : Glexon := g.setQp q (f (g.qp q))

/-- RM_QP_CFG_q. -/
def Glexon.qpCfg (g : Glexon) (q : Nat) : Word := g.rd (Reg.RM_QP_CFG q)
/-- STATE (Table 15.4). -/
def Glexon.qpState (g : Glexon) (q : Nat) : Nat := fld (g.qpCfg q) 61 3
/-- CLASS: 0 Scarlet, 1 to 4 Amber of role slot 0 to 3, else Umber. -/
def Glexon.qpClass (g : Glexon) (q : Nat) : Nat := fld (g.qpCfg q) 58 3
/-- Protection domain. -/
def Glexon.qpPd (g : Glexon) (q : Nat) : Nat := fld (g.qpCfg q) 50 8
/-- Is the queue pair's class Umber? -/
def Glexon.qpUmber (g : Glexon) (q : Nat) : Bool := decide (5 ≤ g.qpClass q)
/-- Is it an Amber one? -/
def Glexon.qpAmber (g : Glexon) (q : Nat) : Bool := decide (1 ≤ g.qpClass q) && decide (g.qpClass q ≤ 4)

/-- The distance from `a` to `b` in a 24-bit sequence. -/
def seqDist (a b : Nat) : Nat := (b + 2 ^ 24 - a % 2 ^ 24) % 2 ^ 24
/-- Does `b` lie before `a`? -/
def seqBefore (b a : Nat) : Bool := decide (2 ^ 23 ≤ seqDist a b)

/-- The fabric port of a path (R421). -/
def Glexon.pathPort (g : Glexon) (q path : Nat) : Nat :=
  let c := g.qpClass q
  if c = 0 then g.rolePort g.lowSlot
  else if c ≤ 4 then g.rolePort (c - 1)
  else
    let ports := onesBelow 8 (fld (g.qpCfg q) 38 8)
    if ports = [] then 0 else ports.getD (path % ports.length) 0

/-- The egress queue of a packet: Umber requests in Q6 and responses in Q7 (Table 14.1). -/
def Glexon.qpQueue (g : Glexon) (q : Nat) (resp : Bool) : Nat :=
  let c := g.qpClass q
  if c = 0 then 1 else if c ≤ 4 then 1 + c else if resp then 7 else 6

/-- The path that the next packet takes: in turn, past the suspended ones; all of them where every one is suspended. -/
def Glexon.nextPath (g : Glexon) (q : Nat) : Nat :=
  let n := fld (g.qpCfg q) 46 4 + 1
  let x := g.qp q
  let l := (List.range n).map fun i => (x.path + i) % n
  (l.find? fun p => SMap.get 0 x.susp p = 0).getD (x.path % n)

/-! ### Packets (R417, R418) -/

/-- A transport packet's header fields and payload (Table 15.1). -/
structure RmPkt where
  op    : Nat
  flags : Nat
  plen  : Nat
  dst   : Nat
  srcq  : Nat
  psn   : Nat
  msn   : Nat
  rkey  : Nat
  time  : Nat
  raddr : Nat
  moff  : Nat
  total : Nat
  pay   : List Byte
  deriving DecidableEq, Repr

/-- The packet that a UDP payload holds. -/
def RmPkt.ofBytes (l : List Byte) : RmPkt :=
  { op := leAt l 0 1, flags := leAt l 1 1, plen := leAt l 2 2, dst := leAt l 4 2 % 4096, srcq := leAt l 6 2 % 4096,
    psn := leAt l 8 4 % 2 ^ 24, msn := leAt l 12 4 % 2 ^ 24, rkey := leAt l 16 4, time := leAt l 20 4, raddr := leAt l 24 8,
    moff := leAt l 32 4, total := leAt l 36 4, pay := (l.drop 48).take (leAt l 2 2) }

/-- LAST. -/
def RmPkt.isLast (p : RmPkt) : Bool := p.flags.testBit 1

/-- The payload length that an opcode fixes. -/
def fixedLen (op : Nat) : Option Nat :=
  if op = 2 ∨ op = 0x11 then some 0
  else if op = 4 ∨ op = 6 then some 8
  else if op = 5 then some 16
  else if op = 0x10 then some 32
  else none

/-- Does a UDP payload pass R418's checks of header CRC, payload CRC, PLEN and length? -/
def rmFormOk (l : List Byte) : Bool :=
  let n := leAt l 2 2
  decide (52 ≤ l.length) && decide (leAt l 44 4 = crc32c (l.take 44)) && decide (n ≤ 8192) && decide (l.length = 52 + n)
    && decide (leAt l (48 + n) 4 = crc32c ((l.drop 48).take n)) && (match fixedLen (leAt l 0 1) with
      | some k => decide (n = k)
      | none => true)

/-- A packet's bytes; SEND_TIME or the hold time, and HDR_CRC, are set as it leaves (R417). -/
def Glexon.rmBytes (g : Glexon) (p : RmPkt) : List Byte :=
  leBytes 1 p.op ++ leBytes 1 p.flags ++ leBytes 2 p.plen ++ leBytes 2 p.dst ++ leBytes 2 p.srcq ++ leBytes 4 p.psn
    ++ leBytes 4 p.msn ++ leBytes 4 p.rkey ++ leBytes 4 p.time ++ leBytes 8 p.raddr ++ leBytes 4 p.moff ++ leBytes 4 p.total
    ++ leBytes 4 (2 ^ 31 + g.index) ++ leBytes 4 0 ++ p.pay ++ leBytes 4 (crc32c p.pay)

/-- A packet enters the queue of its queue pair, on the next path. -/
def Glexon.rmEnqueue (g : Glexon) (q psn : Nat) (l : List Byte) (resp : Bool) : Nat × Glexon :=
  let path := g.nextPath q
  let l1 := putAt l 1 (leBytes 1 (leAt l 1 1 % 16 + 16 * path))
  let g1 := g.modQp q fun x => { x with path := (path + 1) % (fld (g.qpCfg q) 46 4 + 1) }
  (path, g1.enqueue (g.pathPort q path) (g.qpQueue q resp) { len := 70 + l.length, colour := 0, load := .packet q psn l1 })

/-- Is a packet a response (READ_RESP, ATOMIC_RESP, ACK, NAK)? -/
def isResp (l : List Byte) : Bool := decide (leAt l 0 1 = 3) || decide (6 ≤ leAt l 0 1)

/-- Payload bytes sent and not acknowledged. -/
def Qp.unacked (x : Qp) : Nat := (x.sent.map fun p => leAt p.bytes 2 2).sum

/-- Packets that wait are sent while the congestion window of an Umber queue pair lets them (R433). -/
def Glexon.rmPump (g : Glexon) (q : Nat) : Glexon :=
  (g.qp q).wait.foldl (fun (h : Glexon) p =>
    match (h.qp q).wait with
    | [] => h
    | _ :: rest =>
      if h.qpUmber q ∧ (h.qp q).w ≤ (h.qp q).unacked then h
      else
        let (path, h1) := h.rmEnqueue q p.psn p.bytes (isResp p.bytes)
        h1.modQp q fun x => { x with wait := rest, sent := x.sent ++ [{ p with times := 1, path := path }] }) g

/-- Packets of a message, from PSN `psn`: opcode, key, RADDR, MSN, data. -/
def Glexon.rmSplit (g : Glexon) (q op psn msn rkey raddr : Nat) (data : List Byte) : List RmSent :=
  let n := max 1 ((data.length + 8191) / 8192)
  (List.range n).map fun i =>
    let pay := (data.drop (8192 * i)).take 8192
    let p : RmPkt := { op := op, flags := (if i = 0 then 1 else 0) + (if i + 1 = n then 2 else 0), plen := pay.length,
                       dst := fld (g.qpCfg q) 24 12, srcq := q, psn := (psn + i) % 2 ^ 24, msn := msn, rkey := rkey, time := 0,
                       raddr := raddr, moff := 8192 * i, total := if i + 1 = n then data.length else 0, pay := pay }
    { psn := p.psn, bytes := g.rmBytes p, times := 0, path := 0 }

/-- The packets of a queue pair take PSNs and wait to be sent. -/
def Glexon.rmSend (g : Glexon) (q : Nat) (ps : List RmSent) : Glexon :=
  (g.modQp q fun x => { x with nextPsn := (x.nextPsn + ps.length) % 2 ^ 24, wait := x.wait ++ ps }).rmPump q

/-- An ACK (R429): BASE, the highest MSN delivered, the map, the echo of the packet that caused it. -/
def Glexon.rmAck (g : Glexon) (q : Nat) : Glexon :=
  let x := g.qp q
  let map := (List.range 256).foldl (fun a i => if x.got.contains ((x.base + 1 + i) % 2 ^ 24) then a + 2 ^ i else a) 0
  let p : RmPkt := { op := 0x10, flags := 3, plen := 32, dst := fld (g.qpCfg q) 24 12, srcq := q, psn := x.base,
                     msn := (x.deliver + 2 ^ 24 - 1) % 2 ^ 24, rkey := 0, time := x.echo.1, raddr := 0, moff := x.echo.2,
                     total := 0, pay := leBytes 32 map }
  (g.rmEnqueue q x.base (g.rmBytes p) true).2

/-- A NAK (R425), to the packet's sender. -/
def Glexon.rmNak (g : Glexon) (q syn : Nat) (pk : RmPkt) : Glexon :=
  let p : RmPkt := { op := 0x11, flags := 3, plen := 0, dst := pk.srcq, srcq := q, psn := pk.psn, msn := pk.msn, rkey := 0,
                     time := pk.time, raddr := 0, moff := (g.short g.nowNs).toNat, total := syn, pay := [] }
  ((g.count 7 0 3 1).rmEnqueue q pk.psn (g.rmBytes p) true).2

/-! ### Operations (R420, R430, R431) -/

/-- Bytes written into an operation's descriptor by the engine. -/
def Glexon.rmDesc (g : Glexon) (o : RmOp) (at_ : Nat) (l : List Byte) : Glexon :=
  match o.desc with
  | some a =>
    let self := match o.owner with
      | .core n t => some (n, t)
      | _ => none
    g.busWrite self (a + at_) l
  | none => g

/-- Starts an operation, of which the checks have passed: it takes its MSN and its PSNs, and its packets are sent. -/
def Glexon.rmIssue (g : Glexon) (q : Nat) (o : RmOp) (data : List Byte) : Glexon :=
  let x := g.qp q
  let op := if o.code = 1 then 1 else if o.code = 2 then 2 else if o.code = 3 then 4 else 5
  let ps := g.rmSplit q op x.nextPsn x.nextMsn o.key o.off data
  let ps1 := if o.code = 2 then ps.map fun p => { p with bytes := putAt p.bytes 36 (leBytes 4 o.len) } else ps
  let o1 : RmOp := { o with msn := x.nextMsn, psn := x.nextPsn, pkts := ps.length }
  let g1 := g.modQp q fun x => { x with nextMsn := (x.nextMsn + 1) % 2 ^ 24, ops := x.ops ++ [o1] }
  let g2 := g1.rmDesc o1 52 (leBytes 4 o1.msn)
  (if o.code = 1 then g2.rmDesc o1 48 (leBytes 4 (2 ^ 32 - 1)) else g2).rmSend q ps1

/-- The status with which a queue pair refuses an operation: 4, or 0. -/
def Glexon.rmRefuse (g : Glexon) (q : Nat) : Nat :=
  if bit (g.rd Reg.RM_CTRL) 63 = false ∨ g.qpState q ≠ 2 ∨ 64 ≤ (g.qp q).ops.length then 4 else 0

/-! ### The boot load (R436) -/

/-- The boot load's queue pair is 0. A new operation without a descriptor. -/
def bootOp (image : Bool) (loc len key off : Nat) : RmOp :=
  { owner := .boot image, code := 2, desc := none, loc := loc, len := len, key := key, off := off, msn := 0, psn := 0, pkts := 1 }

/-- RM_BOOT_CTRL's low bits: FAIL, IMG_DONE, MAP_DONE, BUSY. -/
def Glexon.bootBits (g : Glexon) (set_ clr : Nat) : Glexon :=
  let w := (g.rd Reg.RM_BOOT_CTRL).toNat % 16
  g.wr Reg.RM_BOOT_CTRL (word ((w ||| set_) &&& (15 - clr)))

/-- The load has failed with a status. -/
def Glexon.bootFail (g : Glexon) (status : Nat) : Glexon :=
  let b := g.rm.boot
  if b.busy = false then g
  else
    (({ g with rm := { g.rm with boot := { b with busy := false } } }).bootBits 8 1).event 0x0335 28
      [word (if b.image then 1 else 0), word status]

/-- Firmware has the image: it activates it where the map has called for it (R495, R498). -/
def Glexon.bootImageDone (g : Glexon) : Glexon :=
  let b := g.rm.boot
  let g1 : Glexon := { g with rm := { g.rm with boot := { b with busy := false } } }
  let g2 := ((g1.bootBits 4 1).event 0x0334 28
    [word (fld (g.rd Reg.RM_BOOT_IMGLEN) 0 29), word ((g.nowNs - b.begun) / 1000)]).imageRead
  if b.auto ∧ g2.fwOn ∧ g2.tk.ticking = false then (g2.imageActivate 0).2 else g2

/-- The map has been read: the load waits for firmware to name the image. -/
def Glexon.bootMapDone (g : Glexon) : Glexon :=
  (({ g with rm := { g.rm with boot := { g.rm.boot with busy := false } } }).bootBits 2 0).mapRead

/-- READs of 2 MiB are sent while fewer than 16 are outstanding; when all have come, the phase is done. -/
def Glexon.bootPump (g : Glexon) : Glexon :=
  let total := fld (g.rd (if g.rm.boot.image then Reg.RM_BOOT_IMGLEN else Reg.RM_BOOT_LEN)) 0 29
  let dest := if g.rm.boot.image then g.stagedAt else 0x1C20000000
  let src := (g.rd (if g.rm.boot.image then Reg.RM_BOOT_IMG else Reg.RM_BOOT_MAP)).toNat
  let mine (o : RmOp) : Bool := match o.owner with
    | .boot _ => true
    | _ => false
  let g1 : Glexon := (List.range 16).foldl (fun (h : Glexon) _ =>
    let b := h.rm.boot
    if b.busy = false ∨ total ≤ b.next ∨ 16 ≤ ((h.qp 0).ops.filter mine).length then h
    else
      let st := h.rmRefuse 0
      if st ≠ 0 then h.bootFail st
      else
        let len := min 2097152 (total - b.next)
        let o := bootOp b.image (dest + b.next) len (fld (g.rd Reg.RM_BOOT_KEY) 0 32) (src + b.next)
        ({ h with rm := { h.rm with boot := { b with next := b.next + len } } }).rmIssue 0 o []) g
  if g1.rm.boot.busy ∧ total ≤ g1.rm.boot.next ∧ ((g1.qp 0).ops.filter mine) = [] then
    if g1.rm.boot.image then g1.bootImageDone else g1.bootMapDone
  else g1

/-- The map is read from its start. -/
def Glexon.bootMap (g : Glexon) : Glexon :=
  (({ g with rm := { g.rm with boot := { image := false, next := 0, begun := g.nowNs, busy := true, auto := true } } }).bootBits 1
    14).bootPump

/-- The image is read into the staged half. -/
def Glexon.bootImage (g : Glexon) (auto : Bool) : Glexon :=
  (({ g with
      staged := none, mg := { g.mg with imgOk := false },
      rm := { g.rm with boot := { image := true, next := 0, begun := g.nowNs, busy := true, auto := auto } } }).bootBits 1
    12).bootPump

/-! ### Completion -/

/-- Sets the error and poison marks of the operation of core `n` with tag `t` in its Remote Memory queue. -/
def Glexon.markOp (g : Glexon) (n t : Nat) (err bad : Bool) : Glexon :=
  let f (o : EngOp) : EngOp := if o.q = .shared 4 ∧ o.tag = t then { o with err := o.err || err, bad := o.bad || bad } else o
  g.modCore n fun k => { k with ops := k.ops.map f }

/-! ### Pulls (R344 to R346) -/

/-- The address of an entry of the pull queue. -/
def Glexon.pullAt (g : Glexon) (i : Nat) : Nat := (g.rd Reg.HM_RW_PULLQ_BASE).toNat + 64 * i

/-- A pull ends with a status: STATUS and counts are written, then VALID is cleared. -/
def Glexon.pullEnd (g : Glexon) (p : Pull) (status : Nat) : Glexon :=
  let a := g.pullAt p.slot
  let id := memNat g.mem (a + 44) 4
  let g1 := (g.memPut (a + 48) (leBytes 4 status ++ leBytes 4 p.miss ++ leBytes 4 p.bytes)).memPut (a + 60) (leBytes 4 0)
  let g2 := (g1.bumpFld Reg.HM_RW_PULL_STAT 32 32 1).bumpFld Reg.HM_RW_PULL_STAT 0 32 p.miss
  let g3 := if status = 4 then g2.event 0x0515 29 [word id, word p.miss] else g2
  { g3 with fl := { g3.fl with pull := none } }

/-- The pull ends once its last tick has been staged and its writes are complete. -/
def Glexon.pullCheck (g : Glexon) : Glexon :=
  match g.fl.pull with
  | some p =>
    let out := (g.qp p.qpn).ops.any fun o => decide (o.owner = .pull)
    if out then g
    else if p.err ≠ 0 then g.pullEnd p 6
    else if p.ended = false then g
    else g.pullEnd p (if p.full then 3 else if p.miss ≠ 0 then 4 else 2)
  | none => g

/-- An operation of a queue pair is complete with a status (Table 15.7). -/
def Glexon.rmComplete (g : Glexon) (o : RmOp) (status : Nat) : Glexon :=
  let g1 := g.rmDesc o 48 (leBytes 4 status)
  match o.owner with
  | .core n t =>
    if o.code = 1 then g1.modCore n fun k => { k with posted := k.posted - 1 }
    else g1.markOp n t (decide (status ≠ 0) && decide (status ≠ 3)) (decide (status = 3))
  | .post => g1
  | .boot _ => if status = 0 then g1.bootPump else g1.bootFail status
  | .pull =>
    match g1.fl.pull with
    | some p => ({ g1 with fl := { g1.fl with pull := some { p with err := if p.err = 0 then status else p.err } } }).pullCheck
    | none => g1

/-- Operations complete in MSN order (R431): those at the front that have their status; a DRAIN that has emptied ends in RESET. -/
def Glexon.rmFlush (g : Glexon) (q : Nat) : Glexon :=
  let x := g.qp q
  let fin := x.ops.takeWhile fun o => o.done.isSome
  let g1 := g.modQp q fun x => { x with ops := x.ops.dropWhile fun o => o.done.isSome }
  let g2 : Glexon := fin.foldl (fun (h : Glexon) o => h.rmComplete o (o.done.getD 0)) g1
  if g2.qpState q = 3 ∧ (g2.qp q).ops = [] then (g2.wr (Reg.RM_QP_CFG q) (putFld (g2.qpCfg q) 61 3 0)).setQp q {} else g2

/-- A queue pair enters ERROR with a cause (R420). -/
def Glexon.qpError (g : Glexon) (q cause : Nat) : Glexon :=
  if g.qpState q = 4 then g
  else
    let ops := (g.qp q).ops
    let g1 := (g.wr (Reg.RM_QP_CFG q) (putFld (g.qpCfg q) 61 3 4)).wr (Reg.RM_QP_ERR q) (putFld (g.rd (Reg.RM_QP_ERR q)) 56 8 cause)
    let g2 := (g1.event 0x0330 28 [word q, word cause]).modQp q fun x => { x with ops := [], sent := [], wait := [], asm := [] }
    ops.foldl (fun (h : Glexon) o => h.rmComplete o (o.done.getD cause)) g2

/-! ### Starting operations by descriptor (R430) -/

/-- The first failing check of a descriptor: 1 BAD_DESC, 2 BAD_ADDR, 4 QP_STATE; 0 if none fails. -/
def Glexon.rmDescCheck (g : Glexon) (code : Nat) (d : List Byte) : Nat :=
  let len := leAt d 8 4
  if code = 0 ∨ 4 < code ∨ 4096 ≤ leAt d 12 2 ∨ zeros d 14 16 = false ∨ zeros d 20 24 = false ∨ len = 0 ∨ 2097152 < len
      ∨ (3 ≤ code ∧ len ≠ 8) then 1
  else if memRange (leAt d 0 8) len = false then 2
  else g.rmRefuse (leAt d 12 2)

/-- Starts the operation of a descriptor at `a`; `self` is the issuing core and its tag. The status of one that does not start
(0 for one that does), and the Glexon. A source that is poisoned, or that the SEC-DED code finds so, is not sent. -/
def Glexon.rmStart (g0 : Glexon) (self : Option (Nat × Nat)) (code a : Nat) (d : List Byte) (ecc : Ecc) : Nat × Glexon :=
  let st := g0.rmDescCheck code d
  let loc := leAt d 0 8
  let len := leAt d 8 4
  let g := if code = 1 ∧ st = 0 then g0.eccRead loc ecc else g0
  if st ≠ 0 then (st, g)
  else if code = 1 ∧ (g.poisoned loc len ∨ ecc = .uncorrectable ∧ addrKind loc = .hbm) then (3, g)
  else
    let q := leAt d 12 2
    let (data, g1) : List Byte × Glexon :=
      if code = 1 then (g.count 2 4 3 len).busRead self loc len
      else if code = 2 then ([], g)
      else if code = 3 then ((d.drop 32).take 8, g)
      else ((d.drop 32).take 16, g)
    let owner : RmOwner := match self with
      | some (n, t) => .core n t
      | none => .post
    let o : RmOp := { owner := owner, code := code, desc := some a, loc := loc, len := len, key := leAt d 16 4, off := leAt d 24 8,
                      msn := 0, psn := 0, pkts := 1 }
    (0, g1.rmIssue q o data)

/-- A write of RM_POST: the operation of the descriptor at `a`; the operation code is not in the descriptor. -/
def Glexon.rmPost (g : Glexon) (a : Nat) : Glexon :=
  if a % 64 ≠ 0 ∨ memRange a 64 = false then g
  else
    let (st, g1) := g.rmStart none (Config.postCode a) a (memBytes g.mem a 64) .ok
    if st = 0 then g1 else g1.busWrite none (a + 48) (leBytes 4 st)

/-! ### Writes of its registers (R420, R424) -/

/-- A write of RM_QP_CFG_q: its fields take the written values; STATE only by a transition of Table 15.4. -/
def Glexon.qpCfgWrite (g : Glexon) (q : Nat) (v : Word) : Glexon :=
  let cur := g.qpState q
  let want := fld v 61 3
  let g1 := g.wr (Reg.RM_QP_CFG q) (putFld (g.maskW (Reg.RM_QP_CFG q) v) 61 3 cur)
  let set_ (h : Glexon) (n : Nat) : Glexon := h.wr (Reg.RM_QP_CFG q) (putFld (h.qpCfg q) 61 3 n)
  if (cur = 0 ∧ want = 1) ∨ (cur = 1 ∧ want = 2) then set_ g1 want
  else if cur = 1 ∧ want = 0 then (set_ g1 0).setQp q {}
  else if cur = 2 ∧ want = 3 then (if (g1.qp q).ops = [] then (set_ g1 0).setQp q {} else set_ g1 3)
  else if (cur = 2 ∨ cur = 4) ∧ want = 0 then
    let ops := (g1.qp q).ops
    ops.foldl (fun (h : Glexon) o => h.rmComplete o (o.done.getD 4)) ((set_ g1 0).setQp q {})
  else g1

/-- A rekey (R424): GEN advances at once, unless less than 1 ms has passed since the last registration or rekey. -/
def Glexon.rekey (g : Glexon) (r : Nat) : Glexon :=
  let soon := match SMap.get none g.rm.keyAt r with
    | some t => decide (g.nowNs < t + 1000000)
    | none => false
  if soon then (g.bump Reg.RM_MR_REFUSED 1).event 0x0336 28 [word r]
  else
    let a := Reg.RM_MR_ATTR r
    let g1 := g.wr a (putFld (g.rd a) 32 8 ((g.mrGen r + 1) % 256))
    { g1 with rm := { g1.rm with keyAt := SMap.put none g1.rm.keyAt r (some g1.nowNs) } }

end Sys2Proof.Machine
end

