-- ==== Sys2Proof/Machine/RegOps.lean ====
section
/-! DEFINITION. Registers that show more than they store, or start something when they are written (R14, R256, R273, R358, R474). -/

namespace Sys2Proof.Machine

/-! ### Writes that the hardware refuses firmware (R474) -/

/-- A write of the management processor that the hardware refuses is counted, and told once per tick. -/
def Glexon.authRefused (g : Glexon) (a : Nat) : Glexon :=
  let g1 := g.bump Reg.MG_AUTH_REFUSED 1
  if g.tk.ticking then
    let (n, first) := g.mg.auth
    { g1 with mg := { g1.mg with auth := (n + 1, if n = 0 then a else first) } }
  else g1.event 0x0708 31 [word a, 1]

/-! ### Audit, scoring and cores (R256, R292, R358) -/

/-- AU_STAT: tiles in staging, and MiB in use. -/
def Glexon.auStat (g : Glexon) : Word := word (g.au.tiles.length * 2 ^ 32 + (g.stageUse + 2 ^ 20 - 1) / 2 ^ 20)

/-- The scoring state changed. -/
def Glexon.modEs (g : Glexon) (f : Scoring → Scoring) : Glexon := { g with es := f g.es }

/-- A write of an index to AU_PROF_CHECK starts a check (R273). -/
def Glexon.profCheck (g : Glexon) (i : Nat) : Glexon :=
  { g with au := { g.au with check := some i } }.wr Reg.AU_PROF_RESULT (word (i * 256))

/-- A model slot. -/
def Glexon.modelSlot (g : Glexon) (k : Nat) : ModelSlot := SMap.get {} g.es.models k

/-- A model slot replaced, and its status register formed. -/
def Glexon.setSlot (g : Glexon) (k : Nat) (s : ModelSlot) (code : Nat) : Glexon :=
  let g1 := g.modEs fun e => { e with models := SMap.put {} e.models k s }
  let id := match s.live with
    | some m => m.id
    | none => 0
  g1.wr (Reg.ES_MODEL_STAT k)
    (word (s.live.isSome.toNat * 2 ^ 63 + s.check.isSome.toNat * 2 ^ 62 + id * 2 ^ 16 + code % 256))

/-- MODEL_CHECK (R358): a write of ES_MODEL_ADDR_k starts a check of the image there. -/
def Glexon.modelCheck (g : Glexon) (k : Nat) (addr : Word) : Glexon :=
  let a := fld addr 0 48
  let g1 := g.wr (Reg.ES_MODEL_ADDR k) (word a)
  g1.setSlot k { g1.modelSlot k with check := some a } (fld (g1.rd (Reg.ES_MODEL_STAT k)) 0 8)

/-- A write of MC_WITHDRAW_REQ or MC_RESTORE_REQ (R256, R263): agent 31 alone sets bits; others are counted. -/
def Glexon.coreRequest (g : Glexon) (reg agent : Nat) (mask : BitVec 24) : Glexon :=
  if agent = 31 then g.wr reg (g.rd reg ||| BitVec.setWidth 64 mask) else g.bump Reg.MC_CMD_REFUSED 1

/-! ### The management subsystem (R465, R475) -/

/-- MG_EVR_WIN_w: word `w` of the slot that the cursor maps. -/
def Glexon.evWin (g : Glexon) (w : Nat) : Word :=
  word (leAt (SMap.get [] g.mg.recs ((g.rd Reg.MG_EVR_CURSOR).toNat % 16384)) (8 * w) 8)

/-- The state of Table 17.6: 0 RUNNING, 1 NO_FIRMWARE, 3 THERMAL_HALT; a restart is one command, so 2 RESTARTING is never read.
In reset the register reads 0, its reset value. -/
def Glexon.mgState (g : Glexon) : Nat :=
  match g.mg.run with
  | .noFirmware => 1
  | .reset => 0
  | .running => if g.mg.tripped then 3 else 0

/-- The slot that runs: its bytes. -/
def Mgmt.slot (m : Mgmt) (b : Bool) : List Byte := SMap.get [] m.slots b.toNat

/-- COMMITTED of a slot. -/
def Mgmt.committed (m : Mgmt) (b : Bool) : Bool := if b then m.bootRec.commB else m.bootRec.commA

/-- SVN of a slot. -/
def Mgmt.svn (m : Mgmt) (b : Bool) : Nat := leAt (m.slot b) 16 4

/-- FW_VERSION of a slot. -/
def Mgmt.version (m : Mgmt) (b : Bool) : Nat := leAt (m.slot b) 8 8

/-- MG_STATUS. -/
def Glexon.mgStatus (g : Glexon) : Word := word (g.mg.ready.toNat * 2 ^ 63 + g.mg.tripped.toNat * 2 ^ 62 + g.mgState)

/-- MG_FW_INFO. -/
def Glexon.fwInfo (g : Glexon) : Word :=
  let m := g.mg
  let b := m.slotB
  if m.run = .running then
    word (b.toNat * 2 ^ 63 + (m.committed b).toNat * 2 ^ 62 + m.bootRec.tries % 16 * 2 ^ 48 + m.fuses % 128 * 2 ^ 40
      + m.svn b % 128 * 2 ^ 32 + m.version b % 2 ^ 32)
  else word (m.fuses % 128 * 2 ^ 40)

end Sys2Proof.Machine
end

