-- ==== Sys2Proof/Machine/Csr.lean ====
section
/-! DEFINITION. Reads and writes of the Glexon's registers by an agent (R14, R16, R178 to R181, R216): by access code, with the
registers that show more than they store, and those that start something. -/

namespace Sys2Proof.Machine

/-- Is `a` one of `n` registers from `base` at stride `st`? -/
def among (base n st a : Nat) : Bool := decide (base ≤ a) && decide (a < base + n * st) && decide ((a - base) % st = 0)

/-! ### Reads -/

/-- TK_STATE (Table 2.8). -/
def Glexon.tkState (g : Glexon) : Word := word (g.stateByte.toNat + g.tk.ppsOk.toNat * 64 + g.tk.refOk.toNat * 128)

/-- A capture FIFO's status: MISS, UNDERRUN, COUNT. -/
def CaptFifo.stat (f : CaptFifo) : Word := word (f.miss * 2 ^ 32 + f.under.toNat * 256 + f.words.length)

/-- MC_CORE_STAT_n (Table 7.17). -/
def Glexon.coreStat (g : Glexon) (n : Nat) : Word :=
  let k := g.core n
  word ((g.rd (Reg.MC_CORE_STAT n)).toNat
    + (decide (k.phase = .dozing)).toNat * 8 + (g.withdrawn n).toNat * 4 + (bit g.abortMask n).toNat * 2
    + (decide (k.phase = .issuing)).toNat)

/-- RM_QP_STAT_q. -/
def Qp.stat (x : Qp) : Word :=
  word (x.base * 2 ^ 40 + x.nextPsn * 2 ^ 16 + satN 8 x.ops.length * 256 + satN 8 (x.asm.filter fun m => !m.fail).length)

/-- What a read of the register at `a` shows. -/
def Glexon.view (g : Glexon) (a : Nat) : Word :=
  if a = Reg.TK_STATE then g.tkState
  else if a = Reg.TK_NOW_SEC then word (secOf g.tk.clk)
  else if a = Reg.TK_OFFSET then BitVec.ofInt 64 g.tk.offset
  else if a = Reg.TK_MEANPATH then BitVec.ofInt 64 g.tk.meanPath
  else if a = Reg.TK_EPOCH_SEC then word (g.tk.epoch / 1000000000)
  else if a = Reg.TK_EPOCH_NS then word (g.tk.epoch % 1000000000)
  else if a = Reg.TK_PERIOD then word g.tk.period
  else if a = Reg.TK_TICKNO then g.tk.tickNo
  else if a = Reg.TK_PCHG then g.tk.pchg
  else if among (Reg.TK_CAPT_STAT 0) 4 8 a then (SMap.get {} g.tk.capt ((a - Reg.TK_CAPT_STAT 0) / 8)).stat
  else if among 0x80100000 512 8 a then
    let p := (a - 0x80100000) / 64
    if p % 2 = 1 ∧ g.tpPair (p - 1) then 0 else if a = Reg.TP_PORT_STAT p then g.portStat p else g.rd a
  else if among (Reg.MC_CORE_STAT 0) 24 64 a then g.coreStat ((a - Reg.MC_CORE_STAT 0) / 64)
  else if a = Reg.AU_STAT then g.auStat
  else if a = Reg.ES_CTRL then putBit (g.rd a) 62 g.es.inv
  else if a = Reg.TS_CMD_COUNT then word g.ts.fifo.length
  else if among (Reg.RM_QP_STAT 0) 4096 32 a then (g.qp ((a - Reg.RM_QP_STAT 0) / 32)).stat
  else if among (Reg.RM_QP_CCST 0) 4096 32 a then
    let q := (a - Reg.RM_QP_CCST 0) / 32
    if g.qpState q = 0 then 0 else word ((g.qp q).w * 2 ^ 32 + satN 32 (g.qp q).srtt)
  else if a = Reg.MG_STATUS then g.mgStatus
  else if a = Reg.MG_FW_INFO then g.fwInfo
  else if among (Reg.MG_EVR_WIN 0) 8 8 a then g.evWin ((a - Reg.MG_EVR_WIN 0) / 8)
  else if a = Reg.OB_STAT then word ((g.rd a).toNat + satN 15 (g.ob.part.length + (g.ob.out.map List.length).sum))
  else if a = Reg.OB_TRC_LOST then satFld (g.rd a) 32 32 (g.trc.map fun e => e.2.lost).sum
  else
    match regFind gxRegFams a with
    | some f => if f.acc = .wo then 0 else if f.acc = .rwt then g.rwtRd a else g.rd a
    | none => 0

/-- What an agent reads at a CSR address, and the Glexon after the read: TK_NOW_SEC latches TK_NOW_SUB (R50), TK_CAPT_DATA pops a
word (R71). -/
def Glexon.csrRead (g : Glexon) (_agent : Nat) (a : Nat) : Word × Glexon :=
  if a = Reg.TK_NOW_SEC then (g.view a, g.wr Reg.TK_NOW_SUB (word (subOf g.tk.clk)))
  else if among (Reg.TK_CAPT_DATA 0) 4 16 a then
    let g1 := g.captRead ((a - Reg.TK_CAPT_DATA 0) / 16)
    (g1.rdData, g1)
  else (g.view a, g)

/-! ### Writes -/

/-- A write by the access code alone. -/
def Glexon.plainWrite (g : Glexon) (a : Nat) (v : Word) : Glexon :=
  match regFind gxRegFams a with
  | some f =>
    match f.acc with
    | .rw => g.wr a (g.maskW a v)
    | .rwt => g.rwtPut a v
    | .w1c => g.wr a (g.rd a &&& ~~~(v &&& f.cmask))
    | .row1c => g.wr a (g.rd a &&& ~~~(v &&& f.cmask))
    | .w1s => g.wr a (g.rd a ||| (v &&& f.smask))
    | .ro => g
    | .wo => g
  | none => g

/-- A write of TK_STEP (R51): at once, or refused with STEP_REFUSED while ticking. -/
def Glexon.writeStep (g : Glexon) (agent : Nat) (v : Word) : Glexon :=
  if g.tk.ticking then
    let g1 := g.event 0x010A 34 [v]
    if agent = 31 then g1.authRefused Reg.TK_STEP else g1
  else { g with tk := g.tk.step v.toInt }

/-- A write of TK_SLEW (R51). -/
def Glexon.writeSlew (g : Glexon) (v : Word) : Glexon := { g with tk := { g.tk with slew := v.toInt * (nsUnit : Int) } }

/-- A write of RM_BOOT_CTRL (R436): START begins the load, unless one runs. -/
def Glexon.writeBootCtrl (g : Glexon) (v : Word) : Glexon :=
  if bit v 63 then (if g.rm.boot.busy then g else g.bootMap) else g.wr Reg.RM_BOOT_CTRL (v &&& 15)

/-- A write of TS_ROLE_PORT: the Amber paths of an active slot whose port changes move with it (R421, R509). -/
def Glexon.writeRolePort (g : Glexon) (v : Word) : Glexon :=
  let g1 := g.plainWrite Reg.TS_ROLE_PORT v
  (List.range 4).foldl (fun (h : Glexon) k =>
    if g.roleOn k ∧ g.rolePort k ≠ g1.rolePort k then
      (h.event 0x0548 31 [word k, word (g.rolePort k), word (g1.rolePort k)]) else h) g1

/-- The Glexon after an agent writes a register outside the MG block. -/
def Glexon.csrWrite (g : Glexon) (agent : Nat) (a : Nat) (v : Word) : Glexon :=
  if a = Reg.TK_CFG then g.writeTkCfg v
  else if a = Reg.TK_ADDEND then (if g.servoEn then g else g.setAddend (fld v 0 40))
  else if a = Reg.TK_STEP then g.writeStep agent v
  else if a = Reg.TK_SLEW then g.writeSlew v
  else if among (Reg.TK_CMP_CFG 0) 16 16 a then g.writeCmpCfg ((a - Reg.TK_CMP_CFG 0) / 16) v
  else if among (Reg.TK_CAPT_STAT 0) 4 8 a then
    let j := (a - Reg.TK_CAPT_STAT 0) / 8
    if bit v 8 then { g with tk := { g.tk with capt := SMap.mod {} g.tk.capt j fun f => { f with under := false } } } else g
  else if among (Reg.TP_PORT_CFG 0) 64 64 a then g.portCfgWrite ((a - Reg.TP_PORT_CFG 0) / 64) v
  else if a = Reg.ID_GLEXON_INDEX then
    (if (List.range 4).any fun k => bit (g.rd (Reg.RE_ROLE_CFG k)) 63 || g.roleSet k then g else g.plainWrite a v)
  else if a = Reg.AU_PROF_CHECK then g.profCheck (fld v 0 8)
  else if a = Reg.AU_CTRL ∨ a = Reg.AU_STAGE_BASE ∨ a = Reg.AU_STAGE_END then (g.plainWrite a v).siennaRelease
  else if a = Reg.ES_CTRL then
    let g1 := g.plainWrite a v
    if bit v 62 then g1.modEs fun e => { e with inv := true } else g1
  else if among (Reg.ES_MODEL_ADDR 0) 16 16 a then g.modelCheck ((a - Reg.ES_MODEL_ADDR 0) / 16) v
  else if a = Reg.MC_WITHDRAW_REQ ∨ a = Reg.MC_RESTORE_REQ then g.coreRequest a agent (BitVec.setWidth 24 v)
  else if a = Reg.TS_ROLE_PORT then g.writeRolePort v
  else if a = Reg.RM_POST then (if agent = 31 then g.rmPost (fld v 0 48) else g)
  else if a = Reg.RM_MR_REKEY then g.rekey (fld v 0 14)
  else if a = Reg.RM_BOOT_CTRL then g.writeBootCtrl v
  else if among (Reg.RM_QP_CFG 0) 4096 32 a then g.qpCfgWrite ((a - Reg.RM_QP_CFG 0) / 32) v
  else if among (Reg.RM_MR_ATTR 0) 16384 32 a then g.mrAttr ((a - Reg.RM_MR_ATTR 0) / 32) v
  else g.plainWrite a v

end Sys2Proof.Machine
end

