-- ==== Sys2Proof/Machine/CoreOps.lean ====
section
/-! DEFINITION. Shared operations of the cores (chapters 7 and 8): aborts and the end-of-tick barrier, far accesses, and the
opening and closing of bundles. -/

namespace Sys2Proof.Machine

/-! ### Aborts, and the barrier (R226 to R230, R253) -/

/-- Abort causes (Table 7.15). -/
def cILLEGAL : Nat := 1
/-- SLOT. -/
def cSLOT : Nat := 2
/-- BUNDLE_RANGE. -/
def cRANGE : Nat := 3
/-- ADDRESS. -/
def cADDRESS : Nat := 4
/-- SCOPE. -/
def cSCOPE : Nat := 5
/-- ALIGN. -/
def cALIGN : Nat := 6
/-- POISON. -/
def cPOISON : Nat := 7
/-- ENGINE_WINDOW. -/
def cWINDOW : Nat := 8
/-- OPERAND. -/
def cOPERAND : Nat := 9
/-- ENGINE. -/
def cENGINE : Nat := 10
/-- DEADLINE. -/
def cDEADLINE : Nat := 16

/-- Every core of the barrier set has joined, and there is one: all doze, and MC_TICK_DONE records the cycle (R253). -/
def Glexon.barrier (g : Glexon) (cyc : Nat) : Glexon :=
  let set := g.cores.filter fun (_, k) => k.inSet
  if set ≠ [] ∧ set.all (fun (_, k) => decide (k.phase = .joined)) then
    let g1 : Glexon := set.foldl (fun (h : Glexon) (e : Nat × Core) =>
      let h1 := h.setCore e.1 { e.2 with phase := .dozing, inSet := false }
      let h2 := h1.bumpFld (Reg.MC_CORE_STAT e.1) 32 32 1
      h2.trcDoze e.1 (h2.pulse + cyc)) g
    g1.wr Reg.MC_TICK_DONE (word (g.tk.tickNo.toNat % 2 ^ 32 * 2 ^ 32 + cyc % 2 ^ 32))
  else g

/-- The roles to which the role map assigns work on a core of a mask (R228): their output of the tick carries PARTIAL. -/
def Glexon.rolesPart (g : Glexon) (mask : Nat) : Glexon :=
  (List.range 4).foldl (fun (h : Glexon) k =>
    if SMap.get 0 g.variant.roleMap k &&& mask = 0 then h else h.modRole k fun t => { t with part := true }) g

/-- An abort's mark on the chip: ABORTMASK, the status registers of Table 7.16, the event and the trace packets. -/
def Glexon.abortCore (g : Glexon) (n cause slot pc cyc : Nat) (addr : Option Nat) (sub : Nat) : Glexon :=
  let tick := g.tk.tickNo
  let g1 := g.modCore n fun k => { k with phase := .aborted, wait := .none, isOpen := false, inSet := false }
  let g2 := ({ g1 with abortMask := g1.abortMask ||| BitVec.ofNat 24 (2 ^ n) }).rolesPart (2 ^ n)
  let g3 := g2.wr (Reg.MC_CORE_STAT n) (putFld (g2.rd (Reg.MC_CORE_STAT n)) 8 8 cause)
  let g4 := g3.wr (Reg.MC_FAULT_INFO n)
    (word (cause * 2 ^ 56 + slot % 4 * 2 ^ 54 + pc % 2 ^ 14 * 2 ^ 40 + cyc % 2 ^ 32))
  let g5 := g4.wr (Reg.MC_FAULT_TICK n) tick
  let g6 := match addr with
    | some a => g5.wr (Reg.MC_FAULT_ADDR n) (word (a % 2 ^ 48))
    | none => g5
  let g7 := g6.bumpFld (Reg.MC_FAULT_CNT n) (if cause = cDEADLINE then 0 else 32) 32 1
  let g8 := if cause = cENGINE then g7.wr (Reg.MC_ENG_FAULT n) (putFld (g7.rd (Reg.MC_ENG_FAULT n)) 16 8 sub) else g7
  let g9 := if cause = cDEADLINE then g8
    else g8.event 0x0501 n [word n, word cause, word slot, word pc, word cyc]
  ((g9.count 1 n 6 1).trcAbort n cause pc (g9.pulse + cyc)).barrier cyc

/-! ### Far accesses (R214 to R217) -/

/-- The cause for which a far access fails when it returns, or 0: an unmapped address, a reach that R216 forbids, or
poisoned data. -/
def Glexon.farCause (g : Glexon) (f : FarAccess) : Nat :=
  let n := match f.kind with
    | .load n _ => n
    | _ => 8
  match addrKind f.addr, f.kind with
  | .none, _ => cADDRESS
  | .csr, .load 8 _ => 0
  | .csr, _ => cSCOPE
  | _, _ => if g.poisoned f.addr n then cPOISON else 0

/-- A far access is performed at its address: the value that its register takes, and the Glexon. -/
def Glexon.performFar (g : Glexon) (n : Nat) (f : FarAccess) : Word × Glexon :=
  match f.kind with
  | .load w signed =>
    if addrKind f.addr = .csr then g.csrRead n f.addr
    else
      let (l, g1) := g.busRead none f.addr w
      (if signed then word (wrapI 64 (sextN (8 * w) (leNat l))) else word (leNat l), g1)
  | .add v =>
    let (l, g1) := g.busRead none f.addr 8
    let old := leNat l
    (word old, g1.busWrite none f.addr (leBytes 8 (old + v.toNat)))
  | .cas v c =>
    let (l, g1) := g.busRead none f.addr 8
    let old := word (leNat l)
    (old, if old = c then g1.busWrite none f.addr (leBytes 8 v.toNat) else g1)

/-- Performs the outstanding far accesses of core `n` at the places before `upTo` that share a byte with the `len` bytes at
`a` and have not been performed: one core's accesses to the same bytes keep their order (R249). -/
def Glexon.performEarlier (g : Glexon) (n upTo a len : Nat) : Glexon :=
  (List.range upTo).foldl (fun (h : Glexon) i =>
    match (h.core n).far[i]? with
    | some f =>
      if f.got = none ∧ overlap f.addr 8 a len ∧ h.farCause f = 0 then
        let (v, h1) := h.performFar n f
        h1.modCore n fun k => { k with far := k.far.set i { f with got := some v } }
      else h
    | none => h) g

/-- A far atomic that has not been performed. -/
def FarAccess.due (f : FarAccess) : Bool :=
  match f.kind with
  | .load _ _ => false
  | _ => f.got.isNone

/-- Performs the outstanding far atomics of core `n`, each after the earlier accesses to its bytes (R249). -/
def Glexon.performAtomics (g : Glexon) (n : Nat) : Glexon :=
  (List.range (g.core n).far.length).foldl (fun (h : Glexon) i =>
    match (h.core n).far[i]? with
    | some f => if f.due then h.performEarlier n (i + 1) f.addr 8 else h
    | none => h) g

/-- Core `n` stores bytes at an address that its checks have passed: memory, or a CSR register. -/
def Glexon.coreStore (g : Glexon) (n a : Nat) (l : List Byte) : Glexon :=
  match addrKind a with
  | .csr => g.csrWrite n a (word (leNat l))
  | .none => g
  | _ => (g.performEarlier n (g.core n).far.length a l.length).busWrite none a l

/-- A result of core `n` takes effect. -/
def Glexon.land (g : Glexon) (n : Nat) (f : Flight) : Glexon :=
  match f.eff with
  | .g r v => g.modCore n fun k => k.setG r v
  | .v r v m => g.modCore n fun k => k.setV r v m
  | .p r v m => g.modCore n fun k => k.setP r v m
  | .fpstat v => g.modCore n fun k => { k with fpstat := v }
  | .flags x => g.modCore n fun k => { k with fpstat := k.fpstat ||| word x }
  | .store segs => segs.foldl (fun h s => h.coreStore n s.1 s.2) g
  | .far a => g.modCore n fun k => { k with far := k.far ++ [a] }
  | .amo a =>
    let (v, g1) := g.performFar n a
    g1.modCore n fun k =>
      { k with flight := insFlight { due := f.sent + 6, sent := f.sent, slot := f.slot, eff := .g a.reg v } k.flight }

/-- The results of core `n` that are visible by cycle `cyc` take effect, in order. -/
def Glexon.advance (g : Glexon) (n cyc : Nat) : Glexon :=
  let go : Glexon → Glexon := fun h =>
    let k := h.core n
    (k.flight.filter (fun f => f.due ≤ cyc)).foldl (fun x f => x.land n f)
      (h.setCore n { k with flight := k.flight.filter fun f => cyc < f.due })
  go (go g)

/-! ### Bundles (R192 to R197) -/

/-- Are slots `lo` and up, below `hi`, of the bundle at `pc` NOP? -/
def Glexon.nops (g : Glexon) (n pc lo hi : Nat) : Bool :=
  (List.range 4).all fun s => !(decide (lo ≤ s) && decide (s < hi)) || g.slotWord n pc s == 0

/-- The open bundle of core `n` is complete: its results move on to the next cycle. -/
def Glexon.closeBundle (g : Glexon) (n : Nat) : Glexon :=
  let k := g.core n
  if k.isOpen then
    ((((g.count 1 n 0 1).count 1 n 1 1).modCore n fun k => { k with isOpen := false }).advance n (k.cyc + 1))
  else g

/-- Closes the open bundle if all its slots have issued. -/
def Glexon.settle (g : Glexon) (n : Nat) : Glexon :=
  let k := g.core n
  if k.isOpen ∧ g.nops n k.pc k.next 4 then g.closeBundle n else g

/-- A fault of a slot at issue: no slot of the open bundle takes effect (R226), and the core aborts. -/
def Glexon.faultAt (g : Glexon) (n cause slot : Nat) (addr : Option Nat) (sub : Nat) : Glexon :=
  let k := g.core n
  let g1 := g.setCore n { k with flight := k.flight.filter fun f => f.sent ≠ k.cyc }
  let g2 := match k.undo with
    | some t => (g1.setSrc n t).trcIssue n k.pc (g1.pulse + k.cyc)
    | none => g1
  g2.abortCore n cause slot k.pc k.cyc addr sub

/-- The open bundle waits: nothing of it has issued, and it is given again when the wait ends (R197, R215). -/
def Glexon.holdBundle (g : Glexon) (n : Nat) (w : Wait) : Glexon :=
  let k := g.core n
  let g1 := g.setCore n { k with flight := k.flight.filter (fun f => f.sent ≠ k.cyc), isOpen := false, wait := w,
                                 npc := k.pc, ncyc := k.cyc, undo := none }
  match k.undo with
  | some t => g1.setSrc n t
  | none => g1

/-- The engine operations and far accesses of core `n` that are outstanding at TDEAD are cancelled, and what they would have
written in the core's own SRAM and tiles is left unspecified (R227). Its tags are idle. -/
def Glexon.cancelOps (g1 : Glexon) (n : Nat) : Glexon :=
  let k := g1.core n
  let lost : List (Nat × Nat) := k.ops.flatMap fun o => o.writes.filter fun r => addrKind r.1 = .sram n
  let g2 : Glexon := lost.foldl (fun (h : Glexon) r => let (f, h1) := h.fresh; h1.memPut r.1 (freeBytes f r.2)) g1
  let (f, g3) := g2.fresh
  let drop (o : RmOp) : Bool := match o.owner with
    | .core m _ => m == n && decide (o.code ≠ 1)
    | _ => false
  let qps := g3.rm.qps.foldl (fun (m : SMap Qp) e => SMap.put {} m e.1 { e.2 with ops := e.2.ops.filter fun o => !drop o }) g3.rm.qps
  let g4 : Glexon := { g3 with rm := { g3.rm with qps := qps } }
  g4.setCore n { k with ops := [], far := [], tags := [], tiles := k.ops.foldl (fun m o => o.loseTile k.tileGen m f) k.tiles }

/-- A core that still works at TDEAD aborts with cause DEADLINE (R202, R226), its outstanding operations cancelled. -/
def Glexon.deadlineAbort (g : Glexon) (n : Nat) : Glexon :=
  let g1 := (g.closeBundle n).advance n g.tdead
  (g1.cancelOps n).abortCore n cDEADLINE 0 (g1.core n).npc g.tdead none 0

/-- Opens the next bundle of core `n`, or finds that it may not issue: past the deadline, or past the program. -/
def Glexon.openBundle (g : Glexon) (n : Nat) : Glexon :=
  let g1 := g.closeBundle n
  let k1 := g1.core n
  if g.tdead ≤ k1.ncyc then g1.deadlineAbort n
  else
    let g2 := g1.advance n k1.ncyc
    let k := g2.core n
    if g.progLen n ≤ k.npc then g2.abortCore n cRANGE 0 k.npc k.ncyc none 0
    else
      (g2.setCore n { k with pc := k.npc, cyc := k.ncyc, npc := k.npc + 1, ncyc := k.ncyc + 1, isOpen := true, next := 0,
                             undo := some (g2.src n) }).trcIssue n k.npc (g2.pulse + k.ncyc)

end Sys2Proof.Machine
end

