-- ==== Sys2Proof/Machine/Operands.lean ====
section
/-! DEFINITION. The operand forms of the tick instruction set (Tables 7.2, 7.3, 7.8 to 7.14, 8.1): which fields an opcode
uses and how, what makes a slot illegal, and how a slot issues. -/

namespace Sys2Proof.Machine

/-- How an opcode uses a register field. -/
inductive Fld where
  | unused
  | g
  | v
  /-- a predicate in bits [2:0] -/
  | p
  /-- a tile in bits [2:0] -/
  | tile
  /-- a predicate selector (R203) under which the instruction executes or not -/
  | pred
  /-- a predicate selector read as data -/
  | sel
  deriving DecidableEq, Repr

/-- An opcode's form: OP, the mask of its permitted slots, its fields, the IMM bits it uses, and the IMM bits (mask and
value) that tell it from other operations of the same OP. -/
structure Form where
  op    : Nat
  slots : Nat
  d     : Fld := .unused
  a     : Fld := .unused
  b     : Fld := .unused
  c     : Fld := .pred
  imm   : Nat := 0
  keyM  : Nat := 0
  keyV  : Nat := 0
  /-- the mask governs lanes (R204) -/
  lanes : Bool := false
  deriving DecidableEq, Repr

/-- May the field hold the value (R193, R203)? -/
def Fld.legal (f : Fld) (x : BitVec 6) : Bool :=
  match f with
  | .unused => x == 0
  | .g => decide (x.toNat < 32)
  | .v => decide (x.toNat < 32)
  | .p => decide (x.toNat < 8)
  | .tile => decide (x.toNat < 8)
  | .pred => decide (x.toNat < 16)
  | .sel => decide (x.toNat < 16)

/-- The `g` register that a field names, if it names one. -/
def Fld.names (f : Fld) (x : BitVec 6) : List Nat :=
  match f with
  | .g => [x.toNat % 32]
  | _ => []

/-- Are the fields of a slot legal under a form (R193)? -/
def Form.legal (f : Form) (o : SlotOp) : Bool :=
  f.d.legal o.d && f.a.legal o.a && f.b.legal o.b && f.c.legal o.c && (o.imm.toNat &&& f.imm) == o.imm.toNat

/-- The 64-bit word of a slot (Table 7.2). -/
def slotBits (o : SlotOp) (op : Nat) : Word :=
  word (op * 2 ^ 56 + o.d.toNat * 2 ^ 50 + o.a.toNat * 2 ^ 44 + o.b.toNat * 2 ^ 38 + o.c.toNat * 2 ^ 32
    + o.imm.toNat)

/-- A slot as it issues: the Glexon, its core's number and state with the bundle open, its fields, and the governing
mask. -/
structure Slot where
  gx   : Glexon
  n    : Nat
  k    : Core
  o    : SlotOp
  mask : BitVec 32
  deriving DecidableEq, Repr

/-- What a slot does at issue: it changes the core, or the chip (with the core in
it, or beside it, the core's outstanding operations then being those on the chip, which an access may have marked); it faults with
a cause, an effective address and a subcode; or its bundle waits. -/
inductive SlotRes where
  | core (k : Core)
  | chip (g : Glexon)
  | both (g : Glexon) (k : Core)
  | fault (cause : Nat) (addr : Option Nat) (sub : Nat)
  | hold (w : Wait)
  deriving DecidableEq, Repr

/-- Sign-extended IMM. -/
def immSext (o : SlotOp) : Word := BitVec.signExtend 64 o.imm
/-- Zero-extended IMM. -/
def immZext (o : SlotOp) : Word := BitVec.setWidth 64 o.imm

/-- Source `ga`. -/
def Slot.ga (s : Slot) : Word := s.k.rg s.o.a.toNat
/-- Source `gb`. -/
def Slot.gb (s : Slot) : Word := s.k.rg s.o.b.toNat
/-- Source `gc`. -/
def Slot.gc (s : Slot) : Word := s.k.rg s.o.c.toNat
/-- Source `va`. -/
def Slot.va (s : Slot) : VReg := s.k.rv s.o.a.toNat
/-- Source `vb`. -/
def Slot.vb (s : Slot) : VReg := s.k.rv s.o.b.toNat
/-- Source `vc`. -/
def Slot.vc (s : Slot) : VReg := s.k.rv s.o.c.toNat
/-- Source `pa`. -/
def Slot.pa (s : Slot) : BitVec 32 := s.k.rp s.o.a.toNat
/-- Source `pb`. -/
def Slot.pb (s : Slot) : BitVec 32 := s.k.rp s.o.b.toNat
/-- The effective address ga + sext(imm) (R211). -/
def Slot.ea (s : Slot) : Nat := (s.ga + immSext s.o).toNat

/-- The core sends a result of this slot with latency `lat`. -/
def Slot.send (s : Slot) (lat : Nat) (e : Effect) : Core := s.k.send s.o.slot.toNat lat e

/-- gd := v with latency `lat`. -/
def Slot.toG (s : Slot) (lat : Nat) (v : Word) : SlotRes := .core (s.send lat (.g s.o.d.toNat v))

/-- pd := v in every bit, with latency 1. -/
def Slot.toP (s : Slot) (v : BitVec 32) : SlotRes := .core (s.send 1 (.p s.o.d.toNat v (BitVec.allOnes 32)))

/-- Registers that await far loads (R215). -/
def Core.awaited (k : Core) : List Nat := (k.far.map fun f => f.reg).filter fun r => r ≠ 0

/-- Carries out what a slot does. -/
def Glexon.finish (g : Glexon) (n : Nat) (o : SlotOp) (r : SlotRes) : Glexon :=
  let mark : Core → Core := fun k => { k with next := o.slot.toNat + 1 }
  match r with
  | .core k => g.setCore n (mark k)
  | .chip h => h.modCore n mark
  | .both h k => h.setCore n { mark k with ops := (h.core n).ops }
  | .fault c a sub => g.faultAt n c o.slot.toNat a sub
  | .hold w => g.holdBundle n w

/-- The slot's fields name registers that await far loads. -/
def Form.blocked (f : Form) (k : Core) (o : SlotOp) : List Nat :=
  (f.d.names o.d ++ f.a.names o.a ++ f.b.names o.b ++ f.c.names o.c).filter fun r => k.awaited.contains r

/-- A slot of the open bundle issues (R193 to R205, R226): it waits for registers that it names, it faults if it is not
legal, it does nothing if its predicate is false, and otherwise does what its opcode does. -/
def Glexon.issueSlot (g : Glexon) (f : Form) (o : SlotOp) (sem : Slot → SlotRes) : Glexon :=
  let n := o.core.toNat
  let k := g.core n
  let mask := match f.c with
    | .pred => k.mask o.c
    | .sel => k.mask o.c
    | _ => BitVec.allOnes 32
  let runs := match f.c with
    | .pred => if f.lanes then mask != 0 else bit mask 0
    | _ => true
  let res : SlotRes :=
    if f.blocked k o ≠ [] then .hold (.farLoad (f.blocked k o))
    else if f.slots.testBit o.slot.toNat = false then .fault cSLOT none 0
    else if f.c.legal o.c = false then .fault cILLEGAL none 0
    else if runs = false then .core k
    else if f.legal o = false then .fault cILLEGAL none 0
    else sem { gx := g, n := n, k := k, o := o, mask := mask }
  g.finish n o res

/-- Is the command a slot of the program at this point: the core is issuing, the slot is the next of its bundle that is
not NOP, and the bundle store holds this word there? (Past the program any slot stands for the issue that faults, R210.) -/
def Glexon.fetches (g : Glexon) (f : Form) (o : SlotOp) : Bool :=
  let n := o.core.toNat
  let k := g.core n
  let s := o.slot.toNat
  decide (n < 24) && decide (k.phase = .issuing) && decide (k.wait = .none)
  && decide (o.imm.toNat &&& f.keyM = f.keyV)
  && (if o.first then (!k.isOpen || g.nops n k.pc k.next 4) && g.nops n k.npc 0 s
        && (decide (g.slotWord n k.npc s = slotBits o f.op) || decide (g.progLen n ≤ k.npc))
      else k.isOpen && decide (k.next ≤ s) && g.nops n k.pc k.next s && decide (g.slotWord n k.pc s = slotBits o f.op))

/-- A slot of a core's program issues. The first slot of a bundle opens it, which may find the deadline or the end of the
program. A command that is not what the program holds at this point has no effect. -/
def Glexon.slotOp (f : Form) (sem : Slot → SlotRes) (o : SlotOp) (g : Glexon) : Glexon :=
  if g.fetches f o = false then g
  else
    let n := o.core.toNat
    let g1 := if o.first then g.openBundle n else g
    if (g1.core n).isOpen then g1.issueSlot f o sem else g1

/-- A slot command of the machine. -/
def slotCmd (f : Form) (sem : Slot → SlotRes) (o : SlotOp) (s : State) : Answer := onCore (Glexon.slotOp f sem o) s

/-! ### Forms -/

/-- S0 and S1. -/
def sl01 : Nat := 3
/-- S0. -/
def sl0 : Nat := 1
/-- S1. -/
def sl1 : Nat := 2
/-- V. -/
def slV : Nat := 4
/-- E. -/
def slE : Nat := 8

/-- gd, ga, gb under a predicate. -/
def fG3 (op : Nat) : Form := { op := op, slots := sl01, d := .g, a := .g, b := .g }
/-- gd, ga, imm under a predicate. -/
def fGI (op imm : Nat) : Form := { op := op, slots := sl01, d := .g, a := .g, imm := imm }
/-- gd, ga under a predicate. -/
def fG2 (op : Nat) : Form := { op := op, slots := sl01, d := .g, a := .g }
/-- gd, ga, gb, gc. -/
def fG4 (op : Nat) : Form := { op := op, slots := sl01, d := .g, a := .g, b := .g, c := .g }
/-- pd, ga, gb under a predicate. -/
def fCmp (op : Nat) : Form := { op := op, slots := sl01, d := .p, a := .g, b := .g }
/-- pd, ga, imm under a predicate. -/
def fCmpI (op imm : Nat) : Form := { op := op, slots := sl01, d := .p, a := .g, imm := imm }
/-- pd, pa, pb under a predicate. -/
def fP3 (op : Nat) : Form := { op := op, slots := sl01, d := .p, a := .p, b := .p }
/-- All of IMM. -/
def immAll : Nat := 0xFFFFFFFF

end Sys2Proof.Machine
end

