-- ==== Sys2Proof/Machine/Scalar.lean ====
section
/-! DEFINITION. Scalar operations, compares, predicate operations, branches, loads, stores, atomics and special-register
access of the cores (R194, R200, R206 to R217; Tables 7.5 and 7.8 to 7.11), and the return of a far access. -/

namespace Sys2Proof.Machine

/-- Leading zeros, 0 to 64. -/
def clz64 (w : Word) : Nat := if w = 0 then 64 else 63 - Nat.log2 w.toNat

/-- Trailing zeros, 0 to 64. -/
def ctz64 (w : Word) : Nat := ((List.range 64).find? fun i => bit w i).getD 64

/-- A compare's result in every predicate bit (R207). -/
def allBits (b : Bool) : BitVec 32 := if b then BitVec.allOnes 32 else 0

/-- The target of a relative branch: pc + sext(imm), counted from the branch's own bundle (R208). -/
def Slot.rel (x : Slot) : Int := (x.k.pc : Int) + (immSext x.o).toInt

/-- A taken branch: its target issues three cycles later, if it lies in the program (R209, R210). -/
def Slot.jump (x : Slot) (k : Core) (target : Int) : SlotRes :=
  if 0 ≤ target ∧ target < x.gx.progLen x.n then
    .chip ((x.gx.setCore x.n { k with npc := target.toNat, ncyc := k.cyc + 3 }).trcBranch x.n target.toNat
      (x.gx.pulse + k.cyc))
  else .fault cRANGE none 0

/-- The special register with a code (Table 7.5). -/
def Glexon.special (g : Glexon) (n : Nat) (k : Core) (code : Nat) : Option Word :=
  match code with
  | 0x000 => some g.tk.tickNo
  | 0x001 => some (word k.cyc)
  | 0x002 => some (word g.tdead)
  | 0x003 => some (word g.tk.period)
  | 0x004 => some (word n)
  | 0x005 => some (g.rd Reg.ID_GLEXON_INDEX &&& 0x8000000000003FFF)
  | 0x006 => some (word (bitsToNat ((List.range 4).map g.roleActive)))
  | 0x007 => some (word k.entry)
  | 0x008 => some (g.rd Reg.MC_VARIANT &&& 0x1F)
  | 0x009 => some k.lineMask
  | 0x00A => some (BitVec.setWidth 64 g.abortMask)
  | 0x00B => some (BitVec.setWidth 64 (g.shortAt g.tk.tickNo))
  | 0x00C => some (word (g.pulse + k.cyc))
  | 0x00D => some (word k.stall)
  | 0x00E => some k.fpstat
  | _ => none

/-- Does the address lie in core `n`'s own window (R213)? -/
def ownWindow (n a : Nat) : Bool :=
  decide (0x10000000 + n * 0x1000000 ≤ a) && decide (a < 0x10000000 + (n + 1) * 0x1000000)

/-- The MG or ID block (R216). -/
def mgOrId (a : Nat) : Bool := decide (0x80E00000 ≤ a) && decide (a < 0x81000000)

/-- A far load or atomic leaves: it takes one of the eight far-load places, or the bundle waits (R215). -/
def Slot.far (x : Slot) (a : Nat) (kind : FarKind) : SlotRes :=
  if 8 ≤ x.k.far.length then .hold .farPlace
  else .core (x.send 1 (.far { reg := x.o.d.toNat, addr := a, kind := kind, pc := x.k.pc }))

/-- A load of `w` bytes (R211, R213, R215). -/
def Slot.load (x : Slot) (w : Nat) (signed : Bool) : SlotRes :=
  let a := x.ea
  if a % w ≠ 0 then .fault cALIGN (some a) 0
  else if ownWindow x.n a then
    if isMem a = false then .fault cADDRESS (some a) 0
    else if x.gx.poisoned a w then .fault cPOISON (some a) 0
    else
      let r := x.gx.performFar x.n { reg := x.o.d.toNat, addr := a, kind := .load w signed, pc := x.k.pc }
      .both r.2 (x.send 4 (.g x.o.d.toNat r.1))
  else x.far a (.load w signed)

/-- A store of the low `w` bytes of gb (R211 to R214, R216). -/
def Slot.store (x : Slot) (w : Nat) : SlotRes :=
  let a := x.ea
  if a % w ≠ 0 then .fault cALIGN (some a) 0
  else
    match addrKind a with
    | .none => .fault cADDRESS (some a) 0
    | .csr =>
      if w ≠ 8 ∨ mgOrId a then .fault cSCOPE (some a) 0
      else .core (x.send 1 (.store [(a, leBytes 8 x.gb.toNat)]))
    | _ => .core (x.send 1 (.store [(a, leBytes w x.gb.toNat)]))

/-- An atomic on the 8 bytes at `a` (R211, R213, R215). -/
def Slot.amo (x : Slot) (a : Nat) (kind : FarKind) : SlotRes :=
  if a % 8 ≠ 0 then .fault cALIGN (some a) 0
  else if ownWindow x.n a then
    if isMem a = false then .fault cADDRESS (some a) 0
    else if x.gx.poisoned a 8 then .fault cPOISON (some a) 0
    else .core (x.send 1 (.amo { reg := x.o.d.toNat, addr := a, kind := kind, pc := x.k.pc }))
  else x.far a kind

/-- gd, [ga + imm] under a predicate. -/
def fLoad (op : Nat) : Form := { op := op, slots := sl1, d := .g, a := .g, imm := immAll }
/-- [ga + imm], gb under a predicate. -/
def fStore (op : Nat) : Form := { op := op, slots := sl1, a := .g, b := .g, imm := immAll }

/-- A far access of core `n` returns (R215, R217): it is performed, unless it has been, and fills its register; a fault
found on its way aborts the core, with the pc of the access. -/
def Glexon.farReturn (g : Glexon) (n place : Nat) (ecc : Ecc) : Glexon :=
  match (g.core n).far[place]? with
  | none => g
  | some f =>
    let g1 := (g.performEarlier n place f.addr 8).eccRead f.addr ecc
    let drop : Glexon → Glexon := fun h => h.modCore n fun k => { k with far := k.far.eraseIdx place }
    let cause := if g1.farCause f ≠ 0 then (if f.got = none then g1.farCause f else 0)
      else if ecc = .uncorrectable ∧ addrKind f.addr = .hbm then cPOISON else 0
    if cause ≠ 0 then
      let k := g1.core n
      if k.phase = .aborted ∨ k.phase = .dozing then drop g1
      else (drop g1).abortCore n cause 1 f.pc k.cyc (some f.addr) 0
    else
      let r := match f.got with
        | some v => (v, g1)
        | none => g1.performFar n f
      (drop r.2).modCore n fun k => k.setG f.reg r.1

/-- FAR_ACCESS_RETURN (R217): the access at a place (0 the oldest) of a core returns, with what the SEC-DED code found. -/
def execFarAccessReturn (core : BitVec 5) (place : BitVec 3) (ecc : Ecc) (s : State) : Answer :=
  onCore (fun g => g.farReturn core.toNat place.toNat ecc) s

/-- ADD: gd := ga + gb, modulo 2⁶⁴. -/
def execAdd (o : SlotOp) (s : State) : Answer :=
  slotCmd (fG3 0x01) (fun x => x.toG 1 (x.ga + x.gb)) o s

/-- SUB: gd := ga − gb. -/
def execSub (o : SlotOp) (s : State) : Answer :=
  slotCmd (fG3 0x02) (fun x => x.toG 1 (x.ga - x.gb)) o s

/-- AND. -/
def execAnd (o : SlotOp) (s : State) : Answer :=
  slotCmd (fG3 0x04) (fun x => x.toG 1 (x.ga &&& x.gb)) o s

/-- OR. -/
def execOr (o : SlotOp) (s : State) : Answer :=
  slotCmd (fG3 0x05) (fun x => x.toG 1 (x.ga ||| x.gb)) o s

/-- XOR. -/
def execXor (o : SlotOp) (s : State) : Answer :=
  slotCmd (fG3 0x06) (fun x => x.toG 1 (x.ga ^^^ x.gb)) o s

/-- SHL: shift left by gb[5:0]. -/
def execShl (o : SlotOp) (s : State) : Answer :=
  slotCmd (fG3 0x0a) (fun x => x.toG 1 (x.ga <<< fld x.gb 0 6)) o s

/-- SHR: logical right shift by gb[5:0]. -/
def execShr (o : SlotOp) (s : State) : Answer :=
  slotCmd (fG3 0x0b) (fun x => x.toG 1 (x.ga >>> fld x.gb 0 6)) o s

/-- SRA: arithmetic right shift by gb[5:0]. -/
def execSra (o : SlotOp) (s : State) : Answer :=
  slotCmd (fG3 0x0c) (fun x => x.toG 1 (x.ga.sshiftRight (fld x.gb 0 6))) o s

/-- ROR: rotate right by gb[5:0]. -/
def execRor (o : SlotOp) (s : State) : Answer :=
  slotCmd (fG3 0x0d) (fun x => x.toG 1 (x.ga.rotateRight (fld x.gb 0 6))) o s

/-- MUL: low 64 bits of the product, latency 3. -/
def execMul (o : SlotOp) (s : State) : Answer :=
  slotCmd (fG3 0x11) (fun x => x.toG 3 (x.ga * x.gb)) o s

/-- MULH.U: high 64 bits of the unsigned product. -/
def execMulhU (o : SlotOp) (s : State) : Answer :=
  slotCmd (fG3 0x12) (fun x => x.toG 3 (word (x.ga.toNat * x.gb.toNat / 2 ^ 64))) o s

/-- MULH.S: high 64 bits of the signed product. -/
def execMulhS (o : SlotOp) (s : State) : Answer :=
  slotCmd (fG3 0x13) (fun x => x.toG 3 (BitVec.ofInt 64 (x.ga.toInt * x.gb.toInt / 2 ^ 64))) o s

/-- MIN.S. -/
def execMinS (o : SlotOp) (s : State) : Answer :=
  slotCmd (fG3 0x14) (fun x => x.toG 1 (if x.gb.slt x.ga then x.gb else x.ga)) o s

/-- MIN.U. -/
def execMinU (o : SlotOp) (s : State) : Answer :=
  slotCmd (fG3 0x15) (fun x => x.toG 1 (if x.gb.ult x.ga then x.gb else x.ga)) o s

/-- MAX.S. -/
def execMaxS (o : SlotOp) (s : State) : Answer :=
  slotCmd (fG3 0x16) (fun x => x.toG 1 (if x.ga.slt x.gb then x.gb else x.ga)) o s

/-- MAX.U. -/
def execMaxU (o : SlotOp) (s : State) : Answer :=
  slotCmd (fG3 0x17) (fun x => x.toG 1 (if x.ga.ult x.gb then x.gb else x.ga)) o s

/-- ADD.I: gd := ga + sext(imm). -/
def execAddI (o : SlotOp) (s : State) : Answer :=
  slotCmd (fGI 0x03 immAll) (fun x => x.toG 1 (x.ga + immSext x.o)) o s

/-- AND.I with the zero-extended immediate. -/
def execAndI (o : SlotOp) (s : State) : Answer :=
  slotCmd (fGI 0x07 immAll) (fun x => x.toG 1 (x.ga &&& immZext x.o)) o s

/-- OR.I. -/
def execOrI (o : SlotOp) (s : State) : Answer :=
  slotCmd (fGI 0x08 immAll) (fun x => x.toG 1 (x.ga ||| immZext x.o)) o s

/-- XOR.I. -/
def execXorI (o : SlotOp) (s : State) : Answer :=
  slotCmd (fGI 0x09 immAll) (fun x => x.toG 1 (x.ga ^^^ immZext x.o)) o s

/-- SHL.I: imm[31:6] is 0. -/
def execShlI (o : SlotOp) (s : State) : Answer :=
  slotCmd (fGI 0x0e 63) (fun x => x.toG 1 (x.ga <<< x.o.imm.toNat)) o s

/-- SHR.I. -/
def execShrI (o : SlotOp) (s : State) : Answer :=
  slotCmd (fGI 0x0f 63) (fun x => x.toG 1 (x.ga >>> x.o.imm.toNat)) o s

/-- SRA.I. -/
def execSraI (o : SlotOp) (s : State) : Answer :=
  slotCmd (fGI 0x10 63) (fun x => x.toG 1 (x.ga.sshiftRight x.o.imm.toNat)) o s

/-- MOVH: gd := (imm << 32) OR ga[31:0]. -/
def execMovh (o : SlotOp) (s : State) : Answer :=
  slotCmd (fGI 0x1c immAll) (fun x => x.toG 1 ((immZext x.o <<< 32) ||| (x.ga &&& 0xFFFFFFFF))) o s

/-- CLZ. -/
def execClz (o : SlotOp) (s : State) : Answer :=
  slotCmd (fG2 0x18) (fun x => x.toG 1 (word (clz64 x.ga))) o s

/-- CTZ. -/
def execCtz (o : SlotOp) (s : State) : Answer :=
  slotCmd (fG2 0x19) (fun x => x.toG 1 (word (ctz64 x.ga))) o s

/-- POPC. -/
def execPopc (o : SlotOp) (s : State) : Answer :=
  slotCmd (fG2 0x1a) (fun x => x.toG 1 (word (popN 64 x.ga.toNat))) o s

/-- MOV.I: gd := sext(imm). -/
def execMovI (o : SlotOp) (s : State) : Answer :=
  slotCmd { op := 0x1B, slots := sl01, d := .g, imm := immAll } (fun x => x.toG 1 (immSext x.o)) o s

/-- SEL: ga if bit 0 of the selected mask is 1, else gb. -/
def execSel (o : SlotOp) (s : State) : Answer :=
  slotCmd { op := 0x1D, slots := sl01, d := .g, a := .g, b := .g, c := .sel } (fun x => x.toG 1 (if bit x.mask 0 then x.ga else x.gb)) o s

/-- ADD3. -/
def execAdd3 (o : SlotOp) (s : State) : Answer :=
  slotCmd (fG4 0x1E) (fun x => x.toG 1 (x.ga + x.gb + x.gc)) o s

/-- MADD: low 64 bits of ga × gb + gc, latency 3. -/
def execMadd (o : SlotOp) (s : State) : Answer :=
  slotCmd (fG4 0x1F) (fun x => x.toG 3 (x.ga * x.gb + x.gc)) o s

/-- CMP.Eq pd, ga, gb. -/
def execCmpEq (o : SlotOp) (s : State) : Answer :=
  slotCmd (fCmp 0x20) (fun x => x.toP (allBits (x.ga == x.gb))) o s

/-- CMP.Ne pd, ga, gb. -/
def execCmpNe (o : SlotOp) (s : State) : Answer :=
  slotCmd (fCmp 0x21) (fun x => x.toP (allBits (x.ga != x.gb))) o s

/-- CMP.LtS pd, ga, gb. -/
def execCmpLtS (o : SlotOp) (s : State) : Answer :=
  slotCmd (fCmp 0x22) (fun x => x.toP (allBits (x.ga.slt x.gb))) o s

/-- CMP.LtU pd, ga, gb. -/
def execCmpLtU (o : SlotOp) (s : State) : Answer :=
  slotCmd (fCmp 0x23) (fun x => x.toP (allBits (x.ga.ult x.gb))) o s

/-- CMP.GeS pd, ga, gb. -/
def execCmpGeS (o : SlotOp) (s : State) : Answer :=
  slotCmd (fCmp 0x24) (fun x => x.toP (allBits (!(x.ga.slt x.gb)))) o s

/-- CMP.GeU pd, ga, gb. -/
def execCmpGeU (o : SlotOp) (s : State) : Answer :=
  slotCmd (fCmp 0x25) (fun x => x.toP (allBits (!(x.ga.ult x.gb)))) o s

/-- CMP.Eq.I pd, ga, imm. -/
def execCmpEqI (o : SlotOp) (s : State) : Answer :=
  slotCmd (fCmpI 0x28 immAll) (fun x => x.toP (allBits (x.ga == (immSext x.o)))) o s

/-- CMP.Ne.I pd, ga, imm. -/
def execCmpNeI (o : SlotOp) (s : State) : Answer :=
  slotCmd (fCmpI 0x29 immAll) (fun x => x.toP (allBits (x.ga != (immSext x.o)))) o s

/-- CMP.LtS.I pd, ga, imm. -/
def execCmpLtSI (o : SlotOp) (s : State) : Answer :=
  slotCmd (fCmpI 0x2a immAll) (fun x => x.toP (allBits (x.ga.slt (immSext x.o)))) o s

/-- CMP.LtU.I pd, ga, imm. -/
def execCmpLtUI (o : SlotOp) (s : State) : Answer :=
  slotCmd (fCmpI 0x2b immAll) (fun x => x.toP (allBits (x.ga.ult (immSext x.o)))) o s

/-- CMP.GeS.I pd, ga, imm. -/
def execCmpGeSI (o : SlotOp) (s : State) : Answer :=
  slotCmd (fCmpI 0x2c immAll) (fun x => x.toP (allBits (!(x.ga.slt (immSext x.o))))) o s

/-- CMP.GeU.I pd, ga, imm. -/
def execCmpGeUI (o : SlotOp) (s : State) : Answer :=
  slotCmd (fCmpI 0x2d immAll) (fun x => x.toP (allBits (!(x.ga.ult (immSext x.o))))) o s

/-- BTST: pd := bit imm[5:0] of ga. -/
def execBtst (o : SlotOp) (s : State) : Answer :=
  slotCmd (fCmpI 0x2E 63) (fun x => x.toP (allBits (bit x.ga x.o.imm.toNat))) o s

/-- PAND. -/
def execPand (o : SlotOp) (s : State) : Answer :=
  slotCmd (fP3 0x30) (fun x => x.toP (x.pa &&& x.pb)) o s

/-- POR. -/
def execPor (o : SlotOp) (s : State) : Answer :=
  slotCmd (fP3 0x31) (fun x => x.toP (x.pa ||| x.pb)) o s

/-- PXOR. -/
def execPxor (o : SlotOp) (s : State) : Answer :=
  slotCmd (fP3 0x32) (fun x => x.toP (x.pa ^^^ x.pb)) o s

/-- PANDN: pa AND NOT pb. -/
def execPandn (o : SlotOp) (s : State) : Answer :=
  slotCmd (fP3 0x33) (fun x => x.toP (x.pa &&& ~~~x.pb)) o s

/-- PNOT. -/
def execPnot (o : SlotOp) (s : State) : Answer :=
  slotCmd { op := 0x34, slots := sl01, d := .p, a := .p } (fun x => x.toP (~~~x.pa)) o s

/-- PMOV.G: pd := ga[31:0]. -/
def execPmovG (o : SlotOp) (s : State) : Answer :=
  slotCmd { op := 0x35, slots := sl01, d := .p, a := .g } (fun x => x.toP (BitVec.setWidth 32 x.ga)) o s

/-- PMOV.P: gd := zext(pa). -/
def execPmovP (o : SlotOp) (s : State) : Answer :=
  slotCmd { op := 0x36, slots := sl01, d := .g, a := .p } (fun x => x.toG 1 (BitVec.setWidth 64 x.pa)) o s

/-- BR. -/
def execBr (o : SlotOp) (s : State) : Answer :=
  slotCmd { op := 0x40, slots := sl0, imm := immAll } (fun x => x.jump x.k (x.rel)) o s

/-- BR.Z: taken if ga = 0. -/
def execBrZ (o : SlotOp) (s : State) : Answer :=
  slotCmd { op := 0x41, slots := sl0, a := .g, imm := immAll } (fun x => if x.ga = 0 then x.jump x.k x.rel else .core x.k) o s

/-- BR.NZ: taken if ga ≠ 0. -/
def execBrNz (o : SlotOp) (s : State) : Answer :=
  slotCmd { op := 0x42, slots := sl0, a := .g, imm := immAll } (fun x => if x.ga ≠ 0 then x.jump x.k x.rel else .core x.k) o s

/-- DBNZ: ga := ga − 1; taken if the new value ≠ 0. -/
def execDbnz (o : SlotOp) (s : State) : Answer :=
  slotCmd { op := 0x43, slots := sl0, a := .g, imm := immAll } (fun x =>
    let k := x.send 1 (.g x.o.a.toNat (x.ga - 1))
    if x.ga - 1 ≠ 0 then x.jump k x.rel else .core k) o s

/-- CALL: g31 := pc + 1. -/
def execCall (o : SlotOp) (s : State) : Answer :=
  slotCmd { op := 0x44, slots := sl0, imm := immAll } (fun x => x.jump (x.send 1 (.g 31 (word (x.k.pc + 1)))) x.rel) o s

/-- RET: the target is g31, whose bits [63:14] must be 0 (R210). -/
def execRet (o : SlotOp) (s : State) : Answer :=
  slotCmd { op := 0x45, slots := sl0 } (fun x => x.jump x.k (x.k.rg 31).toNat) o s

/-- LD of 1 byte(s), zero-extended. -/
def execLdB (o : SlotOp) (s : State) : Answer :=
  slotCmd (fLoad 0x50) (fun x => x.load 1 false) o s

/-- LD of 2 byte(s), zero-extended. -/
def execLdH (o : SlotOp) (s : State) : Answer :=
  slotCmd (fLoad 0x51) (fun x => x.load 2 false) o s

/-- LD of 4 byte(s), zero-extended. -/
def execLdW (o : SlotOp) (s : State) : Answer :=
  slotCmd (fLoad 0x52) (fun x => x.load 4 false) o s

/-- LD of 8 byte(s), zero-extended. -/
def execLdD (o : SlotOp) (s : State) : Answer :=
  slotCmd (fLoad 0x53) (fun x => x.load 8 false) o s

/-- LD of 1 byte(s), sign-extended. -/
def execLdBS (o : SlotOp) (s : State) : Answer :=
  slotCmd (fLoad 0x54) (fun x => x.load 1 true) o s

/-- LD of 2 byte(s), sign-extended. -/
def execLdHS (o : SlotOp) (s : State) : Answer :=
  slotCmd (fLoad 0x55) (fun x => x.load 2 true) o s

/-- LD of 4 byte(s), sign-extended. -/
def execLdWS (o : SlotOp) (s : State) : Answer :=
  slotCmd (fLoad 0x56) (fun x => x.load 4 true) o s

/-- ST of the low 1 byte(s) of gb. -/
def execStB (o : SlotOp) (s : State) : Answer :=
  slotCmd (fStore 0x58) (fun x => x.store 1) o s

/-- ST of the low 2 byte(s) of gb. -/
def execStH (o : SlotOp) (s : State) : Answer :=
  slotCmd (fStore 0x59) (fun x => x.store 2) o s

/-- ST of the low 4 byte(s) of gb. -/
def execStW (o : SlotOp) (s : State) : Answer :=
  slotCmd (fStore 0x5a) (fun x => x.store 4) o s

/-- ST of the low 8 byte(s) of gb. -/
def execStD (o : SlotOp) (s : State) : Answer :=
  slotCmd (fStore 0x5b) (fun x => x.store 8) o s

/-- AMO.ADD: gd := old value, memory := old + gb. -/
def execAmoAdd (o : SlotOp) (s : State) : Answer :=
  slotCmd { op := 0x60, slots := sl1, d := .g, a := .g, b := .g, imm := immAll } (fun x => x.amo x.ea (.add x.gb)) o s

/-- AMO.CAS: gd := old value, memory := gb if old = gc. -/
def execAmoCas (o : SlotOp) (s : State) : Answer :=
  slotCmd { op := 0x61, slots := sl1, d := .g, a := .g, b := .g, c := .g } (fun x => x.amo x.ga.toNat (.cas x.gb x.gc)) o s

/-- MFS: reads a special register; a code not in Table 7.5 faults (R200). -/
def execMfs (o : SlotOp) (s : State) : Answer :=
  slotCmd { op := 0x70, slots := sl01, d := .g, imm := 0xFFF } (fun x =>
    match x.gx.special x.n x.k x.o.imm.toNat with
    | some v => x.toG 1 v
    | none => .fault cOPERAND none 0) o s

/-- MTS: FPSTAT is the one RW special register (R200). -/
def execMts (o : SlotOp) (s : State) : Answer :=
  slotCmd { op := 0x71, slots := sl01, a := .g, imm := 0xFFF } (fun x =>
    if x.o.imm.toNat = 0x00E then .core (x.send 1 (.fpstat (x.ga &&& 0x1F))) else .fault cOPERAND none 0) o s

/-- NOP in any slot (R194). -/
def execNop (o : SlotOp) (s : State) : Answer :=
  slotCmd { op := 0, slots := 15, c := .unused } (fun x => .core x.k) o s
end Sys2Proof.Machine
end

