-- ==== Sys2Proof/Machine/Vector.lean ====
section
/-! DEFINITION. Vector operations of the cores (R203, R204, R218 to R224; Tables 7.12 and 7.13). -/

namespace Sys2Proof.Machine

/-! ### Elements and lanes (R219) -/

/-- The elements of `w` bits of a vector, element 0 first. -/
def elems (w : Nat) (v : VReg) : List Nat := (List.range (1024 / w)).map fun j => fld v (w * j) w

/-- The vector with these elements of `w` bits. -/
def packV (w : Nat) (l : List Nat) : VReg := BitVec.ofNat 1024 (l.foldr (fun e acc => e % 2 ^ w + 2 ^ w * acc) 0)

/-- The bits of the lanes that a mask selects. -/
def laneMask (m : BitVec 32) : VReg := packV 32 ((List.range 32).map fun i => if bit m i then 2 ^ 32 - 1 else 0)

/-- The bits of element `j` of `w` bits. -/
def elemMask (w j : Nat) : VReg := BitVec.ofNat 1024 ((2 ^ w - 1) * 2 ^ (w * j))

/-- Does element `j` of `w` bits lie in an executing lane? -/
def live (w : Nat) (m : BitVec 32) (j : Nat) : Bool := bit m (w * j / 32)

/-- An element type. -/
inductive ETy where
  | fp (f : FFmt)
  | int (w : Nat)
  deriving DecidableEq, Repr

/-- The element type of a code (R219). -/
def ETy.ofCode (c : Nat) : Option ETy :=
  match c with
  | 0 => some (.fp fp32)
  | 1 => some (.fp bf16)
  | 2 => some (.fp fp16)
  | 3 => some (.int 32)
  | 4 => some (.int 16)
  | 5 => some (.int 8)
  | _ => none

/-- Element width in bits. -/
def ETy.width : ETy → Nat
  | .fp f => f.width
  | .int w => w

/-- An integer element result: the exact value where it fits, else a free value. -/
def intRes (op w a b : Nat) (i : Int) : FRes :=
  if -(2 ^ (w - 1) : Nat) ≤ i ∧ i < (2 ^ (w - 1) : Nat) then ⟨wrapI w i, 0⟩ else ⟨Config.vecInt op w a b % 2 ^ w, 0⟩

/-- The element type in IMM[2:0], or the OPERAND fault. -/
def Slot.typed (x : Slot) (f : ETy → SlotRes) : SlotRes :=
  match ETy.ofCode (fld x.o.imm 0 3) with
  | some t => f t
  | none => .fault cOPERAND none 0

/-- vd := the element results in the executing lanes, with the flags of those elements. -/
def Slot.putElems (x : Slot) (w lat : Nat) (r : List FRes) : SlotRes :=
  let fl := (r.zipIdx.filter fun p => live w x.mask p.2).foldl (fun a p => a ||| p.1.flags) 0
  let k := x.send lat (.v x.o.d.toNat (packV w (r.map (·.bits))) (laneMask x.mask))
  .core (if fl = 0 then k else k.send x.o.slot.toNat lat (.flags fl))

/-- An element-wise operation of va and vb. -/
def Slot.zipE (x : Slot) (latF latI : Nat) (fp : FFmt → Nat → Nat → FRes) (int : Nat → Nat → Nat → FRes) : SlotRes :=
  x.typed fun t =>
    let w := t.width
    let ps := (elems w x.va).zip (elems w x.vb)
    match t with
    | .fp f => x.putElems w latF (ps.map fun p => fp f p.1 p.2)
    | .int w => x.putElems w latI (ps.map fun p => int w p.1 p.2)

/-- Two 1,024-bit operations without types. -/
def Slot.bitsE (x : Slot) (v : VReg) : SlotRes := .core (x.send 1 (.v x.o.d.toNat v (laneMask x.mask)))

/-- vd, va, vb under a predicate, type in IMM[2:0]. -/
def fV3 (op : Nat) : Form := { op := op, slots := slV, d := .v, a := .v, b := .v, imm := 7, lanes := true }
/-- vd, va under a predicate. -/
def fV2 (op imm : Nat) : Form := { op := op, slots := slV, d := .v, a := .v, imm := imm, lanes := true }

/-! ### What each operation does -/

/-- VADD. -/
def semVadd (x : Slot) : SlotRes := x.zipE 4 1 FFmt.addE fun w a b => intRes 0x80 w a b (sextN w a + sextN w b)
/-- VSUB. -/
def semVsub (x : Slot) : SlotRes := x.zipE 4 1 FFmt.subE fun w a b => intRes 0x81 w a b (sextN w a - sextN w b)
/-- VMUL: an integer product keeps its low bits. -/
def semVmul (x : Slot) : SlotRes := x.zipE 4 2 FFmt.mulE fun w a b => ⟨a * b % 2 ^ w, 0⟩
/-- VFMA: floating-point types only. -/
def semVfma (x : Slot) : SlotRes :=
  x.typed fun t =>
    match t with
    | .fp f =>
      let w := f.width
      x.putElems w 4 (((elems w x.va).zip ((elems w x.vb).zip (elems w x.vc))).map fun p => f.fmaE p.1 p.2.1 p.2.2)
    | .int _ => .fault cOPERAND none 0
/-- VMIN. -/
def semVmin (x : Slot) : SlotRes :=
  x.zipE 1 1 (fun f => f.minMaxE true) fun w a b => ⟨if sextN w b < sextN w a then b else a, 0⟩
/-- VMAX. -/
def semVmax (x : Slot) : SlotRes :=
  x.zipE 1 1 (fun f => f.minMaxE false) fun w a b => ⟨if sextN w a < sextN w b then b else a, 0⟩
/-- VABS: FP clears the sign bit. -/
def semVabs (x : Slot) : SlotRes :=
  x.zipE 1 1 (fun f a _ => ⟨a % 2 ^ (f.width - 1), 0⟩) fun w a _ => intRes 0x86 w a 0 (sextN w a).natAbs
/-- VNEG: FP flips the sign bit. -/
def semVneg (x : Slot) : SlotRes :=
  x.zipE 1 1 (fun f a _ => ⟨a ^^^ 2 ^ (f.width - 1), 0⟩) fun w a _ => intRes 0x87 w a 0 (-(sextN w a))
/-- VAND. -/
def semVand (x : Slot) : SlotRes := x.bitsE (x.va &&& x.vb)
/-- VOR. -/
def semVor (x : Slot) : SlotRes := x.bitsE (x.va ||| x.vb)
/-- VXOR. -/
def semVxor (x : Slot) : SlotRes := x.bitsE (x.va ^^^ x.vb)

/-- VSHF: integer types only, by IMM[9:5]; the mode is 0 left, 1 logical right, 2 arithmetic right. -/
def semVshf (mode : Nat) (x : Slot) : SlotRes :=
  let c := fld x.o.imm 5 5
  x.typed fun t =>
    match t with
    | .fp _ => .fault cOPERAND none 0
    | .int w => x.putElems w 1 ((elems w x.va).map fun a =>
        if mode = 0 then ⟨a * 2 ^ c % 2 ^ w, 0⟩
        else if mode = 1 then ⟨a / 2 ^ c, 0⟩
        else ⟨wrapI w (sextN w a / (2 ^ c : Nat)), 0⟩)

/-- A relation of Table 7.12 between numbers, by their comparison. -/
def relHolds (rel : Nat) (c : Int) : Bool :=
  match rel with
  | 0 => decide (c = 0)
  | 1 => decide (c ≠ 0)
  | 2 => decide (c < 0)
  | 3 => decide (c ≤ 0)
  | 4 => decide (0 < c)
  | _ => decide (0 ≤ c)

/-- VCMP on one pair of elements: the relation and its flags (R220). -/
def cmpE (rel : Nat) (t : ETy) (a b : Nat) : Bool × Nat :=
  match t with
  | .int w => (relHolds rel (sextN w a - sextN w b), 0)
  | .fp f =>
    let x := f.decode a
    let y := f.decode b
    if x.isNan || y.isNan then
      (decide (rel = 1), if f.isSNan a || f.isSNan b || (decide (2 ≤ rel) && Config.quietCmp) then fINVALID else 0)
    else (relHolds rel (x.cmp y), 0)

/-- VCMP: one predicate bit for each lane. A lane of several elements that agree takes their common answer. -/
def semVcmp (rel : Nat) (x : Slot) : SlotRes :=
  x.typed fun t =>
    let w := t.width
    let rs := ((elems w x.va).zip (elems w x.vb)).map fun p => cmpE rel t p.1 p.2
    let per := 32 / w
    let lane (i : Nat) : Bool :=
      let l := (rs.drop (per * i)).take per
      if l.all (·.1) then true
      else if l.all (fun r => !r.1) then false
      else Config.vcmpMixed rel (fld x.va (32 * i) 32) (fld x.vb (32 * i) 32)
    let v := BitVec.ofNat 32 (bitsToNat ((List.range 32).map lane))
    let fl := (rs.zipIdx.filter fun p => live w x.mask p.2).foldl (fun a p => a ||| p.1.2) 0
    let k := x.send 2 (.p x.o.d.toNat v x.mask)
    .core (if fl = 0 then k else k.send x.o.slot.toNat 2 (.flags fl))

/-- VSEL: lanes of va where the selected mask is 1, else of vb. -/
def semVsel (x : Slot) : SlotRes :=
  .core (x.send 1 (.v x.o.d.toNat (merge x.vb x.va (laneMask x.mask)) (laneMask (BitVec.allOnes 32))))

/-- Converts one element between types; `none` for a pair that R222 excludes. -/
def cvtE (s d : ETy) (a : Nat) : FRes :=
  match s, d with
  | .fp f, .fp t => f.convertE t a
  | .fp f, .int w => f.toIntE w a
  | .int w, .fp t => t.ofIntE (sextN w a)
  | .int w, .int v => intRes 0x90 v a 0 (sextN w a)

/-- Is the pair of types one that VCVT converts (R222)? -/
def cvtPair (s d : ETy) : Bool :=
  (s.width == 32 && d.width == 16) || (s.width == 16 && d.width == 32)
  || (match s, d with
      | .fp f, .int 32 => decide (f = fp32)
      | .int 32, .fp f => decide (f = fp32)
      | .fp f, .fp t => decide (f.width = 16) && decide (t.width = 16) && decide (f ≠ t)
      | _, _ => false)

/-- VCVT (R222). A destination lane's mask bit governs the elements in it. -/
def semVcvt (x : Slot) : SlotRes :=
  match ETy.ofCode (fld x.o.imm 0 3), ETy.ofCode (fld x.o.imm 3 3) with
  | some s, some d =>
    if cvtPair s d = false then .fault cOPERAND none 0
    else
      let half := bit x.o.imm 6
      if s.width = 32 ∧ d.width = 16 then
        let r := (elems 32 x.va).map (cvtE s d)
        let pad : List FRes := List.replicate 32 ⟨0, 0⟩
        let full := if half then pad ++ r else r ++ pad
        let m : BitVec 32 := x.mask &&& (if half then 0xFFFF0000 else 0x0000FFFF)
        ({ x with mask := m }).putElems 16 2 full
      else if s.width = 16 ∧ d.width = 32 then
        x.putElems 32 2 ((((elems 16 x.va).drop (if half then 32 else 0)).take 32).map (cvtE s d))
      else x.putElems d.width 2 ((elems s.width x.va).map (cvtE s d))
  | _, _ => .fault cOPERAND none 0

/-- VBCAST. -/
def semVbcast (x : Slot) : SlotRes :=
  x.typed fun t => x.putElems t.width 2 (List.replicate (1024 / t.width) ⟨x.ga.toNat % 2 ^ t.width, 0⟩)

/-- The element index in IMM[13:7], if the type has such an element. -/
def Slot.index (x : Slot) (t : ETy) (f : Nat → SlotRes) : SlotRes :=
  let j := fld x.o.imm 7 7
  if j < 1024 / t.width then f j else .fault cOPERAND none 0

/-- VEXT: integers sign-extend, FP bits zero-extend. It executes where the element's lane does. -/
def semVext (x : Slot) : SlotRes :=
  x.typed fun t => x.index t fun j =>
    let e := fld x.va (t.width * j) t.width
    if live t.width x.mask j then
      x.toG 2 (match t with
        | .fp _ => word e
        | .int w => word (wrapI 64 (sextN w e)))
    else .core x.k

/-- VINS. -/
def semVins (x : Slot) : SlotRes :=
  x.typed fun t => x.index t fun j =>
    if live t.width x.mask j then
      .core (x.send 2 (.v x.o.d.toNat (BitVec.ofNat 1024 (x.ga.toNat % 2 ^ t.width * 2 ^ (t.width * j))) (elemMask t.width j)))
    else .core x.k

/-- VPERM: lane i := lane vb[i][4:0] of va. -/
def semVperm (x : Slot) : SlotRes :=
  .core (x.send 2 (.v x.o.d.toNat (packV 32 ((elems 32 x.vb).map fun i => fld x.va (32 * (i % 32)) 32)) (laneMask x.mask)))

/-- One stage of the pairwise tree of R221: a pair with one absent member passes the other. -/
def pairUp {α : Type} (f : α → α → α) : List (Option α) → List (Option α)
  | some a :: some b :: r => some (f a b) :: pairUp f r
  | some a :: none :: r => some a :: pairUp f r
  | none :: b :: r => b :: pairUp f r
  | l => l

/-- The fixed pairwise tree over up to 2^k members. -/
def pairTree {α : Type} (f : α → α → α) : Nat → List (Option α) → Option α
  | 0, l => l.head?.join
  | k + 1, l => pairTree f k (pairUp f l)

/-- VRED.ADD (R221): the FP sum rounds to FP32 at every addition. -/
def semVredAdd (x : Slot) : SlotRes :=
  x.typed fun t =>
    let w := t.width
    let present {α : Type} (l : List α) : List (Option α) := l.zipIdx.map fun p => if live w x.mask p.2 then some p.1 else none
    let fin (r : Option FRes) : SlotRes :=
      let v := r.getD ⟨0, 0⟩
      let k := x.send 6 (.g x.o.d.toNat (word v.bits))
      .core (if v.flags = 0 then k else k.send x.o.slot.toNat 6 (.flags v.flags))
    match t with
    | .fp f =>
      let start : List FRes := (elems w x.va).map fun a => if w = 32 then ⟨a, 0⟩ else f.convertE fp32 a
      fin (pairTree (fun a b => let r := fp32.addE a.bits b.bits
                                ⟨r.bits, a.flags ||| b.flags ||| r.flags⟩) (if w = 32 then 5 else 6) (present start))
    | .int 32 =>
      fin (pairTree (fun a b => intRes 0x95 32 a.bits b.bits (sextN 32 a.bits + sextN 32 b.bits)) 5
        (present ((elems 32 x.va).map fun a => (⟨a, 0⟩ : FRes))))
    | .int _ => .fault cOPERAND none 0

/-- VRED.MIN (`less` true) and VRED.MAX over the elements of the executing lanes. -/
def semVredMM (op : Nat) (less : Bool) (x : Slot) : SlotRes :=
  x.typed fun t =>
    let w := t.width
    let l := (((elems w x.va).zipIdx).filter fun p => live w x.mask p.2).map (·.1)
    match l with
    | [] => x.toG 4 (Config.vredNone op (fld x.o.imm 0 3))
    | a :: r =>
      match t with
      | .fp f =>
        let v := r.foldl (fun (acc : FRes) b => let z := f.minMaxE less acc.bits b
                                                ⟨z.bits, acc.flags ||| z.flags⟩) ⟨a, 0⟩
        let v1 : Nat := if (f.decode v.bits).isNan then f.qnan else v.bits
        let k := x.send 4 (.g x.o.d.toNat (word v1))
        .core (if v.flags = 0 then k else k.send x.o.slot.toNat 4 (.flags v.flags))
      | .int w =>
        let v := r.foldl (fun acc b => if less = decide (sextN w acc < sextN w b) then acc else b) a
        x.toG 4 (word (wrapI 64 (sextN w v)))

/-- The four approximations, FP32. -/
def semApprox (f : Nat → FRes) (x : Slot) : SlotRes := x.putElems 32 8 ((elems 32 x.va).map f)

/-- The checks of R224 on a 128-byte access, and what follows where it is allowed. -/
def Slot.own128 (x : Slot) (f : Nat → SlotRes) : SlotRes :=
  let a := x.ea
  if a % 128 ≠ 0 then .fault cALIGN (some a) 0
  else
    match addrKind a with
    | .none => .fault cADDRESS (some a) 0
    | .sram c => if c = x.n then f a else .fault cSCOPE (some a) 0
    | _ => .fault cSCOPE (some a) 0

/-- VLD. -/
def semVld (x : Slot) : SlotRes :=
  x.own128 fun a =>
    if x.gx.poisoned a 128 then .fault cPOISON (some a) 0
    else
      let r := x.gx.busRead none a 128
      .both r.2 (x.send 5 (.v x.o.d.toNat (BitVec.ofNat 1024 (leNat r.1)) (laneMask x.mask)))

/-- VST: the bytes of the executing lanes. -/
def semVst (x : Slot) : SlotRes :=
  x.own128 fun a =>
    .core (x.send 1 (.store (((elems 32 x.vb).zipIdx.filter fun p => bit x.mask p.2).map
      fun p => (a + 4 * p.2, leBytes 4 p.1))))

/-- VMOV. -/
def semVmov (x : Slot) : SlotRes := x.bitsE x.va

/-! ### Forms -/

/-- VFMA: vc in the C field. -/
def fVfma : Form := { op := 0x83, slots := slV, d := .v, a := .v, b := .v, c := .v, imm := 7 }
/-- VSHF with its mode. -/
def fVshf (mode : Nat) : Form :=
  { op := 0x8B, slots := slV, d := .v, a := .v, imm := 0x3FF, keyM := 0x18, keyV := mode * 8, lanes := true }
/-- VCMP with its relation. -/
def fVcmp (rel : Nat) : Form :=
  { op := 0x8C, slots := slV, d := .p, a := .v, b := .v, imm := 0x77, keyM := 0x70, keyV := rel * 16, lanes := true }
/-- VSEL. -/
def fVsel : Form := { op := 0x8D, slots := slV, d := .v, a := .v, b := .v, c := .sel }
/-- VBCAST: ga. -/
def fVbcast : Form := { op := 0x91, slots := slV, d := .v, a := .g, imm := 7, lanes := true }
/-- VEXT: gd. -/
def fVext : Form := { op := 0x92, slots := slV, d := .g, a := .v, imm := 0x3F87, lanes := true }
/-- VINS. -/
def fVins : Form := { op := 0x93, slots := slV, d := .v, a := .g, imm := 0x3F87, lanes := true }
/-- VPERM. -/
def fVperm : Form := { op := 0x94, slots := slV, d := .v, a := .v, b := .v, lanes := true }
/-- The reductions: gd, va. A mask of no lanes has a result too (R221), so the selector is data. -/
def fVred (op : Nat) : Form := { op := op, slots := slV, d := .g, a := .v, c := .sel, imm := 7 }
/-- VLD. -/
def fVld : Form := { op := 0xA0, slots := slV, d := .v, a := .g, imm := immAll, lanes := true }
/-- VST. -/
def fVst : Form := { op := 0xA1, slots := slV, a := .g, b := .v, imm := immAll, lanes := true }

/-- The form and the meaning of a V-slot word, from its opcode and IMM, for a vector program (R246). -/
def vectorOp (op imm : Nat) : Option (Form × (Slot → SlotRes)) :=
  match op with
  | 0x00 => some ({ op := 0, slots := 15, c := .unused }, fun x => .core x.k)
  | 0x80 => some (fV3 0x80, semVadd)
  | 0x81 => some (fV3 0x81, semVsub)
  | 0x82 => some (fV3 0x82, semVmul)
  | 0x83 => some (fVfma, semVfma)
  | 0x84 => some (fV3 0x84, semVmin)
  | 0x85 => some (fV3 0x85, semVmax)
  | 0x86 => some (fV2 0x86 7, semVabs)
  | 0x87 => some (fV2 0x87 7, semVneg)
  | 0x88 => some (fV3 0x88, semVand)
  | 0x89 => some (fV3 0x89, semVor)
  | 0x8A => some (fV3 0x8A, semVxor)
  | 0x8B => if fldN imm 3 2 = 3 then some ({ fVshf 3 with keyM := 0, keyV := 0 }, fun _ => .fault cOPERAND none 0)
            else some (fVshf (fldN imm 3 2), semVshf (fldN imm 3 2))
  | 0x8C => if 6 ≤ fldN imm 4 3 then some ({ fVcmp 6 with keyM := 0, keyV := 0 }, fun _ => .fault cOPERAND none 0)
            else some (fVcmp (fldN imm 4 3), semVcmp (fldN imm 4 3))
  | 0x8D => some (fVsel, semVsel)
  | 0x90 => some (fV2 0x90 0x7F, semVcvt)
  | 0x91 => some (fVbcast, semVbcast)
  | 0x92 => some (fVext, semVext)
  | 0x93 => some (fVins, semVins)
  | 0x94 => some (fVperm, semVperm)
  | 0x95 => some (fVred 0x95, semVredAdd)
  | 0x96 => some (fVred 0x96, semVredMM 0x96 true)
  | 0x97 => some (fVred 0x97, semVredMM 0x97 false)
  | 0x98 => some (fV2 0x98 0, semApprox vexp2E)
  | 0x99 => some (fV2 0x99 0, semApprox vlog2E)
  | 0x9A => some (fV2 0x9A 0, semApprox vrcpE)
  | 0x9B => some (fV2 0x9B 0, semApprox vrsqrtE)
  | 0xA0 => some (fVld, semVld)
  | 0xA1 => some (fVst, semVst)
  | 0xA8 => some (fV2 0xA8 0, semVmov)
  | _ => none

/-! ### The commands -/

/-- VADD (Table 7.12). -/
def execVadd (o : SlotOp) (s : State) : Answer := slotCmd (fV3 0x80) semVadd o s

/-- VSUB (Table 7.12). -/
def execVsub (o : SlotOp) (s : State) : Answer := slotCmd (fV3 0x81) semVsub o s

/-- VMUL (Table 7.12). -/
def execVmul (o : SlotOp) (s : State) : Answer := slotCmd (fV3 0x82) semVmul o s

/-- VFMA (Table 7.12). -/
def execVfma (o : SlotOp) (s : State) : Answer := slotCmd fVfma semVfma o s

/-- VMIN (Table 7.12). -/
def execVmin (o : SlotOp) (s : State) : Answer := slotCmd (fV3 0x84) semVmin o s

/-- VMAX (Table 7.12). -/
def execVmax (o : SlotOp) (s : State) : Answer := slotCmd (fV3 0x85) semVmax o s

/-- VABS (Table 7.12). -/
def execVabs (o : SlotOp) (s : State) : Answer := slotCmd (fV2 0x86 7) semVabs o s

/-- VNEG (Table 7.12). -/
def execVneg (o : SlotOp) (s : State) : Answer := slotCmd (fV2 0x87 7) semVneg o s

/-- VAND (Table 7.12). -/
def execVand (o : SlotOp) (s : State) : Answer := slotCmd (fV3 0x88) semVand o s

/-- VOR (Table 7.12). -/
def execVor (o : SlotOp) (s : State) : Answer := slotCmd (fV3 0x89) semVor o s

/-- VXOR (Table 7.12). -/
def execVxor (o : SlotOp) (s : State) : Answer := slotCmd (fV3 0x8A) semVxor o s

/-- VSHFLEFT (Table 7.12). -/
def execVshfLeft (o : SlotOp) (s : State) : Answer := slotCmd (fVshf 0) (semVshf 0) o s

/-- VSHFLOGICALRIGHT (Table 7.12). -/
def execVshfLogicalRight (o : SlotOp) (s : State) : Answer := slotCmd (fVshf 1) (semVshf 1) o s

/-- VSHFARITHRIGHT (Table 7.12). -/
def execVshfArithRight (o : SlotOp) (s : State) : Answer := slotCmd (fVshf 2) (semVshf 2) o s

/-- VCMPEQ (Table 7.12). -/
def execVcmpEq (o : SlotOp) (s : State) : Answer := slotCmd (fVcmp 0) (semVcmp 0) o s

/-- VCMPNE (Table 7.12). -/
def execVcmpNe (o : SlotOp) (s : State) : Answer := slotCmd (fVcmp 1) (semVcmp 1) o s

/-- VCMPLT (Table 7.12). -/
def execVcmpLt (o : SlotOp) (s : State) : Answer := slotCmd (fVcmp 2) (semVcmp 2) o s

/-- VCMPLE (Table 7.12). -/
def execVcmpLe (o : SlotOp) (s : State) : Answer := slotCmd (fVcmp 3) (semVcmp 3) o s

/-- VCMPGT (Table 7.12). -/
def execVcmpGt (o : SlotOp) (s : State) : Answer := slotCmd (fVcmp 4) (semVcmp 4) o s

/-- VCMPGE (Table 7.12). -/
def execVcmpGe (o : SlotOp) (s : State) : Answer := slotCmd (fVcmp 5) (semVcmp 5) o s

/-- VSEL (Table 7.12). -/
def execVsel (o : SlotOp) (s : State) : Answer := slotCmd fVsel semVsel o s

/-- VCVT (Table 7.12). -/
def execVcvt (o : SlotOp) (s : State) : Answer := slotCmd (fV2 0x90 0x7F) semVcvt o s

/-- VBCAST (Table 7.12). -/
def execVbcast (o : SlotOp) (s : State) : Answer := slotCmd fVbcast semVbcast o s

/-- VEXT (Table 7.12). -/
def execVext (o : SlotOp) (s : State) : Answer := slotCmd fVext semVext o s

/-- VINS (Table 7.12). -/
def execVins (o : SlotOp) (s : State) : Answer := slotCmd fVins semVins o s

/-- VPERM (Table 7.12). -/
def execVperm (o : SlotOp) (s : State) : Answer := slotCmd fVperm semVperm o s

/-- VREDADD (Table 7.12). -/
def execVredAdd (o : SlotOp) (s : State) : Answer := slotCmd (fVred 0x95) semVredAdd o s

/-- VREDMIN (Table 7.12). -/
def execVredMin (o : SlotOp) (s : State) : Answer := slotCmd (fVred 0x96) (semVredMM 0x96 true) o s

/-- VREDMAX (Table 7.12). -/
def execVredMax (o : SlotOp) (s : State) : Answer := slotCmd (fVred 0x97) (semVredMM 0x97 false) o s

/-- VEXP2 (Table 7.12). -/
def execVexp2 (o : SlotOp) (s : State) : Answer := slotCmd (fV2 0x98 0) (semApprox vexp2E) o s

/-- VLOG2 (Table 7.12). -/
def execVlog2 (o : SlotOp) (s : State) : Answer := slotCmd (fV2 0x99 0) (semApprox vlog2E) o s

/-- VRCP (Table 7.12). -/
def execVrcp (o : SlotOp) (s : State) : Answer := slotCmd (fV2 0x9A 0) (semApprox vrcpE) o s

/-- VRSQRT (Table 7.12). -/
def execVrsqrt (o : SlotOp) (s : State) : Answer := slotCmd (fV2 0x9B 0) (semApprox vrsqrtE) o s

/-- VLD (Table 7.12). -/
def execVld (o : SlotOp) (s : State) : Answer := slotCmd fVld semVld o s

/-- VST (Table 7.12). -/
def execVst (o : SlotOp) (s : State) : Answer := slotCmd fVst semVst o s

/-- VMOV (Table 7.12). -/
def execVmov (o : SlotOp) (s : State) : Answer := slotCmd (fV2 0xA8 0) semVmov o s

end Sys2Proof.Machine
end

