-- ==== Sys2Proof/Machine/Engines.lean ====
section
/-! DEFINITION. E-slot operations, engine queues and their begin and completion, waits, fences and TICKSYNC (R225, R232 to
R248, R252, R253). Shared-engine operations complete in Xop.lean. -/

namespace Sys2Proof.Machine

/-! ### Issue (R232, R233, R236, R237) -/

/-- First byte and size of core `n`'s SRAM. -/
def sramBase (n : Nat) : Nat := 0x10000000 + n * 0x1000000
/-- Bytes of core `n`'s SRAM. -/
def sramSize (n : Nat) : Nat := if n < 8 then 0x800000 else 0x400000

/-- Do `len` bytes at `a` lie wholly in core `n`'s SRAM? -/
def inOwnSram (n a len : Nat) : Bool := decide (sramBase n ≤ a) && decide (a + len ≤ sramBase n + sramSize n)

/-- Checks one local range: alignment, then reach (R237). -/
def Slot.range (x : Slot) (a len align : Nat) (f : SlotRes) : SlotRes :=
  if a % align ≠ 0 then .fault cALIGN (some a) 0
  else if inOwnSram x.n a len = false then .fault cSCOPE (some a) 0
  else f

/-- The tag that IMM[4:0] names. -/
def Slot.tag (x : Slot) : Nat := fld x.o.imm 0 5

/-- The operation enters its queue, unless its tag is busy or the queue holds 8 (R232, R233). -/
def Slot.enqueue (x : Slot) (q : EngQueue) (kind : EngKind) : SlotRes :=
  if x.k.ops.any (fun o => o.tag = x.tag) then .fault cENGINE none 1
  else if 8 ≤ (x.k.ops.filter fun o => o.q = q).length then .fault cENGINE none 2
  else
    .chip ((x.gx.count 1 x.n 7 1).setCore x.n
      { x.k with ops := x.k.ops ++ [{ q := q, tag := x.tag, kind := kind, pc := x.k.pc, gs := x.k.g }] })

/-- The matrix engine that IMM[8:5] names. -/
def Slot.engine (x : Slot) : BitVec 4 := BitVec.ofNat 4 (fld x.o.imm 5 4)

/-- MMA (Table 8.1, R236 to R239). -/
def semMma (x : Slot) : SlotRes :=
  let kq := fld x.o.imm 20 12
  let fb := fld x.o.imm 16 4
  let fa := fld x.o.imm 12 4
  let net := fld x.o.imm 9 2
  let blk := cfgBlock (x.k.netSlot x.engine.toNat net)
  if 8 ≤ x.n ∨ kq = 0 ∨ fmtPair fa fb = false then .fault cOPERAND none 0
  else
    x.range x.ga.toNat (mmaBytes fa (16 * kq) blk) 128 <|
    x.range x.gb.toNat (mmaBytes fb (16 * kq) blk) 128 <|
    x.enqueue (.matrix x.engine) (.mma (x.o.d.toNat % 8) x.ga.toNat x.gb.toNat kq fa fb (bit x.o.imm 11) net)

/-- TLD (R241). -/
def semTld (x : Slot) : SlotRes :=
  if 8 ≤ x.n then .fault cOPERAND none 0
  else x.range x.ga.toNat 32768 128 <| x.enqueue (.matrix x.engine) (.tld (x.o.d.toNat % 8) x.ga.toNat (bit x.o.imm 9))

/-- TST (R241). -/
def semTst (x : Slot) : SlotRes :=
  let out := fld x.o.imm 9 3
  if 8 ≤ x.n ∨ 3 < out then .fault cOPERAND none 0
  else x.range x.ga.toNat (tstBytes out) 128 <| x.enqueue (.matrix x.engine) (.tst (x.o.d.toNat % 8) x.ga.toNat out)

/-- ACCNET.CFG (R242). -/
def semAccnet (x : Slot) : SlotRes :=
  if 8 ≤ x.n then .fault cOPERAND none 0
  else x.range x.ga.toNat 64 64 <| x.enqueue (.matrix x.engine) (.accnet x.ga.toNat (fld x.o.imm 9 2))

/-- DMA (R237, R244): LEN is in 64-byte units. -/
def semDma (toFar : Bool) (x : Slot) : SlotRes :=
  let len := fld x.o.imm 8 24
  let far := x.gb.toNat
  if len = 0 ∨ 131072 < len then .fault cOPERAND none 0
  else
    x.range x.ga.toNat (64 * len) 64 <|
    if far % 64 ≠ 0 then .fault cALIGN (some far) 0
    else if addrKind far = .csr ∨ addrKind (far + 64 * len - 1) = .csr then .fault cSCOPE (some far) 0
    else if memRange far (64 * len) = false then .fault cADDRESS (some far) 0
    else x.enqueue .dma (.dma x.ga.toNat far (64 * len) toFar)

/-- Does a cycle lie in a window of shared engine `eng` that belongs to core `n` (R168)? -/
def Glexon.inWindow (g : Glexon) (eng n cyc : Nat) : Bool :=
  g.variant.wins.any fun w => w.eng == eng && w.core == n && decide (w.frm ≤ cyc) && decide (cyc < w.upto)

/-- XOP (R168, R236, R245). -/
def semXop (x : Slot) : SlotRes :=
  let eng := fld x.o.imm 5 3
  if 4 < eng then .fault cOPERAND none 0
  else
    x.range x.ga.toNat 64 64 <|
    if eng < 4 ∧ x.gx.inWindow eng x.n x.k.cyc = false then .fault cWINDOW none 0
    else x.enqueue (.shared (BitVec.ofNat 3 eng)) (.xop x.ga.toNat (fld x.o.imm 8 8))

/-- VPROG (R236, R246). -/
def semVprog (x : Slot) : SlotRes :=
  let cnt := fld x.o.imm 16 16
  let e := fld x.o.imm 5 2
  if x.n < 8 ∨ cnt = 0 ∨ 4096 < cnt ∨ e = 0 then .fault cOPERAND none 0
  else x.range x.ga.toNat (8 * cnt) 8 <| x.enqueue (.vector (BitVec.ofNat 2 e)) (.vprog x.ga.toNat cnt)

/-! ### Waits, fences and TICKSYNC (R197, R247, R252, R253) -/

/-- Adds `w` cycles to the issue of the next bundle, or the work deadline comes first. -/
def Glexon.waited (g : Glexon) (n w ev : Nat) : Glexon :=
  let k := g.core n
  if g.tdead ≤ k.ncyc + w then g.deadlineAbort n
  else (g.setCore n { k with wait := .none, ncyc := k.ncyc + w }).count 1 n ev w

/-- The status word of WAIT.E: two bits for each tag of the mask (R247). -/
def Core.tagWord (k : Core) (mask : BitVec 32) : Word :=
  word (((List.range 32).filter fun t => bit mask t).foldl (fun a t => a + (SMap.get 0 k.tags t).toNat * 4 ^ t) 0)

/-- If the condition that core `n` waits on holds, its wait of `w` cycles ends. -/
def Glexon.resume (g : Glexon) (n w : Nat) : Glexon :=
  let k := g.core n
  match k.wait with
  | .none => g
  | .farLoad regs =>
    if regs.any fun r => k.awaited.contains r then g
    else (g.modCore n fun k => { k with stall := k.stall + w }).waited n w 2
  | .farPlace =>
    if 8 ≤ k.far.length then g else (g.modCore n fun k => { k with stall := k.stall + w }).waited n w 2
  | .tags mask reg =>
    if k.ops.any fun o => bit mask o.tag then g
    else
      (g.modCore n fun k =>
        { k with flight := insFlight { due := k.cyc + w + 1, sent := k.cyc, slot := 3, eff := .g reg (k.tagWord mask) }
                             k.flight }).waited n w 3
  | .fenceM => if k.far ≠ [] then g else g.waited n w 4
  | .fenceE => if k.ops ≠ [] then g else g.waited n w 4
  | .fenceX => (g.performAtomics n).waited n w 4
  | .fenceF =>
    let waiting (o : EngOp) : Bool := match o.q, o.kind with
      | .shared e, .xop _ c => e == 4 && c == 1
      | _, _ => false
    if k.posted ≠ 0 ∨ k.ops.any waiting then g else g.waited n w 4
  | .ticksync =>
    if k.ops ≠ [] then g
    else if g.tdead ≤ k.cyc + w + 1 then g.deadlineAbort n
    else (((g.performAtomics n).modCore n fun k => { k with wait := .none, phase := .joined }).count 1 n 4 w).barrier (k.cyc + w + 1)

/-- Does a FENCE.X or a TICKSYNC wait for far atomics to be performed (R252)? -/
def Core.atomicsDue (k : Core) : Bool := (decide (k.wait = .fenceX) || decide (k.wait = .ticksync)) && k.far.any FarAccess.due

/-- A wait in the E slot takes hold once its bundle is complete, and ends at once where its condition holds. Where it waits
for far atomics, which may be performed before they return, CORE_WAIT_END says when they have been. -/
def Glexon.startWait (g : Glexon) (n : Nat) : Glexon :=
  let k := g.core n
  if k.isOpen ∧ k.next = 4 ∧ k.wait ≠ .none then
    let g1 := g.closeBundle n
    if (g1.core n).atomicsDue then g1 else g1.resume n 0
  else g

/-- A command of the E slot that waits. -/
def waitCmd (f : Form) (w : Slot → Wait) (o : SlotOp) (s : State) : Answer :=
  onCore (fun g => (Glexon.slotOp f (fun x => .core { x.k with wait := w x }) o g).startWait o.core.toNat) s

/-- Forms of the E slot (Table 8.1). -/
def fE (op imm keyM keyV : Nat) (d a b : Fld) : Form :=
  { op := op, slots := slE, d := d, a := a, b := b, imm := imm, keyM := keyM, keyV := keyV }

/-- MMA t, ga, gb. -/
def execMma (o : SlotOp) (s : State) : Answer := slotCmd (fE 0xC0 immAll 0 0 .tile .g .g) semMma o s
/-- TLD t, ga. -/
def execTld (o : SlotOp) (s : State) : Answer := slotCmd (fE 0xC1 0x3FF 0 0 .tile .g .unused) semTld o s
/-- TST ga, t. -/
def execTst (o : SlotOp) (s : State) : Answer := slotCmd (fE 0xC2 0xFFF 0 0 .tile .g .unused) semTst o s
/-- ACCNET.CFG ga. -/
def execAccnetCfg (o : SlotOp) (s : State) : Answer := slotCmd (fE 0xC3 0x7FF 0 0 .unused .g .unused) semAccnet o s
/-- DMA with DIR = 0. -/
def execDmaFarToLocal (o : SlotOp) (s : State) : Answer :=
  slotCmd (fE 0xC4 0xFFFFFF3F 0x20 0 .unused .g .g) (semDma false) o s
/-- DMA with DIR = 1. -/
def execDmaLocalToFar (o : SlotOp) (s : State) : Answer :=
  slotCmd (fE 0xC4 0xFFFFFF3F 0x20 0x20 .unused .g .g) (semDma true) o s
/-- The form of an XOP with an engine and an operation code. -/
def fXop (eng code : Nat) : Form := fE 0xC5 0xFFFF 0xFFE0 (code * 256 + eng * 32) .unused .g .unused
/-- VPROG ga, count. -/
def execVprog (o : SlotOp) (s : State) : Answer := slotCmd (fE 0xC6 0xFFFF007F 0 0 .unused .g .unused) semVprog o s
/-- WAIT.E gd, mask. -/
def execWaitE (o : SlotOp) (s : State) : Answer :=
  waitCmd (fE 0xC8 immAll 0 0 .g .unused .unused) (fun x => .tags x.o.imm x.o.d.toNat) o s
/-- FENCE.M. -/
def execFenceM (o : SlotOp) (s : State) : Answer := waitCmd (fE 0xD0 0 0 0 .unused .unused .unused) (fun _ => .fenceM) o s
/-- FENCE.E. -/
def execFenceE (o : SlotOp) (s : State) : Answer := waitCmd (fE 0xD1 0 0 0 .unused .unused .unused) (fun _ => .fenceE) o s
/-- FENCE.X. -/
def execFenceX (o : SlotOp) (s : State) : Answer := waitCmd (fE 0xD2 0 0 0 .unused .unused .unused) (fun _ => .fenceX) o s
/-- FENCE.F. -/
def execFenceF (o : SlotOp) (s : State) : Answer := waitCmd (fE 0xD3 0 0 0 .unused .unused .unused) (fun _ => .fenceF) o s
/-- TICKSYNC. -/
def execTicksync (o : SlotOp) (s : State) : Answer :=
  waitCmd (fE 0xDF 0 0 0 .unused .unused .unused) (fun _ => .ticksync) o s

/-- CORE_WAIT_END (R197): the condition that a core waits on holds, `cycles` cycles after it would have issued. -/
def execCoreWaitEnd (core : BitVec 5) (cycles : BitVec 32) (s : State) : Answer :=
  onCore (fun g => if (g.core core.toNat).phase = .issuing then g.resume core.toNat cycles.toNat else g) s

/-! ### Begin (R234, R238 to R242, R244 to R246) -/

/-- The matrix tile `t` of engine `e`. -/
def Core.tile (k : Core) (e t : Nat) : Tile := SMap.get (.free k.tileGen) k.tiles (8 * e + t)

/-- Word `i` of a tile. -/
def Tile.word (t : Tile) (i : Nat) : Word :=
  match t with
  | .known _ ws => ws.getD i 0
  | .free k => Config.freeWord k i

/-- Does a tile hold integers? -/
def Tile.isInt (t : Tile) : Bool :=
  match t with
  | .known b _ => b
  | .free k => bit (Config.freeWord k 4096) 0

/-- A tile word in an output form: 0 raw, 1 FP32, 2 BF16, 3 INT32 (R241, R222). -/
def tstElem (isInt : Bool) (out : Nat) (w : Word) : List Byte :=
  let fp (f : FFmt) : Nat :=
    if isInt then (f.round .rne (FVal.ofInt w.toInt)).bits else (f.round .rne (fp64.decode w.toNat)).bits
  match out with
  | 0 => leBytes 8 w.toNat
  | 1 => leBytes 4 (fp fp32)
  | 2 => leBytes 2 (fp bf16)
  | _ =>
    if isInt then
      leBytes 4 (if -(2 ^ 31 : Nat) ≤ w.toInt ∧ w.toInt < (2 ^ 31 : Nat) then wrapI 32 w.toInt
        else Config.vecInt 0xC2 32 w.toNat 0 % 2 ^ 32)
    else
      let lo : Int := -(2 ^ 31 : Nat)
      let hi : Int := (2 ^ 31 : Nat) - 1
      leBytes 4 (match fp64.decode w.toNat with
        | .nan => 0
        | .inf s => wrapI 32 (if s then lo else hi)
        | v => wrapI 32 (clampI lo hi v.rint.1))

/-- What TST writes. -/
def tstImage (t : Tile) (out : Nat) : List Byte :=
  (List.range 4096).flatMap fun i => tstElem t.isInt out (t.word i)

/-- May operation number `i` of a core's list begin: earlier operations of its queue have completed, or, for an MMA, a DMA or
an XOP, have begun and are of the same kind (R233, R239). -/
def Core.mayBegin (k : Core) (i : Nat) (o : EngOp) : Bool :=
  (k.ops.take i).all fun p =>
    p.q ≠ o.q || (match o.kind, p.kind with
      | .mma .., .mma .. => p.begun
      | .dma .., .dma .. => p.begun
      | .xop .., .xop .. => p.begun
      | _, _ => false)

/-- The bytes that operation `o` reads as it begins, whether they are poisoned, and the Glexon. -/
def Glexon.gather (g : Glexon) (n : Nat) (o : EngOp) (rs : List (Nat × Nat)) : List Byte × Bool × Glexon :=
  rs.foldl (fun (acc : List Byte × Bool × Glexon) r =>
    let p := acc.2.2.poisoned r.1 r.2
    let (l, g1) := acc.2.2.busRead (some (n, o.tag)) r.1 r.2
    (acc.1 ++ l, acc.2.1 || p, g1)) ([], false, g)

/-- An engine fault of core `n` (R248): the core's work ends with cause ENGINE. -/
def Glexon.engineFault (g : Glexon) (n pc sub : Nat) (addr : Option Nat) : Glexon :=
  let k := g.core n
  if k.phase = .aborted ∨ k.phase = .dozing ∨ k.phase = .idle then g else g.abortCore n cENGINE 3 pc k.cyc addr sub

/-- Replaces operation number `i` of core `n`. -/
def Glexon.setOp (g : Glexon) (n i : Nat) (o : EngOp) : Glexon := g.modCore n fun k => { k with ops := k.ops.set i o }

/-- Removes operation number `i` of core `n`, its tag taking a status. -/
def Glexon.endOp (g : Glexon) (n i : Nat) (st : BitVec 2) : Glexon :=
  g.modCore n fun k =>
    match k.ops[i]? with
    | some o => { k with ops := k.ops.eraseIdx i, tags := SMap.put 0 k.tags o.tag st }
    | none => k

/-- The Scorer and the Compression Engine execute one operation at a time (R354, R440): is one, of any core, under way? -/
def Glexon.soloBusy (g : Glexon) (q : EngQueue) : Bool :=
  (decide (q = .shared 1) || decide (q = .shared 3)) && g.cores.any fun e => e.2.ops.any fun o => decide (o.q = q) && o.begun

/-- The oldest operation of a queue that has not begun begins (R234). -/
def Glexon.engineBegin (g0 : Glexon) (n : Nat) (q : EngQueue) : Glexon :=
  let g := g0.settle n
  let k := g.core n
  match k.ops.findIdx? (fun o => o.q = q && !o.begun) with
  | none => g
  | some i =>
    match k.ops[i]? with
    | none => g
    | some o =>
      if k.mayBegin i o = false ∨ g.soloBusy q then g
      else
        match q, o.kind with
        | .matrix e, .mma _ _ _ kq fa _ _ net =>
          let cfg := k.netSlot e.toNat net
          if cfgOk cfg = false then (g.endOp n i 0).engineFault n o.pc 3 none
          else if (leAt cfg 8 1 = 0 ∧ fa ≤ 5) ∨ (leAt cfg 8 1 ≠ 0 ∧ 16 * kq % leAt cfg 8 1 ≠ 0) then (g.endOp n i 0).engineFault n o.pc 4 none
          else
            let o1 : EngOp := { o with begun := true, cfg := cfg }
            let (l, p, g1) := g.gather n o1 (k.opReads o1)
            (g1.modCore n fun k => { k with ops := k.ops.modify i fun x => { o1 with data := l, bad := p, spoilt := x.spoilt } })
        | .matrix e, .tst t _ out =>
          let tl := k.tile e.toNat t
          g.setOp n i { o with begun := true, data := tstImage tl out,
                               bad := SMap.get false k.badTile (8 * e.toNat + t) }
        | _, _ =>
          let o1 : EngOp := { o with begun := true }
          let (l, p, g1) := g.gather n o1 (k.opReads o1)
          (g1.modCore n fun k => { k with ops := k.ops.modify i fun x => { o1 with data := l, bad := p, spoilt := x.spoilt } })

/-! ### Completion (R232, R238, R241 to R246) -/

/-- The tile that an MMA makes from its captured operands and the tile as it stands (R238, R274). -/
def mmaTile (o : EngOp) (old : Tile) : Tile :=
  match o.kind with
  | .mma _ _ _ kq fa fb zero _ =>
    let p := Profile.ofBytes o.cfg
    let k := 16 * kq
    let mx := decide (fa ≤ 5)
    let bs := if mx then p.block else 1
    let sa := mmaStride fa k
    let sb := mmaStride fb k
    let da := o.data.take (mmaBytes fa k p.block)
    let db := o.data.drop (mmaBytes fa k p.block)
    let rows (f s : Nat) (d : List Byte) : List (List FVal) :=
      (List.range 64).map fun i => rowVals p f k ((d.drop (i * s)).take s)
    let scales (s : Nat) (d : List Byte) : List (List FVal) :=
      (List.range 64).map fun i =>
        ((d.drop (64 * s + i * up128 (k / max 1 p.block))).take (k / max 1 p.block)).map fun b => scaleVal b.toNat
    let as := (rows fa sa da).zip (scales sa da)
    let bs' := (rows fb sb db).zip (scales sb db)
    let words := as.zipIdx.flatMap fun (a, i) => bs'.zipIdx.map fun (b, j) =>
      let r := word (f64of (p.acc bs (blockSums bs a.1 b.1 a.2 b.2 mx)))
      let init := old.word (64 * i + j)
      if zero || init == 0 then r else Config.accInit o.cfg init r
    .known false words
  | _ => old

/-- The index of the oldest operation of a queue, and the operation, if it has begun. -/
def Core.oldest (k : Core) (q : EngQueue) : Option (Nat × EngOp) :=
  match k.ops.findIdx? (fun o => o.q = q) with
  | some i => match k.ops[i]? with
    | some o => if o.begun then some (i, o) else none
    | none => none
  | none => none

/-- The core has a tile replaced, and its poison mark set or cleared. -/
def Core.setTile (k : Core) (e t : Nat) (v : Tile) (bad : Bool) : Core :=
  { k with tiles := SMap.put (.free k.tileGen) k.tiles (8 * e + t) v, badTile := SMap.put false k.badTile (8 * e + t) bad }

/-- The boundary instant of the tick in force plus the work time: the work deadline, in ns. -/
def Glexon.deadlineNs (g : Glexon) : Nat := g.boundNs (g.tk.tickNo + 1) - 20000

/-- A residue fault on engine `e` of core `n` (R243, R256, R257): the third within 10 s makes withdrawal pending. -/
def Glexon.residueFault (g : Glexon) (n e : Nat) : Glexon :=
  let k := g.core n
  let now := g.nowNs
  let ge := 16 * n + e
  let g1 := g.wr (Reg.MC_ENG_FAULT n)
    (putFld (putFld (satFld (g.rd (Reg.MC_ENG_FAULT n)) 32 32 1) 7 1 0) 0 7 ge)
  let hist := (now :: k.resid).take 3
  let third := match hist with
    | [_, _, a] => decide (now ≤ a + 10000000000)
    | _ => false
  let b := if now < g.deadlineNs then g.tk.tickNo + 1 else g.tk.tickNo + 2
  ((g1.modCore n fun k =>
      { k with resid := hist, wdraw := if third && k.wdraw.isNone then some (b, 0) else k.wdraw }).event 0x0522 n
    [word n, word ge, g.tk.tickNo, word k.cyc]).count 1 n 9 1

/-- MMA_COMPLETE (R243): the oldest MMA of a matrix engine completes, with or without a residue mismatch. -/
def execMmaComplete (core : BitVec 5) (eng : BitVec 4) (residue : Bool) (s : State) : Answer :=
  onCore (fun g =>
    let n := core.toNat
    let e := eng.toNat
    match (g.core n).oldest (.matrix eng) with
    | some (i, o) =>
      match o.kind with
      | .mma t _ _ _ _ _ zero _ =>
        let old := (g.core n).tile e t
        let bad := o.bad || (!zero && SMap.get false (g.core n).badTile (8 * e + t))
        if bad then
          let (f, g1) := g.fresh
          (g1.modCore n fun k => k.setTile e t (.free f) true).endOp n i 2
        else if residue then
          let (f, g1) := g.fresh
          ((g1.modCore n fun k => k.setTile e t (.free f) false).endOp n i 1).residueFault n e
        else if o.spoilt then
          let (f, g1) := g.fresh
          (g1.modCore n fun k => k.setTile e t (.free f) false).endOp n i 0
        else (g.modCore n fun k => k.setTile e t (mmaTile o old) false).endOp n i 0
      | _ => g
    | none => g) s

/-- Writes what an operation of core `n` stores: unspecified bytes where it was overlapped, and the poison it carries. -/
def Glexon.deliver (g : Glexon) (n : Nat) (o : EngOp) (a : Nat) (l : List Byte) (bad : Bool) : Glexon :=
  let (f, g1) := if o.spoilt then g.fresh else (0, g)
  let g2 := g1.busWrite (some (n, o.tag)) a (if o.spoilt then freeBytes f l.length else l)
  if bad then g2.setPoison a l.length true else g2

/-- TILE_OP_COMPLETE (R241, R242): the oldest TLD, TST or ACCNET.CFG of a matrix engine completes. -/
def execTileOpComplete (core : BitVec 5) (eng : BitVec 4) (s : State) : Answer :=
  onCore (fun g =>
    let n := core.toNat
    let e := eng.toNat
    let st (bad : Bool) : BitVec 2 := if bad then 2 else 0
    match (g.core n).oldest (.matrix eng) with
    | some (i, o) =>
      match o.kind with
      | .tld t _ isInt =>
        let (f, g1) := if o.spoilt then g.fresh else (0, g)
        let ws : Tile := if o.spoilt then .free f
          else .known isInt ((chunks 8 4096 o.data).map fun l => word (leNat l))
        (g1.modCore n fun k => k.setTile e t ws o.bad).endOp n i (st o.bad)
      | .tst _ a _ => (g.deliver n o a o.data o.bad).endOp n i (st o.bad)
      | .accnet _ net =>
        (g.modCore n fun k => { k with slots := SMap.put [] k.slots (4 * e + net) (if o.bad || o.spoilt then [] else o.data) }).endOp
          n i (st o.bad)
      | _ => g
    | none => g) s

/-- DMA_COMPLETE (R244): the oldest DMA of a core completes, with what the SEC-DED code found in record memory. -/
def execDmaComplete (core : BitVec 5) (ecc : Ecc) (s : State) : Answer :=
  onCore (fun g =>
    let n := core.toNat
    match (g.core n).oldest .dma with
    | some (i, o) =>
      match o.kind with
      | .dma loc far _ toFar =>
        let g1 := if toFar then g else g.eccRead far ecc
        let bad := o.bad || (!toFar && decide (ecc = .uncorrectable) && decide (addrKind far = .hbm))
        (g1.deliver n o (if toFar then far else loc) o.data bad).endOp n i (if bad then 2 else 0)
      | _ => g
    | none => g) s

/-- A vector program's state: the chip, the engine's registers as a core's, the cycle, and a fault with its address. -/
structure VRun where
  g    : Glexon
  k    : Core
  cyc  : Nat
  gds  : List Nat
  fail : Option (Option Nat)
  deriving DecidableEq, Repr

/-- The results of a vector program that are visible by a cycle take effect. -/
def VRun.land (r : VRun) (self : Nat × Nat) (cyc : Nat) : VRun :=
  let due := r.k.flight.filter fun f => f.due ≤ cyc
  let r0 : VRun := { r with k := { r.k with flight := r.k.flight.filter fun f => cyc < f.due } }
  due.foldl (fun (x : VRun) f =>
    match f.eff with
    | .g d v => { x with k := x.k.setG d v, gds := if d = 0 then x.gds else d :: x.gds }
    | .v d v m => { x with k := x.k.setV d v m }
    | .p d v m => { x with k := x.k.setP d v m }
    | .flags b => { x with k := { x.k with fpstat := x.k.fpstat ||| word b } }
    | .store segs => { x with g := segs.foldl (fun h s => h.busWrite (some self) s.1 s.2) x.g }
    | _ => x) r0

/-- One word of a vector program issues (R246). -/
def VRun.step (n : Nat) (self : Nat × Nat) (r0 : VRun) (w : Nat) : VRun :=
  if r0.fail.isSome then r0
  else
    let r := r0.land self r0.cyc
    let k : Core := { r.k with cyc := r.cyc }
    let o : SlotOp :=
      { core := BitVec.ofNat 5 n, slot := 2, first := true, d := BitVec.ofNat 6 (fldN w 50 6), a := BitVec.ofNat 6 (fldN w 44 6),
        b := BitVec.ofNat 6 (fldN w 38 6), c := BitVec.ofNat 6 (fldN w 32 6), imm := BitVec.ofNat 32 (fldN w 0 32) }
    let stop (a : Option Nat) : VRun := { r with fail := some a }
    match vectorOp (fldN w 56 8) (fldN w 0 32) with
    | none => stop none
    | some (f, sem) =>
      let mask := match f.c with
        | .pred => k.mask o.c
        | .sel => k.mask o.c
        | _ => BitVec.allOnes 32
      if f.c.legal o.c = false then stop none
      else if f.lanes && mask == 0 then { r with k := k, cyc := r.cyc + 1 }
      else if f.legal o = false then stop none
      else
        match sem { gx := r.g, n := n, k := k, o := o, mask := mask } with
        | .core k => { r with k := k, cyc := r.cyc + 1 }
        | .both g k => { r with g := g, k := k, cyc := r.cyc + 1 }
        | .chip g => { r with g := g, k := k, cyc := r.cyc + 1 }
        | .fault _ a _ => stop a
        | .hold _ => stop none

/-- VPROG_COMPLETE (R246): the oldest vector program of an engine finishes, or its fault ends the core's work. Its `g`
sources are the core's registers at its issue; a `g` register that it writes holds an unspecified value afterwards. -/
def execVprogComplete (core : BitVec 5) (eng : BitVec 2) (s : State) : Answer :=
  onCore (fun g =>
    let n := core.toNat
    match (g.core n).oldest (.vector eng) with
    | some (i, o) =>
      let ve := SMap.get {} (g.core n).vecs eng.toNat
      let k0 : Core := { g := o.gs, v := ve.v, p := ve.p, ops := (g.core n).ops }
      let self := (n, o.tag)
      let start : VRun := { g := g, k := k0, cyc := 0, gds := [], fail := none }
      let r := (((chunks 8 4096 o.data).map leNat).foldl (VRun.step n self) start).land self 10000
      let g1 := r.g.modCore n fun k =>
        { k with vecs := SMap.put {} k.vecs eng.toNat { v := r.k.v, p := r.k.p }, fpstat := k.fpstat ||| r.k.fpstat }
      let g2 : Glexon := r.gds.foldl (fun (h : Glexon) d =>
        let (f, h1) := h.fresh
        h1.modCore n fun k => k.setG d (Config.freeWord f 0)) g1
      let g3 := g2.endOp n i (if o.bad then 2 else 0)
      match r.fail with
      | some a =>
        let g4 := g3.wr (Reg.MC_ENG_FAULT n) (putFld (putFld (g3.rd (Reg.MC_ENG_FAULT n)) 7 1 1) 0 7 eng.toNat)
        g4.engineFault n o.pc 5 a
      | none => g3
    | none => g) s

end Sys2Proof.Machine
end

