-- ==== Sys2Proof/Machine/CoreTick.lean ====
section
/-! DEFINITION. A core's tick from boundary to boundary: self-check, entry, withdrawal and restore, variant selection
(R199, R202, R254 to R260), and slots that no opcode spells (R226). -/

namespace Sys2Proof.Machine

/-- The withdrawn cores, lowest first. -/
def Glexon.withdrawnList (g : Glexon) : List Nat := onesBelow 24 (g.rd Reg.MC_WITHDRAWN).toNat

/-- The withdrawn core that was withdrawn first; of the same boundary, the lowest-numbered (R259). -/
def Glexon.firstWithdrawn (g : Glexon) : Option Nat :=
  g.withdrawnList.foldl (fun (acc : Option Nat) c =>
    match acc with
    | none => some c
    | some b => if (g.core c).wTick < (g.core b).wTick then some c else acc) none

/-- The Glexon selects the fence variant from the withdrawn cores (R258, R259). -/
def Glexon.selectVariant (g : Glexon) : Glexon :=
  let old := g.variantNo
  let many := decide (2 ≤ g.withdrawnList.length)
  let new := match g.firstWithdrawn with
    | none => 0
    | some c => 1 + c
  let had := bit (g.rd Reg.MC_VARIANT) 8
  let g1 := g.wr Reg.MC_VARIANT (word (new + (if many then 256 else 0)))
  let g2 := if new ≠ old then (g1.event 0x0521 31 [word old, word new, g.tk.tickNo]).applySusp else g1
  if many && !had then g2.event 0x0524 31 [g.rd Reg.MC_WITHDRAWN] else g2

/-- The cores that R259 treats as aborted from the start of every tick. -/
def Glexon.extraMask (g : Glexon) : BitVec 24 :=
  match g.firstWithdrawn with
  | some c => if 2 ≤ g.withdrawnList.length then
      BitVec.ofNat 24 (g.rd Reg.MC_WITHDRAWN).toNat &&& ~~~(BitVec.ofNat 24 (2 ^ c)) else 0
  | none => 0

/-- The cores at TDEAD (R202, R226, R227): those that have not joined the barrier abort, and what a core that a fault has
aborted still has outstanding is cancelled. -/
def Glexon.coresDeadline (g : Glexon) : Glexon :=
  (List.range 24).foldl (fun (h : Glexon) n =>
    let k := h.core n
    if k.inSet ∧ (k.phase = .issuing ∨ k.phase = .idle) then h.deadlineAbort n
    else if k.phase = .aborted ∧ (k.ops ≠ [] ∨ k.far ≠ []) then h.cancelOps n else h) g

/-- A core at a boundary (R199, R253, R254, R256, R260): requests take hold, and its self-check is due. -/
def Glexon.coreAtBoundary (g : Glexon) (n : Nat) : Glexon :=
  let k := g.core n
  let out := g.withdrawn n
  let restore := out && bit (g.rd Reg.MC_RESTORE_REQ) n
  let ask := !out && bit (g.rd Reg.MC_WITHDRAW_REQ) n
  (g.wr (Reg.MC_STALL n) (word (satN 32 k.stall))).setCore n
    { k with phase := .idle, wait := .none, isOpen := false, stall := 0, inSet := !out, check := !out || restore,
             restore := restore, lineMask := 0,
             wdraw := if ask && k.wdraw.isNone then some (g.tk.tickNo, 2) else k.wdraw }

/-- The cores at a boundary. -/
def Glexon.coresAtBoundary (g : Glexon) : Glexon :=
  let g1 : Glexon := (List.range 24).foldl Glexon.coreAtBoundary g
  let g2 := (g1.wr Reg.MC_WITHDRAW_REQ 0).wr Reg.MC_RESTORE_REQ 0
  let m := g2.extraMask
  ({ g2 with abortMask := m }).rolesPart m.toNat

/-- CORE_WITHDRAWN (R257): a pending withdrawal whose boundary has come takes effect, lower-numbered cores first. -/
def execCoreWithdrawn (core : BitVec 5) (s : State) : Answer :=
  onCore (fun g =>
    let n := core.toNat
    let due (c : Nat) : Bool := match (g.core c).wdraw with
      | some (b, _) => decide (b.toNat ≤ g.tk.tickNo.toNat)
      | none => false
    match (g.core n).wdraw with
    | none => g
    | some (_, cause) =>
      if 24 ≤ n ∨ g.tk.ticking = false ∨ due n = false ∨ (List.range n).any due then g
      else
        let g1 := g.wr Reg.MC_WITHDRAWN (putBit (g.rd Reg.MC_WITHDRAWN) n true)
        let g2 := g1.modCore n fun k =>
          { k with phase := .idle, wait := .none, isOpen := false, flight := [], far := [], tags := [], ops := [], inSet := false,
                   check := false, restore := false, resid := [], wdraw := none, wTick := g.tk.tickNo.toNat }
        let g3 := (g2.event 0x0520 n [word n, word cause]).selectVariant
        ({ g3 with abortMask := (g3.abortMask &&& ~~~(BitVec.ofNat 24 (2 ^ n))) ||| g3.extraMask }).rolesPart g3.extraMask.toNat) s

/-- SELF_CHECK (R254, R255, R257, R260): a core's known-answer check ends, naming the unit that failed if one did. -/
def execSelfCheck (core : BitVec 5) (fail : Option CheckFail) (s : State) : Answer :=
  onCore (fun g =>
    let n := core.toNat
    let k := g.core n
    if 24 ≤ n ∨ k.check = false then g
    else
      let g1 := g.setCore n { k with check := false, restore := false }
      let unit (f : CheckFail) : Word := word (f.unit.toNat * 256 + f.idx.toNat)
      match fail, k.restore with
      | none, false => g1
      | none, true =>
        let g2 := g1.wr Reg.MC_WITHDRAWN (putBit (g1.rd Reg.MC_WITHDRAWN) n false)
        let g3 := (g2.event 0x0525 n [word n]).selectVariant
        let g4 : Glexon := { g3 with abortMask := g3.abortMask &&& ~~~(BitVec.ofNat 24 (2 ^ n)) }
        g4.modCore n fun k => { k with inSet := true }
      | some f, true => g1.event 0x0526 n [word n, unit f]
      | some f, false =>
        let g2 := g1.wr Reg.MC_SELFCHK_FAIL (putBit (g1.rd Reg.MC_SELFCHK_FAIL) n true)
        let g3 := g2.event 0x0523 n [word n, unit f]
        let g4 := g3.modCore n fun k => { k with wdraw := if k.wdraw.isNone then some (g.tk.tickNo + 1, 1) else k.wdraw }
        g4.abortCore n cENGINE 0 k.pc 0 none 6) s

/-- CORE_ENTRY (R199, R202, R230): at TCYC 3,600 a core that is not withdrawn and has passed its self-check begins its work
at ENTRY, with cleared registers and idle tags. -/
def execCoreEntry (core : BitVec 5) (s : State) : Answer :=
  onCore (fun g =>
    let n := core.toNat
    let k := g.core n
    if 24 ≤ n ∨ g.tk.ticking = false ∨ g.withdrawn n ∨ k.check ∨ k.phase ≠ .idle ∨ bit g.abortMask n ∨ k.inSet = false then g
    else
      let e := SMap.get 0 g.variant.entry n
      let (f, g1) := g.fresh
      let t := g1.src n
      let g2 := if t.on && t.due.isNone then g1.setSrc n { t with due := some .wake } else g1
      g2.setCore n
        { k with phase := .issuing, wait := .none, pc := e, cyc := 3600, npc := e, ncyc := 3600, isOpen := false, g := [], v := [],
                 p := [], fpstat := 0, flight := [], far := [], stall := 0, tags := [], tiles := [], badTile := [], tileGen := f,
                 vecs := [], entry := e }) s

/-- MC_WITHDRAW_REQ (R256). -/
def execMcWithdrawReq (agent : BitVec 6) (mask : BitVec 24) (s : State) : Answer :=
  onCore (fun g => g.coreRequest Reg.MC_WITHDRAW_REQ agent.toNat mask) s

/-- MC_RESTORE_REQ (R260). -/
def execMcRestoreReq (agent : BitVec 6) (mask : BitVec 24) (s : State) : Answer :=
  onCore (fun g => g.coreRequest Reg.MC_RESTORE_REQ agent.toNat mask) s

/-! ### Slots that no opcode spells -/

/-- The scalar and E-slot forms, by opcode. -/
def scalarForm (op : Nat) : Option Form :=
  if op = 0 then some { op := 0, slots := 15, c := .unused }
  else if op = 3 ∨ op = 7 ∨ op = 8 ∨ op = 9 ∨ op = 0x1C then some (fGI op immAll)
  else if op = 0x0E ∨ op = 0x0F ∨ op = 0x10 then some (fGI op 63)
  else if op ≤ 0x17 then some (fG3 op)
  else if op ≤ 0x1A then some (fG2 op)
  else if op = 0x1B then some { op := op, slots := sl01, d := .g, imm := immAll }
  else if op = 0x1D then some { op := op, slots := sl01, d := .g, a := .g, b := .g, c := .sel }
  else if op ≤ 0x1F then some (fG4 op)
  else if op ≤ 0x25 then some (fCmp op)
  else if 0x28 ≤ op ∧ op ≤ 0x2D then some (fCmpI op immAll)
  else if op = 0x2E then some (fCmpI op 63)
  else if 0x30 ≤ op ∧ op ≤ 0x33 then some (fP3 op)
  else if op = 0x34 then some { op := op, slots := sl01, d := .p, a := .p }
  else if op = 0x35 then some { op := op, slots := sl01, d := .p, a := .g }
  else if op = 0x36 then some { op := op, slots := sl01, d := .g, a := .p }
  else if op = 0x40 ∨ op = 0x44 then some { op := op, slots := sl0, imm := immAll }
  else if 0x41 ≤ op ∧ op ≤ 0x43 then some { op := op, slots := sl0, a := .g, imm := immAll }
  else if op = 0x45 then some { op := op, slots := sl0 }
  else if 0x50 ≤ op ∧ op ≤ 0x56 then some (fLoad op)
  else if 0x58 ≤ op ∧ op ≤ 0x5B then some (fStore op)
  else if op = 0x60 then some { op := op, slots := sl1, d := .g, a := .g, b := .g, imm := immAll }
  else if op = 0x61 then some { op := op, slots := sl1, d := .g, a := .g, b := .g, c := .g }
  else if op = 0x70 then some { op := op, slots := sl01, d := .g, imm := 0xFFF }
  else if op = 0x71 then some { op := op, slots := sl01, a := .g, imm := 0xFFF }
  else none

/-- The E-slot forms, by opcode. -/
def engineForm (op : Nat) : Option Form :=
  if op = 0xC0 then some (fE op immAll 0 0 .tile .g .g)
  else if op = 0xC1 then some (fE op 0x3FF 0 0 .tile .g .unused)
  else if op = 0xC2 then some (fE op 0xFFF 0 0 .tile .g .unused)
  else if op = 0xC3 then some (fE op 0x7FF 0 0 .unused .g .unused)
  else if op = 0xC4 then some (fE op 0xFFFFFF3F 0 0 .unused .g .g)
  else if op = 0xC5 then some (fE op 0xFFFF 0 0 .unused .g .unused)
  else if op = 0xC6 then some (fE op 0xFFFF007F 0 0 .unused .g .unused)
  else if op = 0xC8 then some (fE op immAll 0 0 .g .unused .unused)
  else if (0xD0 ≤ op ∧ op ≤ 0xD3) ∨ op = 0xDF then some (fE op 0 0 0 .unused .unused .unused)
  else none

/-- Is an XOP's engine and operation code one that a row of the opcode table names? -/
def xopKnown (imm : Nat) : Bool :=
  let code := fldN imm 8 8
  match fldN imm 5 3 with
  | 0 => decide (1 ≤ code ∧ code ≤ 5)
  | 1 => decide (1 ≤ code ∧ code ≤ 2)
  | 2 => decide ((1 ≤ code ∧ code ≤ 3) ∨ (0x11 ≤ code ∧ code ≤ 0x13))
  | 3 => decide (1 ≤ code ∧ code ≤ 2)
  | 4 => decide (1 ≤ code ∧ code ≤ 4)
  | _ => false

/-- ILLEGAL (R226): the next slot of the program holds a word that no other command spells: an undefined opcode, a relation,
shift mode, engine or operation code outside its table, or a non-zero reserved or unused field. -/
def execIllegal (core : BitVec 5) (slot : BitVec 2) (first : Bool) (s : State) : Answer :=
  onCore (fun g =>
    let n := core.toNat
    let k := g.core n
    let w := (g.slotWord n (if first then k.npc else k.pc) slot.toNat).toNat
    let op := fldN w 56 8
    let imm := fldN w 0 32
    let o : SlotOp :=
      { core := core, slot := slot, first := first, d := BitVec.ofNat 6 (fldN w 50 6), a := BitVec.ofNat 6 (fldN w 44 6),
        b := BitVec.ofNat 6 (fldN w 38 6), c := BitVec.ofNat 6 (fldN w 32 6), imm := BitVec.ofNat 32 imm }
    let any : Form := { op := op, slots := 15, d := .g, a := .g, b := .g, c := .unused, imm := immAll }
    let bad : Slot → SlotRes := fun _ => .fault cILLEGAL none 0
    match scalarForm op, engineForm op, vectorOp op imm with
    | some f, _, _ => if f.legal o then g else g.slotOp f bad o
    | none, some f, _ =>
      if op = 0xC5 ∧ xopKnown imm = false then g.slotOp f semXop o
      else if f.legal o then g else g.slotOp f bad o
    | none, none, some (f, sem) =>
      if f.legal o ∧ op ≠ 0x8B ∧ op ≠ 0x8C then g
      else if f.legal o ∧ f.keyM ≠ 0 then g
      else g.slotOp f sem o
    | none, none, none => g.slotOp { any with d := .unused, a := .unused, b := .unused } bad o) s

end Sys2Proof.Machine
end

