-- ==== Sys2Proof/Machine/Replay.lean ====
section
/-! DEFINITION. A tile of audit replay and what a clean replay of it finds (R267 to R269, R274 to R276, R281 to R283). -/

namespace Sys2Proof.Machine

/-- A tile header (Table 9.1). -/
structure TileHdr where
  version : Nat
  site    : Nat
  used    : Nat
  m       : Nat
  n       : Nat
  k       : Nat
  fmtA    : Nat
  fmtB    : Nat
  outFmt  : Nat
  outKind : Nat
  encA    : Nat
  encB    : Nat
  encOut  : Nat
  block   : Nat
  profile : Nat
  aOff    : Nat
  aLen    : Nat
  bOff    : Nat
  bLen    : Nat
  oOff    : Nat
  oLen    : Nat
  digest  : Nat
  tag     : Nat
  deriving DecidableEq, Repr

/-- The header that 64 bytes spell. -/
def TileHdr.ofBytes (l : List Byte) : TileHdr :=
  let b (i n : Nat) : Nat := leAt l i n
  { version := b 0 2, site := b 2 2, used := b 4 4, m := b 8 2, n := b 10 2, k := b 12 4, fmtA := b 16 1, fmtB := b 17 1,
    outFmt := b 18 1, outKind := b 19 1, encA := b 20 1, encB := b 21 1, encOut := b 22 1, block := b 23 1, profile := b 24 4,
    aOff := b 28 4, aLen := b 32 4, bOff := b 36 4, bLen := b 40 4, oOff := b 44 4, oLen := b 48 4, digest := b 52 8, tag := b 60 4 }

/-- Element width in bits of a matrix format (R268). -/
def elemBits (f : Nat) : Nat := if f = 0 then 4 else if f ≤ 2 then 6 else if f ≤ 5 then 8 else if f = 6 then 16 else 32

/-- Element width in bits of an output format. -/
def outBits (f : Nat) : Nat := if f = 0 then 32 else 16

/-- Required length of an operand region: `rows` vectors of K elements, and their scales. -/
def TileHdr.reqLen (t : TileHdr) (rows fmt : Nat) : Nat :=
  rows * t.k * elemBits fmt / 8 + (if fmt ≤ 5 then rows * t.k / t.block else 0)

/-- L_A, L_B and L_OUT (R268). -/
def TileHdr.lenA (t : TileHdr) : Nat := t.reqLen t.m t.fmtA
/-- L_B. -/
def TileHdr.lenB (t : TileHdr) : Nat := t.reqLen t.n t.fmtB
/-- L_OUT. -/
def TileHdr.lenOut (t : TileHdr) : Nat := t.m * t.n * outBits t.outFmt / 8

/-- Engine cycles that an item needs (R278). -/
def TileHdr.cycles (t : TileHdr) : Nat :=
  let f (x : Nat) : Nat := if x = 0 then 1 else if x ≤ 5 then 2 else if x = 6 then 8 else 64
  (t.m + 63) / 64 * ((t.n + 63) / 64) * 16 * ((t.k + 255) / 256) * max (f t.fmtA) (f t.fmtB) * (if t.profile = 0 then 2 else 1)

/-- The dimensions and codes of a header are those of Table 9.1 and R239. -/
def TileHdr.formatOk (t : TileHdr) : Bool :=
  let mx := t.fmtA ≤ 5 ∨ t.fmtB ≤ 5
  decide (t.version = 1 ∧ 1 ≤ t.m ∧ t.m ≤ 256 ∧ 1 ≤ t.n ∧ t.n ≤ 256 ∧ 16 ≤ t.k ∧ t.k ≤ 16384 ∧ t.k % 16 = 0)
  && fmtPair t.fmtA t.fmtB && decide (t.outFmt ≤ 2 ∧ t.outKind ≤ 1 ∧ t.encA ≤ 2 ∧ t.encB ≤ 2 ∧ t.encOut ≤ 1)
  && (if mx then decide ((t.block = 16 ∨ t.block = 32) ∧ t.k % t.block = 0) else decide (t.block = 0))
  && decide (t.outKind = 1 ∨ (t.oOff = 0 ∧ t.oLen = 0))

/-- The regions of the slot that a header names; the output is one of them when OUT_KIND = 1. -/
def TileHdr.regions (t : TileHdr) : List (Nat × Nat) :=
  [(t.aOff, t.aLen), (t.bOff, t.bLen)] ++ (if t.outKind = 1 then [(t.oOff, t.oLen)] else [])

/-- The layout check of Table 9.8. Regions overlap when they share a byte. -/
def TileHdr.layoutOk (t : TileHdr) : Bool :=
  let rs := t.regions
  rs.all (fun r => decide (r.1 % 64 = 0 ∧ 64 ≤ r.1 ∧ r.1 + r.2 ≤ t.used))
  && rs.zipIdx.all fun (r, i) => rs.zipIdx.all fun (q, j) => decide (j ≤ i) || !decide (max r.1 q.1 < min (r.1 + r.2) (q.1 + q.2))

/-! ### Decoding (R269, R281, R449) -/

/-- A decoded region, or the subcode of Table 9.8. -/
inductive Decoded where
  | ok (l : List Byte)
  | bad (sub : Nat)
  deriving DecidableEq, Repr

/-- Decodes a DEFLATE region of required length `req`. -/
def decodeDeflate (l : List Byte) (req : Nat) : Decoded :=
  let r := inflateAll l req
  if r.status = 0 then (if r.out.length < req then .bad 1 else .ok r.out)
  else if r.status = 6 then .bad 1
  else if r.status = 7 ∨ r.status = 8 then .bad 2
  else .bad 3

/-- Expands the rows of a sparse region: `none` when the bytes run out; what is left after the rows. -/
def sparseRows (k w : Nat) : Nat → List Byte → Option (List Byte × List Byte)
  | 0, l => some ([], l)
  | r + 1, l =>
    let map := leNat (l.take (k / 8))
    let nz := popN k map
    let vb := (nz * w + 7) / 8
    if l.length < k / 8 + vb then none
    else
      let vals := leNat ((l.drop (k / 8)).take vb)
      let row := (List.range k).foldl (fun (a : Nat × Nat) i =>
        if map.testBit i then (a.1 + fldN vals (a.2 * w) w * 2 ^ (i * w), a.2 + 1) else a) (0, 0)
      (sparseRows k w r (l.drop (k / 8 + vb))).map fun x => (leBytes (k * w / 8) row.1 ++ x.1, x.2)

/-- Decodes a sparse region: rows, then the scales raw. -/
def decodeSparse (rows k fmt req : Nat) (l : List Byte) : Decoded :=
  let w := elemBits fmt
  match sparseRows k w rows l with
  | none => .bad 1
  | some (img, rest) =>
    let sc := req - rows * k * w / 8
    if rest.length < sc then .bad 1 else if sc < rest.length then .bad 2 else .ok (img ++ rest)

/-- Decodes a stored region. -/
def decodeRegion (enc rows k fmt req : Nat) (l : List Byte) : Decoded :=
  if enc = 0 then (if l.length < req then .bad 1 else if req < l.length then .bad 2 else .ok l)
  else if enc = 1 then decodeDeflate l req
  else decodeSparse rows k fmt req l

/-- The subcode of a region's decode, 0 for none. -/
def Decoded.code : Decoded → Nat
  | .ok _ => 0
  | .bad sub => sub

/-- The first decode check of Table 9.8 that some region fails: TILE_SHORT, TILE_LONG, then TILE_FORMAT (R280). -/
def decodeFail (cs : List Nat) : Nat := if 1 ∈ cs then 1 else if 2 ∈ cs then 2 else 3

/-! ### Replaying (R274 to R276, R282, R283) -/

/-- The built-in reference configuration, with the tile's formats (R276). -/
def refProfile (t : TileHdr) : Profile :=
  { id := 0xFFFFFFFF, fmtA := t.fmtA, fmtB := t.fmtB, block := t.block, intra := 0, chunk := 4096, innerE := 11, innerM := 52,
    innerR := 0, inter := 0, outerE := 11, outerM := 52, outerR := 0, outFmt := t.outFmt, outRnd := 0, ftz := 0, ovf := 0, outNan := 0 }

/-- An output format. -/
def outFFmt (o : Nat) : FFmt := if o = 0 then fp32 else if o = 1 then bf16 else fp16

/-- Conversion of an accumulated value to the output format (R274, R275). -/
def Profile.convert (p : Profile) (v : FVal) : Nat :=
  let f := outFFmt p.outFmt
  match v with
  | .nan => p.outNan % 2 ^ outBits p.outFmt
  | .inf s => f.infBits s
  | .fin s m e =>
    let r := f.roundFin (rmode p.outRnd) s m e
    if r.ovf then (if p.ovf.testBit 0 then f.infBits s - 1 else f.infBits s)
    else if p.ftz.testBit 2 && decide (fldN r.bits f.mb f.eb = 0) then f.signBit s
    else r.bits

/-- An operand: for each vector its element values and its scales. -/
def operand (p : Profile) (rows k fmt : Nat) (img : List Byte) : List (List FVal × List FVal) :=
  let rb := k * elemBits fmt / 8
  let sb := if fmt ≤ 5 then k / p.block else 0
  (List.range rows).map fun i =>
    (rowVals p fmt k ((img.drop (i * rb)).take rb),
     ((img.drop (rows * rb + i * sb)).take sb).map fun b => scaleVal b.toNat)

/-- The accumulated values of every output element, row by row. -/
def products (p : Profile) (a b : List (List FVal × List FVal)) : List FVal :=
  let mx := decide (p.fmtA ≤ 5) || decide (p.fmtB ≤ 5)
  let bs := if mx then p.block else 1
  a.flatMap fun x => b.map fun y => p.acc bs (blockSums bs x.1 y.1 x.2 y.2 mx)

/-- ULP distance of R283: the largest, truncated to 32 bits, and whether it exceeds a bound. `r` the rounded reference, `y` the
host's element, `m` the magnitude sum. -/
def ulpDist (o bound : Nat) (r y m : FVal) : Nat × Bool :=
  let far : Nat × Bool := (2 ^ 32 - 1, true)
  match r, y with
  | .nan, y => if y.isNan then (0, false) else far
  | .inf s, y => if y = .inf s then (0, false) else far
  | _, .nan => far
  | _, .inf _ => far
  | r, y =>
    let f := outFFmt o
    let x := if r.abs.cmp m < 0 then m else r.abs
    let emin : Int := if o = 2 then -14 else -126
    let u : Int := if x.isZero then emin - f.mb else max x.expo emin - f.mb
    match y.add r.neg with
    | .fin _ d e =>
      if u ≤ e then
        let v := d * 2 ^ (e - u).toNat
        (min v (2 ^ 32 - 1), decide (bound < v))
      else (min (d / 2 ^ (u - e).toNat) (2 ^ 32 - 1), decide (bound * 2 ^ (u - e).toNat < d))
    | _ => far

/-- What a replay found: the CRC-64 of its image, differing elements and the first, largest ULP distance, agreement. -/
structure Found where
  crc    : Word
  diffs  : Nat
  first  : Nat
  ulp    : Nat
  agrees : Bool
  deriving DecidableEq, Repr

/-- An output element out of an image. -/
def outElem (o : Nat) (img : List Byte) (i : Nat) : Nat := let w := outBits o / 8; leAt img (i * w) w

/-- The clean replay of a tile: `prof` is the profile's image, `tol` the ULP bound; or the subcode of a decode failure. -/
def replay (t : TileHdr) (prof : List Byte) (tol : Nat) (slot : List Byte) : Found ⊕ Nat :=
  let reg (off len : Nat) : List Byte := (slot.drop off).take len
  let out := if t.outKind = 0 then .ok []
    else decodeRegion t.encOut t.m t.n 7 t.lenOut (reg t.oOff t.oLen)
  let da := decodeRegion t.encA t.m t.k t.fmtA t.lenA (reg t.aOff t.aLen)
  let db := decodeRegion t.encB t.n t.k t.fmtB t.lenB (reg t.bOff t.bLen)
  match da, db, out with
  | .ok a, .ok b, .ok o =>
    if t.outKind = 1 ∧ crc64 o ≠ t.digest then .inr 6
    else
      let p := if t.profile = 0 then refProfile t else Profile.ofBytes prof
      let va := operand p t.m t.k t.fmtA a
      let vb := operand p t.n t.k t.fmtB b
      let vals := products p va vb
      let bits := vals.map fun v => if t.profile = 0 ∧ v.isNan then (outFFmt t.outFmt).qnan else p.convert v
      let img := (bits.map fun x => leBytes (outBits t.outFmt / 8) x).flatten
      let crc := crc64 img
      let bad := (List.range bits.length).filter fun i => bits.getD i 0 ≠ outElem t.outFmt o i
      let (n, f) := if t.outKind = 1 then (bad.length, bad.headD (2 ^ 32 - 1)) else (2 ^ 32 - 1, 2 ^ 32 - 1)
      if t.profile ≠ 0 then .inl { crc := word crc, diffs := n, first := f, ulp := 0, agrees := decide (crc = t.digest) }
      else
        let pos (x : List FVal × List FVal) : List FVal × List FVal := (x.1.map FVal.abs, x.2)
        let mags := products p (va.map pos) (vb.map pos)
        let ds := (bits.zip mags).zipIdx.map fun ((r, m), i) =>
          ulpDist t.outFmt tol ((outFFmt t.outFmt).decode r) ((outFFmt t.outFmt).decode (outElem t.outFmt o i)) m
        .inl { crc := word crc, diffs := n, first := f, ulp := ds.foldl (fun a d => max a d.1) 0, agrees := !ds.any (·.2) }
  | _, _, _ => .inr (decodeFail [da.code, db.code, out.code])

end Sys2Proof.Machine
end

