-- ==== Sys2Proof/Machine/Audit.lean ====
section
/-! DEFINITION. The Audit Replay Array (chapter 9): staging, profiles, work lists, results, verdicts and reports. -/

namespace Sys2Proof.Machine

/-- The Audit Replay Array changed. -/
def Glexon.modAu (g : Glexon) (f : Audit → Audit) : Glexon := { g with au := f g.au }

/-- A tile's header, slot bytes, site, grant tick and die. -/
def Tile9.hdr (t : Tile9) : TileHdr := TileHdr.ofBytes (t.r.payload.drop 32)

/-! ### Profiles (R272, R273) -/

/-- The image of profile entry `i`. -/
def Glexon.profImage (g : Glexon) (i : Nat) : List Byte := memBytes g.mem ((g.rd Reg.AU_PROF_BASE).toNat + 64 * i) 64

/-- Is entry `i` accepted? -/
def Glexon.profOk (g : Glexon) (i : Nat) : Bool := bit (g.rd (Reg.AU_PROF_OK (i / 64))) (i % 64)

/-- The accepted entry that holds a profile ID. -/
def Glexon.findProf (g : Glexon) (id : Nat) : Option Nat :=
  (List.range 256).find? fun i => g.profOk i && leAt (g.profImage i) 0 4 == id

/-- PROFILE_CHECK (R273): a write of an index to AU_PROF_CHECK starts a check. -/
def execProfileCheck (idx : Byte) (s : State) : Answer := onCore (fun g => g.profCheck idx.toNat) s

/-- PROFILE_CHECK_DONE (R273): the result code, and the mark that sets or clears the accept bit at the next boundary. -/
def execProfileCheckDone (s : State) : Answer :=
  onCore (fun g =>
    match g.au.check with
    | none => g
    | some i =>
      let l := g.profImage i
      let held (id : Nat) : Bool := (List.range 256).any fun j => j != i && g.profOk j && leAt (g.profImage j) 0 4 == id
      let c := profileCode l held
      let g1 := g.modAu fun a => { a with check := none, marks := a.marks ++ [(i, decide (c = 0))] }
      let g2 := g1.wr Reg.AU_PROF_RESULT (word (2 ^ 63 + i * 256 + c))
      if c = 0 then g2 else g2.event 0x0407 31 [word i, word c]) s

/-! ### Reports (R288 to R290) -/

/-- An AUDIT_VERDICT payload (Table 9.11). -/
def verdictPayload (t : Tile9) (v reason w1 w2 : Nat) (f : Witness) : List Byte :=
  let h := t.hdr
  t.r.payload.take 8 ++ leBytes 4 (t.r.src.toNat % 2 ^ 18) ++ leBytes 2 h.site ++ leBytes 1 v ++ leBytes 1 reason ++ leBytes 4 h.tag
  ++ leBytes 4 h.profile ++ leBytes 2 h.m ++ leBytes 2 h.n ++ leBytes 4 h.k ++ leBytes 1 h.fmtA ++ leBytes 1 h.fmtB ++ leBytes 1 h.outFmt
  ++ leBytes 1 (w2 * 16 + w1) ++ leBytes 4 f.diffs ++ leBytes 4 f.first ++ leBytes 4 f.ulp ++ leBytes 8 h.digest ++ leBytes 8 f.crc.toNat

/-- Counts a verdict. -/
def Glexon.countVerdict (g : Glexon) (v : Nat) : Glexon :=
  (g.modAu fun a => { a with verd := SMap.mod 0 a.verd v (· + 1) }).bump (Reg.AU_VERDICTS v) 1

/-- The tile leaves staging. -/
def Glexon.dropTile (g : Glexon) (id : Nat) : Glexon :=
  (g.modAu fun a => { a with tiles := a.tiles.filter fun t => t.id != id }).siennaRelease

/-- The tile changed. -/
def Glexon.modTile (g : Glexon) (id : Nat) (f : Tile9 → Tile9) : Glexon :=
  g.modAu fun a => { a with tiles := a.tiles.map fun t => if t.id = id then f t else t }

/-- Grant tick of a tile. -/
def Tile9.grant (t : Tile9) : Word := word (leAt t.r.payload 0 8)

/-- A tile is rejected with a subcode (R280, R281, R288). -/
def Glexon.rejectTile (g : Glexon) (t : Tile9) (sub : Nat) : Glexon :=
  let g1 := ((g.countVerdict 4).bump (Reg.AU_REJECTS sub) 1).modAu fun a => { a with rej := SMap.mod 0 a.rej sub (· + 1) }
  let none : Witness := { core := 15, crc := 0, diffs := 2 ^ 32 - 1, first := 2 ^ 32 - 1, ulp := 0 }
  let g2 :=
    if sub = 1 ∨ sub = 2 ∨ sub = 6 then
      let g3 := (g1.bumpFld (Reg.AU_PORT_CNT t.port) 48 16 1).alarm 0 0x0310 g1.tk.tickNo t.r.wsId.toNat t.r.wsGen.toNat 0
        (verdictPayload t 4 sub 15 15 none) true
      g3.event 0x0409 31 [word t.port, word sub]
    else g1.modAu fun a => { a with conf := SMap.put (0, 0) a.conf t.port ((SMap.get (0, 0) a.conf t.port).1 + 1, sub) }
  g2.dropTile t.id

/-- An attributed mismatch of a port (R290): DIE_SDC when SDC_N is reached within SDC_WINDOW. -/
def Glexon.attribute9 (g : Glexon) (t : Tile9) : Glexon :=
  let p := t.port
  let now := g.tk.tickNo
  let hits := now :: SMap.get [] g.au.hits p
  let ctl := g.rd Reg.AU_CTRL
  let win := hits.filter fun h => decide (now.toNat - h.toNat < fld ctl 32 16)
  let n := max 1 (fld ctl 0 4)
  let st := g.rd (Reg.AU_PORT_STAT p)
  let g1 := ((g.modAu fun a => { a with hits := SMap.put [] a.hits p win }).bumpFld (Reg.AU_PORT_CNT p) 32 16 1).wr
    (Reg.AU_PORT_STAT p) (putFld st 0 48 now.toNat)
  if n ≤ win.length ∧ bit st 63 = false then
    let die := t.r.src.toNat % 2 ^ 18
    let g2 := g1.wr (Reg.AU_PORT_STAT p) (putBit (g1.rd (Reg.AU_PORT_STAT p)) 63 true)
    let g3 := g2.alarm 0 0x0312 now t.r.wsId.toNat t.r.wsGen.toNat 0
      (leBytes 4 die ++ leBytes 4 win.length ++ leBytes 8 (win.getLast?.getD now).toNat ++ leBytes 8 now.toNat
        ++ leBytes 2 t.hdr.site ++ leBytes 6 0) true
    g3.event 0x0406 31 [word p, word die]
  else g1

/-- A verdict about a tile that ran (R284, R285, R288, Table 9.9); `w2`: the second witness's core, 15 for none. -/
def Glexon.verdict (g : Glexon) (t : Tile9) (v reason w2 : Nat) (w1 : Witness) : Glexon :=
  let p := word t.port
  let site := word t.hdr.site
  let rec9 (h : Glexon) : Glexon :=
    if v = 2 then h.amber 0 0x0310 h.tk.tickNo t.r.wsId.toNat t.r.wsGen.toNat 0 (verdictPayload t v reason w1.core w2 w1)
    else h.alarm 0 0x0310 h.tk.tickNo t.r.wsId.toNat t.r.wsGen.toNat 0 (verdictPayload t v reason w1.core w2 w1) true
  let g1 := g.countVerdict v
  let g2 :=
    if v = 0 then g1
    else if v = 1 then ((rec9 g1).event 0x0401 31 [p, site, t.grant]).attribute9 t
    else if v = 3 then ((rec9 g1).event 0x0402 31 [p, site, word w1.ulp]).attribute9 t
    else if reason = 1 then ((rec9 g1).event 0x0403 31 [word w1.core, p, site]).bumpFld (Reg.AU_CORE w1.core) 32 32 1
    else if reason = 2 then (rec9 g1).event 0x0404 31 [word w1.core, word w2, p]
    else (rec9 g1).event 0x0405 31 [p, site]
  g2.dropTile t.id

/-! ### Staging (R271, R280) -/

/-- Is a reserved bit of the payload prefix set (Table 9.2)? -/
def prefixReserved (l : List Byte) : Bool := decide (1 < leAt l 11 1) || decide (leAt l 24 8 ≠ 0)

/-- The first arrival check of Table 9.8 that a tile fails, or 0. -/
def Glexon.arrivalFail (g : Glexon) (l : List Byte) : Nat :=
  let t := TileHdr.ofBytes (l.drop 32)
  let slot := l.drop 32
  let total := t.lenA + t.lenB + t.lenOut
  let raw : List (Nat × Nat) := (if t.encA = 0 then [(t.aLen, t.lenA)] else []) ++ (if t.encB = 0 then [(t.bLen, t.lenB)] else [])
    ++ (if t.outKind = 1 ∧ t.encOut = 0 then [(t.oLen, t.lenOut)] else [])
  if (leAt l 11 1).testBit 0 ∨ g.image.replay.all (fun r => decide (r.bytes < total)) then 7
  else if t.formatOk = false ∨ t.site ≠ leAt l 8 2 ∨ prefixReserved l then 3
  else
    let prof := if t.profile = 0 then
        decide (t.outKind = 1) && bit (g.rd Reg.AU_CTRL) 62
      else match g.findProf t.profile with
        | none => false
        | some i =>
          let p := Profile.ofBytes (g.profImage i)
          decide (p.fmtA = t.fmtA ∧ p.fmtB = t.fmtB ∧ p.block = t.block ∧ p.outFmt = t.outFmt)
    if prof = false then 4
    else if t.layoutOk = false then 5
    else if raw.any (fun r => decide (r.1 < r.2)) then 1
    else if raw.any (fun r => decide (r.2 < r.1)) then 2
    else if t.outKind = 1 ∧ t.encOut = 0 ∧ crc64 ((slot.drop t.oOff).take t.oLen) ≠ t.digest then 6
    else 0

/-- AUDIT_TILE_ACCEPT (R271, R280): the oldest complete AUDIT_TILE of a port enters staging, or waits while it is full. -/
def execAuditTileAccept (p : BitVec 6) (s : State) : Answer :=
  onCore (fun g0 =>
    let g := g0.siennaRelease
    if g.stageFull then g
    else match g.popFifo p.toNat 2 with
      | none => g
      | some ((r0, _), g1) =>
        match g1.tapMeter p.toNat r0 with
        | (none, g2) => g2
        | (some r, g2) =>
          if g2.tk.ticking = false then g2.bumpFld Reg.RE_INGEST_BAD 16 16 1
          else if (g2.wsEntry 0 r.wsId.toNat).takes r.wsGen.toNat r.tick = false then g2.bump (Reg.RE_ROLE_STALE 0) 1
          else
            let t : Tile9 := { id := g2.au.nextId, port := p.toNat, r := r, arrived := g2.tk.tickNo, kind := .first, tries := 0,
                               cores := [], w1 := none, on := none }
            let f := g2.arrivalFail r.payload
            if f ≠ 0 then g2.rejectTile t f
            else (g2.modAu fun a => { a with nextId := a.nextId + 1, tiles := a.tiles ++ [t] }).bumpFld (Reg.AU_PORT_CNT p.toNat) 0 32 1) s

/-! ### Work lists (R277, R278) -/

/-- Is audit core `c` in service? -/
def Glexon.auditIn (g : Glexon) (c : Nat) : Bool := decide (c < 8) && !g.withdrawn c

/-- Is a replay line admitted, on a core in service? -/
def Glexon.lineOn (g : Glexon) (l : ReplayLine) : Bool :=
  g.auditIn l.core && match l.sepia with
    | none => true
    | some i => bit (g.rd Reg.EP_ADMIT) i

/-- The rank of an item in the queue of R277. -/
def ItemKind.rank : ItemKind → Nat
  | .witness => 0
  | .again => 1
  | .first => 2

/-- May a line take an item? Sepia lines take first replays, Ivory lines the others; a tile never returns to a core. -/
def lineTakes (l : ReplayLine) (t : Tile9) : Bool :=
  decide (t.on = none) && !(decide (t.kind ≠ .first) && t.cores.contains l.core) && (l.sepia.isSome == decide (t.kind = .first))

/-- Comes item `a` before item `b` in the queue? -/
def Tile9.before (a b : Tile9) : Bool :=
  let k (t : Tile9) : List Nat := if t.kind = .first then [2, t.arrived.toNat, t.port, t.r.seq.toNat] else [t.kind.rank, t.id]
  decide (k a < k b)

/-- A tile placed in queue order. -/
def insTile (t : Tile9) : List Tile9 → List Tile9
  | [] => [t]
  | h :: r => if t.before h then t :: h :: r else h :: insTile t r

/-- The queue of replay items. -/
def Audit.queue (a : Audit) : List Tile9 := a.tiles.foldl (fun q t => insTile t q) []

/-- Fills one line from the head of the queue while its budgets hold. -/
def Glexon.fillLine (g : Glexon) (l : ReplayLine) : Glexon :=
  let r := (g.au.queue.filter (lineTakes l)).foldl (fun (acc : Nat × Nat × Bool × List Nat) t =>
    let h := t.hdr
    let c := h.cycles
    let b := h.lenA + h.lenB + h.lenOut
    if acc.2.2.1 then acc
    else if acc.1 < c ∨ acc.2.1 < b then (acc.1, acc.2.1, true, acc.2.2.2)
    else (acc.1 - c, acc.2.1 - b, false, acc.2.2.2 ++ [t.id])) (l.cycles, l.bytes, false, [])
  let ids := r.2.2.2
  g.modAu fun a => { a with work := a.work ++ ids,
                            tiles := a.tiles.map fun t => if ids.contains t.id then { t with on := some (l.id, l.core) } else t }

/-- AUDIT_WORK_LIST (R278): the verdict unit fills the admitted lines of every audit core. -/
def execAuditWorkList (s : State) : Answer :=
  onCore (fun g =>
    if g.tk.ticking = false ∨ g.au.work ≠ [] then g
    else (g.image.replay.filter g.lineOn).foldl Glexon.fillLine g) s

/-- REPLAY_AGE_OUT (R277): first replays that have not started within AU_MAX_AGE ticks of their arrival are discarded. -/
def execReplayAgeOut (s : State) : Answer :=
  onCore (fun g =>
    let max := fld (g.rd Reg.AU_MAX_AGE) 0 16
    let old := g.au.tiles.filter fun t => decide (t.kind = .first ∧ t.on = none ∧ max < g.tk.tickNo.toNat - t.arrived.toNat)
    old.foldl (fun (h : Glexon) t =>
      ((h.dropTile t.id).bumpFld Reg.AU_UNREPLAYED 32 32 1).modAu fun a => { a with gone := a.gone + 1 }) g) s

/-! ### Results (R279, R282 to R284) -/

/-- The ULP bound of an output format (AU_TOL_ULP). -/
def Glexon.tolBound (g : Glexon) (o : Nat) : Nat :=
  let w := g.rd Reg.AU_TOL_ULP
  if o = 0 then fld w 32 16 else if o = 1 then fld w 0 16 else fld w 16 16

/-- An item without a result (R279, R284): a re-replay on another core in the next tick, until three attempts have failed. -/
def Glexon.replayFailed (g : Glexon) (t : Tile9) (c : Nat) : Glexon :=
  let n := t.tries + 1
  match t.w1 with
  | none =>
    if 3 ≤ n then ((g.dropTile t.id).bumpFld Reg.AU_UNREPLAYED 0 32 1).modAu fun a => { a with gone := a.gone + 1 }
    else (g.modTile t.id fun x => { x with kind := .again, tries := n, cores := c :: x.cores, on := none }).bump Reg.AU_REREPLAY 1
  | some w =>
    if 3 ≤ n then g.verdict t 2 3 15 w
    else (g.modTile t.id fun x => { x with kind := .again, tries := n, cores := c :: x.cores, on := none }).bump Reg.AU_REREPLAY 1

/-- A replay that ran (R284, Table 9.9). -/
def Glexon.replayRan (g0 : Glexon) (t : Tile9) (c : Nat) (f : Found) : Glexon :=
  let g := g0.bumpFld (Reg.AU_CORE c) 0 32 1
  let w : Witness := { core := c, crc := f.crc, diffs := f.diffs, first := f.first, ulp := f.ulp }
  match t.w1 with
  | none =>
    if f.agrees then g.verdict t 0 0 15 w
    else if (List.range 8).any (fun d => d != c && g.auditIn d && !t.cores.contains d) = false then g.verdict t 2 3 15 w
    else g.modTile t.id fun x => { x with kind := .witness, tries := 0, cores := c :: x.cores, w1 := some w, on := none }
  | some w1 =>
    if f.agrees then g.verdict t 2 1 c w1
    else if f.crc = w1.crc then g.verdict t (if t.hdr.profile = 0 then 3 else 1) 0 c w1
    else g.verdict t 2 2 c w1

/-- One item's result. -/
def Glexon.readResult (g : Glexon) (id : Nat) (o : ReplayOut) : Glexon :=
  match g.au.tiles.find? fun t => t.id == id with
  | none => g
  | some t =>
    let c := (t.on.getD (0, 0)).2
    match o with
    | .none => g.replayFailed t c
    | .residue => g.replayFailed t c
    | .poisoned => g.rejectTile t 8
    | .wrong crc d fi u x =>
      g.replayRan t c { crc := crc, diffs := d.toNat, first := fi.toNat, ulp := u.toNat,
                        agrees := if t.hdr.profile = 0 then !x else decide (crc.toNat = t.hdr.digest) }
    | .clean =>
      let prof := ((g.findProf t.hdr.profile).map g.profImage).getD []
      match replay t.hdr prof (g.tolBound t.hdr.outFmt) (t.r.payload.drop 32) with
      | .inr sub => g.rejectTile t sub
      | .inl f => g.replayRan t c f

/-- RESULT_READ (R279): the verdict unit reads the results of the work lists, in their order; an item past the list's end has
no result. -/
def execResultRead (outs : List ReplayOut) (s : State) : Answer :=
  onCore (fun g =>
    let g1 := g.au.work.zipIdx.foldl (fun (h : Glexon) x => h.readResult x.1 (outs.getD x.2 .none)) g
    g1.modAu fun a => { a with work := [], tiles := a.tiles.map fun t => { t with on := none } }) s

/-! ### The boundary (R273, R289) -/

/-- The array at the boundary that ends tick `n`: AUDIT_SUMMARY, TILE_CONFIG_REJECT, and accept bits. -/
def Glexon.auBoundary (g : Glexon) (n : Word) : Glexon :=
  let a := g.au
  let g1 := if g.roleOn 0 then
      g.amber 0 0x0311 n 0 0 0
        (((List.range 5).map fun v => leBytes 4 (SMap.get 0 a.verd v)).flatten
          ++ ((List.range 7).map fun i => leBytes 4 (SMap.get 0 a.rej (i + 1))).flatten
          ++ leBytes 4 a.gone ++ leBytes 4 a.tiles.length ++ leBytes 4 (fld (g.rd Reg.EP_AUDIT_THR) 0 32)
          ++ leBytes 4 (g.image.replay.filter g.lineOn).length)
    else g
  let g2 := a.conf.foldl (fun (h : Glexon) x => h.event 0x040A 31 [word x.1, word x.2.2, word x.2.1]) g1
  let g3 := a.marks.foldl (fun (h : Glexon) m =>
    let r := Reg.AU_PROF_OK (m.1 / 64)
    h.wr r (putBit (h.rd r) (m.1 % 64) m.2)) g2
  g3.modAu fun a => { a with verd := [], rej := [], gone := 0, conf := [], marks := [] }

end Sys2Proof.Machine
end

