-- ==== Sys2Proof/Machine/EngineOps.lean ====
section
/-! DEFINITION. What the shared engines' operations have in common (R245): the descriptor, its status word, sources and
destinations. -/

namespace Sys2Proof.Machine

/-- What an operation of a shared engine leaves: the Glexon, its descriptor as written back, the tag's status, and the bytes
it has read and written. -/
structure EngRes where
  g    : Glexon
  desc : List Byte
  st   : BitVec 2 := 0
  rd   : Nat := 0
  wr   : Nat := 0
  deriving DecidableEq, Repr

/-- An operation rejected with a status: its tag takes XERR. -/
def xerr (g : Glexon) (d : List Byte) (status : Nat) : EngRes := { g := g, desc := setW d 48 status, st := 3 }

/-- An operation of an engine that is off. -/
def xoff (g : Glexon) (d : List Byte) (eng : Nat) : EngRes := xerr g d (Config.xopOff eng)

/-- A context of a shared engine's operation: the issuing core, the operation, and what the SEC-DED code found. -/
structure EngCtx where
  n   : Nat
  o   : EngOp
  ecc : Ecc
  deriving DecidableEq, Repr

/-- An engine's read of `len` bytes of memory: the bytes, whether they are poisoned, and the Glexon. -/
def EngCtx.read (c : EngCtx) (g : Glexon) (a len : Nat) : List Byte × Bool × Glexon :=
  let p := g.poisoned a len || (decide (c.ecc = .uncorrectable) && decide (addrKind a = .hbm))
  let (l, g1) := g.busRead (some (c.n, c.o.tag)) a len
  (l, p, g1.eccRead a c.ecc)

/-- An engine's write of bytes: unspecified where another access overlapped the operation, and poisoned with its source. -/
def EngCtx.write (c : EngCtx) (g : Glexon) (a : Nat) (l : List Byte) (bad : Bool) : Glexon := g.deliver c.n c.o a l bad

end Sys2Proof.Machine
end

