-- ==== Sys2Proof/Machine/Digest.lean ====
section
/-! DEFINITION. Digest Unit operations (R294 to R296, R308). -/

namespace Sys2Proof.Machine

/-- The width in bytes of an integer format: 5 INT32, 6 INT16, 7 INT8, 8 UINT8 (Table 3.6). -/
def m61Width (fmt : Nat) : Nat := if fmt = 5 then 4 else if fmt = 6 then 2 else 1

/-- The elements of a byte string as integers. -/
def m61Elems (fmt : Nat) (l : List Byte) : List Int :=
  (chunks (m61Width fmt) (l.length / m61Width fmt) l).map fun b =>
    if fmt = 8 then (leNat b : Int) else sextN (8 * m61Width fmt) (leNat b)

/-- The result of a Digest Unit operation over its source: codes 1 and 0x11 CRC-64, 2 and 0x12 CRC-32C, 3 and 0x13 M61. -/
def digestOf (code : Nat) (d l : List Byte) : Nat :=
  if code % 16 = 1 then crc64 l
  else if code % 16 = 2 then crc32c l
  else m61digest (leAt d 16 8 % 2 ^ 61) (leAt d 24 8) (m61Elems (leAt d 12 1) l)

/-- An operation of the Digest Unit (Table 10.6): status 0 OK, 1 MISMATCH, 2 BAD_DESC, 3 BAD_ADDR, 4 POISONED,
5 BAD_FORMAT. -/
def dgOp (c : EngCtx) (code : Nat) (d : List Byte) (g : Glexon) : EngRes :=
  let len := leAt d 8 4
  let fmt := leAt d 12 1
  let m61 := decide (code % 16 = 3)
  if bit (g.rd Reg.DG_CTRL) 63 = false then xoff g d 2
  else if len = 0 ∨ 16777216 < len ∨ zeros d 13 16 = false ∨ zeros d 52 64 = false
      ∨ (m61 ∧ 2 ^ 61 ≤ leAt d 16 8) then xerr g d 2
  else if m61 ∧ (fmt < 5 ∨ 8 < fmt) then xerr g d 5
  else if m61 ∧ len % m61Width fmt ≠ 0 then xerr g d 2
  else if memRange (leAt d 0 8) len = false then xerr g d 3
  else
    let (l, bad, g1) := c.read g (leAt d 0 8) len
    if bad then { g := g1, desc := setW d 48 4, st := 2, rd := len }
    else
      let v := digestOf code d l
      let d1 := putAt d 40 (leBytes 8 v)
      let ok := code < 16 || decide (v = leAt d 32 8)
      { g := g1, desc := setW d1 48 (if ok then 0 else 1), rd := len }

end Sys2Proof.Machine
end

