-- ==== Sys2Proof/Machine/Scoring.lean ====
section
/-! DEFINITION. The Ensemble Scorer (chapter 12): feature tables, model images, evaluation, alarms, decode rings and the item
table. -/

namespace Sys2Proof.Machine

/-! ### FP32 comparison -/

/-- Is `a < b`, both FP32 and neither NaN? -/
def f32lt (a b : Nat) : Bool :=
  let x := fp32.decode a
  let y := fp32.decode b
  !x.isNan && !y.isNan && decide (x.cmp y < 0)

/-- Is `a ≥ b`, both FP32 and neither NaN? -/
def f32ge (a b : Nat) : Bool :=
  let x := fp32.decode a
  let y := fp32.decode b
  !x.isNan && !y.isNan && decide (0 ≤ x.cmp y)

/-- The canonical FP32 NaN. -/
def nan32 : Nat := 0x7FC00000

/-! ### Feature tables and the feature cache (R351 to R355) -/

/-- ES_TABLE_DIM_t.VALID. -/
def Glexon.tblValid (g : Glexon) (t : Nat) : Bool := bit (g.rd (Reg.ES_TABLE_DIM t)) 63
/-- Entities E of a table. -/
def Glexon.tblE (g : Glexon) (t : Nat) : Nat := fld (g.rd (Reg.ES_TABLE_DIM t)) 32 19
/-- Features F of a table. -/
def Glexon.tblF (g : Glexon) (t : Nat) : Nat := fld (g.rd (Reg.ES_TABLE_DIM t)) 0 9
/-- Row stride S_F of a table. -/
def Glexon.tblS (g : Glexon) (t : Nat) : Nat := (4 * g.tblF t + 63) / 64 * 64
/-- Address of a row. -/
def Glexon.rowAt (g : Glexon) (t e : Nat) : Nat := fld (g.rd (Reg.ES_TABLE_BASE t)) 0 48 + e * g.tblS t
/-- Address of a stamp. -/
def Glexon.stampAddr (g : Glexon) (t e : Nat) : Nat :=
  fld (g.rd (Reg.ES_TABLE_BASE t)) 0 48 + g.tblE t * g.tblS t + 8 * e

/-- Places a row in the feature cache of 16 MiB; where it is full, rows give way. -/
def Glexon.cachePut (g : Glexon) (t e : Nat) (row : List Byte) : Glexon :=
  let rec room : Nat → Nat → SMap (List Byte) → SMap (List Byte) × Nat
    | 0, k, m => (m, k)
    | f + 1, k, m =>
      if (m.map fun x => x.2.length).sum + row.length ≤ 16777216 then (m, k)
      else room f (k + 1) (m.eraseIdx (Config.cacheVictim k % max 1 m.length))
  let i := 262144 * t + e
  let m0 := SMap.put [] g.es.cache i []
  let (m, k) := room (m0.length + 1) g.freeN m0
  ({ g with freeN := k }).modEs fun s => { s with cache := SMap.put [] m i row }

/-- The row of an entity followed by its stamp, as the Scorer sees them: from the cache, else from record memory. -/
def Glexon.rowGet (g : Glexon) (t e : Nat) : List Byte × Glexon :=
  match SMap.get [] g.es.cache (262144 * t + e) with
  | [] =>
    let l := memBytes g.mem (g.rowAt t e) (g.tblS t) ++ memBytes g.mem (g.stampAddr t e) 8
    (l, (g.cachePut t e l).bump Reg.ES_CACHE_MISS 1)
  | l => (l, g)

/-- A row and stamp written, to the cache and through it. -/
def Glexon.rowPut (g : Glexon) (t e : Nat) (l : List Byte) : Glexon :=
  let n := g.tblS t
  ((g.memPut (g.rowAt t e) (l.take n)).memPut (g.stampAddr t e) (l.drop n)).cachePut t e l

/-- A row is poisoned. -/
def Glexon.rowBad (g : Glexon) (t e : Nat) : Bool := g.poisoned (g.rowAt t e) (g.tblS t) || g.poisoned (g.stampAddr t e) 8

/-- Feature `f` of a row. -/
def feature (l : List Byte) (f : Nat) : Nat := leAt l (4 * f) 4

/-- One update entry (R353): the feature's new value. -/
def updFeature (op old v : Nat) : Nat :=
  if op = 0 then v
  else if op = 1 then f32add old v
  else (fp32.minMaxE (op = 3) old v).bits

/-- FEAT_UPDATE's list: entries applied and skipped. A row whose stamp is not VALID has never been written, so its features
are NaN (R352). -/
def Glexon.featList (t : Nat) (tick : Word) : List (List Byte) → Glexon × Nat × Nat → Glexon × Nat × Nat
  | [], r => r
  | x :: rest, (g, done, skip) =>
    let e := leAt x 0 4
    let f := leAt x 4 2
    let op := leAt x 6 1
    if g.tblE t ≤ e ∨ g.tblF t ≤ f ∨ 3 < op then
      Glexon.featList t tick rest (g.bump Reg.ES_UPD_SKIP 1, done, skip + 1)
    else
      let (l, g1) := g.rowGet t e
      let n := g.tblS t
      let row := if (leAt l n 8).testBit 63 then l.take n
        else ((List.range (g.tblF t)).flatMap fun _ => leBytes 4 nan32) ++ List.replicate (n - 4 * g.tblF t) 0
      let row1 := putAt row (4 * f) (leBytes 4 (updFeature op (feature row f) (leAt x 8 4)))
      Glexon.featList t tick rest
        (g1.rowPut t e (row1 ++ leBytes 8 (2 ^ 63 + tick.toNat % 2 ^ 48)), done + 1, skip)

/-! ### Model images (R356 to R358) -/

/-- The stride of a tree block of depth `d`. -/
def treeStride (d : Nat) : Nat := 64 * ((12 * 2 ^ d - 8 + 63) / 64)

/-- The model that an image's bytes spell. -/
def Model.ofBytes (l : List Byte) : Model :=
  let d := leAt l 10 1
  let n := 2 ^ d - 1
  { id := leAt l 4 4, table := leAt l 11 1, depth := d, base := leAt l 12 4,
    trees := (List.range (leAt l 8 2)).map fun t =>
      let b := (l.drop (64 + t * treeStride d)).take (treeStride d)
      ((List.range n).map fun i => leAt b (8 * i) 8, (List.range (n + 1)).map fun i => leAt b (8 * n + 4 * i) 4) }

/-- An FP32 value that is NaN or infinite. -/
def badLeaf (v : Nat) : Bool := (fp32.decode v).isNan || (fp32.decode v).isInf

/-- The model image check of Table 12.4: the first rule that fails, or 0. -/
def Glexon.modelCheckCode (g : Glexon) (a : Nat) : Nat :=
  let hbm (n : Nat) : Bool := memRange a n && decide (addrKind a = .hbm)
  if hbm 64 = false then 1
  else
    let h := memBytes g.mem a 64
    let len := leAt h 20 4
    if hbm len = false then 1
    else if leAt h 60 4 ≠ crc32c (h.take 60) then 2
    else
      let l := memBytes g.mem a len
      let t := leAt h 8 2
      let d := leAt h 10 1
      let id := leAt h 4 4
      if leAt h 56 4 ≠ crc32c (l.drop 64) then 2
      else if leAt h 0 2 ≠ 1 ∨ t < 1 ∨ 8192 < t ∨ d < 1 ∨ 8 < d ∨ id < 1 ∨ 0xFFFFFFFE < id ∨ leAt h 16 4 ≠ treeStride d
          ∨ len ≠ 64 + t * treeStride d ∨ 7 < leAt h 11 1 then 3
      else
        let m := Model.ofBytes l
        let f := g.tblF m.table
        let nodes := m.trees.flatMap fun x => x.1
        let leaves := m.trees.flatMap fun x => x.2
        let always (w : Nat) : Bool := w.testBit 41
        if g.tblValid m.table = false then 4
        else if nodes.any fun w => !always w && decide (f ≤ fldN w 32 8) then 5
        else if nodes.any fun w => !always w && (fp32.decode (fldN w 0 32)).isNan then 6
        else if badLeaf m.base ∨ leaves.any badLeaf then 7
        else if leAt h 2 2 ≠ 0 ∨ zeros h 24 56 = false
            ∨ nodes.any (fun w => decide (fldN w 42 22 ≠ 0) || (always w && decide (fldN w 0 41 ≠ 0))) then 8
        else 0

/-- MODEL_CHECK (R358). -/
def execModelCheck (k : BitVec 4) (addr : Word) (s : State) : Answer := onCore (fun g => g.modelCheck k.toNat addr) s

/-- MODEL_CHECK_DONE (R358): the check of a slot completes. -/
def execModelCheckDone (k : BitVec 4) (s : State) : Answer :=
  onCore (fun g =>
    let m := g.modelSlot k.toNat
    match m.check with
    | none => g
    | some a =>
      let c := g.modelCheckCode a
      if c = 0 then
        let h := memBytes g.mem a (memNat g.mem (a + 20) 4)
        g.setSlot k.toNat { m with check := none, next := some (Model.ofBytes h) } 0
      else (g.setSlot k.toNat { m with check := none } c).event 0x0530 25 [word k.toNat, word c]) s

/-- INV in ES_CTRL (R352): the feature cache is emptied at the next boundary. -/
def execInv (s : State) : Answer :=
  onCore (fun g => (g.wr Reg.ES_CTRL (putBit (g.rd Reg.ES_CTRL) 62 true)).modEs fun e => { e with inv := true }) s

/-! ### Evaluation (R359 to R362) -/

/-- The decision bit of a node. -/
def nodeBit (row : List Byte) (w : Nat) : Bool :=
  let x := feature row (fldN w 32 8)
  if w.testBit 41 then false
  else if (fp32.decode x).isNan then w.testBit 40
  else !f32lt x (fldN w 0 32)

/-- The leaf number that a row reaches: node `i`, `l` so far, levels left. -/
def leafNo (nodes : List Nat) (row : List Byte) : Nat → Nat → Nat → Nat
  | 0, _, l => l
  | d + 1, i, l =>
    let b := (nodeBit row (nodes.getD i 0)).toNat
    leafNo nodes row d (2 * i + 1 + b) (2 * l + b)

/-- The score of a row. -/
def Model.score (m : Model) (row : List Byte) : Nat :=
  m.trees.foldl (fun acc t => f32add acc (t.2.getD (leafNo t.1 row m.depth 0 0) 0)) m.base

/-! ### Decode rings and the item table (R375, R376) -/

/-- The pairs of a die's ring that still count. -/
def Glexon.ringLive (g : Glexon) (p : Nat) : List DecPair :=
  let win := max 1 (fld (g.rd Reg.ES_CTRL) 0 16)
  (SMap.get [] g.es.dec p).filter fun d => decide (g.tk.tickNo.toNat ≤ d.tick + win) && !g.flagged d.id

/-- DECODE_PAIR_EXPIRE (R375): pairs too old, or of a flagged item, leave their rings. -/
def execDecodePairExpire (s : State) : Answer :=
  onCore (fun g => g.modEs fun e =>
    { e with dec := (List.range 64).foldl (fun m p => SMap.put [] m p (g.ringLive p)) e.dec }) s

/-- ITEM_EXPIRE (R376): entries of the item table not seen for ITEM_TTL ticks are freed. -/
def execItemExpire (s : State) : Answer :=
  onCore (fun g => g.modEs fun e =>
    { e with items := e.items.filter fun i =>
        decide (g.tk.tickNo.toNat ≤ i.last.toNat + fld (g.rd Reg.ES_ITEM_CFG) 0 32) }) s

/-! ### Alarm rules (R371 to R373) -/

/-- An alarm rule (Table 12.11). -/
structure Rule where
  id     : Nat
  kind   : Nat
  source : Nat
  gateF  : Nat
  gateT  : Nat
  learn  : Bool
  up     : Nat
  clr    : Nat
  nUp    : Nat
  nClr   : Nat
  gMin   : Nat
  deriving DecidableEq, Repr

/-- The rule that 32 bytes spell. -/
def Rule.ofBytes (l : List Byte) : Rule :=
  { id := leAt l 0 2, kind := leAt l 2 1, source := leAt l 3 1, gateF := leAt l 4 2, gateT := leAt l 6 1,
    learn := (leAt l 7 1).testBit 0, up := leAt l 8 4, clr := leAt l 12 4, nUp := leAt l 16 1, nClr := leAt l 17 1,
    gMin := leAt l 20 4 }

/-- Places a rule by rising ID. -/
def insRule (r : Rule) : List Rule → List Rule
  | [] => [r]
  | h :: t => if r.id < h.id then r :: h :: t else h :: insRule r t

/-- The alarm spec of a role slot, in ascending rule ID: entries with N_RAISE = 0 hold no rule. -/
def Glexon.rules (g : Glexon) (k : Nat) : List Rule :=
  let a := fld (g.rd Reg.ES_ALARM_SPEC) 0 48 + 2048 * k
  if memRange a 2048 then
    (((List.range 64).map fun i => Rule.ofBytes (memBytes g.mem (a + 32 * i) 32)).filter fun r => decide (r.nUp ≠ 0)).foldl
      (fun l r => insRule r l) []
  else []

/-- ALARM_MAX. -/
def Glexon.alarmMax (g : Glexon) : Nat := max 1 (fld (g.rd Reg.ES_CTRL) 16 8)

/-- An alarm record's type by the rule's kind. -/
def alarmType (kind : Nat) : Nat := if kind = 0 then 0x0343 else if kind ≤ 2 then 0x0340 else if kind = 3 then 0x0341 else 0x0342

/-- The payload of an alarm (Table 12.12). -/
def alarmPayload (r : Rule) (cleared : Bool) (entity : Nat) (since : Word) (score model gate : Nat) : List Byte :=
  leBytes 2 r.id ++ leBytes 1 r.kind ++ leBytes 1 (cleared.toNat + (decide (r.gateF ≠ 0xFFFF)).toNat * 2) ++ leBytes 4 entity
  ++ leBytes 8 since.toNat ++ leBytes 4 score ++ leBytes 4 (if cleared then r.clr else r.up) ++ leBytes 4 model ++ leBytes 4 gate
  ++ leBytes 8 0 ++ (List.range 4).flatMap (fun _ => leBytes 4 0xFFFFFFFF) ++ leBytes 8 0

/-- Forms an alarm record of slot `k`, releases it, and keeps it for the alarm slot pair. -/
def Glexon.raiseRec (g : Glexon) (k typ : Nat) (n : Word) (payload : List Byte) : Glexon :=
  if g.indexValid then
    let (r, g1) := g.newRec k typ 9 n 0 0 (if (g.role k).part then flagPartial else 0) payload
    (g1.alarmOut k r false).modRole k fun t => { t with alarms := t.alarms ++ [r] }
  else g

/-- The port of this leaf whose die has an index. -/
def Glexon.portOfDie (g : Glexon) (d : Nat) : Option Nat := (List.range 64).find? fun p => g.dieAt p == some d

/-- The gate feature of an entity, FP32; NaN with no gate. A DECODE_STRAGGLER rule gates on the ring's live count. -/
def Glexon.gateVal (g : Glexon) (r : Rule) (e : Nat) : Nat × Glexon :=
  if r.gateF = 0xFFFF then (nan32, g)
  else if r.kind = 2 then
    (match g.portOfDie e with
      | some p => f32of (FVal.ofInt (g.ringLive p).length)
      | none => nan32, g)
  else if g.tblValid r.gateT = false ∨ 7 < r.gateT ∨ g.tblE r.gateT ≤ e ∨ g.tblF r.gateT ≤ r.gateF then (nan32, g)
  else
    let (l, g1) := g.rowGet r.gateT e
    (feature l r.gateF, g1)

/-- One evaluated entity of a rule of slot `k` in data tick `n` (R372, R373). -/
def Glexon.alarmStep (g : Glexon) (k : Nat) (r : Rule) (e score model : Nat) (n : Word) : Glexon :=
  let i := (k * 65536 + r.id) * 262144 + e
  let a := SMap.get {} g.es.alarms i
  let set (h : Glexon) (x : AlarmSt) : Glexon := h.modEs fun s => { s with alarms := SMap.put {} s.alarms i x }
  if (fp32.decode score).isNan then g
  else if a.raised then
    if f32lt score r.clr then
      let since := if a.down = 0 then n else a.since
      let down := min 255 (a.down + 1)
      if r.nClr ≤ down then
        let g1 := (set g {}).raiseRec k (alarmType r.kind) n (alarmPayload r true e since score model (g.gateVal r e).1)
        if r.kind = 3 then g1.bumpFld Reg.MC_CTX_ALARMS 0 32 1 else g1
      else set g { a with down := down, since := since }
    else set g { a with down := 0 }
  else if f32ge score r.up then
    let since := if a.up = 0 then n else a.since
    let up := min 255 (a.up + 1)
    let (gate, g1) := g.gateVal r e
    if r.nUp ≤ up ∧ (r.gateF = 0xFFFF ∨ f32ge gate r.gMin) then
      if SMap.get 0 g1.es.raised k < g1.alarmMax then
        let g2 := (set g1 { raised := true }).modEs fun s => { s with raised := SMap.mod 0 s.raised k (· + 1) }
        let g3 := (g2.raiseRec k (alarmType r.kind) n (alarmPayload r false e since score model gate)).bumpFld
          Reg.ES_ALARM_STAT 32 32 1
        if r.kind = 3 then g3.bumpFld Reg.MC_CTX_ALARMS 32 32 1 else g3
      else
        ((set g1 { a with up := r.nUp, since := since }).modEs fun s =>
          { s with deferred := SMap.mod 0 s.deferred k (· + 1) }).bumpFld Reg.ES_ALARM_STAT 0 32 1
    else set g1 { a with up := up, since := since }
  else set g { a with up := 0 }

/-- Places an (entity, score) pair by rising entity. -/
def insScore (x : Nat × Nat) : List (Nat × Nat) → List (Nat × Nat)
  | [] => [x]
  | h :: t => if x.1 < h.1 then x :: h :: t else h :: insScore x t

/-- The alarm rules of every active role that the scores of a model slot feed. -/
def Glexon.scoresIn (g : Glexon) (slot model : Nat) (n : Word) (l : List (Nat × Nat)) : Glexon :=
  let es := l.foldl (fun a x => insScore x a) []
  (List.range 4).foldl (fun (h : Glexon) k =>
    if h.roleOn k then
      ((h.rules k).filter fun r => decide (r.kind ≤ 2) && decide (r.source = slot)).foldl (fun (h : Glexon) r =>
        es.foldl (fun (h : Glexon) x => h.alarmStep k r x.1 x.2 model n) h) h
    else h) g

/-- The rules of kind DRIFT, and of kind SCORE on learned scores, read the sequences that have committed data tick `n`
(R365 to R369). -/
def Glexon.seqScores (g : Glexon) (k : Nat) (n : Word) : Glexon :=
  let susp (q : Nat) : Bool := bit (g.rd (if q < 64 then Reg.MC_CTX_SUSP_0 else Reg.MC_CTX_SUSP_1)) (q % 64)
  let base := fld (g.rd Reg.MC_CTX_BASE) 0 48
  let live (q : Nat) : List Byte :=
    let a := base + 16384 * q
    memBytes g.mem (if memNat g.mem a 8 < memNat g.mem (a + 8192) 8 then a + 8192 else a) 48
  let seqs := (g.image.seqs.filter fun s => decide (s.slot = k) && !susp s.seq).filter fun s =>
    decide (leAt (live s.seq) 0 8 = n.toNat) && decide (n ≠ 0)
  let drift : List (Nat × Nat) := (seqs.filter fun s => s.cusum && (leAt (live s.seq) 46 1).testBit 0).map fun s =>
    (s.seq, (fp32.minMaxE false (leAt (live s.seq) 32 4) (leAt (live s.seq) 36 4)).bits)
  let learned : List (Nat × Nat) := (seqs.filter fun s => s.learn).map fun s => (s.seq, leAt (live s.seq) 40 4)
  ((g.rules k).filter fun r => decide (r.kind = 3 ∨ (r.kind = 0 ∧ r.source = 0xFF))).foldl (fun (h : Glexon) r =>
    ((if r.kind = 0 ∨ r.learn then learned else drift).foldl (fun a x => insScore x a) []).foldl
      (fun (h : Glexon) x => h.alarmStep k r x.1 x.2 0 n) h) g

/-! ### Bad data items (R376) -/

/-- A sighting of a LONG_SAMPLE at the apex: sample ID, die, data epoch, data tick. -/
def Glexon.itemSeen (g : Glexon) (id die epoch : Nat) (n : Word) : Glexon :=
  let add (x : Nat) (l : List Nat) : List Nat := if l.contains x ∨ 4 ≤ l.length then l else l ++ [x]
  let old := g.es.items.find? fun i => i.id == id
  let it : Item := match old with
    | some i => { i with dies := add die i.dies, epochs := add epoch i.epochs, last := n }
    | none => { id := id, dies := [die], epochs := [epoch], first := n, last := n, flagged := false }
  let others := g.es.items.filter fun i => i.id != id
  let full := decide (65536 ≤ others.length)
  let oldest := others.foldl (fun (a : Option Item) i => match a with
    | none => some i
    | some b => if i.last.toNat < b.last.toNat then some i else some b) none
  let others1 := if full then others.filter fun i => some i.id ≠ oldest.map (·.id) else others
  let flag := !it.flagged && decide (2 ≤ it.dies.length) && decide (2 ≤ it.epochs.length)
  let g1 := g.modEs fun e =>
    { e with items := others1 ++ [{ it with flagged := it.flagged || flag }], displaced := if full then e.displaced + 1 else e.displaced }
  if flag = false then g1
  else
    let r := ((g1.rules 3).find? fun r => r.kind = 4).getD (Rule.ofBytes (leBytes 2 0 ++ [4, 0, 0xFF, 0xFF]))
    let p := alarmPayload { r with gateF := 0xFFFF } false 0 it.first 0 0 nan32
    let p1 := putAt (putAt p 32 (leBytes 4 id ++ leBytes 4 it.dies.length)) 40 (it.dies.flatMap fun d => leBytes 4 d)
    let g2 := g1.raiseRec 3 0x0342 n p1
    let g3 := g2.event 0x0535 25 [word id, word it.dies.length, word it.epochs.length]
    if g3.roleOn 0 then
      let b := fld (g3.rd Reg.ES_ITEM_BASE) 0 48
      if memRange b 32768 then
        (g3.memPut (b + 4 * (g3.es.itemAt % 8192)) (leBytes 4 id)).modEs fun e => { e with itemAt := e.itemAt + 1 }
      else g3
    else g3

/-! ### Scorer operations (R363) -/

/-- Scores a list of entities: scores in order, evaluated and not, and whether a row was poisoned. -/
def Glexon.scoreList (m : Model) (n : Word) (age : Nat) :
    List Nat → Glexon × List Nat × Nat × Bool → Glexon × List Nat × Nat × Bool
  | [], r => r
  | e :: rest, (g, out, done, bad) =>
    let t := m.table
    if g.tblE t ≤ e then Glexon.scoreList m n age rest (g, out ++ [nan32], done, bad)
    else if g.rowBad t e then Glexon.scoreList m n age rest (g, out ++ [nan32], done, true)
    else
      let (l, g1) := g.rowGet t e
      let st := leAt l (g.tblS t) 8
      if st.testBit 63 = false ∨ age < n.toNat % 2 ^ 48 - st % 2 ^ 48 then
        Glexon.scoreList m n age rest (g1, out ++ [nan32], done, bad)
      else Glexon.scoreList m n age rest (g1, out ++ [m.score l], done + 1, bad)

/-- An operation of the Ensemble Scorer: code 1 SCORE, 2 FEAT_UPDATE. -/
def esOp (c : EngCtx) (code : Nat) (d : List Byte) (g : Glexon) : EngRes :=
  let cnt := leAt d 16 4
  let k := leAt d 21 1
  let n := word (leAt d 24 8)
  let src := leAt d 0 8
  let dst := leAt d 8 8
  let len := cnt * (if code = 1 then 4 else 16)
  if bit (g.rd Reg.ES_CTRL) 63 = false then xoff g d 1
  else if leAt d 20 1 ≠ code ∨ cnt = 0 ∨ (if code = 1 then 262144 else 65536) < cnt ∨ (if code = 1 then 15 else 7) < k
      ∨ zeros d 22 24 = false ∨ zeros d 44 48 = false ∨ zeros d 52 64 = false ∨ (code = 2 ∧ dst ≠ 0) then xerr g d 1
  else if memRange src len = false ∨ (code = 1 ∧ memRange dst len = false) then xerr g d 2
  else if code = 1 then
    match (g.modelSlot k).live with
    | none => xerr g d 4
    | some m =>
      if g.tblValid m.table = false then xerr g d 5
      else
        let (l, bad, g1) := c.read g src len
        if bad then { g := g1, desc := setW d 48 3, st := 2, rd := len }
        else
          let ents := (chunks 4 cnt l).map leNat
          let (g2, out, done, poison) := Glexon.scoreList m n (leAt d 32 4) ents (g1, [], 0, false)
          let g3 := (c.write g2 dst (out.flatMap fun v => leBytes 4 v) false).bump Reg.ES_EVALS (done * m.trees.length)
          let g4 := g3.scoresIn k m.id n (ents.zip out)
          { g := g4, desc := setW (setW (setW d 36 done) 40 (cnt - done)) 48 (if poison then 3 else 0),
            st := if poison then 2 else 0, rd := len, wr := len }
  else if g.tblValid k = false then xerr g d 5
  else
    let (l, bad, g1) := c.read g src len
    if bad then { g := g1, desc := setW d 48 3, st := 2, rd := len }
    else
      let (g2, done, skip) := Glexon.featList k n (chunks 16 cnt l) (g1, 0, 0)
      { g := g2, desc := setW (setW (setW d 36 done) 40 skip) 48 0, rd := len, wr := 0 }

/-! ### The Scorer at a boundary (R352, R358, R373, R376, R377) -/

/-- The tick that ends: its limits are reported, and its counts close. -/
def Glexon.esTickEnd (g : Glexon) : Glexon :=
  let g1 : Glexon := (List.range 4).foldl (fun (h : Glexon) k =>
    if SMap.get 0 h.es.deferred k = 0 then h else h.event 0x0532 25 [word k, word (SMap.get 0 h.es.deferred k)]) g
  let g2 := if g1.es.displaced = 0 then g1 else g1.event 0x0534 25 [word g1.es.displaced]
  let cache := if g2.es.inv then [] else g2.es.cache
  ((g2.wr Reg.ES_STAT (word (cache.length * 2 ^ 32 + satN 32 g2.es.xops))).wr Reg.ES_CTRL (putBit (g2.rd Reg.ES_CTRL) 62 false)).modEs
    fun e => { e with cache := cache, inv := false, raised := [], deferred := [], displaced := 0, xops := 0 }

/-- Models that passed their check become active at boundary `n`. -/
def Glexon.esActivate (g : Glexon) (n : Word) : Glexon :=
  (List.range 16).foldl (fun (h : Glexon) k =>
    let m := h.modelSlot k
    match m.next with
    | none => h
    | some x => (h.setSlot k { m with live := some x, next := none } (fld (h.rd (Reg.ES_MODEL_STAT k)) 0 8)).event 0x0531 25
        [word k, word x.id, n]) g

end Sys2Proof.Machine
end

