-- ==== Sys2Proof/Machine/Traffic.lean ====
section
/-! DEFINITION. The Traffic Scheduler (R395 to R407, R410): service of a port, gates, shapers, and commands in-band. -/

namespace Sys2Proof.Machine

/-! ### Gates (R399, R405, R406) -/

/-- N of a gate list: the index of the first entry of duration 0, or 64. -/
def gateN (l : List Word) : Nat := (l.findIdx? fun w => fld w 0 32 = 0).getD 64

/-- The gate list in force. -/
def Glexon.gateList (g : Glexon) : List Word := (List.range 64).map fun e => g.rd (Reg.TS_GATE e)

/-- A list is valid only if entry 0 closes both gates for 10,000 to 200,000 ns, and N ≥ 2 (R406). -/
def gateOk (l : List Word) : Bool :=
  let e0 := l.getD 0 0
  decide (2 ≤ gateN l) && decide (fld e0 34 2 = 0) && decide (10000 ≤ fld e0 0 32) && decide (fld e0 0 32 ≤ 200000)

/-- The boundary, or provisional boundary (R494), that the list runs from, and the length of the tick, in ns; `none` while the
Glexon keeps every gate open. -/
def Glexon.gateBase (g : Glexon) : Option (Nat × Nat) :=
  if g.tk.ticking then some (g.boundNs g.tk.tickNo, g.pNs)
  else if g.tk.mode = .locked then some (g.nowNs / 1000000 * 1000000, 1000000)
  else none

/-- The first instant after `now` at which gate bit `b` closes: an entry that closes it, or the next boundary. -/
def nextClose (now stop b : Nat) : List Word → Nat → Nat
  | [], _ => stop
  | w :: r, start =>
    if stop ≤ start then stop
    else if now < start ∧ bit w b = false then start
    else nextClose now stop b r (start + fld w 0 32)

/-- Does a frame of a class and length start now, as far as its gate goes (R399)? -/
def Glexon.gateLets (g : Glexon) (p c len : Nat) : Bool :=
  if c < 2 then true
  else
    match g.gateBase with
    | none => true
    | some (b, per) =>
      let l := g.gateList
      let close := nextClose g.nowNs (b + per) (32 + c) (l.take (gateN l)) b
      (if c = 2 then g.ts.amber else g.ts.umber) &&
        decide ((len + 20) * 8 ≤ (close - g.nowNs) * (200 * SMap.get 0 g.portLanes p))

/-- A gate-list entry begins: its gates are set. -/
def Glexon.gateEntry (g : Glexon) (e : Nat) : Glexon :=
  let w := g.rd (Reg.TS_GATE e)
  { g with ts := { g.ts with amber := bit w 34, umber := bit w 35, entry := e } }

/-- GATE_ENTRY (R405): an entry of the list, while the Glexon follows it. -/
def execGateEntry (e : BitVec 6) (s : State) : Answer :=
  onCore (fun g => if g.gateBase.isSome ∧ e.toNat < gateN g.gateList then g.gateEntry e.toNat else g) s

/-! ### Shapers (R401, R402) -/

/-- Rate and burst in force of a class at a port: for Amber and Umber the lower non-zero rate of the shaper and the Greyout. -/
def Glexon.shape (g : Glexon) (p c : Nat) : Nat × Nat :=
  let rb (w : Word) : Nat × Nat := (fld w 40 24, max 9236 (fld w 0 24))
  let s := rb (g.rd (Reg.TS_SHAPE p c))
  if c < 2 then s
  else
    let y := rb (g.rd (Reg.TS_GREY c))
    if y.1 = 0 then s else if s.1 = 0 ∨ y.1 < s.1 then y else s

/-- SHAPER_REFILL (R401, R402): RATE × 256 ns is 4 × RATE / 125 bytes. -/
def execShaperRefill (s : State) : Answer :=
  onCore (fun g => (List.range 8).foldl (fun (h : Glexon) p =>
    let e := h.egress p
    h.setEgress p { e with tok := (List.range 4).foldl (fun m c =>
      let (rate, burst) := h.shape p c
      if rate = 0 then m else SMap.put 0 m c (min (SMap.get 0 m c + 4 * rate) (125 * burst))) e.tok }) g) s

/-- Does the class's bucket hold a frame's bytes? -/
def Glexon.tokensFor (g : Glexon) (p c len : Nat) : Bool :=
  decide ((g.shape p c).1 = 0) || decide (125 * (len + 20) ≤ SMap.get 0 (g.egress p).tok c)

/-! ### Service (R396, R400) -/

/-- Is a queue eligible? -/
def Glexon.eligible (g : Glexon) (p q : Nat) : Bool :=
  match ((g.egress p).q q).frames with
  | [] => false
  | f :: _ =>
    let c := qClass q
    g.gateLets p c f.len && g.tokensFor p c f.len && (decide (c < 2) || !bit (g.rd Reg.TS_BLACKOUT) c)

/-- Of two queues the one with the smaller tag; on equal tags the first. -/
def Glexon.firstTag (g : Glexon) (p : Nat) : List Nat → Option Nat
  | [] => none
  | q :: r =>
    match g.firstTag p r with
    | some x => if ((g.egress p).q q).tag ≤ ((g.egress p).q x).tag then some q else some x
    | none => some q

/-- The queue that a free port serves. -/
def Glexon.serveQ (g : Glexon) (p : Nat) : Option Nat :=
  if g.eligible p 0 then some 0
  else if g.eligible p 1 then some 1
  else g.firstTag p ([2, 3, 4, 5, 6, 7].filter (g.eligible p))

/-- The transport header's fields that the hardware sets as the packet leaves (R417): the sender's short time; in ACK and NAK
the hold time since the packet that caused it arrived, whose short time stands there until now. -/
def Glexon.stampPacket (g : Glexon) (l : List Byte) : List Byte :=
  let now := (g.short g.nowNs).toNat
  let l1 := if leAt l 0 1 = 0x10 ∨ leAt l 0 1 = 0x11 then setAt l 32 ((now + 2 ^ 32 - leAt l 32 4) % 2 ^ 32) else setAt l 20 now
  setAt l1 44 (crc32c (l1.take 44))
where
  /-- Four bytes replaced. -/
  setAt (l : List Byte) (o v : Nat) : List Byte := l.take o ++ leBytes 4 v ++ l.drop (o + 4)

/-- A frame as it leaves. -/
def Glexon.leaving (g : Glexon) (f : Frame) : Frame :=
  match f.load with
  | .packet q n l => { f with load := .packet q n (g.stampPacket l) }
  | _ => f

/-- A port starts the head frame of a queue. -/
def Glexon.startFrame (g : Glexon) (p q : Nat) : Glexon :=
  let e := g.egress p
  let x := e.q q
  match x.frames with
  | [] => g
  | f :: rest =>
    let c := qClass q
    let tag := match rest with
      | h :: _ => g.wfqTag q x.tag h.len
      | [] => x.tag
    let e1 := e.setQ q { frames := rest, tag := tag, fLast := x.tag }
    let tok := if (g.shape p c).1 = 0 then e.tok else SMap.put 0 e.tok c (SMap.get 0 e.tok c - 125 * (f.len + 20))
    let isPkt := match f.load with
      | .packet _ _ _ => 1
      | _ => 0
    ((g.count 6 p q f.len).count 7 0 0 isPkt).setEgress p
      { e1 with v := if q < 2 then e.v else x.tag, tok := tok, sent := some (g.leaving f) }

/-- PORT_SERVE (R396): a free port that is up starts its next frame. -/
def execPortServe (p : BitVec 3) (s : State) : Answer :=
  onCore (fun g =>
    if bit (g.rd Reg.TS_CTRL) 63 ∧ SMap.get 0 g.portLanes p.toNat ≠ 0 then
      match g.serveQ p.toNat with
      | some q => g.startFrame p.toNat q
      | none => g
    else g) s

/-! ### Commands in-band (R410) -/

/-- The frames of a command copy enter Q0: for the remote children of a role by the role's port, for a direct target by that
of the lowest role. -/
def Glexon.copyOut (g : Glexon) (c : CmdCopy) : Glexon :=
  let f (dst : Nat) : Frame := { len := cmdFrame c.r, colour := 0, load := .cmd c.r dst }
  match c.slot with
  | some k => (g.remoteKids k).foldl (fun h d => h.enqueue (h.rolePort k) 0 (f d)) g
  | none => g.enqueue (g.rolePort g.lowSlot) 0 (f c.dst)

/-- CMD_INBAND_SEND (R410): the waiting in-band copies leave in a Cobalt window, at CMD_OFS or later in it. -/
def execCmdInbandSend (s : State) : Answer :=
  onCore (fun g =>
    if bit (g.rd Reg.TS_CTRL) 62 then
      g.ts.outq.foldl Glexon.copyOut { g with ts := { g.ts with outq := [] } }
    else g) s

end Sys2Proof.Machine
end

