-- ==== Sys2Proof/Machine/Commands.lean ====
section
/-! DEFINITION. Fabric commands: reception, the executor, and the watch sets, epochs and keys that they change (R19, R36 to R41,
R47, R58, R61, R407 to R415, R499 to R505). -/

namespace Sys2Proof.Machine

/-! ### Reception (R408, R411, R412) -/

/-- Does a datagram hold a whole command whose trailer, header and prefix are right (R408)? -/
def cmdFormOk (l : List Byte) : Bool :=
  let r := Rec.ofBytes l
  let t := r.typ.toNat
  let tgt := (Rec.target r)
  decide (56 ≤ l.length) && decide (l.length = Rec.size r) && decide (r.payload.length = 8 * leAt l 28 2) && Rec.crcOk l
    && decide (0x0401 ≤ t) && decide (t ≤ 0x040B) && decide (r.cls = 8) && decide (r.colour = 0) && bit r.src 31
    && decide (r.src.toNat % 2 ^ 31 < 2 ^ 14) && decide (r.wsId = 0) && decide (r.wsGen = 0) && decide (r.seq ≠ 0)
    && decide (fldN tgt 18 12 = 0) && (tgt.testBit 30 == fleetCmd t)
    && (!tgt.testBit 31 || decide (fldN tgt 0 18 < 2 ^ 14))

/-- The de-duplication of an origin's command (R411): the entry after rule 1, and whether the command is stale or a
duplicate. -/
def Dedup.look (d : Dedup) (c s : Nat) : Dedup × Bool × Bool :=
  let d1 : Dedup := if d.c < c then { c := c, h := 0, m := 0 } else d
  let stale := decide (c < d1.c) || decide (s + 64 < d1.h)
  (d1, stale, decide (s = d1.h) || (decide (s < d1.h) && bit d1.m (d1.h - 1 - s)))

/-- The entry after sequence `s` is recorded. -/
def Dedup.note (d : Dedup) (s : Nat) : Dedup :=
  if d.h < s then { d with h := s, m := (d.m <<< (s - d.h)) ||| (1#64 <<< (s - d.h - 1)) }
  else { d with m := d.m ||| (1#64 <<< (d.h - 1 - s)) }

/-- A fabric command arrives by either path. -/
def Glexon.cmdArrives (g : Glexon) (l : List Byte) : Glexon :=
  if cmdFormOk l = false then g.bumpFld Reg.TS_CMD_STAT 16 16 1
  else
    let r := Rec.ofBytes l
    let s := r.seq.toNat
    let (d, stale, dup) := (SMap.get {} g.ts.dedup (Rec.origin r)).look (Rec.cycles r) s
    let keep (h : Glexon) (d : Dedup) : Glexon := { h with ts := { h.ts with dedup := SMap.put {} h.ts.dedup (Rec.origin r) d } }
    if stale then
      ((keep g d).bumpFld Reg.TS_CMD_STAT 32 16 1).event 0x0320 30 [word (Rec.origin r), word s, word (Rec.cycles r)]
    else if dup then (keep g d).bumpFld Reg.TS_CMD_STAT 48 16 1
    else if g.ts.fifo.length < 256 then keep (g.fifoPut r) (d.note s)
    else keep (g.fifoPut r) d

/-- COMMAND_RECEIVE (R411). -/
def execCommandReceive (bytes : List Byte) (s : State) : Answer := onCore (fun g => g.cmdArrives bytes) s

/-! ### The executor (R412) -/

/-- The executor reads the command at the head of the FIFO, of type `t`, and handles it by `f`, or refuses it. -/
def execHead (t : Nat) (f : Glexon → Rec → Glexon) (s : State) : Answer :=
  onCore (fun g =>
    match g.ts.fifo with
    | r :: rest =>
      if bit (g.rd Reg.TS_CTRL) 62 ∧ r.typ.toNat = t then
        let g1 : Glexon := { g with ts := { g.ts with fifo := rest } }
        if cmdArgsOk r then f g1 r else g1.cmdRefuse (Rec.origin r) r.seq.toNat t
      else g
    | [] => g) s

/-- A command whose target is not here fails its prefix check. -/
def Glexon.notHere (g : Glexon) : Glexon := g.bumpFld Reg.TS_CMD_STAT 16 16 1

/-- The port of the die that a command targets, at its leaf; `none` in the outer place where the target is not here. -/
def Glexon.targetOf (g : Glexon) (r : Rec) : Option (Option Nat) :=
  if (Rec.target r) < 2 ^ 31 then (g.portOfDie ((Rec.target r) % 2 ^ 18)).map some
  else if (Rec.target r) % 2 ^ 18 = g.index ∧ g.indexValid then some none else none

/-- Notes a Greyout or Blackout for the event of the next boundary (R415). -/
def Glexon.noteApplied (g : Glexon) (grey : Bool) (r : Rec) (rate : Nat) : Glexon :=
  { g with ts := { g.ts with applied := g.ts.applied ++ [(grey, (Rec.target r), leAt r.payload 16 1, rate)] } }

/-- A leaf sends one Tap command that writes registers of a die, and keeps the values in its record of the die. -/
def TapPort.decideMany (t : TapPort) (l : List (Nat × Word)) (c : PortCmd) : TapPort :=
  let t1 := { t with want := l.foldl (fun m (e : Nat × Word) => SMap.put none m e.1 (some e.2)) t.want }
  if t1.up then t1.queueCmd { c with regs := l } else t1

/-- GREYOUT (R413): the shaper word to the named classes of a die, or of this Glexon. -/
def Glexon.greyout (g : Glexon) (r : Rec) : Glexon :=
  let mask := leAt r.payload 16 1
  let w := word (leAt r.payload 24 8)
  let g1 := g.noteApplied true r (fld w 40 24)
  match g.targetOf r with
  | none => g.notHere
  | some (some p) =>
    g1.modPort p fun t => t.decideMany ((onesBelow 4 mask).map fun c => (Reg.BM_TAP_SHAPE c, w))
      { op := 4, args := leBytes 1 mask ++ leBytes 7 0 ++ leBytes 8 w.toNat }
  | some none => (onesBelow 4 mask).foldl (fun h c => h.rwtPut (Reg.TS_GREY c) w) g1

/-- BLACKOUT (R414): the mask replaces the previous one. -/
def Glexon.blackout (g : Glexon) (r : Rec) : Glexon :=
  let mask := leAt r.payload 16 1
  let g1 := g.noteApplied false r 0
  match g.targetOf r with
  | none => g.notHere
  | some (some p) =>
    g1.modPort p fun t => t.decideMany [(Reg.BM_TAP_BLACKOUT, word mask)] { op := 5, args := leBytes 1 mask }
  | some none => g1.rwtPut Reg.TS_BLACKOUT (word mask)

/-- GREYOUT. -/
def execGreyout (s : State) : Answer := execHead 0x0401 Glexon.greyout s
/-- BLACKOUT. -/
def execBlackout (s : State) : Answer := execHead 0x0402 Glexon.blackout s

/-! ### Watch sets (R36 to R41, R47) -/

/-- A create or teardown with acceptance boundary `a` is kept for each active slot below the apex: slot k applies it at
a + 3 − k, or at the first boundary after it arrived (R38 to R40). -/
def Glexon.wsTake (g : Glexon) (r : Rec) : Glexon :=
  let mk (k : Nat) : WsPend := { slot := k, at_ := word ((Rec.eff r) + 3 - k), create := r.typ == 0x0403, id := leAt r.payload 16 2,
                                 gen := leAt r.payload 18 2, cmd := r }
  { g with fl := { g.fl with wsPend := g.fl.wsPend ++ (([2, 1, 0].filter fun k => g.roleOn k).map mk) } }

/-- WS_CREATE and WS_TEARDOWN on their way down: the boundary of acceptance must be named, and a teardown's end tick lie 3
after it. -/
def Glexon.wsCmd (g : Glexon) (r : Rec) : Glexon :=
  if (Rec.eff r) = 0 ∨ (r.typ = 0x0404 ∧ leAt r.payload 24 8 ≠ (Rec.eff r) + 3) then g.cmdRefuse (Rec.origin r) r.seq.toNat r.typ.toNat
  else g.wsTake r

/-- WS_CREATE. -/
def execWsCreate (s : State) : Answer := execHead 0x0403 Glexon.wsCmd s
/-- WS_TEARDOWN. -/
def execWsTeardown (s : State) : Answer := execHead 0x0404 Glexon.wsCmd s

/-- A new stamp of the die on a port, from data tick `n`. -/
def Glexon.stamp9 (g : Glexon) (p : Nat) (n : Word) (id gen : Nat) : Glexon :=
  { g with fl := { g.fl with stamps := SMap.put [] g.fl.stamps p (((n, id, gen) :: SMap.get [] g.fl.stamps p).take 4) } }

/-- May the die on a port leave the set it belongs to for set `id`, whose first data tick is `n` (R36, R47)? -/
def Glexon.mayLeave (g : Glexon) (p id : Nat) (n : Word) : Bool :=
  let j := g.belongs p
  decide (j = 0) || decide (j = id) ||
    (match g.wsEntry 0 j with
     | .draining _ e => decide (e.toNat < n.toNat)
     | _ => false)

/-- The leaf's part of a create at boundary `n` (item 7): the dies of the slot become members from tick n + 1. -/
def Glexon.leafCreate (g : Glexon) (n : Word) (id gen : Nat) : Glexon :=
  match g.listOk id with
  | some (gen1, ds) =>
    if gen1 = gen then
      ds.foldl (fun (h : Glexon) d =>
        match h.mapPort d with
        | some p =>
          if h.mayLeave p id (n + 1) then h.stamp9 p (n + 1) id gen
          else h.event 0x0517 24 [word d, word (h.belongs p), word id]
        | none => h) g
    else g.event 0x0516 24 [word id, word gen]
  | none => g.event 0x0516 24 [word id, word gen]

/-- The leaf's part of a teardown: member dies return to the fleet set from tick n + 1. -/
def Glexon.leafTeardown (g : Glexon) (n : Word) (id gen : Nat) : Glexon :=
  (List.range 64).foldl (fun (h : Glexon) p =>
    match SMap.get [] h.fl.stamps p with
    | (_, i, x) :: _ => if i = id ∧ x = gen then h.stamp9 p (n + 1) 0 0 else h
    | [] => h) g

/-- A role applies a create or teardown at boundary `n`, and forwards it to its children in the tick so begun (R38 to R40). -/
def Glexon.wsApply (g : Glexon) (n : Word) (w : WsPend) : Glexon :=
  let g1 : Glexon :=
    if w.create then
      let h := g.setWs w.slot w.id (.active w.gen)
      if w.slot = 0 then (h.leafCreate n w.id w.gen).dropHeld w.id else h
    else if g.wsEntry w.slot w.id = .active w.gen then
      let h := g.setWs w.slot w.id (.draining w.gen (word (leAt w.cmd.payload 24 8)))
      if w.slot = 0 then h.leafTeardown n w.id w.gen else h
    else g
  g1.sendDown w.cmd w.slot

/-- The stamp registers of the dies whose set has changed are written once, with the final value (R41). -/
def Glexon.writeStamps (g : Glexon) (before : SMap (List (Word × Nat × Nat))) : Glexon :=
  (List.range 64).foldl (fun (h : Glexon) p =>
    let now := SMap.get [] h.fl.stamps p
    if now = SMap.get [] before p then h
    else
      match now with
      | (_, id, gen) :: _ => h.modPort p fun t => t.decideReg Reg.BM_WS (word (id + gen * 2 ^ 16))
      | [] => h) g

/-- Entries that have reduced their end tick become FREE: slot k after boundary e + 1 + k (R40). -/
def Glexon.wsFree (g : Glexon) (n : Word) : Glexon :=
  { g with fl := { g.fl with ws := g.fl.ws.filter fun e =>
      match e.2 with
      | .draining _ x => decide (n.toNat < x.toNat + 2 + e.1 / 4096)
      | _ => true } }

/-- The watch-set commands that slots below the apex apply at boundary `n`: teardowns before creates (R41). -/
def Glexon.wsBoundary (g : Glexon) (n : Word) : Glexon :=
  let due := g.fl.wsPend.filter fun w => decide (w.at_.toNat ≤ n.toNat)
  let before := g.fl.stamps
  let g1 : Glexon := { g with fl := { g.fl with wsPend := g.fl.wsPend.filter fun w => decide (n.toNat < w.at_.toNat) } }
  let order := due.filter (fun w => !w.create) ++ due.filter fun w => w.create
  (order.foldl (fun h w => h.wsApply n w) g1).writeStamps before

/-! ### The apex's decisions (R36, R39, R47, R505) -/

/-- An empty tally. -/
def noTally : Tally := { id := 0, gen := 0, from_ := [], dies := 0, busy := [], more := false, last := 0 }

/-- The status with which the apex refuses a create at boundary `a`: 1 ID_BUSY, 4 MEMBER_BUSY, 5 LIST_MISSING; 0 accepts it. -/
def Glexon.createStatus (g : Glexon) (a : Word) (id gen dies leaves : Nat) : Nat :=
  let next := SMap.get 0 g.fl.wsGen id % 65535 + 1
  if id = 0 ∨ g.wsEntry 3 id ≠ .free ∨ gen ≠ next then 1
  else
    match g.fl.tallies.find? fun t => t.id == id && t.gen == gen with
    | none => 5
    | some t =>
      if t.from_.length ≠ leaves ∨ t.dies ≠ dies then 5
      else if t.more ∨ t.busy.any (fun j => match g.wsEntry 3 j with
          | .free => false
          | .draining _ e => decide (a.toNat + 4 ≤ e.toNat)
          | .active _ => true) then 4
      else 0

/-- The apex accepts or refuses one submission at boundary `a`; `n` are accepted already. -/
def Glexon.wsDecideOne (g : Glexon) (a : Word) (n : Nat) (q : MbxSub) : Glexon × Nat :=
  let id := leAt q.args 0 2
  let gen := leAt q.args 2 2
  let create := decide (q.typ = 0x0403)
  let st := if 32 ≤ n then 3
    else if create then g.createStatus a id gen (leAt q.args 4 4) (leAt q.args 8 4)
    else if id ≠ 0 ∧ g.wsEntry 3 id = .active gen then 0 else 2
  if st ≠ 0 then
    ((g.mbxReply q.id 3 [BitVec.ofNat 8 st]).event 0x0545 31 [word id, word gen, word st], n)
  else
    let args := if create then q.args else q.args.take 8 ++ leBytes 8 (a.toNat + 3)
    let (r, g1) := g.newCmd q.typ toFleet a args
    let g2 : Glexon := if create then
        { (g1.setWs 3 id (.active gen)) with fl := { (g1.setWs 3 id (.active gen)).fl with
            wsGen := SMap.put 0 g1.fl.wsGen id gen, bal := SMap.put {} g1.fl.bal id {},
            tallies := g1.fl.tallies.filter fun t => !(t.id == id && t.gen == gen) } }
      else g1.setWs 3 id (.draining gen (a + 3))
    (((g2.wsTake r).sendDown r 3).mbxReply q.id 0 [], n + 1)

/-- The apex decides the waiting submissions at boundary `a`, teardowns before creates. -/
def Glexon.wsDecide (g : Glexon) (a : Word) : Glexon :=
  let asks := g.fl.wsAsk
  let g1 : Glexon := { g with fl := { g.fl with wsAsk := [] } }
  let order := asks.filter (fun q => q.typ ≠ 0x0403) ++ asks.filter fun q => q.typ = 0x0403
  (order.foldl (fun (x : Glexon × Nat) q => x.1.wsDecideOne a x.2 q) (g1, 0)).1

/-! ### Membership reports (R47) -/

/-- The apex tallies a report: each leaf counts once; a 65th pair frees the tally with the earliest last report. -/
def Glexon.listHeld (g : Glexon) (r : Rec) : Glexon :=
  match g.targetOf r with
  | some none =>
    if g.roleSet 3 = false then g.notHere
    else
      let p := r.payload
      let id := leAt p 16 2
      let gen := leAt p 18 2
      let names := (List.range (leAt p 23 1)).map fun i => leAt p (28 + 2 * i) 2
      let key (t : Tally) : Bool := t.id == id && t.gen == gen
      let old := (g.fl.tallies.find? key).getD { noTally with id := id, gen := gen }
      let t1 : Tally := { old with
        from_ := if old.from_.contains (Rec.origin r) then old.from_ else old.from_ ++ [(Rec.origin r)],
        dies := if old.from_.contains (Rec.origin r) then old.dies else old.dies + leAt p 20 2,
        busy := (old.busy ++ names).eraseDups, more := old.more || bit (BitVec.ofNat 8 (leAt p 22 1)) 0, last := g.nowNs }
      let rest := g.fl.tallies.filter fun t => !key t
      let room := if rest.length < 64 then rest
        else match rest.foldl (fun (m : Option Tally) t => match m with
            | some x => if t.last < x.last then some t else m
            | none => some t) none with
          | some x => rest.filter fun t => !(t.id == x.id && t.gen == x.gen)
          | none => rest
      { g with fl := { g.fl with tallies := room ++ [t1] } }
  | _ => g.notHere

/-- LIST_HELD. -/
def execListHeld (s : State) : Answer := execHead 0x040B Glexon.listHeld s

/-- LIST_HELD_RESEND (R47): a leaf repeats its report of a passed slot, for 60 s at most. -/
def execListHeldResend (id : BitVec 12) (s : State) : Answer :=
  onCore (fun g =>
    match g.fl.held.find? fun e => e.1 = id.toNat with
    | some (i, h) =>
      if h.since + 60000000000 ≤ g.nowNs then g.dropHeld i
      else
        match g.listOk i with
        | some (gen, ds) =>
          let h1 : Held := { h with last := g.nowNs }
          ({ g with fl := { g.fl with held := SMap.put { gen := 0, since := 0, last := 0 } g.fl.held i h1 } }).sendHeld i gen ds
        | none => g.dropHeld i
    | none => g) s

/-- TALLY_EXPIRE (R47). -/
def execTallyExpire (id : BitVec 12) (gen : BitVec 16) (s : State) : Answer :=
  onCore (fun g => { g with fl := { g.fl with
    tallies := g.fl.tallies.filter fun t => !(t.id == id.toNat && t.gen == gen.toNat) } }) s

/-! ### Epoch, period, beacon (R19, R58 to R62, R494 to R503, R511) -/

/-- The number and instant of the first boundary of an epoch and period code at or after `ns`. -/
def firstBoundary (epoch period ns : Nat) : Nat × Nat :=
  let p := 250000 * 2 ^ period
  let k := (ns - epoch + p - 1) / p
  (k, epoch + k * p)

/-- EPOCH reaches this Glexon (R58). -/
def Glexon.epochCmd (g : Glexon) (r : Rec) : Glexon :=
  let ts := leAt r.payload 16 6 * 1000000000
  let per := leAt r.payload 28 1
  let n := leAt r.payload 32 8
  let e := ts - n * (250000 * 2 ^ per)
  let g1 : Glexon :=
    if g.tk.ticking then
      if g.tk.epoch = e ∧ g.tk.period = per then g
      else
        let (k, at_) := firstBoundary e per (max ts g.nowNs)
        { g with tk := { g.tk with pend := some { at_ := at_, n := word k, epoch := e, period := per, arg := word n, stop := false } } }
    else
      ({ g with tk := { g.tk with epoch := e, period := per, hasEpoch := true, startAt := max ts g.nowNs } }).buEnter 7 0
  g1.sendAllDown r

/-- EPOCH. -/
def execEpoch (s : State) : Answer := execHead 0x0405 Glexon.epochCmd s

/-- An epoch change that waits takes effect: its values are in force, and the next boundary has its number. -/
def Glexon.adoptEpoch (g : Glexon) : Glexon :=
  match g.tk.pend with
  | some x =>
    { ((g.keepPast x.n.toNat).event 0x0104 34 [x.arg]) with tk := { (g.keepPast x.n.toNat).tk with
        clk := max g.tk.clk (x.at_ * 2 ^ 32), epoch := x.epoch, period := x.period, pend := none, next := some x.n } }
  | none => g

/-- EPOCH_ADOPT (R58): T_s has come. -/
def execEpochAdopt (s : State) : Answer := onCore (fun g => if g.tk.ticking then g.adoptEpoch else g) s

/-- PERIOD_CHANGE (R19): a change for boundary n_c is pending. -/
def Glexon.periodCmd (g : Glexon) (r : Rec) : Glexon :=
  ({ g with tk := { g.tk with pchg := word ((Rec.eff r) % 2 ^ 61 * 8 + leAt r.payload 16 1) } }).sendAllDown r

/-- PERIOD_CHANGE. -/
def execPeriodChange (s : State) : Answer := execHead 0x0406 Glexon.periodCmd s

/-- n_c of the pending period change; 0 if there is none. -/
def Glexon.changeAt (g : Glexon) : Nat := fld g.tk.pchg 3 61

/-- At T_c the period changes and the epoch is redefined (R62). -/
def Glexon.changePeriod (g : Glexon) : Glexon :=
  let n := g.changeAt
  let code := fld g.tk.pchg 0 3
  let tc := g.tk.epoch + n * g.pNs
  let g1 := (((g.keepPast n).wr Reg.TK_EPOCH_PREV_SEC (word (g.tk.epoch / 1000000000))).wr Reg.TK_EPOCH_PREV_NS
    (word (g.tk.epoch % 1000000000))).wr Reg.TK_PREV_CHG (word (n * 8 + g.tk.period))
  ({ g1 with tk := { g1.tk with
      clk := max g1.tk.clk (tc * 2 ^ 32), period := code, epoch := tc - n * (250000 * 2 ^ code), pchg := 0 } }).event
    0x0103 34 [word n, word code]

/-- Is the pending change due at the next boundary? A Glexon that holds an epoch and is not ticking changes at T_c too. -/
def Glexon.changeDue (g : Glexon) : Bool :=
  decide (g.tk.pchg ≠ 0) && (if g.tk.ticking then decide (g.changeAt = g.tk.tickNo.toNat + 1) else g.tk.hasEpoch)

/-- P_CHANGE (R62). -/
def execPChange (s : State) : Answer := onCore (fun g => if g.changeDue then g.changePeriod else g) s

/-- A beacon reaches this Glexon (R61, R511). -/
def Glexon.beaconCmd (g : Glexon) (r : Rec) : Glexon :=
  let p := r.payload
  let n := leAt p 16 8
  let per := leAt p 24 1
  let e := leAt p 32 6 * 1000000000 + leAt p 40 4
  let differs := decide (g.tk.epoch ≠ e) || decide (g.tk.period ≠ per)
  let g0 : Glexon := { g with tk := { g.tk with pchg := word (leAt p 48 8) } }
  let g1 : Glexon :=
    if g.tk.ticking then
      if differs then
        let (k, at_) := firstBoundary e per (g.nowNs + 1)
        { g0 with tk := { g0.tk with pend := some { at_ := at_, n := word k, epoch := e, period := per, arg := word n, stop := true } } }
      else g0
    else
      let h := if differs ∨ g.tk.hasEpoch = false then g0.event 0x0104 34 [word n] else g0
      let rejoin := (List.range 4).any fun k => g.ready k
      ({ h with
          tk := { h.tk with epoch := e, period := per, hasEpoch := true, startAt := g.nowNs + 1 },
          mg := { h.mg with rejoin := h.mg.rejoin || rejoin } }).buEnter 7 0
  g1.sendAllDown r

/-- BEACON. -/
def execBeacon (s : State) : Answer := execHead 0x0407 Glexon.beaconCmd s

/-- The beacon that the apex sends in the Cobalt window of each tick (R61). -/
def Glexon.sendBeacon (g : Glexon) : Glexon :=
  if g.roleOn 3 ∧ g.indexValid then
    let t := g.tk
    let (r, g1) := g.newCmd 0x0407 toFleet 0
      (leBytes 8 t.tickNo.toNat ++ leBytes 1 t.period ++ leBytes 7 0 ++ leBytes 6 (t.epoch / 1000000000) ++ leBytes 2 0
        ++ leBytes 4 (t.epoch % 1000000000) ++ leBytes 4 0 ++ leBytes 8 t.pchg.toNat)
    g1.sendAllDown r
  else g

/-- EPOCH_ISSUE (R501): the apex sends EPOCH. -/
def execEpochIssue (s : State) : Answer :=
  onCore (fun g =>
    if g.ready 3 ∧ g.tk.ticking = false ∧ g.tk.hasEpoch = false then
      let h := (g.annSelf 3).h
      let n := max (g.mapNat 16 8) (h.toNat + 16777216)
      let per := g.mapNat 6 1
      let ts := (g.nowNs + 2000000000 + 999999999) / 1000000000
      let g1 := g.buDone 7
      if ts * 1000000000 < n * (250000 * 2 ^ per) then (g1.event 0x0549 31 [word n, word ts]).buEnter 9 8
      else (g1.event 0x0544 31 [word n, word ts, word per]).originate 0x0405 toFleet 0
        (leBytes 6 ts ++ leBytes 6 0 ++ leBytes 1 per ++ leBytes 3 0 ++ leBytes 8 n) 0
    else g) s

/-! ### Keys and gate lists (R303, R407) -/

/-- COLL_KEY (R409): the key is in force from the named boundary. -/
def Glexon.keyCmd (g : Glexon) (r : Rec) : Glexon :=
  ({ g with ts := { g.ts with key := some (word (Rec.eff r), word (leAt r.payload 16 8)) } }).sendAllDown r

/-- COLL_KEY. -/
def execCollKey (s : State) : Answer := execHead 0x0408 Glexon.keyCmd s

/-- The key's part of boundary `n`: a leaf sends the writes in the tick before it, and at it the key is in force (R303). -/
def Glexon.keyBoundary (g : Glexon) (n : Word) : Glexon :=
  match g.ts.key with
  | none => g
  | some (e, k) =>
    let g1 : Glexon := if g.roleOn 0 ∧ (n.toNat + 1 = e.toNat ∨ e.toNat ≤ n.toNat) ∧ g.rd Reg.DG_COLL_KEY ≠ k then
        (List.range 64).foldl (fun (h : Glexon) p =>
          if h.tpExpected p = false then h
          else
            let cfg := h.rd (Reg.DG_CHAN_CFG p)
            h.modPort p fun t =>
              let t1 := t.decideReg Reg.BM_COLL_SEED k
              if bit cfg 63 then
                [fld cfg 4 4, fld cfg 0 4].foldl (fun t c => t.decideReg (Reg.BM_SNP_SEED c) (word (k.toNat % 2 ^ 61))) t1
              else t1) g
      else g
    if e.toNat ≤ n.toNat then
      let g2 := if g1.rd Reg.DG_COLL_KEY = k then g1
        else { (g1.wr Reg.DG_COLL_KEY k) with fl := { g1.fl with keyTick := some n } }
      { g2 with ts := { g2.ts with key := none } }
    else g1

/-- GATE_LIST (R407): the list takes effect at the named boundary. -/
def Glexon.gatesCmd (g : Glexon) (r : Rec) : Glexon :=
  let l := (List.range (leAt r.payload 16 1)).map fun i => word (leAt r.payload (24 + 8 * i) 8)
  ({ g with ts := { g.ts with gates := some (word (Rec.eff r), l) } }).sendAllDown r

/-- GATE_LIST. -/
def execGateList (s : State) : Answer := execHead 0x0409 Glexon.gatesCmd s

/-- The executor writes TS_GATE_e for a list that applies at boundary `n`. -/
def Glexon.gatesDue (g : Glexon) (n : Word) : Glexon :=
  match g.ts.gates with
  | some (e, l) =>
    if e.toNat ≤ n.toNat then
      let g1 : Glexon := (List.range 64).foldl (fun (h : Glexon) i => h.rwtPut (Reg.TS_GATE i) (l.getD i 0)) g
      { g1 with ts := { g1.ts with gates := none } }
    else g
  | none => g

/-! ### Announcements (R499, R500) -/

/-- A child announces itself to a role of this Glexon. -/
def Glexon.announceCmd (g : Glexon) (r : Rec) : Glexon :=
  match g.targetOf r with
  | some none =>
    let p := r.payload
    let k := leAt p 32 1 + 1
    let a : Announce := { map := word (leAt p 16 8), h := word (leAt p 24 8), roles := leAt p 36 4, up := leAt p 40 4,
                          dies := leAt p 44 4 }
    match ((SMap.get {} g.image.roles k).children).find? fun c => c.2 == (Rec.origin r) with
    | some (pos, _) =>
      let i := 64 * k + pos
      if a.map ≠ g.rd Reg.MG_BU_MAP then
        if g.mg.annTold.contains i then g
        else ({ g with mg := { g.mg with annTold := i :: g.mg.annTold } }).event 0x0542 31 [word (Rec.origin r), a.map]
      else ({ g with mg := { g.mg with ann := SMap.put none g.mg.ann i (some a) } }).readyCheck
    | none => g.notHere
  | _ => g.notHere

/-- ANNOUNCE. -/
def execAnnounce (s : State) : Answer := execHead 0x040A Glexon.announceCmd s

/-- ANNOUNCE_RESEND (R499): until EPOCH reaches the role. -/
def execAnnounceResend (slot : BitVec 2) (s : State) : Answer :=
  onCore (fun g =>
    let k := slot.toNat
    if g.ready k ∧ SMap.get false g.mg.annDone k ∧ g.tk.hasEpoch = false ∧ k ≠ 3 then g.announce k else g) s

/-- ANNOUNCE_TIMEOUT (R499, R500): a relay that is ready announces without every child. -/
def execAnnounceTimeout (slot : BitVec 2) (s : State) : Answer :=
  onCore (fun g =>
    let k := slot.toNat
    if g.ready k ∧ SMap.get false g.mg.annDone k = false ∧ g.tk.hasEpoch = false ∧ k ≠ 0 then
      let g1 := if k = 3 then g else g.event 0x0543 31 [word k, word (g.annMissing k)]
      ((g1.announce k).buDone 7).readyCheck
    else g) s

/-! ### Submission (R408, R505) -/

/-- SUBMIT_CMD (R468): bytes 0 and 1 of the arguments hold the type, 8 to 23 the prefix, the rest the command's arguments. -/
def Glexon.submit (g : Glexon) (q : MbxReq) : Glexon :=
  let t := leAt q.args 0 2
  let tgt := leAt q.args 12 4
  let eff := word (leAt q.args 16 8)
  let args := q.args.drop 24
  let no (h : Glexon) : Glexon := h.mbxReply q.id 3 []
  if t < 0x0401 ∨ 0x040B < t then g.mbxReply q.id 1 []
  else if g.indexValid = false then no g
  else
    let (r, _) := g.newCmd t tgt eff args
    if cmdArgsOk r = false ∨ tgt.testBit 30 ≠ fleetCmd t ∨ fldN tgt 18 12 ≠ 0 then no (g.cmdRefuse g.index 0 t)
    else if t = 0x0403 ∨ t = 0x0404 then
      if g.roleOn 3 = false then no g
      else if eff ≠ 0 ∨ (t = 0x0404 ∧ Rec.zero r 24 32 = false) then no (g.cmdRefuse g.index 0 t)
      else { g with fl := { g.fl with wsAsk := g.fl.wsAsk ++ [{ id := q.id, typ := t, args := args }] } }
    else if fleetCmd t then (g.originate t tgt eff args 0).mbxReply q.id 0 []
    else if tgt.testBit 31 then (g.originate t tgt eff args (fldN tgt 0 14)).mbxReply q.id 0 []
    else
      match g.mg.dies.find? fun d => d.1 == fldN tgt 0 18 with
      | some (_, leaf, _) => (g.originate t tgt eff args leaf).mbxReply q.id 0 []
      | none => g.mbxReply q.id 4 []

/-- SUBMIT_CMD. -/
def execSubmitCmd (q : MbxReq) (s : State) : Answer := onMbxCore q (fun g => g.submit q) s

/-- MEMBER_LIST (R47, Table 17.7): part of a list slot; the write of byte 511 starts the check. -/
def execMemberList (q : MbxReq) (s : State) : Answer :=
  onMbxCore q (fun g =>
    let id := leAt q.args 0 2
    let off := leAt q.args 2 2
    let len := leAt q.args 4 2
    if 4096 ≤ id ∨ off % 8 ≠ 0 ∨ len % 8 ≠ 0 ∨ len < 8 ∨ 48 < len ∨ 512 < off + len then g.mbxReply q.id 1 []
    else
      let g1 := (g.busWrite none (listAt id + off) ((padTo 56 q.args).drop 8 |>.take len)).dropHeld id
      (if off + len = 512 then g1.checkList id else g1).mbxReply q.id 0 []) s

end Sys2Proof.Machine
end

