-- ==== Sys2Proof/Machine/Energy.lean ====
section
/-! DEFINITION. The Energy Planner (chapter 13). -/

namespace Sys2Proof.Machine

/-- The planner changed. -/
def Glexon.modEp (g : Glexon) (f : Planner → Planner) : Glexon := { g with ep := f g.ep }

/-- P_lim in W (R384). -/
def Glexon.pLim (g : Glexon) : Nat := min 800 (fld (g.rd Reg.EP_PWR_LIMIT) 0 16)

/-- T_HARD and T_SOFT in °C: where they do not fit, both act as reset (Table 13.3). -/
def Glexon.therm (g : Glexon) : Nat × Nat :=
  let hard := fld (g.rd Reg.EP_THERM) 8 8
  let soft := fld (g.rd Reg.EP_THERM) 0 8
  if hard ≤ 104 ∧ soft < hard then (hard, soft) else (100, 90)

/-- A Sepia line of the image. -/
def Glexon.sepiaLine (g : Glexon) (i : Nat) : Option SepiaLine := g.image.sepia.find? fun l => l.line == i

/-- The corrected estimate of a line. -/
def Glexon.lineEst (g : Glexon) (l : SepiaLine) : Nat := (SMap.get none g.ep.est l.line).getD l.est

/-! ### The accounts close (R382 to R386, R389) -/

/-- CORR_SHIFT. -/
def Glexon.corrShift (g : Glexon) : Nat :=
  let s := fld (g.rd Reg.EP_CTRL) 0 4
  if 1 ≤ s ∧ s ≤ 8 then s else 3

/-- The estimate of a line that ran is corrected by its measurement (R389). -/
def Glexon.correct (g : Glexon) (x : LineIn) : Glexon :=
  let i := x.line.toNat
  match g.sepiaLine i with
  | none => g
  | some l =>
    if x.ran = false ∨ bit (g.rd Reg.EP_ADMIT) i = false then g
    else
      let m := x.uj.toNat
      let d := 2 ^ g.corrShift
      let e := (g.lineEst l : Int) + ((m : Int) - g.lineEst l + (d - 1)) / d
      let c := (clampI ((l.est + 3) / 4 : Nat) (4 * l.est : Nat) e).toNat
      let again : Bool := match SMap.get none g.ep.clampAt i with
        | some t => decide (t.toNat + 65536 ≤ g.tk.tickNo.toNat)
        | none => true
      let g1 := (g.modEp fun p => { p with est := SMap.put none p.est i (some c) }).wr (Reg.EP_LINE i)
        (word (c % 2 ^ 32 * 2 ^ 32 + m))
      if e ≠ c ∧ again = true then
        (g1.modEp fun p => { p with clampAt := SMap.put none p.clampAt i (some g.tk.tickNo) }).event 0x0608 33 [word i, word m, word l.est]
      else g1

/-- The energy of the package over the tick, µJ, from the rail monitors (R461): they count units of 2.5 pJ. -/
def Glexon.tickEnergy (g : Glexon) : Nat := g.mg.energy / 400000

/-- At a boundary the planner closes the tick just ended. -/
def Glexon.epClose (g : Glexon) (b : BoundaryIn) : Glexon :=
  let e := g.tickEnergy
  let acct (a : Nat) : Option Nat := (b.accts.getD a none).map fun v => v.toNat
  let sum := ((List.range 37).map fun a => (acct a).getD 0).sum
  let lines := b.lines.filter fun x => bit (g.rd Reg.EP_ADMIT) x.line.toNat
  let m := (lines.map fun x => x.uj.toNat).sum
  let iv : Int := (e : Int) - m
  let g1 : Glexon := (List.range 37).foldl (fun (h : Glexon) a =>
    match acct a with
    | some v => h.wr (Reg.EP_ACCT a) (word v)
    | none => h) g
  let g2 := g1.wr (Reg.EP_ACCT 37) (word (wrapI 32 ((e : Int) - sum)))
  let cap := g.pLim * (g.ep.per / 1000)
  let debt := g.ep.debt + e - cap
  let g3 := if g.ep.debt = 0 ∧ debt ≠ 0 then g2.event 0x0605 33 [word e, word g.pLim] else g2
  let g4 : Glexon := lines.foldl Glexon.correct g3
  let mean : Mean8 := match g.ep.ivory with
    | some (_, x) => x
    | none => { num := g.image.ivoryEst, k := 0 }
  let g5 := g4.modEp fun p => { p with
    debt := debt, ivory := some (iv, mean.add iv), q := p.q.add p.asked, asked := 0,
    missing := (List.range 37).find? fun a => (acct a).isNone }
  ((g5.wr Reg.EP_LAST (word (e % 2 ^ 32 * 2 ^ 32 + wrapI 32 iv))).wr Reg.EP_DEBT (word debt)).bump Reg.EP_TOTAL e

/-- A reading of the die sensors, signed, in 1/16 °C. -/
def Glexon.sensor (g : Glexon) (s : Nat) : BitVec 16 := BitVec.ofNat 16 (fld (g.rd (Reg.MG_TEMP (s / 4))) (16 * (s % 4)) 16)

/-- The hottest sensor that works, and its reading. -/
def Glexon.hottest (g : Glexon) : Option (Nat × BitVec 16) :=
  (List.range 24).foldl (fun acc s =>
    let v := g.sensor s
    if v = 0x8000 then acc
    else match acc with
      | some (_, w) => if w.toInt < v.toInt then some (s, v) else acc
      | none => some (s, v)) none

/-- The tick that begins: its length, Tj at the boundary, and an admission to come. -/
def Glexon.epBegin (g : Glexon) : Glexon :=
  let (s, v) := g.hottest.getD (fld (g.rd Reg.EP_TJ) 16 5, BitVec.ofNat 16 (fld (g.rd Reg.EP_TJ) 0 16))
  let fresh := match g.mg.tempAt with
    | some t => decide (g.nowNs ≤ t + 1000000)
    | none => false
  (g.wr Reg.EP_TJ (word (s * 2 ^ 16 + v.toNat))).modEp fun p =>
    { p with stale := !(fresh && g.hottest.isSome), due := true, per := g.pNs }

/-! ### Admission (R384, R387, R388, R392) -/

/-- The reading of Tj at the boundary. -/
def Glexon.tj (g : Glexon) : Int := (BitVec.ofNat 16 (fld (g.rd Reg.EP_TJ) 0 16)).toInt

/-- The headroom factor, in 1/65,536 (R384). -/
def Glexon.headroom (g : Glexon) : Nat :=
  let (hard, soft) := g.therm
  (clampI 0 65536 (((16 * hard : Nat) - g.tj) * 65536 / ((16 * (hard - soft) : Nat) : Int))).toNat

/-- The budget of the tick, µJ (R384). -/
def Glexon.budget (g : Glexon) : Nat :=
  g.headroom * (g.pLim - fld (g.rd Reg.EP_PWR_LIMIT) 16 16) * (g.pNs / 1000) / 65536 - g.ep.debt

/-- Does the predicted Ivory energy, with `add` more, exceed `b` (R386)? The prediction is exact. -/
def Glexon.overBudget (g : Glexon) (add b : Nat) : Bool :=
  match g.ep.ivory with
  | none => decide (b < g.image.ivoryEst + add)
  | some (i, m) => decide ((b : Int) < i + add) || decide (((b : Int) - add) * (8 : Int) ^ m.k < m.num)

/-- The predicted Ivory energy, whole µJ. -/
def Glexon.ivoryPred (g : Glexon) : Nat :=
  match g.ep.ivory with
  | none => g.image.ivoryEst
  | some (i, m) => (max i m.floor).toNat

/-- A line inserted by rank. -/
def insLine (x : SepiaLine) : List SepiaLine → List SepiaLine
  | [] => [x]
  | y :: r => if x.rank ≤ y.rank then x :: y :: r else y :: insLine x r

/-- The lines that may be admitted, in priority order: not masked, with a window in the variant in force. -/
def Glexon.openLines (g : Glexon) : List SepiaLine :=
  (g.image.sepia.filter fun l => bit (g.rd Reg.EP_SEPIA_MASK) l.line && g.variant.lines.any fun w => w.line == l.line).foldr insLine []

/-- R387's loop: the lines admitted and, if one ended it, its number. -/
def Glexon.admitLoop (g : Glexon) (b : Nat) : List SepiaLine → Nat → List SepiaLine → List SepiaLine × Option Nat
  | [], _, adm => (adm, none)
  | l :: r, add, adm =>
    let e := g.lineEst l
    if g.overBudget (add + e) b then (adm, some l.line) else g.admitLoop b r (add + e) (adm ++ [l])

/-- The audit threshold that the admission calls for (R390, R392). -/
def Glexon.threshold (g : Glexon) (cap : Nat) (hot : Bool) : Nat :=
  let tmax := fld (g.rd Reg.EP_AUDIT_CFG) 32 32
  let tmin := fld (g.rd Reg.EP_AUDIT_CFG) 0 32
  if hot then tmin
  else if g.ep.q.num = 0 then tmax
  else min tmax (max tmin (cap * 2 ^ 32 * 8 ^ g.ep.q.k / g.ep.q.num.toNat))

/-- The leaf sends a new threshold to every die (R266, R390): a lower one at once, a higher one at most doubled and no sooner
than 64 ticks after the last rise; a threshold of 0 doubles to 1. -/
def Glexon.sendThreshold (g : Glexon) (t : Nat) : Glexon :=
  let old := g.ep.sent
  let wait := match g.ep.rose with
    | some n => decide (g.tk.tickNo.toNat < n.toNat + 64)
    | none => false
  let new := if t < old then t else if old < t ∧ wait = false then min t (max 1 (2 * old)) else old
  let g1 : Glexon := if new = old ∨ bit (g.rd Reg.EP_CTRL) 62 = false then g
    else
      (List.range 64).foldl (fun (h : Glexon) p =>
        if h.tpExpected p then
          h.modPort p fun x => x.decide Reg.BM_AUDIT_THRESH (word new) { op := 6, args := leBytes 4 new }
        else h) (g.modEp fun p => { p with sent := new, rose := if old < new then some g.tk.tickNo else p.rose })
  g1.wr Reg.EP_AUDIT_THR (word (g1.ep.q.floor.toNat % 2 ^ 32 * 2 ^ 32 + g1.ep.sent))

/-- The planner's admission of the tick. -/
def Glexon.admission (g : Glexon) : Glexon :=
  let (hard, soft) := g.therm
  let sens := fld (g.rd Reg.EP_TJ) 16 5
  let hot := decide (((16 * hard : Nat) : Int) ≤ g.tj)
  let warm := decide (((16 * soft : Nat) : Int) ≤ g.tj)
  let fault := g.ep.missing.isSome || g.ep.stale
  let b := g.budget
  let lines := g.openLines
  let runs := bit (g.rd Reg.EP_CTRL) 63 && !fault
  let (adm0, end0) := g.admitLoop b lines 0 []
  let adm := if runs && !hot && decide (g.mg.hbmHot = 0) then adm0 else []
  let ended := if runs then end0 else none
  let admitted := adm.foldl (fun a l => a + 2 ^ l.line) 0
  let beyond := g.overBudget 0 b
  let g1 := if fault then g.event 0x0606 33 [word (match g.ep.missing with
    | some a => a
    | none => sens)] else g
  let g2 := if warm ∧ g.ep.soft = false then g1.event 0x0602 33 [word sens, word (wrapI 64 g.tj)] else g1
  let g3 := if hot ∧ g.ep.hard = false then g2.event 0x0603 33 [word sens, word (wrapI 64 g.tj)] else g2
  let g4 := match ended with
    | some l =>
      let h := g3.bumpFld Reg.EP_STAT 32 32 1
      if g.ep.all then h.event 0x0601 33 [word l, word b, word g.ivoryPred] else h
    | none => g3
  let g5 := if beyond then
      let h := g4.bumpFld Reg.EP_STAT 0 32 1
      if g.ep.ivOver then h else h.event 0x0604 33 [word g.ivoryPred, word b]
    else g4
  let g6 := (g5.wr Reg.EP_ADMIT (word admitted)).wr Reg.EP_BUDGET (word (b % 2 ^ 32 * 2 ^ 32 + satN 32 g.ivoryPred))
  let g7 := g6.modEp fun p => { p with
    due := false, soft := warm, hard := hot, ivOver := beyond, all := decide (adm.length = lines.length),
    overB := if beyond then p.overB + 1 else 0, inB := if beyond then 0 else p.inB + 1 }
  let g8 : Glexon := (List.range 24).foldl (fun (h : Glexon) n =>
    let mine := (adm.filter fun l => g.variant.lines.any fun w => w.line == l.line && w.core == n).foldl (fun a l => a + 2 ^ l.line) 0
    h.modCore n fun k => { k with lineMask := word mine }) g7
  if g8.roleOn 0 then g8.sendThreshold (g8.threshold (adm.map fun l => l.cap).sum hot) else g8

/-- ADMISSION (R387): 1.5 µs after the boundary. -/
def execAdmission (s : State) : Answer := onCore (fun g => if g.tk.ticking ∧ g.ep.due then g.admission else g) s

/-- GREYOUT for Mauve alone to every member die (R391). -/
def Glexon.greyMauve (g : Glexon) (w : Word) : Glexon :=
  (List.range 64).foldl (fun (h : Glexon) p =>
    if h.tpExpected p then
      h.modPort p fun t => t.decideMany [(Reg.BM_TAP_SHAPE 3, w)] { op := 4, args := leBytes 1 8 ++ leBytes 7 0 ++ leBytes 8 w.toNat }
    else h) g

/-- MAUVE_GREYOUT (R391). -/
def execMauveGreyout (s : State) : Answer :=
  onCore (fun g =>
    if g.tk.ticking = false ∨ g.roleOn 0 = false ∨ bit (g.rd Reg.EP_CTRL) 61 = false then g
    else if g.ep.grey = false ∧ 16 ≤ g.ep.overB then
      ((g.greyMauve (g.rd Reg.EP_GREY_CFG)).modEp fun p => { p with grey := true }).event 0x0607 33 [1]
    else if g.ep.grey ∧ 256 ≤ g.ep.inB then ((g.greyMauve 0).modEp fun p => { p with grey := false }).event 0x0607 33 [0]
    else g) s

end Sys2Proof.Machine
end

