-- ==== Sys2Proof/Machine/Recorder.lean ====
section
/-! DEFINITION. The hardware of the management domain: sensors, rail monitors, thermal trip, the event recorder with its mirror, and
alerts (R454, R460 to R467). -/

namespace Sys2Proof.Machine

/-- The management state changed. -/
def Glexon.modMg (g : Glexon) (f : Mgmt → Mgmt) : Glexon := { g with mg := f g.mg }

/-! ### Sensors and thermal trip (R460, R462) -/

/-- The state that PLDM sensor 80 reports (Table 17.9): 1 normal, 2 soft, 3 hard, 4 trip. -/
def Glexon.thermal (g : Glexon) : Nat :=
  let (hard, soft) := g.therm
  if g.mg.tripped then 4
  else
    match g.hottest with
    | none => 1
    | some (_, v) => if ((16 * hard : Nat) : Int) ≤ v.toInt then 3 else if ((16 * soft : Nat) : Int) ≤ v.toInt then 2 else 1

/-- Firmware sends PlatformEventMessage to the event receiver on a change of thermal state (R473): a state sensor event. -/
def Glexon.thermalTell (g : Glexon) : Glexon :=
  let now := g.thermal
  if g.fwOn = false ∨ now = g.mg.thermal then g
  else
    match g.mg.evRecv with
    | some _ => g.modMg fun m => { m with
        thermal := now,
        evMsg := [0x80, 0x02, 0x0A, 0x01, g.mg.tid, 0x00] ++ leBytes 2 80 ++ [0x01, 0x00, BitVec.ofNat 8 now, BitVec.ofNat 8 m.thermal] }
    | none => g.modMg fun m => { m with thermal := now }

/-- One sensor's sample: its failure is told once, and readings of 105 °C or more are counted while they follow each other. -/
def Glexon.sensorIn (g : Glexon) (s : Nat) (v : BitVec 16) : Glexon :=
  let a := Reg.MG_TEMP (s / 4)
  let bad := decide (v = 0x8000)
  let hot := !bad && decide (1680 ≤ v.toInt)
  let g1 := (g.wr a (putFld (g.rd a) (16 * (s % 4)) 16 v.toNat)).modMg fun m => { m with
    bad := SMap.put false m.bad s bad, hot := SMap.put 0 m.hot s (if hot then SMap.get 0 m.hot s + 1 else 0) }
  if bad ∧ SMap.get false g.mg.bad s = false then g1.event 0x0705 31 [word s] else g1

/-- SENSOR_SAMPLE (R460). A sensor that the list leaves out fails its check. -/
def execSensorSample (reads : List (BitVec 16)) (s : State) : Answer :=
  onMgmt (fun g =>
    let g1 : Glexon := (List.range 24).foldl (fun h i => h.sensorIn i (reads.getD i 0x8000)) g
    (g1.modMg fun m => { m with tempAt := some g.nowNs }).thermalTell) s

/-- THERMAL_TRIP (R462): the lowest sensor with eight such samples puts the chip in thermal halt: its clocks stop, every link falls. -/
def execThermalTrip (s : State) : Answer :=
  onMgmt (fun g =>
    match (List.range 24).find? fun i => 8 ≤ SMap.get 0 g.mg.hot i with
    | some i =>
      if g.mg.tripped then g
      else
        let v := (g.sensor i).toNat
        let g1 := (g.wr Reg.MG_TRIP (word (2 ^ 63 + i * 2 ^ 16 + v))).event 0x0703 31 [word i, word v]
        let down (t : TapPort) : TapPort := { t with tr := { retrains := t.tr.retrains }, held := false, observed := false, reasm := [] }
        let g2 : Glexon := { g1 with portLanes := [], ports := g1.ports.map fun e => (e.1, down e.2) }
        (g2.modMg fun m => { m with tripped := true }).thermalTell
    | none => g) s

/-! ### Rails (R461) -/

/-- One rail's sample. -/
def Glexon.railIn (g : Glexon) (j : Nat) (r : RailIn) : Glexon :=
  let lim := g.rd (Reg.MG_RAIL_LIM j)
  let hi := fld lim 48 16
  let lo := fld lim 32 16
  let cur := fld lim 0 16
  let out := (hi ≠ 0 ∧ hi < r.v.toNat) ∨ (lo ≠ 0 ∧ r.v.toNat < lo) ∨ (cur ≠ 0 ∧ cur < r.i.toNat)
  let quiet := match SMap.get none g.mg.railAt j with
    | some t => decide (g.mg.us < t + 1000000)
    | none => false
  let g1 := g.wr (Reg.MG_RAIL j) (word (r.i.toNat * 2 ^ 32 + r.v.toNat))
  if out ∧ quiet = false then
    (g1.modMg fun m => { m with railAt := SMap.put none m.railAt j (some m.us) }).event 0x0706 31
      [word j, word r.v.toNat, word r.i.toNat]
  else g1

/-- RAIL_SAMPLE (R461): 0.25 mV × 10 mA over 1 µs is 2.5 pJ. -/
def execRailSample (rails : List RailIn) (s : State) : Answer :=
  onMgmt (fun g =>
    let at_ (j : Nat) : RailIn := rails.getD j { v := 0, i := 0 }
    let e := ((List.range 16).map fun j => (at_ j).v.toNat * (at_ j).i.toNat).sum
    let g1 : Glexon := (List.range 16).foldl (fun h j => h.railIn j (at_ j)) g
    g1.modMg fun m => { m with
      us := m.us + 1, tokens := min 256000 (m.tokens + 1), energy := m.energy + e, secAcc := m.secAcc + e }) s

/-! ### Alerts (R467) -/

/-- A record that the alert unit originates. -/
def Glexon.alertRec (g : Glexon) (typ : Nat) (pay : List Byte) : Rec :=
  { typ := BitVec.ofNat 16 typ, cls := 9, colour := 0, flags := BitVec.ofNat 8 (if g.inHold then flagHold else 0),
    src := BitVec.ofNat 32 (2 ^ 31 + g.index), tick := g.tk.tickNo, shortTime := g.short g.nowNs, seq := g.fl.seq, wsId := 0,
    wsGen := 0, alive := SMap.get 0 g.fl.alive g.lowSlot, payload := pay }

/-- An alert goes out, and takes the next SEQ. -/
def Glexon.sendAlert (g : Glexon) (typ : Nat) (pay : List Byte) : Glexon :=
  if g.mg.ready then
    let g1 := g.alertOut (g.alertRec typ pay)
    { g1 with fl := { g1.fl with seq := g1.fl.seq + 1 } }
  else g

/-- EVENT_ALERT for a recorded event, through the token bucket below severity 3. -/
def Glexon.eventAlert (g : Glexon) (sev : Nat) (l : List Byte) : Glexon :=
  if sev < fld (g.rd Reg.MG_ALERT_CFG) 0 2 ∨ g.mg.ready = false then g
  else if 3 ≤ sev then g.sendAlert 0x0501 l
  else if g.mg.tokens < 1000 then
    (g.bumpFld Reg.MG_ALERT_STAT 0 32 1).modMg fun m => { m with dropped := m.dropped + 1 }
  else (g.modMg fun m => { m with tokens := m.tokens - 1000 }).sendAlert 0x0501 l

/-! ### The recorder (R463, R464) -/

/-- The argument bytes of an event: up to 24. -/
def argBytes (args : List Word) : List Byte :=
  let n := if args.length ≤ 3 then 8 else if args.length ≤ 6 then 4 else 24 / args.length
  padTo 24 (args.flatMap fun w => leBytes n w.toNat)

/-- A record (Table 17.4). -/
def Glexon.evRecord (g : Glexon) (e : EvItem) : List Byte :=
  leBytes 8 (g.rd Reg.MG_EVR_HEAD).toNat ++ leBytes 4 (g.rd Reg.MG_OP_SECONDS).toNat ++ leBytes 4 (g.rd Reg.MG_POWER_CYCLES).toNat
    ++ leBytes 8 e.time ++ leBytes 8 e.tick.toNat ++ leBytes 2 e.code ++ leBytes 1 e.agent ++ leBytes 1 e.sev.toNat
    ++ (argBytes e.args).take 24 ++ [0, 0, 0, 0xA5]

/-- Writes the record of an event in the slot of its SEQ. -/
def Glexon.recordEvent (g : Glexon) (e : EvItem) : Glexon :=
  let s := (g.rd Reg.MG_EVR_HEAD).toNat
  let l := g.evRecord e
  let beyond := decide (16384 ≤ s) && decide ((g.rd Reg.MG_EVR_OLDEST).toNat + 16384 = s)
    && decide ((g.rd Reg.MG_EVR_MIRRORED).toNat < s - 16384)
  let g1 := if beyond then g.bumpFld Reg.MG_EVR_STAT 0 32 1 else g
  let g2 := g1.wr Reg.MG_EVR_HEAD (word (s + 1))
  let g3 := if (g.rd Reg.MG_EVR_OLDEST).toNat + 16384 ≤ s then g2.wr Reg.MG_EVR_OLDEST (word (s - 16383)) else g2
  (g3.modMg fun m => { m with recs := SMap.put [] m.recs (s % 16384) l }).eventAlert e.sev.toNat l

/-- EVENT_RECORD_WRITE (R463, R464): the next event of the FIFO, or EVR_OVERFLOW where events were lost after it. -/
def execEventRecordWrite (s : State) : Answer :=
  onMgmt (fun g =>
    match g.mg.lost, g.events with
    | some x, evs =>
      if x.left = 0 then
        (g.modMg fun m => { m with lost := none }).recordEvent
          { code := 0x0709, agent := 31, sev := Config.eventSeverity 0x0709, args := [word x.n], time := x.time, tick := x.tick }
      else
        match evs with
        | e :: rest => ({ g with events := rest }.modMg fun m => { m with lost := some { x with left := x.left - 1 } }).recordEvent e
        | [] => g
    | none, e :: rest => { g with events := rest }.recordEvent e
    | none, [] => g) s

/-- EVR_CURSOR (R465). -/
def execEvrCursor (v : Word) (s : State) : Answer := onMgmt (fun g => g.wr Reg.MG_EVR_CURSOR v) s

/-! ### The mirror (R466) -/

/-- The recorder's complete records with SEQ from `a` and below HEAD, in order. -/
def Glexon.recsFrom (g : Glexon) (a : Nat) : List (List Byte) :=
  let h := (g.rd Reg.MG_EVR_HEAD).toNat
  let lo := max a (g.rd Reg.MG_EVR_OLDEST).toNat
  ((List.range (h - lo)).map fun i => SMap.get [] g.mg.recs ((lo + i) % 16384)).filter fun l => decide (l ≠ [])

/-- The first SEQ that is not mirrored: MG_EVR_MIRRORED + 1 (R466). -/
def Glexon.unmirrored (g : Glexon) : Nat := (g.rd Reg.MG_EVR_MIRRORED).toNat + 1

/-- SEQ of a record's bytes. -/
def recSeq (l : List Byte) : Nat := leAt l 0 8

/-- The records with the highest SEQ of a list in SEQ order, at most `n`. -/
def lastN (n : Nat) (l : List (List Byte)) : List (List Byte) := l.drop (l.length - n)

/-- MIRROR_APPEND (R466); `fail`: a device that failed an append, and where. -/
def execMirrorAppend (fail : Option MirrorFail) (s : State) : Answer :=
  onMgmt (fun g =>
    let new := g.recsFrom g.unmirrored
    let g1 : Glexon :=
      match new.getLast? with
      | some l => (g.modMg fun m => { m with mirror := lastN 262144 (m.mirror ++ new) }).wr Reg.MG_EVR_MIRRORED (word (recSeq l))
      | none => g
    match fail with
    | some f => g1.event 0x070A 31 [word f.dev.toNat, word f.addr.toNat]
    | none => g1) s

/-- BROWNOUT (R466): `PWR_WARN_N` falls. -/
def execBrownout (s : State) : Answer :=
  onMgmt (fun g =>
    let l := lastN 32 (g.recsFrom g.unmirrored)
    (g.modMg fun m => { m with warn := true, reserve := l }).event 0x0707 31 [word l.length]) s

/-! ### HEARTBEAT (R467) -/

/-- Payload of HEARTBEAT (Table 17.6). -/
def Glexon.heartbeat (g : Glexon) : List Byte :=
  let m := g.mg
  let hot := match g.hottest with
    | some (_, v) => v.toNat
    | none => 0x8000
  let on := decide (m.run = .running)
  leBytes 8 Config.idSerial.toNat ++ leBytes 2 (g.indexValid.toNat * 2 ^ 15 + g.index) ++ leBytes 1 g.mgState ++ [g.stateByte]
    ++ leBytes 8 g.tk.tickNo.toNat ++ leBytes 2 hot
    ++ leBytes 2 (if on then m.slotB.toNat * 2 ^ 15 + (m.committed m.slotB).toNat * 2 ^ 14 + m.svn m.slotB % 128 else 0)
    ++ leBytes 4 (g.rd Reg.MC_WITHDRAWN).toNat ++ leBytes 4 (satN 32 m.dropped) ++ leBytes 8 (g.rd Reg.MG_EVR_HEAD).toNat
    ++ leBytes 8 (if on then m.version m.slotB else 0)

/-- HEARTBEAT (R467): a second of operating time has passed. -/
def execHeartbeat (s : State) : Answer :=
  onMgmt (fun g =>
    let g1 := (g.bumpFld Reg.MG_OP_SECONDS 0 32 1).modMg fun m => { m with secE := m.secAcc, secAcc := 0 }
    if g1.mg.ready then (g1.sendAlert 0x0502 g1.heartbeat).modMg fun m => { m with dropped := 0 } else g1) s

end Sys2Proof.Machine
end

