-- ==== Sys2Proof/Machine/Boot.lean ====
section
/-! DEFINITION. The management processor's boot and restart (R455 to R459), and its watchdog. -/

namespace Sys2Proof.Machine

/-! ### Valid slots (R456, R457) -/

/-- Are the bytes of `l` from `a` to `b` (exclusive) all 0? -/
def zeroAt (l : List Byte) (a b : Nat) : Bool := ((l.drop a).take (b - a)).all fun x => x == 0

/-- The first rule of R457 that a slot breaks, numbered from 1; 0 for a valid slot. -/
def slotRule (fuses : Nat) (l : List Byte) : Nat :=
  let key := (l.drop 128).take 97
  let ix := leAt l 6 1
  let n := leAt l 20 4
  if l.length < 512 ∨ leAt l 0 4 ≠ 0x4D474657 ∨ leAt l 4 2 ≠ 1 ∨ zeroAt l 7 8 = false ∨ zeroAt l 28 64 = false
      ∨ zeroAt l 112 128 = false ∨ zeroAt l 225 256 = false ∨ zeroAt l 352 512 = false then 1
  else if 4 ≤ ix ∨ Config.keyRevoked ix = true then 2
  else if sha384 key ≠ Config.keyHash ix then 3
  else if keyOk key = false ∨ ecdsaOk key ((l.drop 256).take 96) (l.take 256) = false then 4
  else if n = 0 ∨ 3145728 < n ∨ l.length < 512 + n ∨ sha384 ((l.drop 512).take n) ≠ (l.drop 64).take 48 then 5
  else if leAt l 16 4 < fuses then 6
  else 0

/-- A slot is valid. -/
def Mgmt.valid (m : Mgmt) (b : Bool) : Bool := decide (slotRule m.fuses (m.slot b) = 0)

/-- The slot that the boot ROM chooses (R458), and whether it is the fallback; `none` if no slot boots. -/
def Mgmt.choose (m : Mgmt) : Option (Bool × Bool) :=
  let p := m.bootRec.pref
  if m.valid p && (m.committed p || decide (0 < m.bootRec.tries)) then some (p, false)
  else if m.valid !p then some (!p, true)
  else none

/-- The highest tick number in any record of the mirror, the reserve and the recorder (R502). -/
def Mgmt.highTick (m : Mgmt) : Word :=
  word (((m.mirror ++ m.reserve ++ m.recs.map fun e => e.2).map fun l => leAt l 24 8).foldl max 0)

/-- The boot ROM runs, and the slot that it starts: firmware is up (R458), or BOOT_FAILED is written. -/
def Glexon.bootRom (g : Glexon) (cold : Bool) : Glexon :=
  let m := g.mg
  let m0 : Mgmt := { m with staged := false, actAt := none, eid := 0, tid := 0, evRecv := none, thermal := 1, hTick := m.highTick }
  match m.choose with
  | some (b, fallback) =>
    let tries := if fallback then m.bootRec.tries else m.bootRec.tries - 1
    let g1 := g.modMg fun _ => { m0 with
      run := .running, slotB := b, bootRec := { m.bootRec with tries := tries },
      wdogAt := some (m.us + 1000 * fld (g.rd Reg.MG_WDOG) 0 32) }
    let g2 := if fallback then g1.event 0x0805 31 [word (!b).toNat] else g1
    g2.event 0x0701 31 [word b.toNat, word (m.svn b), word (!cold).toNat]
  | none =>
    (g.modMg fun _ => { m0 with run := .noFirmware, wdogAt := none }).event 0x0702 31
      [word (slotRule m.fuses (m.slot false)), word (slotRule m.fuses (m.slot true))]

/-- Step 0 of bring-up is complete: management runs firmware and the core domain is out of reset (R492). -/
def Glexon.bringUp (g : Glexon) : Glexon :=
  if g.fwOn ∧ g.mg.ready ∧ g.coreUp then (g.buDone 0).buEnter 1 0 else g

/-! ### Restarts (R455) -/

/-- A management restart by a cause: 0 watchdog, 1 firmware request, 2 activation. -/
def Glexon.restart (g : Glexon) (cause : Nat) : Glexon := (g.event 0x0704 31 [word cause]).bootRom false

/-- WATCHDOG_EXPIRE (R455): WDOG_MS have passed, in rail samples of 1 µs, since the last kick or the start of firmware. -/
def execWatchdogExpire (s : State) : Answer :=
  onMgmt (fun g =>
    match g.mg.wdogAt with
    | some t => if t ≤ g.mg.us then g.restart 0 else g
    | none => g) s

/-- A write of MG_WDOG_KICK: the watchdog starts again. -/
def Glexon.kick (g : Glexon) : Glexon :=
  if g.fwOn then g.modMg fun m => { m with wdogAt := some (m.us + 1000 * fld (g.rd Reg.MG_WDOG) 0 32) } else g

/-- MG_WDOG_KICK (R455). -/
def execMgWdogKick (_data : Word) (s : State) : Answer := onMgmt Glexon.kick s

/-- A write of MG_RESTART. -/
def Glexon.restartWrite (g : Glexon) (v : Word) : Glexon := if fld v 0 32 = 0x5A5A5A5A then g.restart 1 else g

/-- MG_RESTART (R455). -/
def execMgRestart (data : Word) (s : State) : Answer := onMgmt (fun g => g.restartWrite data) s

/-! ### Cold boot (R458, R459, R463, R466) -/

/-- What a programmer has written to the NOR devices. -/
def Mgmt.program (m : Mgmt) (n : NorIn) : Mgmt :=
  { m with
    slots := SMap.put [] (SMap.put [] m.slots 0 n.slotA) 1 n.slotB,
    bootRec := { pref := n.prefB, commA := n.commA, commB := n.commB, tries := n.tries.toNat } }

/-- The record with the highest SEQ of the mirror and the reserve. -/
def Mgmt.lastRec (m : Mgmt) : Option (List Byte) :=
  (m.mirror ++ m.reserve).foldl (fun acc l => match acc with
    | some x => if recSeq x < recSeq l then some l else some x
    | none => some l) none

/-- SEQ, operating seconds and the power-cycle count come back from the NOR devices. -/
def Glexon.restore (g : Glexon) : Glexon :=
  match g.mg.lastRec with
  | some l =>
    let h := word (recSeq l + 1)
    ((((g.wr Reg.MG_EVR_HEAD h).wr Reg.MG_EVR_OLDEST h).wr Reg.MG_EVR_MIRRORED
        (word ((g.mg.mirror.getLast?.map recSeq).getD 0))).wr Reg.MG_OP_SECONDS (word (leAt l 8 4))).wr Reg.MG_POWER_CYCLES (word g.mg.cycles)
  | none => g.wr Reg.MG_POWER_CYCLES (word g.mg.cycles)

/-- Firmware merges the reserve into the ring, in SEQ order, and erases it; and counts the power cycle. -/
def Glexon.firstSteps (g : Glexon) : Glexon :=
  let m := g.mg
  let new := m.reserve.filter fun l => m.mirror.all fun x => recSeq x < recSeq l
  let ring := lastN 262144 (m.mirror ++ new)
  let c := (m.cycles + 1) % 2 ^ 32
  let g1 := g.modMg fun m => { m with mirror := ring, reserve := [], cycles := c }
  (match ring.getLast? with
   | some l => g1.wr Reg.MG_EVR_MIRRORED (word (recSeq l))
   | none => g1).wr Reg.MG_POWER_CYCLES (word c)

/-- COLD_BOOT (R458): MG_RST_N is released; `nor`: what a programmer has written to the devices, if anything. -/
def execColdBoot (nor : Option NorIn) (s : State) : Answer :=
  onGxPins (fun g =>
    if g.mgRstN then g
    else
      let g1 : Glexon := { g with mgRstN := true, mg := match nor with
        | some n => g.mg.program n
        | none => g.mg }
      let g2 := g1.restore.bootRom true
      let g3 := if g2.mg.run = .running then g2.firstSteps else g2
      (g3.modMg fun m => { m with ready := true }).bringUp) s

end Sys2Proof.Machine
end

