-- ==== Sys2Proof/Machine/Bringup.lean ====
section
/-! DEFINITION. Bring-up events (R55, R67, R492, R499, R508, R509): what may make a role ready, and the fabric ports. -/

namespace Sys2Proof.Machine

/-- The clock may have locked: bring-up step 6 is complete, and roles may have become ready. -/
def Glexon.lockedNow (g : Glexon) : Glexon := if g.tk.mode = .locked then (g.buDone 6).readyCheck else g

/-- SYNC_RECEIVE (R55). -/
def execSyncReceive (m : PtpSync) (s : State) : Answer := onCore (fun g => (g.syncRx m).lockedNow) s
/-- FOLLOW_UP_RECEIVE (R54). -/
def execFollowUpReceive (m : PtpSync) (s : State) : Answer := onCore (fun g => (g.followUpRx m).lockedNow) s
/-- PPS_IN_EDGE (R67). -/
def execPpsInEdge (s : State) : Answer := onTk (fun g => g.ppsIn.lockedNow) s

/-! ### Fabric ports (R508, R509) -/

/-- The lanes of the widest width whose lanes all pass training: four, 0–1 or 2–3, or one. -/
def lanesOf (mask : BitVec 4) : Nat :=
  if mask = 15 then 4
  else if bit mask 0 && bit mask 1 || bit mask 2 && bit mask 3 then 2
  else if mask = 0 then 0
  else 1

/-- A port's lanes, as its register shows them. -/
def Glexon.setLanes (g : Glexon) (p n : Nat) : Glexon := { g with portLanes := SMap.put 0 g.portLanes p n }

/-- Firmware moves the active slots of a port that is down to the lowest port that is up (R509). -/
def Glexon.moveRoles (g : Glexon) (p : Nat) : Glexon :=
  match (List.range 8).find? fun q => SMap.get 0 g.portLanes q ≠ 0 with
  | none => g
  | some q =>
    if g.fwOn then
      (List.range 4).foldl (fun (h : Glexon) k =>
        if h.roleSet k ∧ h.rolePort k = p then
          (h.wr Reg.TS_ROLE_PORT (putFld (h.rd Reg.TS_ROLE_PORT) (4 * k) 3 q)).event 0x0548 31 [word k, word p, word q]
        else h) g
    else g

/-- FABRIC_LANE_FAIL (R508): `mask` holds the lanes that pass when the port retrains. With none the port is down; the PTP
port's loss puts a LOCKED clock in HOLDOVER. -/
def execFabricLaneFail (p : BitVec 3) (mask : BitVec 4) (s : State) : Answer :=
  onCore (fun g =>
    let n := lanesOf mask
    let q := p.toNat
    if SMap.get 0 g.portLanes q = 0 then g
    else if n = 0 then
      let g1 := ((g.setLanes q 0).event 0x0303 31 [word q]).moveRoles q
      if g1.ptpEn ∧ fld (g1.rd Reg.TK_PTP_CFG) 9 3 = q then g1.enterHoldover 0 else g1
    else (g.setLanes q n).event 0x0302 31 [word q, word n]) s

/-- Bring-up steps 1 and 2 are complete: the map is next (R492). -/
def Glexon.mapPhase (g : Glexon) : Glexon :=
  if g.rd (Reg.MG_BU_TIME 1) ≠ 0 ∧ g.rd (Reg.MG_BU_TIME 2) ≠ 0 then g.buEnter 3 0 else g

/-- FABRIC_PORT_UP (R508): a port comes up, or a degraded one that firmware retrains returns; v, tags and finish tags are 0 on
entering link-up (R400). -/
def execFabricPortUp (p : BitVec 3) (mask : BitVec 4) (s : State) : Answer :=
  onCore (fun g =>
    let n := lanesOf mask
    let q := p.toNat
    if n = 0 then g
    else
      let e := g.egress q
      let e1 : Egress := { e with v := 0, qs := e.qs.map fun x => (x.1, { x.2 with
        fLast := 0, tag := match x.2.frames with
          | f :: _ => g.wfqTag x.1 0 f.len
          | [] => 0 }) }
      ((((g.setLanes q n).setEgress q e1).event 0x0301 31 [word q, word n]).buDone 2).mapPhase) s

end Sys2Proof.Machine
end

