-- ==== Sys2Proof/Machine/Electrical.lean ====
section
/-! DEFINITION. Resets and supplies, record memory's temperature and training, and the JTAG port (R454, R492, R521 to R530). -/

namespace Sys2Proof.Machine

/-! ### Resets and supplies (R454, R462, R521 to R523) -/

/-- Is a register of the management domain that a reset of the core domain leaves? Bring-up starts again, and a pending image is
forgotten. -/
def mgReg (a : Nat) : Bool :=
  decide (0x80E00000 ≤ a) && decide (a < 0x80F00000) && decide (a ≠ Reg.MG_IMG_ACT) && decide (a ≠ Reg.MG_BU_STATE)
    && !(decide (Reg.MG_BU_TIME 0 ≤ a) && decide (a ≤ Reg.MG_BU_ANN))

/-- What the management domain keeps of the core domain is gone with it. -/
def Mgmt.coreGone (m : Mgmt) : Mgmt :=
  { m with
    energy := 0, auth := (0, 0), hbmHot := 0, hbmFast := 0, trained := false, mapOk := false, half := false, dies := [],
    apexIx := none, ann := [], annTold := [], annDone := [], rejoin := false, partAt := none, imgOk := false, sha := [] }

/-- The core domain enters reset (R523): it loses all its state, record memory included; the management domain goes on. -/
def Glexon.coreReset (g : Glexon) : Glexon :=
  { Glexon.reset with
    sysRstN := g.sysRstN, corePwrOk := g.corePwrOk, mgRstN := g.mgRstN, coreLost := g.coreLost,
    regs := g.regs.filter fun e => mgReg e.1, events := g.events, freeN := g.freeN, mg := g.mg.coreGone }

/-- A pulse of `SYS_RST_N` with core power present clears thermal halt (R462, R528). -/
def Glexon.tripClear (g : Glexon) : Glexon :=
  if g.mg.tripped then { (g.wr Reg.MG_TRIP 0) with mg := { g.mg with tripped := false } } else g

/-- SYS_RST_N_ASSERT (R523). -/
def execSysRstNAssert (s : State) : Answer :=
  onGxPins (fun g =>
    if g.sysRstN = false then g
    else
      let g1 := ({ g with sysRstN := false }).coreReset
      if g.corePwrOk then g1.tripClear.thermalTell else g1) s

/-- SYS_RST_N_RELEASE (R521): the power-good instant of bring-up. JTAG instructions that would take pins act as BYPASS from here. -/
def execSysRstNRelease (s : State) : Answer :=
  onGxPins (fun g =>
    if g.sysRstN then g
    else
      let j := if g.mg.jtag = .sample then Jtag.sample else .bypass
      let g1 : Glexon := { g with sysRstN := true, mg := { g.mg with jtag := j } }
      if g.corePwrOk then ({ g1 with coreLost := false }).tripClear.thermalTell.bringUp else { g1 with coreLost := true }) s

/-- CORE_PWROK_FALL (R523). -/
def execCorePwrokFall (s : State) : Answer :=
  onGxPins (fun g =>
    if g.corePwrOk = false then g
    else
      let g1 := if g.sysRstN ∧ g.mgRstN then g.event 0x070C 31 [if g.tk.ticking then g.tk.tickNo else 0] else g
      ({ g1 with corePwrOk := false, coreLost := g.coreLost || g.sysRstN }).coreReset) s

/-- CORE_PWROK_RISE (R523): the core domain rests until a pulse of `SYS_RST_N`, if it has lost power while that was high. -/
def execCorePwrokRise (s : State) : Answer := onGxPins (fun g => { g with corePwrOk := true }) s

/-- MG_RST_N_ASSERT (R454): the management domain is in reset; the NOR devices, the fuses and what the core domain holds stay. -/
def execMgRstNAssert (s : State) : Answer :=
  onGxPins (fun g =>
    if g.mgRstN = false then g
    else
      let m := g.mg
      { g with
        mgRstN := false, events := [], regs := g.regs.filter fun e => !(decide (0x80E00000 ≤ e.1) && decide (e.1 < 0x80F00000)),
        mg := { slots := m.slots, bootRec := m.bootRec, fuses := m.fuses, cycles := m.cycles, mirror := m.mirror, reserve := m.reserve,
                tripped := m.tripped, half := m.half, hbmHot := m.hbmHot, hbmFast := m.hbmFast, trained := m.trained,
                partAt := m.partAt, warn := m.warn, jtag := m.jtag } }) s

/-! ### Record memory (R492, R530) -/

/-- HBM_TRAINING_DONE (R492): step 1 of bring-up. -/
def execHbmTrainingDone (s : State) : Answer :=
  onCore (fun g =>
    if g.mg.trained then g else ((({ g with mg := { g.mg with trained := true } }).buDone 1).buEnter 2 0).mapPhase) s

/-- One stack's temperature in °C: the refresh rate doubles at 85 or above; HBM_HOT holds from 95 until below 90. -/
def Glexon.hbmTemp (g : Glexon) (k t : Nat) : Glexon :=
  let was := bit g.mg.hbmHot k
  let hot := decide (95 ≤ t) || (was && decide (90 ≤ t))
  let set_ (w : BitVec 2) (b : Bool) : BitVec 2 := (w &&& ~~~(1#2 <<< k)) ||| (BitVec.ofBool b).zeroExtend 2 <<< k
  let g1 : Glexon := { g with mg := { g.mg with hbmHot := set_ g.mg.hbmHot hot, hbmFast := set_ g.mg.hbmFast (decide (85 ≤ t)) } }
  if hot && !was then g1.event 0x070B 31 [word k, word t] else g1

/-- HBM_TEMP_READ (R530). -/
def execHbmTempRead (t0 t1 : Byte) (s : State) : Answer := onCore (fun g => (g.hbmTemp 0 t0.toNat).hbmTemp 1 t1.toNat) s

/-! ### JTAG (R526) -/

/-- A JTAG instruction that takes pins: it acts as BYPASS while `SYS_RST_N` is high. -/
def jtagPins (j : Jtag) (s : State) : Answer :=
  onGxPins (fun g => { g with mg := { g.mg with jtag := if g.sysRstN then .bypass else j } }) s

/-- BYPASS. -/
def execBypass (s : State) : Answer := onGxPins (fun g => { g with mg := { g.mg with jtag := .bypass } }) s
/-- SAMPLE/PRELOAD. -/
def execSamplePreload (s : State) : Answer := onGxPins (fun g => { g with mg := { g.mg with jtag := .sample } }) s
/-- EXTEST. -/
def execExtest (s : State) : Answer := jtagPins .extest s
/-- CLAMP. -/
def execClamp (s : State) : Answer := jtagPins .clamp s
/-- HIGHZ. -/
def execHighz (s : State) : Answer := jtagPins .highz s
/-- EXTEST_PULSE. -/
def execExtestPulse (s : State) : Answer := jtagPins .pulse s
/-- EXTEST_TRAIN. -/
def execExtestTrain (s : State) : Answer := jtagPins .train s

/-! ### Pins (R66, R462, R528) -/

/-- `THERMTRIP_N` is driven low: in thermal halt, also once the tray has removed core power. -/
def Glexon.thermtripLow (g : Glexon) : Bool := g.mg.tripped
/-- The level of `PPS_OUT`: low while the Time Keeper does not run. -/
def Glexon.ppsOutLevel (g : Glexon) : Bool := g.tkUp && g.tk.ppsOut
/-- The level of `TRIG_pin`. -/
def Glexon.trigOut (g : Glexon) (pin : Nat) : Bool := g.tkUp && g.trigLevel pin

end Sys2Proof.Machine
end

