-- ==== Sys2Proof/Machine/Remote.lean ====
section
/-! DEFINITION. The Remote Memory Engine's commands: packets received, timeouts, queue pairs, regions, the boot load and pulls
(R423 to R436, R344 to R346). -/

namespace Sys2Proof.Machine

/-! ### The boot load (R436) -/

/-- BOOT_LOAD_START (R436): firmware writes START. -/
def execBootLoadStart (s : State) : Answer := onCore (fun g => if g.fwOn then g.bootMap else g) s

/-- BOOT_IMAGE_READ (R436): firmware has supplied the image's place. -/
def execBootImageRead (s : State) : Answer :=
  onCore (fun g => if g.fwOn ∧ g.mg.mapOk ∧ bit (g.rd Reg.RM_BOOT_CTRL) 1 ∧ g.rm.boot.busy = false then g.bootImage true else g) s

/-- MAP_REREAD (R497): a refused map is read again. -/
def execMapReread (s : State) : Answer :=
  onCore (fun g => if g.fwOn ∧ g.mg.mapOk = false ∧ g.rm.boot.busy = false then g.bootMap else g) s

/-! ### Receiving (R425 to R429) -/

/-- Counts a failed check in RM_NAK_CNT; a key, stale or access failure is told once per queue pair and tick. -/
def Glexon.nakCount (g : Glexon) (q syn region : Nat) : Glexon :=
  let g1 := g.bumpFld Reg.RM_NAK_CNT (if syn = 1 then 48 else if syn = 2 then 32 else if syn = 3 then 16 else 0) 16 1
  if (syn = 1 ∨ syn = 2 ∨ syn = 3) ∧ (g.qp q).told = false then
    (g1.modQp q fun x => { x with told := true }).event 0x0333 28 [word q, word syn, word region]
  else g1

/-- BASE moves past the PSNs received. -/
def baseUp : Nat → Nat → List Nat → Nat × List Nat
  | 0, b, l => (b, l)
  | f + 1, b, l => if l.contains b then baseUp f ((b + 1) % 2 ^ 24) (l.filter (· ≠ b)) else (b, l)

/-- A PSN is marked received. -/
def Qp.mark (x : Qp) (psn : Nat) : Qp :=
  let (b, l) := baseUp 1025 x.base (if x.got.contains psn then x.got else x.got ++ [psn])
  { x with base := b, got := l }

/-- The next MSN to deliver moves past MSNs that hold nothing to deliver, and past failed messages. -/
def Qp.advance : Nat → Qp → Qp
  | 0, x => x
  | f + 1, x =>
    let failed := x.asm.any fun m => m.msn == x.deliver && m.fail
    if x.skip.contains x.deliver ∨ failed then
      Qp.advance f { x with deliver := (x.deliver + 1) % 2 ^ 24, skip := x.skip.filter (· ≠ x.deliver),
                            asm := x.asm.filter fun m => m.msn ≠ x.deliver }
    else x

/-- An MSN holds nothing to deliver. -/
def Qp.skipMsn (x : Qp) (msn : Nat) : Qp :=
  if seqBefore msn x.deliver ∨ x.skip.contains msn then x else Qp.advance 65 { x with skip := x.skip ++ [msn] }

/-- The message of a packet is failed: no later packet of it is placed. -/
def Qp.failMsg (x : Qp) (p : RmPkt) : Qp :=
  if seqBefore p.msn x.deliver then x
  else
    let asm := if x.asm.any fun m => m.msn == p.msn then x.asm.map fun m => if m.msn = p.msn then { m with fail := true } else m
      else x.asm ++ [{ msn := p.msn, reg := 0, off := 0, total := none, got := [], fail := true, key := 0 }]
    Qp.advance 65 { x with asm := asm }

/-- The region of a key, and the checks 2 and 3 (Table 15.3): 1 STALE, 2 KEY, 0 for none. -/
def Glexon.keyCheck (g : Glexon) (q key : Nat) : Nat :=
  let a := g.rd (Reg.RM_MR_ATTR (key % 2 ^ 14))
  let here := bit a 63 && decide (fld a 40 8 = g.qpPd q)
  if here ∧ fld a 32 8 ≠ fldN key 24 8 then 1
  else if here = false ∨ fld a 49 10 ≠ fldN key 14 10 then 2
  else 0

/-- Check 5 for a message of data: R418, and MOFF against TOTAL. -/
def RmPkt.dataOk (p : RmPkt) (total : Option Nat) : Bool :=
  decide (1 ≤ p.plen) && decide (p.moff % 8192 = 0) && decide (p.moff < 2097152) && (p.flags.testBit 0 == decide (p.moff = 0))
    && (if p.isLast then decide (p.moff + p.plen = p.total) else decide (p.plen = 8192))
    && (match total with
        | some t => decide (p.moff < t)
        | none => true)

/-- The first PSN of an Amber queue pair after a boundary: what its sender has abandoned is marked received (R435). -/
def Glexon.amberGap (g : Glexon) (q : Nat) (p : RmPkt) : Glexon :=
  let x := g.qp q
  let d := seqDist x.base p.psn
  if g.qpAmber q ∧ x.gap then
    if 0 < d ∧ d ≤ 256 then
      let x1 := (List.range d).foldl (fun (y : Qp) i => y.mark ((x.base + i) % 2 ^ 24)) { x with gap := false }
      let m := seqDist x1.deliver p.msn
      let x2 : Qp := if 0 < m ∧ m < 2 ^ 23 then
          (List.range (min m 64)).foldl (fun (y : Qp) _ =>
            if y.deliver ≠ p.msn ∧ ¬(y.asm.any fun a => a.msn == y.deliver && a.total.isSome && decide (a.got.length = (a.total.getD 0 + 8191) / 8192)) then
              Qp.advance 65 { y with deliver := (y.deliver + 1) % 2 ^ 24, asm := y.asm.filter fun a => a.msn ≠ y.deliver }
            else y) x1
        else x1
      g.setQp q x2
    else g.setQp q { x with gap := false }
  else g

/-- The checks that every packet but ACK and NAK passes in the order of Table 15.3. `keyed`: it carries a key to check;
`again`: what a duplicate does; `five` and `six`: checks 5 and 6; `ok`: what the packet does. -/
def Glexon.rmReceive (g0 : Glexon) (src : Byte) (p : RmPkt) (keyed : Bool) (again : Glexon → Glexon)
    (five six : Glexon → Bool) (ok : Glexon → Glexon) : Glexon :=
  let q := p.dst
  let cfg := g0.qpCfg q
  if ¬(g0.qpState q = 2 ∨ g0.qpState q = 3) ∨ fld cfg 24 12 ≠ p.srcq ∨ fld cfg 0 8 ≠ src.toNat then
    (g0.nakCount q 4 0).rmNak q 4 p
  else
    let g := (g0.modQp q fun x => { x with echo := (p.time, (g0.short g0.nowNs).toNat) }).amberGap q p
    let x := g.qp q
    let fail (syn : Nat) : Glexon :=
      ((g.nakCount q syn (p.rkey % 2 ^ 14)).modQp q fun x => (x.mark p.psn).failMsg p).rmNak q syn p
    let isNew := decide (seqDist x.base p.psn < 1024) && !x.got.contains p.psn
    let kc := if keyed then g.keyCheck q p.rkey else 0
    if kc ≠ 0 then
      if isNew then fail kc else (g.nakCount q kc (p.rkey % 2 ^ 14)).rmNak q kc p
    else if seqBefore p.psn x.base ∨ x.got.contains p.psn then (again g).rmAck q
    else if 1024 ≤ seqDist x.base p.psn then g.bump Reg.RM_RX_WINDOW 1
    else if five g = false then fail 5
    else if six g = false then fail 3
    else ok g

/-- A packet as a command: a row acts only on its own opcode, and on what passes R418. -/
def onPacket (op : Nat) (f : Glexon → RmPkt → Glexon) (pk : RmFrame) (s : State) : Answer :=
  onCore (fun g =>
    if bit (g.rd Reg.RM_CTRL) 63 = false ∨ leAt pk.bytes 0 1 ≠ op then g
    else if rmFormOk pk.bytes = false then (g.count 7 0 1 1).bump Reg.RM_RX_BAD 1
    else f (g.count 7 0 1 1) (RmPkt.ofBytes pk.bytes)) s

/-- ATTR of the region of a key. -/
def Glexon.attr (g : Glexon) (key : Nat) : Word := g.rd (Reg.RM_MR_ATTR (key % 2 ^ 14))
/-- Base of the region of a key. -/
def Glexon.regBase (g : Glexon) (key : Nat) : Nat := fld (g.rd (Reg.RM_MR_BASE (key % 2 ^ 14))) 0 48
/-- Bytes of the region of a key. -/
def Glexon.regLen (g : Glexon) (key : Nat) : Nat := 64 * fld (g.attr key) 0 32

/-- Bytes arrive in memory. -/
def Glexon.place (g : Glexon) (a : Nat) (l : List Byte) : Glexon := (g.count 2 4 4 l.length).busWrite none a l

/-- One more packet placed: an ACK after every eighth (R429). -/
def Glexon.placedOne (g : Glexon) (q : Nat) : Glexon :=
  let n := (g.qp q).placed + 1
  let g1 := g.modQp q fun x => { x with placed := n % 8 }
  if n % 8 = 0 then g1.rmAck q else g1

/-- WRITE (R426, R427): placed at once, whatever its order of arrival. -/
def execWrite (pk : RmFrame) (s : State) : Answer :=
  onPacket 1 (fun g p =>
    let q := p.dst
    let asmOf (h : Glexon) : Option RmAsm := (h.qp q).asm.find? fun m => m.msn == p.msn
    g.rmReceive pk.src p true id
      (fun h => p.dataOk ((asmOf h).bind fun m => m.total))
      (fun h => bit (h.attr p.rkey) 60 && decide (p.raddr + p.moff + p.plen ≤ h.regLen p.rkey))
      (fun h =>
        let x := h.qp q
        if seqBefore p.msn x.deliver then h.modQp q fun x => x.mark p.psn
        else
          match asmOf h with
          | none =>
            if 64 ≤ x.asm.length then h.bump Reg.RM_RX_WINDOW 1
            else
              let m : RmAsm := { msn := p.msn, reg := p.rkey % 2 ^ 14, off := p.raddr, total := if p.isLast then some p.total else none,
                                 got := [p.moff / 8192], fail := false, key := p.rkey }
              ((h.place (h.regBase p.rkey + p.raddr + p.moff) p.pay).modQp q fun x =>
                { (x.mark p.psn) with asm := x.asm ++ [m] }).placedOne q
          | some m =>
            if m.fail then h.modQp q fun x => x.mark p.psn
            else
              ((h.place (h.regBase p.rkey + p.raddr + p.moff) p.pay).modQp q fun x =>
                { (x.mark p.psn) with asm := x.asm.map fun a => if a.msn = p.msn then
                    { a with total := if p.isLast then some p.total else a.total,
                             got := if a.got.contains (p.moff / 8192) then a.got else a.got ++ [p.moff / 8192] } else a }).placedOne q)) pk s

/-- A READ_REQ is performed (R432): the data as memory holds it now, or, where it is poisoned, an error of the queue pair. -/
def Glexon.serveRead (g : Glexon) (q : Nat) (p : RmPkt) : Glexon :=
  let a := g.regBase p.rkey + p.raddr
  if g.poisoned a p.total then g.qpError q 3
  else
    let (l, g1) := (g.count 2 4 3 p.total).busRead none a p.total
    g1.rmSend q (g1.rmSplit q 3 (g1.qp q).nextPsn p.msn p.rkey 0 l)

/-- READ_REQ: one that arrives again is performed again, while its checks hold. -/
def execReadReq (pk : RmFrame) (s : State) : Answer :=
  onPacket 2 (fun g p =>
    let q := p.dst
    let five (_ : Glexon) : Bool := decide (p.flags % 4 = 3) && decide (p.moff = 0) && decide (1 ≤ p.total) && decide (p.total ≤ 2097152)
    let six (h : Glexon) : Bool := bit (h.attr p.rkey) 59 && decide (p.raddr + p.total ≤ h.regLen p.rkey)
    g.rmReceive pk.src p true (fun h => if five h && six h then h.serveRead q p else h) five six
      (fun h => (h.modQp q fun x => (x.mark p.psn).skipMsn p.msn).serveRead q p)) pk s

/-- An atomic is performed once (R432); a duplicate is answered with the kept value. -/
def Glexon.atomicRx (g : Glexon) (src : Byte) (p : RmPkt) (new : Word → Word) : Glexon :=
  let q := p.dst
  let answer (h : Glexon) (old : Word) : Glexon := h.rmSend q (h.rmSplit q 6 (h.qp q).nextPsn p.msn p.rkey 0 (leBytes 8 old.toNat))
  g.rmReceive src p true
    (fun h => match (h.qp q).atoms.find? fun e => e.1 == p.psn with
      | some e => answer h e.2
      | none => h)
    (fun _ => decide (p.flags % 4 = 3) && decide (p.moff = 0) && decide (p.total = p.plen))
    (fun h => bit (h.attr p.rkey) 61 && decide (p.raddr % 8 = 0) && decide (p.raddr + 8 ≤ h.regLen p.rkey))
    (fun h =>
      let a := h.regBase p.rkey + p.raddr
      let h1 := h.modQp q fun x => (x.mark p.psn).skipMsn p.msn
      if h1.poisoned a 8 then h1.qpError q 3
      else
        let (l, h2) := h1.busRead none a 8
        let old := word (leNat l)
        let h3 := if new old = old then h2 else h2.busWrite none a (leBytes 8 (new old).toNat)
        answer (h3.modQp q fun x => { x with atoms := ((p.psn, old) :: x.atoms).take 64 }) old)

/-- FETCH_ADD. -/
def execFetchAdd (pk : RmFrame) (s : State) : Answer :=
  onPacket 4 (fun g p => g.atomicRx pk.src p fun old => old + word (leAt p.pay 0 8)) pk s

/-- CMP_SWAP. -/
def execCmpSwap (pk : RmFrame) (s : State) : Answer :=
  onPacket 5 (fun g p => g.atomicRx pk.src p fun old => if old = word (leAt p.pay 0 8) then word (leAt p.pay 8 8) else old) pk s

/-- The operation to which a response belongs. -/
def Glexon.opOf (g : Glexon) (q msn : Nat) (atomic : Bool) : Option RmOp :=
  (g.qp q).ops.find? fun o => o.msn == msn && o.done.isNone && (if atomic then decide (3 ≤ o.code) else decide (o.code = 2))

/-- An operation of a queue pair changed. -/
def Glexon.modOp (g : Glexon) (q msn : Nat) (f : RmOp → RmOp) : Glexon :=
  g.modQp q fun x => { x with ops := x.ops.map fun o => if o.msn = msn then f o else o }

/-- READ_RESP: placed at the requester's local offset; the READ completes when every byte is placed. -/
def execReadResp (pk : RmFrame) (s : State) : Answer :=
  onPacket 3 (fun g p =>
    let q := p.dst
    g.rmReceive pk.src p false id (fun _ => p.dataOk none)
      (fun h => match h.opOf q p.msn false with
        | some o => decide (p.raddr + p.moff + p.plen ≤ o.len)
        | none => true)
      (fun h =>
        let h1 := h.modQp q fun x => x.mark p.psn
        match h.opOf q p.msn false with
        | none => h1.rmAck q
        | some o =>
          let got := if o.got.contains (p.moff / 8192) then o.got else o.got ++ [p.moff / 8192]
          let fin := decide (got.length = (o.len + 8191) / 8192)
          let self := match o.owner with
            | .core n t => some (n, t)
            | _ => none
          let h2 := ((h1.count 2 4 4 p.plen).busWrite self (o.loc + p.raddr + p.moff) p.pay).modOp q p.msn fun o =>
            { o with got := got, done := if fin then some 0 else none }
          if fin then (h2.rmAck q).rmFlush q else h2.placedOne q)) pk s

/-- ATOMIC_RESP: the old value is written and the atomic completes. -/
def execAtomicResp (pk : RmFrame) (s : State) : Answer :=
  onPacket 6 (fun g p =>
    let q := p.dst
    g.rmReceive pk.src p false id (fun _ => decide (p.flags % 4 = 3)) (fun _ => true)
      (fun h =>
        let h1 := h.modQp q fun x => x.mark p.psn
        match h.opOf q p.msn true with
        | none => h1.rmAck q
        | some o => (((h1.rmDesc o 56 p.pay).modOp q p.msn fun o => { o with done := some 0 }).rmAck q).rmFlush q)) pk s

/-! ### Acknowledgements and congestion (R431, R433) -/

/-- The congestion window after an ACK of `acked` bytes with a round-trip sample. -/
def Glexon.ccAck (g : Glexon) (q rtt acked : Nat) : Glexon :=
  let cc := g.rd Reg.RM_CC
  let win := g.rd Reg.RM_CC_WIN
  g.modQp q fun x =>
    let srtt := ((x.srtt : Int) + ((rtt : Int) - x.srtt) / 8).toNat
    let tgt := fld cc 0 16
    let cut := decide (tgt < rtt) && (decide (x.cut = 0) || decide (x.cut + srtt ≤ g.nowNs))
    let w := if rtt ≤ tgt then x.w + 256 * fld cc 16 16 * acked / x.w
      else if cut then max (x.w * (256 * rtt - fld cc 56 8 * (rtt - tgt)) / (256 * rtt)) (x.w * (256 - fld cc 48 8) / 256)
      else x.w
    { x with srtt := srtt, cut := if cut then g.nowNs else x.cut, w := max (fld win 0 32) (min (fld win 32 32) w) }

/-- Does an ACK or NAK come from the queue pair's peer, in a state that accepts it? -/
def Glexon.fromPeer (g : Glexon) (src : Byte) (p : RmPkt) : Bool :=
  (decide (g.qpState p.dst = 2) || decide (g.qpState p.dst = 3)) && decide (fld (g.qpCfg p.dst) 24 12 = p.srcq)
    && decide (fld (g.qpCfg p.dst) 0 8 = src.toNat)

/-- ACK. -/
def execAck (pk : RmFrame) (s : State) : Answer :=
  onPacket 0x10 (fun g p =>
    let q := p.dst
    if g.fromPeer pk.src p = false then g.nakCount q 4 0
    else
      let map := leNat p.pay
      let covers (psn : Nat) : Bool := seqBefore psn p.psn ||
        (decide (psn ≠ p.psn) && decide (seqDist p.psn psn ≤ 256) && map.testBit (seqDist p.psn psn - 1))
      let x := g.qp q
      let done := x.sent.filter fun e => covers e.psn
      let g1 := g.modQp q fun x => { x with
        sent := x.sent.filter fun e => !covers e.psn,
        fails := done.foldl (fun m e => SMap.put 0 m e.path 0) x.fails,
        ops := x.ops.map fun o => if o.code = 1 ∧ o.done = none ∧ ¬seqBefore p.msn o.msn then { o with done := some 0 } else o }
      let rtt := ((g.short g.nowNs).toNat + 2 ^ 32 - p.time) % 2 ^ 32 - p.moff
      let g2 := if g.qpUmber q then g1.ccAck q rtt (done.map fun e => leAt e.bytes 2 2).sum else g1
      (g2.rmFlush q).rmPump q) pk s

/-- NAK: the offending operation has its syndrome as status, or the queue pair enters ERROR. -/
def execNak (pk : RmFrame) (s : State) : Answer :=
  onPacket 0x11 (fun g p =>
    let q := p.dst
    if g.fromPeer pk.src p = false then g.nakCount q 4 0
    else if p.total = 4 then g.qpError q 11
    else
      let st := if p.total = 1 then 5 else if p.total = 2 then 6 else if p.total = 3 then 7 else 8
      let g1 := g.modQp q fun x => { x with
        sent := x.sent.filter fun e => e.psn ≠ p.psn,
        ops := x.ops.map fun o => if o.done = none ∧ seqDist o.psn p.psn < o.pkts then { o with done := some st } else o }
      (g1.rmFlush q).rmPump q) pk s

/-- RETRANSMIT_TIMEOUT (R420, R421, R433): a packet has not been acknowledged within RTO. -/
def execRetransmitTimeout (qpn : BitVec 12) (psn : BitVec 24) (s : State) : Answer :=
  onCore (fun g =>
    let q := qpn.toNat
    match (g.qp q).sent.find? fun e => e.psn == psn.toNat with
    | none => g
    | some e =>
      if ¬(g.qpState q = 2 ∨ g.qpState q = 3) then g
      else if 17 ≤ e.times then (g.event 0x0331 28 [word q, word e.psn]).qpError q 9
      else
        let n := SMap.get 0 (g.qp q).fails e.path + 1
        let cut := if g.qpUmber q then
            max (fld (g.rd Reg.RM_CC_WIN) 0 32) ((g.qp q).w * (256 - fld (g.rd Reg.RM_CC) 48 8) / 256) else (g.qp q).w
        let g1 := g.modQp q fun x => { x with
          w := cut, cut := g.nowNs, fails := SMap.put 0 x.fails e.path (if 3 ≤ n then 0 else n),
          susp := if 3 ≤ n then SMap.put 0 x.susp e.path (g.nowNs + 1000000) else x.susp }
        let g2 := if 3 ≤ n then g1.event 0x0332 28 [word q, word e.path] else g1
        let l := putAt e.bytes 1 (leBytes 1 (leAt e.bytes 1 1 ||| 4))
        let (path, g3) := (g2.count 7 0 2 1).rmEnqueue q e.psn l (isResp l)
        ((g3.modQp q fun x => { x with sent := x.sent.map fun y =>
            if y.psn = e.psn then { y with bytes := l, times := e.times + 1, path := path } else y }).bump Reg.RM_RETX 1).bumpFld
          (Reg.RM_QP_ERR q) 0 32 1) s

/-- PATH_RESUME (R421): a path's suspension is over. -/
def execPathResume (qpn : BitVec 12) (path : BitVec 4) (s : State) : Answer :=
  onCore (fun g => g.modQp qpn.toNat fun x => { x with susp := SMap.put 0 x.susp path.toNat 0 }) s

/-! ### Delivery (R428, R434, R47) -/

/-- The entry of a region's arrival ring. -/
def Glexon.ringEntry (g : Glexon) (m : RmAsm) : Glexon :=
  if bit (g.rd (Reg.RM_MR_ATTR m.reg)) 62 = false then g
  else
    let head := fld (g.rd (Reg.RM_MR_HEAD m.reg)) 0 32
    let tick := memNat g.mem (fld (g.rd (Reg.RM_MR_BASE m.reg)) 0 48 + m.off + 8) 4
    let g1 := g.memPut (fld (g.rd (Reg.RM_MR_RING m.reg)) 0 48 + 16 * (head % 4096))
      (leBytes 8 (m.msn + m.off * 2 ^ 32) ++ leBytes 4 (m.total.getD 0) ++ leBytes 4 tick)
    (if 4096 ≤ head then g1.bump Reg.RM_RING_OVER 1 else g1).wr (Reg.RM_MR_HEAD m.reg) (word ((head + 1) % 2 ^ 32))

/-- The records of a message of Amber class reach the parent role: each whole record by its trailer. -/
def Glexon.recordsIn (k : Nat) : Nat → List Byte → Glexon → Glexon
  | 0, _, g => g
  | f + 1, l, g =>
    if l.length < 40 then g
    else
      let n := 40 + 8 * leAt l 28 2
      if l.length < n ∨ Rec.crcOk (l.take n) = false then g.bumpFld Reg.RE_INGEST_BAD 48 16 1
      else
        let r := Rec.ofBytes l
        let kid := ((SMap.get {} g.image.roles k).children).find? fun c => c.2 == r.src.toNat % 2 ^ 14
        let g1 := match kid with
          | some (pos, _) => g.childIn k pos r true
          | none => g.bumpFld Reg.RE_INGEST_BAD 32 16 1
        Glexon.recordsIn k f (l.drop n) g1

/-- The membership slots that a write touches (R47): each is rewritten, and one covered whole is checked. -/
def Glexon.listsIn (g : Glexon) (off len : Nat) : Glexon :=
  if len = 0 then g
  else (List.range ((off + len - 1) / 512 + 1 - off / 512)).foldl (fun (h : Glexon) i =>
    let id := off / 512 + i
    let h1 := h.dropHeld id
    if off ≤ 512 * id ∧ 512 * id + 512 ≤ off + len then h1.checkList id else h1) g

/-- The pull descriptors whose VALID a write has set (R344). -/
def Glexon.pullsIn (g : Glexon) (q a len : Nat) : Glexon :=
  (List.range 8).foldl (fun (h : Glexon) i =>
    let v := h.pullAt i + 60
    if overlap v 4 a len ∧ memNat h.mem v 4 = 1 then { h with rm := { h.rm with pullQp := SMap.put 0 h.rm.pullQp i (q + 1) } }
    else h) g

/-- MESSAGE_DELIVER (R428): the message of the next MSN, once complete. -/
def execMessageDeliver (qpn : BitVec 12) (s : State) : Answer :=
  onCore (fun g =>
    let q := qpn.toNat
    let x := Qp.advance 65 (g.qp q)
    match x.asm.find? fun m => m.msn == x.deliver with
    | none => g.setQp q x
    | some m =>
      match m.total with
      | none => g
      | some t =>
        if m.fail ∨ m.got.length ≠ (t + 8191) / 8192 then g
        else
          let g1 := (g.setQp q { x with deliver := (x.deliver + 1) % 2 ^ 24, asm := x.asm.filter fun a => a.msn ≠ m.msn }).ringEntry m
          let a := fld (g.rd (Reg.RM_MR_BASE m.reg)) 0 48 + m.off
          let g2 := if g.qpAmber q ∧ g.qpClass q ≠ 4 then
              Glexon.recordsIn (g.qpClass q) (t / 40 + 1) (memBytes g.mem a t) g1 else g1
          let g3 := if m.reg = 16383 then g2.listsIn m.off t else g2
          ((g3.pullsIn q a t).modQp q (Qp.advance 65)).rmAck q) s

/-! ### Configuration (R419, R420, R423, R424) -/

/-- A row that moves a queue pair to a state: a write of RM_QP_CFG_q that asks for it. -/
def qpMove (state : Nat) (qpn : BitVec 12) (cfg : Word) (s : State) : Answer :=
  onCore (fun g => if fld cfg 61 3 = state then g.qpCfgWrite qpn.toNat cfg else g) s

/-- QP_INIT. -/
def execQpInit (qpn : BitVec 12) (cfg : Word) (s : State) : Answer := qpMove 1 qpn cfg s
/-- QP_RTS. -/
def execQpRts (qpn : BitVec 12) (cfg : Word) (s : State) : Answer := qpMove 2 qpn cfg s
/-- QP_DRAIN. -/
def execQpDrain (qpn : BitVec 12) (cfg : Word) (s : State) : Answer := qpMove 3 qpn cfg s
/-- QP_RESET. -/
def execQpReset (qpn : BitVec 12) (cfg : Word) (s : State) : Answer := qpMove 0 qpn cfg s

/-- MR_REGISTER (R423). -/
def execMrRegister (r : BitVec 14) (attr : Word) (s : State) : Answer :=
  onCore (fun g => if bit attr 63 then g.mrAttr r.toNat attr else g) s

/-- MR_DEREGISTER (R423). -/
def execMrDeregister (r : BitVec 14) (attr : Word) (s : State) : Answer :=
  onCore (fun g => if bit attr 63 then g else g.mrAttr r.toNat attr) s

/-- REKEY. -/
def execRekey (r : BitVec 14) (s : State) : Answer := onCore (fun g => g.rekey r.toNat) s

/-! ### The boundary (R397, R435) -/

/-- Amber messages not acknowledged at their cutoff are abandoned with EXPIRED. -/
def Glexon.amberExpire (g : Glexon) (q : Nat) : Glexon :=
  let x := g.qp q
  let lost := x.ops.filter fun o => o.done = none
  let mine (psn : Nat) : Bool := lost.any fun o => decide (seqDist o.psn psn < o.pkts)
  (g.modQp q fun x => { x with
    sent := x.sent.filter fun e => !mine e.psn, wait := x.wait.filter fun e => !mine e.psn,
    ops := x.ops.map fun o => if o.done = none then { o with done := some 10 } else o }).rmFlush q

/-- AMBER_STALE_DISCARD (R397, R435). -/
def execAmberStaleDiscard (s : State) : Answer :=
  onCore (fun g =>
    let stale (p : Nat) : Nat := ([2, 3, 4, 5].map fun q => ((g.egress p).q q).frames.length).sum
    let ports := (List.range 8).filter fun p => stale p ≠ 0
    let g1 : Glexon := ports.foldl (fun (h : Glexon) p =>
      let e := [2, 3, 4, 5].foldl (fun (e : Egress) q => e.setQ q { e.q q with frames := [] }) (h.egress p)
      ((h.count 6 p 9 (stale p)).setEgress p e).bump (Reg.TS_STALE p) (stale p)) g
    let g2 := if ports = [] then g1
      else g1.event 0x0324 30 [word (ports.map stale).sum, word (ports.foldl (fun a p => a + 2 ^ p) 0)]
    (g2.rm.qps.map Prod.fst).foldl (fun (h : Glexon) q => if h.qpAmber q then h.amberExpire q else h) g2) s

/-! ### Pulls -/

/-- The queue pair of a pull: that which wrote VALID, else the lowest Umber one in RTS. -/
def Glexon.pullQpn (g : Glexon) (i : Nat) : Option Nat :=
  let x := SMap.get 0 g.rm.pullQp i
  if x ≠ 0 then some (x - 1)
  else (List.range 4096).find? fun q => g.qpUmber q && decide (g.qpState q = 2)

/-- PULL_START (R344): the first valid entry, when no pull is running. -/
def execPullStart (s : State) : Answer :=
  onCore (fun g =>
    if g.fl.pull.isSome ∨ g.roleOn 0 = false then g
    else
      match (List.range 8).find? fun i => memNat g.mem (g.pullAt i + 60) 4 = 1 with
      | none => g
      | some i =>
        let d := memBytes g.mem (g.pullAt i) 64
        let n := leAt d 8 4
        let cls := leAt d 24 1
        let p : Pull := { slot := i, tick := word (leAt d 0 8), left := n, bytes := 0, miss := 0, full := false }
        if n = 0 ∨ 262144 < n ∨ cls.testBit 2 ∨ 16 ≤ cls ∨ zeros d 12 16 = false ∨ zeros d 25 28 = false then g.pullEnd p 5
        else
          match g.pullQpn i with
          | none => g.pullEnd p 6
          | some q =>
            let g1 := g.memPut (g.pullAt i + 48) (leBytes 4 1)
            { g1 with fl := { g1.fl with pull := some { p with qpn := q } },
                      rm := { g1.rm with pullQp := SMap.put 0 g1.rm.pullQp i 0 } }) s

/-- The records of a tick that fit the space left, packed, and whether one did not. -/
def packPull (room : Nat) : List Rec → List Byte → List Byte × Bool
  | [], l => (l, false)
  | r :: rest, l =>
    let b := Rec.bytes { r with flags := r.flags ||| BitVec.ofNat 8 flagReplay }
    if room < l.length + b.length then (l, true) else packPull room rest (l ++ b)

/-- PULL_TICK (R345, R346): the next tick's matching records are staged and sent, or the tick counts as missing. -/
def execPullTick (s : State) : Answer :=
  onCore (fun g =>
    match g.fl.pull with
    | none => g
    | some p =>
      if p.ended ∨ p.err ≠ 0 then g
      else
        let d := memBytes g.mem (g.pullAt p.slot) 64
        let ix := (g.rd Reg.HM_RW_INDEX_BASE).toNat + 32 * (p.tick.toNat % 262144)
        let start := memNat g.mem (ix + 8) 8
        let live := decide (memNat g.mem ix 8 = p.tick.toNat) && decide ((g.rd Reg.HM_RW_HEAD).toNat ≤ start + rwSize)
        let recs := (g.fl.kept.filter fun k =>
          k.tick == p.tick && (leAt d 16 8).testBit k.port && (leAt d 24 1).testBit k.r.cls.toNat).map fun k => k.r
        let (l, cut) := if live then packPull (leAt d 40 4 - p.bytes) recs [] else ([], false)
        let pieces := chunks 2097152 ((l.length + 2097151) / 2097152) l
        if 64 < (g.qp p.qpn).ops.length + pieces.length then g
        else
          let p1 : Pull := { p with
            tick := p.tick + 1, left := p.left - 1, bytes := p.bytes + l.length, miss := p.miss + (if live then 0 else 1),
            full := cut, ended := cut || decide (p.left ≤ 1) }
          let st := if pieces = [] then 0 else g.rmRefuse p.qpn
          if st ≠ 0 then ({ g with fl := { g.fl with pull := some { p with err := st } } }).pullCheck
          else
            let off := leAt d 32 8 + p.bytes
            let g1 : Glexon := pieces.zipIdx.foldl (fun (h : Glexon) (x : List Byte × Nat) =>
              h.rmIssue p.qpn { owner := .pull, code := 1, desc := none, loc := 0, len := x.1.length, key := leAt d 28 4,
                                off := off + 2097152 * x.2, msn := 0, psn := 0, pkts := 1 } x.1)
              { g with fl := { g.fl with pull := some p1 } }
            g1.pullCheck) s

end Sys2Proof.Machine
end

