-- ==== Sys2Proof/Machine/Mailbox.lean ====
section
/-! DEFINITION. Mailbox requests (R468, Table 17.7), firmware updates (R469 to R471) and image activation (R472). -/

namespace Sys2Proof.Machine

/-- SLOT_ACK (R341): argument bytes 0 to 3 hold the pair, 8 to 15 the sequence consumed. -/
def execSlotAck (q : MbxReq) (s : State) : Answer :=
  onMbxCore q (fun g =>
    let i := leAt q.args 0 4
    if g.image.pairs.length ≤ i then g.mbxReply q.id 3 []
    else
      let cb := (g.rd Reg.RE_SLOT_BASE).toNat + pairOff g.image.pairs i
      (g.busWrite none (cb + 8) (leBytes 8 (leAt q.args 8 8))).mbxReply q.id 0 []) s

/-- IMG_LOAD (R436). -/
def execImgLoad (q : MbxReq) (s : State) : Answer :=
  onMbxCore q (fun g =>
    if g.rm.boot.busy then g.mbxReply q.id 2 []
    else if g.mg.mapOk = false then g.mbxReply q.id 3 []
    else
      let g1 := g.bootImage false
      g1.mbxReply q.id (if bit (g1.rd Reg.RM_BOOT_CTRL) 3 then 4 else 0) []) s

/-- IMG_ACTIVATE (R472): argument bytes 0 to 7 hold b. -/
def execImgActivate (q : MbxReq) (s : State) : Answer :=
  onMbxCore q (fun g =>
    let (ok, g1) := g.imageActivate (word (leAt q.args 0 8))
    g1.mbxReply q.id (if ok then 0 else 3) []) s

/-- IMAGE_SWAP (R472): boundary b, whose tick is about to begin. -/
def execImageSwap (s : State) : Answer :=
  onCore (fun g => if g.tk.ticking ∧ g.imageDue (g.tk.tickNo + 1) then g.imageSwap (word (fld (g.rd Reg.MG_IMG_ACT) 0 63)) else g) s

/-! ### Firmware updates (R469 to R471) -/

/-- FW_STAGE (R469): `img` is what the remote read of the slot image has brought. -/
def execFwStage (q : MbxReq) (img : List Byte) (s : State) : Answer :=
  onMbx (fun g =>
    let m := g.mg
    let b := !m.slotB
    if m.committed m.slotB = false then g.mbxReply q.id 2 []
    else
      let g1 := g.modMg fun m => { m with slots := SMap.put [] m.slots b.toNat (img.take 4194304), staged := false }
      let rule := slotRule m.fuses (img.take 4194304)
      if rule = 0 then
        let r : BootRec := { pref := b, commA := m.bootRec.commA && b, commB := m.bootRec.commB && !b, tries := 3 }
        ((g1.modMg fun m => { m with bootRec := r, staged := true }).event 0x0801 31
          [word b.toNat, word (leAt img 16 4), word (leAt img 8 8)]).mbxReply q.id 0 []
      else if rule = 6 then
        (g1.event 0x0808 31 [word b.toNat, word (leAt img 16 4), word m.fuses]).mbxReply q.id 4 []
      else (g1.event 0x0802 31 [word b.toNat, word rule]).mbxReply q.id 4 []) s

/-- The restart of an activation, and what the firmware that comes up writes (R470). -/
def Glexon.activate (g : Glexon) : Glexon :=
  let g1 := g.restart 2
  if g1.mg.run = .running then g1.event 0x0803 31 [word g1.mg.slotB.toNat, word (g1.mg.svn g1.mg.slotB)] else g1

/-- FW_ACTIVATE (R470): argument bytes 0 to 7 hold t; 0 means at once. -/
def execFwActivate (q : MbxReq) (s : State) : Answer :=
  onMbx (fun g =>
    let t := leAt q.args 0 8
    if g.mg.staged = false then g.mbxReply q.id 3 []
    else if t = 0 then (g.mbxReply q.id 0 []).activate
    else if t ≤ g.tk.tickNo.toNat then g.mbxReply q.id 3 []
    else (g.modMg fun m => { m with actAt := some (word t) }).mbxReply q.id 0 []) s

/-- FW_ACTIVATION_RESTART (R470): boundary t. -/
def execFwActivationRestart (s : State) : Answer :=
  onMgmt (fun g =>
    match g.mg.actAt with
    | some t => if t.toNat ≤ g.tk.tickNo.toNat + 1 then g.activate else g
    | none => g) s

/-- FW_COMMIT (R471): the fuses come before the boot record. -/
def execFwCommit (q : MbxReq) (s : State) : Answer :=
  onMbx (fun g =>
    let m := g.mg
    let b := m.slotB
    if m.committed b then g.mbxReply q.id 3 []
    else
      let n := max m.fuses (min 64 (m.svn b))
      let r : BootRec := { m.bootRec with pref := b, commA := m.bootRec.commA || !b, commB := m.bootRec.commB || b }
      ((g.modMg fun m => { m with fuses := n, bootRec := r }).event 0x0804 31 [word b.toNat, word n]).mbxReply q.id 0 []) s

/-- FW_REVERT (R468): the other slot, if it is committed. -/
def execFwRevert (q : MbxReq) (s : State) : Answer :=
  onMbx (fun g =>
    let b := !g.mg.slotB
    if g.mg.committed b then
      ((g.modMg fun m => { m with bootRec := { m.bootRec with pref := b } }).mbxReply q.id 0 []).restart 1
    else g.mbxReply q.id 3 []) s

/-! ### Cores and ports -/

/-- CORE_WITHDRAW (R256): argument bytes 0 to 3 hold the mask. -/
def execCoreWithdraw (q : MbxReq) (s : State) : Answer :=
  onMbxCore q (fun g => (g.coreRequest Reg.MC_WITHDRAW_REQ 31 (BitVec.ofNat 24 (leAt q.args 0 4))).mbxReply q.id 0 []) s

/-- CORE_RESTORE (R260). -/
def execCoreRestore (q : MbxReq) (s : State) : Answer :=
  onMbxCore q (fun g => (g.coreRequest Reg.MC_RESTORE_REQ 31 (BitVec.ofNat 24 (leAt q.args 0 4))).mbxReply q.id 0 []) s

/-- SDC_CLEAR (R290): argument byte 0 holds the port. -/
def execSdcClear (q : MbxReq) (s : State) : Answer :=
  onMbxCore q (fun g =>
    let p := leAt q.args 0 1
    if 64 ≤ p then g.mbxReply q.id 1 []
    else (g.csrWrite 31 (Reg.AU_PORT_STAT p) (word (2 ^ 63))).mbxReply q.id 0 []) s

/-- BAD_REQ (R468): an opcode outside Table 17.7. -/
def execBadReq (opcode : BitVec 16) (q : MbxReq) (s : State) : Answer :=
  if 1 ≤ opcode.toNat ∧ opcode.toNat ≤ 12 then .next s else onMbx (fun g => g.mbxReply q.id 1 []) s

end Sys2Proof.Machine
end

