-- ==== Sys2Proof/Machine/Observe.lean ====
section
/-! DEFINITION. The Observation Unit (R477 to R491): counters at a boundary, the sample buffer, and trace frames. -/

namespace Sys2Proof.Machine

/-! ### Counters (R478 to R480) -/

/-- Is a selector listed (Table 18.1)? -/
def selOk (s : Nat) : Bool :=
  let unit := fldN s 8 8
  let ev := fldN s 0 8
  match fldN s 16 8 with
  | 0 => decide (unit = 0 ∧ ev = 0)
  | 1 => decide (unit < 24 ∧ ev ≤ 9)
  | 2 => decide (unit < 5 ∧ ev ≤ 4)
  | 3 => decide (unit < 48 ∧ ev ≤ 7)
  | 4 => decide (unit < 64 ∧ ev ≤ 4)
  | 5 => decide (unit < 64 ∧ ev ≤ 3)
  | 6 => decide (unit < 8 ∧ ev ≤ 9)
  | 7 => decide (unit = 0 ∧ ev ≤ 3)
  | _ => false

/-- The selector of counter `k`. -/
def Glexon.obsSelOf (g : Glexon) (k : Nat) : Nat := fld (g.rd (Reg.OB_SEL k)) 0 24

/-- BADSEL is set while a selector in force is not listed. -/
def Glexon.badSel (g : Glexon) : Glexon :=
  if (List.range 256).any fun k => !selOk (g.obsSelOf k) then g.wr Reg.OB_STAT (putBit (g.rd Reg.OB_STAT) 62 true) else g

/-- At the pulse that begins tick `n`, the counts of the interval just closed, with those that no command drives, go to
OB_SNAP_k. -/
def Glexon.obsSnap (g : Glexon) (n : Word) (l : List ObsIn) : Glexon :=
  let on := bit (g.rd Reg.OB_CTRL) 63
  let all : SMap Nat := if on then l.foldl (fun m x => SMap.mod 0 m x.sel.toNat (· + x.n.toNat)) g.obs else g.obs
  let g1 : Glexon := (List.range 256).foldl (fun (h : Glexon) k =>
    let s := g.obsSelOf k
    h.wr (Reg.OB_SNAP k) (word (if s ≠ 0 ∧ selOk s then SMap.get 0 all s else 0))) g
  { (g1.wr Reg.OB_SNAP_TICK (n - 1)) with obs := [], ob := { g.ob with due := true, hold := g.inHold } }

/-- Once the RWT values are in force: the selector generation, BADSEL, and the trace sources that begin or end. -/
def Glexon.obsSources (g : Glexon) (changed : Bool) : Glexon :=
  let g1 : Glexon := (if changed then { g with ob := { g.ob with gen := (g.ob.gen + 1) % 2 ^ 32 } } else g).badSel
  let en := bit (g.rd Reg.OB_CTRL) 61
  (31 :: (List.range 16).map fun i => 8 + i).foldl (fun (h : Glexon) a =>
    let t := h.src a
    let on := en && bit (h.rd Reg.OB_TRC_SRC) a
    if on = t.on then h
    else if on then h.setSrc a { t with on := true, due := some .enable, issued := 0, since := 0 }
    else h.setSrc a { t with on := false, due := none }) g1

/-! ### The sample buffer (R481) -/

/-- An entry of the sample buffer (Table 18.2). -/
def Glexon.sampleEntry (g : Glexon) (seq : Nat) : List Byte :=
  leBytes 8 seq ++ leBytes 8 (g.rd Reg.OB_SNAP_TICK).toNat ++ leBytes 4 g.ob.gen
    ++ leBytes 1 (g.ob.hold.toNat + 2 * (bit (g.rd Reg.OB_STAT) 62).toNat) ++ leBytes 35 0 ++ leBytes 8 seq
    ++ (List.range 256).flatMap fun k => leBytes 8 (g.rd (Reg.OB_SNAP k)).toNat

/-- SAMPLE_BUFFER_WRITE (R481). -/
def execSampleBufferWrite (s : State) : Answer :=
  onCore (fun g =>
    if g.ob.due = false ∨ bit (g.rd Reg.OB_CTRL) 62 = false then g
    else
      let base := fld (g.rd Reg.OB_BUF_BASE) 0 48
      let n := max 1 (fld (g.rd Reg.OB_BUF_ENTRIES) 0 17)
      let g1 : Glexon := { g with ob := { g.ob with due := false } }
      if base % 64 ≠ 0 ∨ base < 0x1C00000000 ∨ 0x2200000000 < base + 2112 * n then
        g1.wr Reg.OB_STAT (putBit (g1.rd Reg.OB_STAT) 63 true)
      else
        let seq := (satAdd (g1.rd Reg.OB_BUF_SEQ) 1).toNat
        (g1.wr Reg.OB_BUF_SEQ (word seq)).busWrite none (base + 2112 * (seq % n)) (g1.sampleEntry seq)) s

/-! ### Trace frames (R486, R487) -/

/-- The trace sources, in order of their turns. -/
def trcSources : List Nat := (List.range 16).map (fun i => 8 + i) ++ [31]

/-- One packet moves from the source whose turn it is, or the next that has one, to the output FIFO, if it has room. -/
def Glexon.trcMove (g : Glexon) : Glexon :=
  let order := (List.range 17).map fun i => (g.ob.turn + i) % 17
  match order.find? fun i => (g.src (trcSources.getD i 31)).fifo ≠ [] with
  | some i =>
    let a := trcSources.getD i 31
    let t := g.src a
    match t.fifo with
    | p :: rest =>
      if 32768 < g.ob.part.length + (g.ob.out.map List.length).sum + p.length then g
      else { (g.setSrc a { t with fifo := rest }) with ob := { g.ob with out := g.ob.out ++ [p], turn := (i + 1) % 17 } }
    | [] => g
  | none => g

/-- Packets move from the source FIFOs while the output FIFO has room. -/
def Glexon.trcDrain (g : Glexon) : Glexon :=
  (List.range (g.trc.map fun e => e.2.fifo.length).sum).foldl (fun h _ => h.trcMove) g

/-- What is left of a list of packets once `n` bytes are taken: the rest of a packet cut, and the packets after it. -/
def eatPackets : Nat → List (List Byte) → List Byte × List (List Byte)
  | _, [] => ([], [])
  | n, p :: r => if n = 0 then ([], p :: r) else if n < p.length then (p.drop n, r) else eatPackets (n - p.length) r

/-- TRACE_FRAME (R487): 1,020 bytes of the packet stream, filled with PAD where fewer are pending. -/
def execTraceFrame (s : State) : Answer :=
  onCore (fun g =>
    let c := g.rd Reg.OB_CTRL
    let g1 := g.trcDrain
    let o := g1.ob
    if bit c 61 = false ∨ fld c 0 2 = 0 ∨ (o.part = [] ∧ o.out = []) then g
    else
      let first := if o.part.length < 1020 then 4 + o.part.length else 0xFFFF
      let body := padTo 1020 ((o.part ++ o.out.flatten).take 1020)
      let (part, rest) := eatPackets 1020 (o.part :: o.out)
      { (g1.bump Reg.OB_TRC_SENT 1) with ob := { o with
          frame := leBytes 2 o.seq.toNat ++ leBytes 2 first ++ body, seq := o.seq + 1, part := part, out := rest } }) s

/-- TRACE_RESYNC (R486): a source that has lost packets inserts OVERFLOW, and SYNC RESYNC before its next instruction. -/
def execTraceResync (agent : BitVec 6) (s : State) : Answer :=
  onCore (fun g0 =>
    let g := g0.trcDrain
    let a := agent.toNat
    let t := g.src a
    if t.on = false ∨ t.lost = 0 ∨ 2048 < t.used + 46 then g
    else
      let p := [0x50, BitVec.ofNat 8 a] ++ varint 10 t.lost
      (g.wr Reg.OB_TRC_LOST (satFld (satFld (g.rd Reg.OB_TRC_LOST) 32 32 t.lost) 0 32 1)).setSrc a
        { t with fifo := t.fifo ++ [p], lost := 0, due := some .resync }) s

end Sys2Proof.Machine
end

