-- ==== Sys2Proof/Machine/Fields.lean ====
section
/-! DEFINITION. Field entries of reduced records and their operators (R319 to R326), and arrival entries (R336). -/

namespace Sys2Proof.Machine

/-- A field entry: head (Table 11.4) and data. -/
structure FEnt where
  id    : Nat
  op    : Nat
  vtype : Nat
  param : Nat
  n     : Nat
  flags : Nat
  data  : List Byte
  deriving DecidableEq, Repr

/-- The bytes of an entry. -/
def FEnt.bytes (e : FEnt) : List Byte :=
  leBytes 2 e.id ++ leBytes 1 e.op ++ leBytes 1 e.vtype ++ leBytes 2 (e.data.length / 8) ++ leBytes 2 e.param ++ leBytes 4 e.n
    ++ leBytes 2 e.flags ++ leBytes 2 0 ++ e.data

/-- The entries that bytes spell, at most `k`. -/
def parseEnts : Nat → List Byte → List FEnt
  | 0, _ => []
  | k + 1, l =>
    if l.length < 16 then []
    else
      let w := 8 * leAt l 4 2
      { id := leAt l 0 2, op := leAt l 2 1, vtype := leAt l 3 1, param := leAt l 6 2, n := leAt l 8 4, flags := leAt l 12 2,
        data := (l.drop 16).take w } :: parseEnts k (l.drop (16 + w))

/-- Pads data to whole 8-byte words. -/
def pad8 (l : List Byte) : List Byte := padTo ((l.length + 7) / 8 * 8) l

/-! ### Core operators (R320, R321) -/

/-- FSUM of inputs in order, each with its count (R320). -/
def fsum (l : List (Nat × Nat)) : Nat :=
  match l.filter fun x => x.1 ≠ 0 with
  | [] => 0
  | a :: r =>
    let s := r.foldl (fun acc x => f64add acc x.2) a.2
    if (fp64.decode s).isNan then fp64.qnan else s

/-- The order key of a value by type: unsigned, signed, FP64 (NaN has none). -/
def valKey (vtype v : Nat) : Option Int :=
  if vtype = 0 then some v
  else if vtype = 1 then some (sextN 64 v)
  else if (fp64.decode v).isNan then none else some (ordKey 64 v)

/-- The better of two (value, die) candidates of MIN_ARG or MAX_ARG: on equal values the lower die index. -/
def betterArg (isMax : Bool) (vtype : Nat) (a b : Nat × Nat) : Nat × Nat :=
  match valKey vtype a.1, valKey vtype b.1 with
  | none, _ => b
  | _, none => a
  | some x, some y =>
    if x = y then (if b.2 < a.2 then b else a)
    else if isMax then (if x < y then b else a) else (if y < x then b else a)

/-- MIN_ARG or MAX_ARG over candidates (R321). -/
def extremeArg (isMax : Bool) (vtype : Nat) (l : List (Nat × Nat)) : Nat × Nat :=
  match l.filter fun c => (valKey vtype c.1).isSome && decide (c.2 ≠ 0xFFFFFFFF) with
  | [] => (if vtype = 2 then fp64.qnan else 0, 0xFFFFFFFF)
  | a :: r => r.foldl (betterArg isMax vtype) a

/-- The data of an argument entry. -/
def argData (c : Nat × Nat) : List Byte := leBytes 8 c.1 ++ leBytes 4 c.2 ++ leBytes 4 0

/-! ### Sketches (R323) -/

/-- A sketch: counts by index, rising. -/
abbrev Sketch := SMap Nat

/-- The index of a value at resolution `r`. -/
def sketchIdx (r v : Nat) : Nat :=
  if v = 0 then 0
  else
    let e := Nat.log2 v
    1 + e * 2 ^ r + (v - 2 ^ e) * 2 ^ r / 2 ^ e

/-- A sketch's counts moved one resolution down. -/
def sketchDown (r : Nat) (s : Sketch) : Sketch :=
  s.foldl (fun (m : Sketch) x =>
    let j := if x.1 = 0 then 0 else let i := x.1 - 1
                                    1 + i / 2 ^ r * 2 ^ (r - 1) + i % 2 ^ r / 2
    SMap.mod 0 m j (· + x.2)) []

/-- A sketch brought down from resolution `r` by `k` steps. -/
def sketchTo : Nat → Nat → Sketch → Sketch
  | 0, _, s => s
  | k + 1, r, s => if r = 0 then s else sketchTo k (r - 1) (sketchDown r s)

/-- Counts saturated at 32 bits, and whether one saturated. -/
def sketchSat (s : Sketch) : Sketch × Bool := (s.map fun x => (x.1, satN 32 x.2), s.any fun x => decide (2 ^ 32 ≤ x.2))

/-- The data of a sketch with a total count. -/
def sketchData (s : Sketch) (total : Nat) : List Byte :=
  match s.head?, s.getLast? with
  | some a, some b =>
    pad8 (leBytes 2 a.1 ++ leBytes 2 b.1 ++ leBytes 4 0 ++ leBytes 8 total
      ++ ((List.range (b.1 - a.1 + 1)).map fun i => leBytes 4 (SMap.get 0 s (a.1 + i))).flatten)
  | _, _ => leBytes 2 1 ++ leBytes 2 0 ++ leBytes 4 0 ++ leBytes 8 0

/-- The sketch and total that data spell. -/
def sketchOf (d : List Byte) : Sketch × Nat :=
  let lo := leAt d 0 2
  let n := leAt d 2 2 + 1 - lo
  (((List.range n).map fun i => (lo + i, leAt d (16 + 4 * i) 4)).filter fun x => x.2 ≠ 0, leAt d 8 8)

/-! ### Top-k (R324) -/

/-- Orders (key, die) pairs: by key, descending for TOPK; the lower die first on equal keys. -/
def topBefore (desc : Bool) (a b : Nat × Nat) : Bool :=
  if a.1 = b.1 then decide (a.2 ≤ b.2) else if desc then decide (b.1 < a.1) else decide (a.1 < b.1)

/-- A pair placed in order. -/
def topIns (desc : Bool) (x : Nat × Nat) : List (Nat × Nat) → List (Nat × Nat)
  | [] => [x]
  | h :: r => if topBefore desc x h then x :: h :: r else h :: topIns desc x r

/-- The first `k` of a list in order. -/
def topK (desc : Bool) (k : Nat) (l : List (Nat × Nat)) : List (Nat × Nat) := (l.foldl (fun a x => topIns desc x a) []).take k

/-- 16-byte entries: key, die, reserved. -/
def topData (l : List (Nat × Nat)) : List Byte := (l.map argData).flatten

/-- The entries that data spell. -/
def topOf (d : List Byte) : List (Nat × Nat) := (chunks 16 (d.length / 16) d).map fun x => (leAt x 0 8, leAt x 8 4)

/-! ### Bitmaps (R325) -/

/-- A bitmap at shift `g` over the groups whose bit is set. -/
def bitmapData (g : Nat) (groups : List Nat) : List Byte :=
  match groups with
  | [] => leBytes 8 0
  | a :: r =>
    let lo := r.foldl min a / 64 * 64
    let hi := r.foldl max a
    let w := (hi - lo) / 64 + 1
    leBytes 4 (lo * 2 ^ g) ++ leBytes 4 w
      ++ ((List.range w).map fun i => leBytes 8 (bitsToNat ((List.range 64).map fun b => groups.contains (lo + 64 * i + b)))).flatten

/-- The groups whose bit is set, and the span (first group, groups) of a bitmap at shift `g`. -/
def bitmapOf (g : Nat) (d : List Byte) : List Nat × Nat × Nat :=
  let base := leAt d 0 4 / 2 ^ g
  let w := leAt d 4 4
  ((List.range (64 * w)).filter (fun i => (leAt d (8 + i / 64 * 8) 8).testBit (i % 64)) |>.map (base + ·), base, 64 * w)

/-- A bitmap that spans from `lo` to `hi` (groups), whole words. -/
def bitmapSpan (g lo hi : Nat) (groups : List Nat) : List Byte :=
  if hi ≤ lo then leBytes 8 0
  else
    let b := lo / 64 * 64
    let w := (hi - b + 63) / 64
    leBytes 4 (b * 2 ^ g) ++ leBytes 4 w
      ++ ((List.range w).map fun i => leBytes 8 (bitsToNat ((List.range 64).map fun j => groups.contains (b + 64 * i + j)))).flatten

/-- Bitmaps merged: raised to the larger shift, spanning from the lower base to the higher end. -/
def bitmapMerge (a b : Nat × List Byte) : Nat × List Byte :=
  let g := max a.1 b.1
  let up (x : Nat × List Byte) : List Nat × Nat × Nat :=
    let (s, base, n) := bitmapOf x.1 x.2
    let k := 2 ^ (g - x.1)
    (s.map (· / k), base / k, (base + n + k - 1) / k)
  let x := up a
  let y := up b
  if leAt a.2 4 4 = 0 then (g, bitmapSpan g y.2.1 y.2.2 y.1)
  else if leAt b.2 4 4 = 0 then (g, bitmapSpan g x.2.1 x.2.2 x.1)
  else (g, bitmapSpan g (min x.2.1 y.2.1) (max x.2.2 y.2.2) (x.1 ++ y.1))

/-! ### Lists (R326) -/

/-- The data of a LIST. -/
def listData (kept trunc size limit : Nat) (l : List Byte) : List Byte :=
  pad8 (leBytes 4 kept ++ leBytes 4 trunc ++ leBytes 2 size ++ leBytes 2 limit ++ leBytes 4 0 ++ l)

/-- Cuts a list's entries to a limit. -/
def listCut (es : List (List Byte)) (trunc size limit : Nat) : List Byte :=
  listData (min es.length limit) (trunc + (es.length - limit)) size limit (es.take limit).flatten

/-- A list's entries, truncated count, entry size and limit. -/
def listOf (d : List Byte) : List (List Byte) × Nat × Nat × Nat :=
  let size := leAt d 8 2
  (chunks size (leAt d 0 4) ((d.drop 16).take (leAt d 0 4 * size)), leAt d 4 4, size, leAt d 10 2)

/-! ### Merging and coarsening -/

/-- An entry for a field that no die has a value for. -/
def emptyEnt (f : Field) : FEnt :=
  let data := match f.op with
    | 1 => leBytes 16 0
    | 2 => leBytes 16 0
    | 3 => leBytes 8 0
    | 4 => argData (extremeArg false f.vtype [])
    | 5 => argData (extremeArg true f.vtype [])
    | 6 => leBytes 512 0
    | 7 => sketchData [] 0
    | 10 => leBytes 8 0
    | 11 => listCut [] 0 f.size f.param
    | _ => []
  { id := f.id, op := f.op, vtype := f.vtype, param := f.param, n := 0, flags := 0, data := data }

/-- Merges the second entry of a field into the first; the first stands earlier in child order. -/
def FEnt.merge (a b : FEnt) : FEnt :=
  let fl := a.flags ||| b.flags
  let c : FEnt := { a with n := a.n + b.n, flags := fl }
  if a.op = 1 ∨ a.op = 2 then { c with data := leBytes 16 (leNat a.data + leNat b.data) }
  else if a.op = 3 then { c with data := leBytes 8 (fsum [(a.n, leNat a.data), (b.n, leNat b.data)]) }
  else if a.op = 4 ∨ a.op = 5 then
    { c with data := argData (extremeArg (a.op = 5) a.vtype [(leAt a.data 0 8, leAt a.data 8 4), (leAt b.data 0 8, leAt b.data 8 4)]) }
  else if a.op = 6 then
    let bins := (List.range 64).map fun i => leAt a.data (8 * i) 8 + leAt b.data (8 * i) 8
    { c with data := (bins.map fun x => leBytes 8 (satN 64 x)).flatten,
             flags := if bins.any (fun x => decide (2 ^ 64 ≤ x)) then fl ||| 1 else fl }
  else if a.op = 7 then
    let r := min a.param b.param
    let (x, tx) := sketchOf a.data
    let (y, ty) := sketchOf b.data
    let (s, sat) := sketchSat ((sketchTo (b.param - r) b.param y).foldl (fun m e => SMap.mod 0 m e.1 (· + e.2))
      (sketchTo (a.param - r) a.param x))
    { c with param := r, data := sketchData s (tx + ty), flags := if sat then fl ||| 1 else fl }
  else if a.op = 8 ∨ a.op = 9 then
    let k := min a.param b.param
    { c with param := k, data := topData (topK (a.op = 8) k (topOf a.data ++ topOf b.data)) }
  else if a.op = 10 then
    let (g, d) := bitmapMerge (a.param, a.data) (b.param, b.data)
    { c with param := g, data := d }
  else if a.op = 11 then
    let (x, tx, size, lx) := listOf a.data
    let (y, ty, _, ly) := listOf b.data
    let l := min lx ly
    { c with param := l, data := listCut (x ++ y) (tx + ty) size l }
  else c

/-- One coarsening step of a detail field (R323 to R326). -/
def FEnt.coarsen (e : FEnt) : FEnt :=
  let c : FEnt := { e with flags := e.flags ||| 2 }
  if e.op = 7 then
    if e.param = 0 then e
    else
      let (x, t) := sketchOf e.data
      let (s, sat) := sketchSat (sketchDown e.param x)
      { c with param := e.param - 1, data := sketchData s t, flags := if sat then c.flags ||| 1 else c.flags }
  else if e.op = 8 ∨ e.op = 9 then
    let k := max 4 (e.param / 2)
    if e.param ≤ 4 then e else { c with param := k, data := topData ((topOf e.data).take k) }
  else if e.op = 10 then
    if 18 ≤ e.param then e
    else let (g, d) := bitmapMerge (e.param, e.data) (e.param + 1, leBytes 8 0)
         { c with param := g, data := d }
  else if e.op = 11 then
    let (x, t, size, l) := listOf e.data
    let l1 := max 16 (l / 2)
    if l ≤ 16 then e else { c with param := l1, data := listCut x t size l1 }
  else e

/-- `k` coarsening steps. -/
def FEnt.coarsenBy : Nat → FEnt → FEnt
  | 0, e => e
  | k + 1, e => FEnt.coarsenBy k e.coarsen

/-! ### Values at the leaf (R319) -/

/-- The pieces of a record that hold values: entries of a COUNTER_BLOCK (a DELTA_RANGE one counter at a time), channels of a
DIGEST, markers of a MARKER record, else the payload. -/
def pieces (r : Rec) : List (List Byte) :=
  let t := r.typ.toNat
  let rec blocks : Nat → List Byte → List (List Byte)
    | 0, _ => []
    | k + 1, l =>
      if l.length < 8 then []
      else
        let n := leAt l 4 2
        let here := if leAt l 2 1 = 2 then
            (List.range n).map fun i => leBytes 2 (leAt l 0 2 + i) ++ [2, 0, 1, 0, 0, 0] ++ (l.drop (8 + 8 * i)).take 8
          else [l.take (8 + 8 * n)]
        here ++ blocks k (l.drop (8 + 8 * n))
  if t = 0x0102 then blocks r.payload.length r.payload
  else if t = 0x0105 then chunks 160 (r.payload.length / 160) r.payload
  else if t = 0x0103 then chunks 16 (r.payload.length / 16) r.payload
  else [r.payload]

/-- The values of a field in a die's records of a tick, in record order. -/
def FieldSrc.values (s : FieldSrc) (rs : List Rec) : List (List Byte) :=
  ((rs.filter fun r => r.typ.toNat == s.typ).flatMap pieces).filterMap fun p =>
    if leAt p s.keyAt s.keyLen = s.key ∧ s.at_ + s.len ≤ p.length then some ((p.drop s.at_).take s.len) else none

/-- The entry that one die's records make for a field; `none` where the die holds no value that the operator takes in. -/
def Field.ofDie (f : Field) (die : Nat) (rs : List Rec) : Option FEnt :=
  let vs := f.src.values rs
  match vs with
  | [] => none
  | b :: _ =>
    let v : Nat := leNat b % 2 ^ 64
    let iv : Int := if f.vtype = 1 then sextN (8 * f.src.len) (leNat b) else (v : Int)
    let e : FEnt := { emptyEnt f with n := 1 }
    if f.op = 1 then some { e with data := leBytes 16 v }
    else if f.op = 2 then some { e with data := leBytes 16 (wrapI 128 (sextN (8 * f.src.len) (leNat b))) }
    else if f.op = 3 then
      let x := if f.vtype = 2 then v else f64of (FVal.ofInt iv)
      some { e with data := leBytes 8 (fsum [(1, x)]) }
    else if f.op = 4 ∨ f.op = 5 then
      some { e with data := argData (extremeArg (f.op = 5) f.vtype [(wrapI 64 iv, die)]) }
    else if f.op = 6 then
      if f.src.len ≤ 8 then
        some { e with data := ((List.range 64).map fun i => leBytes 8 (if i = histBin v then 1 else 0)).flatten }
      else
        let w := f.src.len / 64
        some { e with data := ((List.range 64).map fun i => leBytes 8 (leAt b (i * w) w)).flatten }
    else if f.op = 7 then
      let x : Option Nat := if f.vtype = 2 then
          match fp64.decode v with
          | .fin s m x => if s ∧ m ≠ 0 then none
              else if 0 ≤ x then some (m * 2 ^ x.toNat)
              else if m % 2 ^ (-x).toNat = 0 then some (m / 2 ^ (-x).toNat) else none
          | _ => none
        else if 0 ≤ iv then some iv.toNat else none
      x.bind fun y => if 2 ^ 64 ≤ y then none else some { e with data := sketchData [(sketchIdx f.param y, 1)] 1 }
    else if f.op = 8 ∨ f.op = 9 then some { e with data := topData [(v, die)] }
    else if f.op = 10 then
      some { e with data := bitmapData f.param (if v = 0 then [] else [die / 2 ^ f.param]) }
    else if f.op = 11 then
      some { e with data := listCut (vs.map fun x => padTo f.size ((x ++ leBytes 4 die).take f.size)) 0 f.size f.param }
    else none

/-! ### Arrival entries (R335, R336) -/

/-- An arrival entry (Table 11.9). -/
structure Arrival where
  mark  : Nat
  arg   : Nat
  n     : Nat
  eDie  : Nat
  eT    : Nat
  lT    : Nat
  lDie  : Nat
  b     : Nat
  flags : Nat
  cnt   : Sketch
  last8 : List (Nat × Nat)
  deriving DecidableEq, Repr

/-- The entry of one die's arrival at PTP time `t`. -/
def arrivalOf (mark arg die t b : Nat) : Arrival :=
  { mark := mark, arg := arg, n := 1, eDie := die, eT := t, lT := t, lDie := die, b := b, flags := 0, cnt := [(t / 2 ^ b, 1)],
    last8 := [(t, die)] }

/-- A linear sketch with its buckets `k` steps wider. -/
def widenBy (k : Nat) (s : Sketch) : Sketch := s.foldl (fun (m : Sketch) x => SMap.mod 0 m (x.1 / 2 ^ k) (· + x.2)) []

/-- Widens until the span is at most 4,096 buckets. -/
def Arrival.fit : Nat → Arrival → Arrival
  | 0, a => a
  | k + 1, a =>
    match a.cnt.head?, a.cnt.getLast? with
    | some x, some y => if 4096 < y.1 - x.1 + 1 then Arrival.fit k { a with b := a.b + 1, cnt := widenBy 1 a.cnt } else a
    | _, _ => a

/-- Two entries with the same key merged (R336). -/
def Arrival.merge (a c : Arrival) : Arrival :=
  let b := max a.b c.b
  let e := if c.eT < a.eT ∨ (c.eT = a.eT ∧ c.eDie < a.eDie) then (c.eT, c.eDie) else (a.eT, a.eDie)
  let l := if a.lT < c.lT ∨ (c.lT = a.lT ∧ c.lDie < a.lDie) then (c.lT, c.lDie) else (a.lT, a.lDie)
  let s := (widenBy (b - c.b) c.cnt).foldl (fun (m : Sketch) x => SMap.mod 0 m x.1 (· + x.2)) (widenBy (b - a.b) a.cnt)
  Arrival.fit 64 { a with n := a.n + c.n, eT := e.1, eDie := e.2, lT := l.1, lDie := l.2, b := b, flags := a.flags ||| c.flags,
                          cnt := s, last8 := topK true 8 (a.last8 ++ c.last8) }

/-- `k` coarsening steps: buckets wider by a factor of two each. -/
def Arrival.coarsenBy (k : Nat) (a : Arrival) : Arrival := { a with b := a.b + k, cnt := widenBy k a.cnt }

/-- The bytes of an entry. -/
def Arrival.bytes (a : Arrival) : List Byte :=
  let base := (a.cnt.head?.map (·.1)).getD 0
  let m := (a.cnt.getLast?.map fun x => x.1 - base + 1).getD 0
  leBytes 2 a.mark ++ leBytes 2 0 ++ leBytes 4 a.arg ++ leBytes 4 a.n ++ leBytes 4 a.eDie ++ leBytes 8 a.eT ++ leBytes 8 a.lT
  ++ leBytes 4 a.lDie ++ leBytes 1 a.b ++ leBytes 1 a.flags ++ leBytes 2 m ++ leBytes 8 base
  ++ padTo 128 (topData a.last8)
  ++ pad8 ((List.range m).map fun i => leBytes 4 (satN 32 (SMap.get 0 a.cnt (base + i)))).flatten

/-- The entries that bytes spell, at most `k`. -/
def parseArrivals : Nat → List Byte → List Arrival
  | 0, _ => []
  | k + 1, l =>
    if l.length < 176 then []
    else
      let m := leAt l 38 2
      let base := leAt l 40 8
      let n := leAt l 8 4
      { mark := leAt l 0 2, arg := leAt l 4 4, n := n, eDie := leAt l 12 4, eT := leAt l 16 8, lT := leAt l 24 8, lDie := leAt l 32 4,
        b := leAt l 36 1, flags := leAt l 37 1,
        cnt := ((List.range m).map fun i => (base + i, leAt l (176 + 4 * i) 4)).filter (fun x => x.2 ≠ 0),
        last8 := (topOf ((l.drop 48).take 128)).take (min 8 n) }
      :: parseArrivals k (l.drop (176 + (4 * m + 7) / 8 * 8))

/-- Places an entry among others, merging entries of one key; keys rising. -/
def arrivalInto (a : Arrival) : List Arrival → List Arrival
  | [] => [a]
  | h :: r =>
    if h.mark = a.mark ∧ h.arg = a.arg then h.merge a :: r
    else if a.mark < h.mark ∨ (a.mark = h.mark ∧ a.arg < h.arg) then a :: h :: r
    else h :: arrivalInto a r

end Sys2Proof.Machine
end

