-- ==== Sys2Proof/Machine/Reduce.lean ====
section
/-! DEFINITION. The Reduction Engine (chapter 11) and contribution balances (R304, R305): what a role makes of its children's
records, folding, coarsening, arrival instances and result slots. -/

namespace Sys2Proof.Machine

/-- The reduction state changed. -/
def Glexon.modFl (g : Glexon) (f : Fleet → Fleet) : Glexon := { g with fl := f g.fl }

/-! ### Children (R30, R315, R327) -/

/-- A child of a role in a data tick: position, Tap port or CHILD_POS, its records of the tick, and whether its summary has
arrived. -/
structure Child where
  pos     : Nat
  who     : Nat
  recs    : List Rec
  present : Bool
  deriving DecidableEq, Repr

/-- The ports that carry the leaf's dies, in order: EXPECTED ports, a pair once. -/
def Glexon.leafPorts (g : Glexon) : List Nat :=
  (List.range 64).filter fun p => g.tpExpected p && !(decide (p % 2 = 1) && g.tpPair (p - 1))

/-- FAN_IN of a slot. -/
def Glexon.fanIn (g : Glexon) (k : Nat) : Nat := fld (g.rd (Reg.RE_ROLE_CFG k)) 0 7

/-- The summary record's type of a slot's children. -/
def sumType (k : Nat) : Nat := if k = 0 then 0x0101 else 0x0201

/-- A slot's children in data tick `n`, in child order. -/
def Glexon.children (g : Glexon) (k : Nat) (n : Word) : List Child :=
  let whos := if k = 0 then g.leafPorts.take (g.fanIn 0) else List.range (g.fanIn k)
  whos.zipIdx.map fun (w, i) =>
    let rs := ((g.ingest k).filter fun x => x.child == w && x.tick == n).map fun x => x.r
    { pos := i, who := w, recs := rs, present := rs.any fun r => r.typ.toNat == sumType k }

/-- Bytes of a child's records that count toward the input budget. -/
def Child.bytes (c : Child) : Nat :=
  ((c.recs.filter fun r => r.typ ≠ 0x0101 && r.typ ≠ 0x0201 && r.typ ≠ 0x0230).map Rec.size).sum

/-- B of a slot: IN_BUDGET × P / 1 ms, in bytes. -/
def Glexon.inBudget (g : Glexon) (k : Nat) : Nat := fld (g.rd (Reg.RE_ROLE_BUDGET k)) 0 32 * 1024 * g.pNs / 1000000

/-- The upward budget of R9: 16 MiB × P / 1 ms. -/
def Glexon.upBudget (g : Glexon) : Nat := 16777216 * g.pNs / 1000000

/-- Of children in visiting order, the positions that fold: the first that would pass `b`, and every later one. -/
def foldFrom (b : Nat) : List Child → Nat → List Nat
  | [], _ => []
  | c :: r, t => if b < t + c.bytes then (c :: r).map fun x => x.pos else foldFrom b r (t + c.bytes)

/-- The positions that fold in data tick `n`: present children are visited from position n mod FAN_IN. -/
def Glexon.folds (g : Glexon) (k : Nat) (n : Word) (cs : List Child) : List Nat :=
  let start := n.toNat % max 1 (g.fanIn k)
  let ps := cs.filter fun c => c.present
  foldFrom (g.inBudget k) ((ps.filter fun c => decide (start ≤ c.pos)) ++ ps.filter fun c => decide (c.pos < start)) 0

/-! ### Sets of a role (R37, R333) -/

/-- A watch set that a role reduces in a data tick: ID, generation, and whether the tick is its end tick. -/
structure SetRef where
  id    : Nat
  gen   : Nat
  final : Bool
  deriving DecidableEq, Repr

/-- The sets of a slot in data tick `n`, rising; the fleet set first. -/
def Glexon.setsOf (g : Glexon) (k : Nat) (n : Word) : List SetRef :=
  { id := 0, gen := 0, final := false } :: g.fl.ws.filterMap fun (i, e) =>
    if i / 4096 = k ∧ i % 4096 ≠ 0 then
      match e with
      | .active gen => some { id := i % 4096, gen := gen, final := false }
      | .draining gen last => if n.toNat ≤ last.toNat then some { id := i % 4096, gen := gen, final := n == last } else none
      | .free => none
    else none

/-- A child's records of a type for a set, in order of arrival. -/
def Child.ofSet (c : Child) (typ : Nat) (s : SetRef) : List Rec :=
  c.recs.filter fun r => r.typ.toNat == typ && r.wsId.toNat == s.id && r.wsGen.toNat == s.gen

/-- The payloads of records after their prefix of `p` bytes, joined. -/
def bodies (p : Nat) (rs : List Rec) : List Byte := rs.flatMap fun r => r.payload.drop p

/-- The spec of a set; with no markers named, COLL_ENTRY and STEP_END. -/
def Glexon.specOf (g : Glexon) (id : Nat) : SetSpec :=
  let s := SMap.get {} g.image.specs id
  if s.marks = [] then { s with marks := [2, 3] } else s

/-- Is a child of slot 0 a member of a set in data tick `n`? -/
def Glexon.memberOf (g : Glexon) (s : SetRef) (n : Word) (c : Child) : Bool := g.stampAt c.who n == (s.id, s.gen)

/-- The children whose records a set takes in: its members at the leaf, every child above. -/
def Glexon.setKids (g : Glexon) (k : Nat) (s : SetRef) (n : Word) (cs : List Child) : List Child :=
  if k = 0 then cs.filter (g.memberOf s n) else cs

/-! ### SET_CORE (R316, R318 to R322, R327, R333) -/

/-- The head of a SET_CORE: member dies by what became of them, and records lost by class at the Bumas and at reassembly. -/
structure Tally0 where
  expected : Nat := 0
  reported : Nat := 0
  unobs    : Nat := 0
  absent   : Nat := 0
  folded   : Nat := 0
  lossB    : List Nat := [0, 0, 0, 0]
  lossR    : List Nat := [0, 0, 0, 0]
  deriving DecidableEq, Repr

/-- Tallies added. -/
def Tally0.add (a b : Tally0) : Tally0 :=
  { expected := a.expected + b.expected, reported := a.reported + b.reported, unobs := a.unobs + b.unobs,
    absent := a.absent + b.absent, folded := a.folded + b.folded, lossB := List.zipWith (· + ·) a.lossB b.lossB,
    lossR := List.zipWith (· + ·) a.lossR b.lossR }

/-- The tally of a child's SET_CORE. -/
def Tally0.ofRec (l : List Byte) (fold : Bool) : Tally0 :=
  { expected := leAt l 4 4, reported := leAt l 8 4, unobs := leAt l 12 4, absent := leAt l 16 4,
    folded := if fold then leAt l 8 4 else leAt l 20 4,
    lossB := (List.range 4).map fun c => leAt l (32 + 8 * c) 4, lossR := (List.range 4).map fun c => leAt l (64 + 8 * c) 4 }

/-- A leaf child's share of a set's tally. -/
def Glexon.leafTally (g : Glexon) (fold : Bool) (c : Child) : Tally0 :=
  let un := !c.present && g.unobserved c.who
  let loss := c.recs.filter fun r => r.typ == 0x010A
  { expected := 1, reported := c.present.toNat, unobs := un.toNat, absent := (!c.present && !un).toNat,
    folded := (c.present && fold).toNat,
    lossB := (List.range 4).map fun i => (loss.map fun r => leAt r.payload (16 + 8 * i) 4).sum,
    lossR := (List.range 4).map fun i => SMap.get 0 g.fl.lossInc (4 * c.who + i) }

/-- What a set's SET_CORE holds. -/
structure Core0 where
  s     : SetRef
  tally : Tally0
  main  : List FEnt
  extra : List FEnt
  flags : Nat
  /-- a present member is below -/
  any   : Bool
  deriving DecidableEq, Repr

/-- The main and the overflow entries of a child's SET_CORE. -/
def coreParts (rs : List Rec) : List FEnt × List FEnt :=
  match rs with
  | [] => ([], [])
  | r :: _ =>
    let es := parseEnts 1024 (bodies 96 rs)
    (es.take (leAt r.payload 24 2), es.drop (leAt r.payload 24 2))

/-- A field reduced over entries in child order. -/
def reduceField (f : Field) (es : List FEnt) : FEnt :=
  (es.filter fun e => e.id == f.id && e.op == f.op).foldl FEnt.merge (emptyEnt f)

/-- A record's flags that go upward (R23). -/
def carried (rs : List Rec) : Nat :=
  rs.foldl (fun a r => a ||| (r.flags.toNat &&& (flagPartial + flagCoarse + flagAbsent + flagHold))) 0

/-- A set reduced over a slot's children; `fold`: the positions that fold. -/
def Glexon.coreOf (g : Glexon) (k : Nat) (n : Word) (cs : List Child) (fold : List Nat) (s : SetRef) : Core0 :=
  let kids := g.setKids k s n cs
  let core := (g.specOf s.id).fields.filter fun f => decide (f.op ≤ 6)
  let isF (c : Child) : Bool := fold.contains c.pos
  let up := kids.filter fun c => c.present
  if k = 0 then
    let ents (cs : List Child) (f : Field) : FEnt :=
      reduceField f (cs.filterMap fun c => f.ofDie ((g.dieAt c.who).getD 0) c.recs)
    let ovr := up.filter isF
    let t := kids.foldl (fun a c => a.add (g.leafTally (isF c) c)) {}
    { s := s, tally := t, main := core.map (ents (up.filter fun c => !isF c)),
      extra := if ovr = [] then [] else core.map (ents ovr),
      flags := carried (up.flatMap fun c => c.recs) ||| (if t.unobs + t.absent = 0 then 0 else flagAbsent), any := up ≠ [] }
  else
    let parts := up.map fun c => (isF c, coreParts (c.ofSet 0x0202 s))
    let main := parts.flatMap fun x => if x.1 then [] else x.2.1
    let extra := parts.flatMap fun x => if x.1 then x.2.1 ++ x.2.2 else x.2.2
    let recs := up.flatMap fun c => c.ofSet 0x0202 s
    let t := kids.foldl (fun (a : Tally0) c => match c.ofSet 0x0202 s with
      | r :: _ =>
        let x := Tally0.ofRec r.payload (isF c)
        a.add (if c.present then x else { lossB := x.lossB, lossR := x.lossR })
      | [] => a) {}
    { s := s, tally := t, main := core.map fun f => reduceField f main,
      extra := if extra = [] then [] else core.map fun f => reduceField f extra,
      flags := carried recs ||| (if cs.all fun c => c.present then 0 else flagAbsent), any := recs ≠ [] }

/-- Payloads from a prefix and entries: split so that none passes the 16-bit length field (R317). -/
def splitEnts (cap : Nat) : List (List Byte) → List Byte → List (List Byte)
  | [], acc => [acc]
  | e :: r, acc => if acc ≠ [] ∧ cap < acc.length + e.length then acc :: splitEnts cap r e else splitEnts cap r (acc ++ e)

/-- The payloads of one set's records of a type. -/
def payloads (pre : List Byte) (es : List (List Byte)) : List (List Byte) :=
  (splitEnts (524280 - pre.length) es []).map fun b => pre ++ b

/-- The payloads of a SET_CORE (Table 11.3). -/
def Core0.payloads (c : Core0) (k level : Nat) (noDet noArr : Bool) : List (List Byte) :=
  let t := c.tally
  let l8 (l : List Nat) : List Byte := l.flatMap fun v => leBytes 8 (satN 32 v)
  let pre := leBytes 1 k ++ leBytes 1 level
    ++ leBytes 2 (noDet.toNat + 2 * noArr.toNat + 4 * c.s.final.toNat)
    ++ leBytes 4 t.expected ++ leBytes 4 t.reported ++ leBytes 4 t.unobs ++ leBytes 4 t.absent ++ leBytes 4 t.folded
    ++ leBytes 2 c.main.length ++ leBytes 2 c.extra.length ++ leBytes 4 0 ++ l8 t.lossB ++ l8 t.lossR
  Sys2Proof.Machine.payloads pre ((c.main ++ c.extra).map FEnt.bytes)

/-! ### SET_DETAIL (R318, R323 to R326) -/

/-- The detail entries of a set, from the children accepted in full. -/
def Glexon.detailOf (g : Glexon) (k : Nat) (n : Word) (cs : List Child) (fold : List Nat) (s : SetRef) : List FEnt × Nat :=
  let up := (g.setKids k s n cs).filter fun c => c.present && !fold.contains c.pos
  let det := (g.specOf s.id).fields.filter fun f => decide (7 ≤ f.op)
  if k = 0 then
    (det.map fun f => reduceField f (up.filterMap fun c => f.ofDie ((g.dieAt c.who).getD 0) c.recs), carried (up.flatMap fun c => c.recs))
  else
    let rs := up.flatMap fun c => c.ofSet 0x0203 s
    let es := up.flatMap fun c => parseEnts 1024 (bodies 16 (c.ofSet 0x0203 s))
    (det.map fun f => reduceField f es, carried rs)

/-- The 16-byte prefix of SET_DETAIL and ARRIVALS. -/
def pre16 (k level count : Nat) : List Byte := leBytes 1 k ++ leBytes 1 level ++ leBytes 2 0 ++ leBytes 4 count ++ leBytes 8 0

/-! ### ARRIVALS (R335, R336) -/

/-- PTP time in ns of a short time in a record of tick `n` (R65). -/
def Glexon.ptpOf (g : Glexon) (n : Word) (short : Nat) : Nat :=
  let b := n.toNat * g.periodOf n
  let d := sextN 32 ((short + (2 ^ 32 - b % 2 ^ 32)) % 2 ^ 32)
  (((g.epochOf n + b : Nat) : Int) + d).toNat

/-- The markers of one die that the spec names, each (ID, argument) once. -/
def firstMarks (marks : List Nat) : List (List Byte) → List (Nat × Nat) → List (List Byte)
  | [], _ => []
  | m :: r, seen =>
    let key := (leAt m 0 2, leAt m 4 4)
    if marks.contains key.1 ∧ ¬ seen.contains key then m :: firstMarks marks r (key :: seen) else firstMarks marks r seen

/-- The instance entries of a set in a data tick. -/
def Glexon.arrivalsOf (g : Glexon) (k : Nat) (n : Word) (cs : List Child) (fold : List Nat) (s : SetRef) : List Arrival × Nat :=
  let up := (g.setKids k s n cs).filter fun c => c.present && !fold.contains c.pos
  let spec := g.specOf s.id
  if k = 0 then
    let one (c : Child) : List Arrival :=
      let rs := c.recs.filter fun r => r.typ == 0x0103
      (firstMarks spec.marks (rs.flatMap pieces) []).map fun m =>
        arrivalOf (leAt m 0 2) (leAt m 4 4) ((g.dieAt c.who).getD 0) (g.ptpOf n (leAt m 8 4)) spec.arrB
    ((up.flatMap one).foldl (fun l a => arrivalInto a l) [], carried (up.flatMap fun c => c.recs))
  else
    let rs := up.flatMap fun c => c.ofSet 0x0204 s
    ((rs.flatMap fun r => parseArrivals 65536 (r.payload.drop 16)).foldl (fun l a => arrivalInto a l) [], carried rs)

/-! ### Contribution balances (R303 to R305) -/

/-- A balance entry of a set (Table 10.4). -/
structure BalEnt where
  id   : Nat
  gen  : Nat
  rep  : Nat
  qui  : Nat
  void : Bool
  out  : Nat
  inn  : Nat
  deriving DecidableEq, Repr

/-- The bytes of a balance entry. -/
def BalEnt.bytes (b : BalEnt) : List Byte :=
  leBytes 2 b.id ++ leBytes 2 b.gen ++ leBytes 4 b.rep ++ leBytes 4 b.qui ++ leBytes 1 b.void.toNat ++ leBytes 3 0
  ++ leBytes 8 b.out ++ leBytes 8 b.inn

/-- The entry that 32 bytes spell. -/
def BalEnt.ofBytes (l : List Byte) : BalEnt :=
  { id := leAt l 0 2, gen := leAt l 2 2, rep := leAt l 4 4, qui := leAt l 8 4, void := (leAt l 12 1).testBit 0, out := leAt l 16 8,
    inn := leAt l 24 8 }

/-- A die's OUT and IN values in tick `n`, `none` where one is not valid. -/
def Glexon.dieBal (g : Glexon) (c : Child) : Option (Nat × Nat) :=
  let cfg := g.rd (Reg.DG_CHAN_CFG c.who)
  let ds := (c.recs.filter fun r => r.typ == 0x0105).flatMap pieces
  let val (ch : Nat) : Option Nat := (ds.find? fun d => leAt d 0 1 == ch && (leAt d 2 2).testBit 1).map fun d => leAt d 32 8 % 2 ^ 61
  if bit cfg 63 then
    match val (fld cfg 4 4), val (fld cfg 0 4) with
    | some o, some i => some (o, i)
    | _, _ => none
  else none

/-- Does a LOSS record from a port cover tick `n`? -/
def Glexon.lossCovers (g : Glexon) (p : Nat) (n : Word) : Bool :=
  (g.ingest 0).any fun i => i.child == p && i.r.typ == 0x010A
    && decide (leAt i.r.payload 0 8 ≤ n.toNat) && decide (n.toNat < leAt i.r.payload 0 8 + leAt i.r.payload 8 4)

/-- The leaf's entry of a set, if it has members. -/
def Glexon.leafBal (g : Glexon) (n : Word) (cs : List Child) (hold : Bool) (s : SetRef) : Option BalEnt :=
  let kids := g.setKids 0 s n cs
  if kids = [] then none
  else
    let bad (c : Child) : Bool :=
      let ok (t : Nat) : Bool := (c.recs.any fun r => r.typ.toNat == t) && c.recs.all fun r => r.typ.toNat != t || !bit r.flags 0
      !c.present || !ok 0x0105 || !ok 0x0103 || g.lossCovers c.who n || (g.dieBal c).isNone
        || c.recs.any fun r => r.typ == 0x0101 && bit r.flags 5
    let quiet (c : Child) : Bool := c.present && (SMap.get none g.fl.collIn c.who).isSome
      && SMap.get none g.fl.collIn c.who == SMap.get none g.fl.collOut c.who
    let sum (f : Nat × Nat → Nat) : Nat := (kids.map fun c => match g.dieBal c with
      | some x => f x
      | none => 0).sum % m61p
    some { id := s.id, gen := s.gen, rep := (kids.filter fun c => c.present).length, qui := (kids.filter quiet).length,
           void := hold || kids.any bad || g.fl.keyTick == some n, out := sum (·.1), inn := sum (·.2) }

/-- A slot's balance entries, ascending. -/
def Glexon.balances (g : Glexon) (k : Nat) (n : Word) (cs : List Child) : List BalEnt :=
  let sets := g.setsOf k n
  let up := cs.filter fun c => c.present
  let hold := g.inHold || (carried (up.flatMap fun c => c.recs)).testBit 5
  if k = 0 then sets.filterMap (g.leafBal n cs hold)
  else
    let es := (up.flatMap fun c => c.recs.filter fun r => r.typ == 0x0230).flatMap fun r =>
      (chunks 32 (r.payload.length / 32) r.payload).map BalEnt.ofBytes
    sets.filterMap fun s =>
      match es.filter fun e => e.id == s.id && e.gen == s.gen with
      | [] => none
      | l => some { id := s.id, gen := s.gen, rep := (l.map (·.rep)).sum, qui := (l.map (·.qui)).sum,
                    void := hold || l.any (·.void), out := (l.map (·.out)).sum % m61p, inn := (l.map (·.inn)).sum % m61p }

/-- The apex's window of a set takes in an entry of data tick `n`; `size`: the set's members (R305). -/
def Glexon.balanceStep (g : Glexon) (n : Word) (size : Nat) (e : BalEnt) : Glexon :=
  let b := SMap.get {} g.fl.bal e.id
  let put (h : Glexon) (x : Balance) : Glexon := h.modFl fun f => { f with bal := SMap.put {} f.bal e.id x }
  let quiet := decide (e.rep = e.qui) && decide (e.rep = size)
  let fresh : Balance := { isOpen := true, first := n + 1 }
  if b.isOpen = false then (if quiet then put g fresh else g)
  else
    let b1 : Balance := { b with ticks := b.ticks + 1, outs := (b.outs + e.out) % m61p, ins := (b.ins + e.inn) % m61p,
                                 void := b.void || e.void || g.fl.keyTick == some n }
    if quiet = false then put g b1
    else if b1.void then (put g fresh).bump Reg.DG_BAL_VOID 1
    else if b1.outs = b1.ins then (put g fresh).bump Reg.DG_BAL_OK 1
    else
      let g1 := ((put g fresh).bump Reg.DG_BAL_FAIL 1).alarm 3 0x0320 n e.id e.gen 0
        (leBytes 2 e.id ++ leBytes 2 e.gen ++ leBytes 4 size ++ leBytes 8 b1.first.toNat ++ leBytes 4 b1.ticks ++ leBytes 4 0
          ++ leBytes 8 ((b1.outs + m61p - b1.ins) % m61p)) true
      g1.event 0x0430 26 [word e.id, word e.gen, b1.first]

/-- What the leaf has seen of a die's collectives: the markers of the tick that ends (R304). -/
def Glexon.collTick (g : Glexon) : Glexon :=
  let n := g.tk.tickNo
  ((g.ingest 0).filter fun i => i.tick == n && i.r.typ == 0x0103).foldl (fun (h : Glexon) i =>
    (pieces i.r).foldl (fun (h : Glexon) m =>
      let a := some (leAt m 4 4)
      if leAt m 0 2 = 3 then h.modFl fun f => { f with collIn := SMap.put none f.collIn i.child a }
      else if leAt m 0 2 = 4 then h.modFl fun f => { f with collOut := SMap.put none f.collOut i.child a }
      else h) h) g

/-! ### The plan of a role's tick (R327, R329, R331) -/

/-- What a role makes of a data tick. -/
structure Plan where
  kids   : List Child
  fold   : List Nat
  cores  : List Core0
  bals   : List BalEnt
  level  : Nat
  noDet  : List Nat
  noArr  : List Nat
  offered : Nat
  sent   : Nat
  part   : Bool
  deriving DecidableEq, Repr

/-- Bytes of records with these payloads. -/
def recBytes (ps : List (List Byte)) : Nat := (ps.map fun p => 40 + p.length).sum

/-- Drops the records of sets that have any, from the highest ID down until the rest fits: the sets dropped, and the bytes left. -/
def dropFrom (budget : Nat) : List (Nat × Nat) → Nat → List Nat × Nat
  | [], t => ([], t)
  | (id, b) :: r, t => if t ≤ budget then ([], t) else if b = 0 then dropFrom budget r t else
    let x := dropFrom budget r (t - b)
    (id :: x.1, x.2)

/-- The plan of slot `k` for data tick `n`. -/
def Glexon.plan (g : Glexon) (k : Nat) (n : Word) : Plan :=
  let cs := g.children k n
  let fold := g.folds k n cs
  let cores := (g.setsOf k n).map (g.coreOf k n cs fold) |>.filter fun c => c.any
  let bals := if bit (g.rd Reg.DG_CTRL) 62 then g.balances k n cs else []
  let det (l : Nat) (c : Core0) : Nat :=
    match (g.detailOf k n cs fold c.s).1 with
    | [] => 0
    | es => recBytes (payloads (pre16 k l es.length) (es.map fun e => (FEnt.coarsenBy l e).bytes))
  let arr (l : Nat) (c : Core0) : Nat :=
    match (g.arrivalsOf k n cs fold c.s).1 with
    | [] => 0
    | as => recBytes (payloads (pre16 k l as.length) (as.map fun a => (a.coarsenBy l).bytes))
  let fixed := (cores.map fun c => recBytes (c.payloads k 0 false false)).sum
    + (if bit (g.rd Reg.DG_CTRL) 62 then 40 + 32 * bals.length else 0) + 104
  let total (l : Nat) : Nat := fixed + (cores.map fun c => det l c + arr l c).sum
  let budget := g.upBudget
  let level := if k = 3 then 0 else ((List.range 8).find? fun l => decide (total l ≤ budget)).getD 7
  let t0 := total level
  let d := if k = 3 then ([], t0) else dropFrom budget (cores.reverse.map fun c => (c.s.id, det level c)) t0
  let a := if k = 3 then ([], t0) else dropFrom budget (cores.reverse.map fun c => (c.s.id, arr level c)) d.2
  let short (c : Child) : Bool := k ≠ 0 && c.present && c.recs.any fun r => r.typ == 0x0201
    && decide (c.recs.length - 1 < leAt r.payload 36 4)
  { kids := cs, fold := fold, cores := cores, bals := bals, level := level, noDet := d.1, noArr := a.1,
    offered := ((cs.filter fun c => c.present).map Child.bytes).sum, sent := a.2,
    part := (g.role k).part || cs.any short }

/-- The role saturates: it folds, coarsens or drops. -/
def Plan.sat (p : Plan) : Bool := p.fold ≠ [] || decide (p.level ≠ 0) || p.noDet ≠ [] || p.noArr ≠ []

/-! ### Records of a role -/

/-- Forms a role's Amber records from payloads of one type. -/
def Glexon.formRecs (g : Glexon) (k typ : Nat) (n : Word) (s : SetRef) (flags : Nat) : List (List Byte) → List Rec × Glexon
  | [] => ([], g)
  | p :: r =>
    let (x, g1) := g.newRec k typ 10 n s.id s.gen flags p
    let (l, g2) := Glexon.formRecs g1 k typ n s flags r
    (x :: l, g2)

/-- Flags of a record that a role forms: what its inputs carried, and what applies to the role. -/
def Plan.flags (p : Plan) (carriedIn : Nat) : Nat :=
  carriedIn ||| (if p.part then flagPartial else 0) ||| (if p.sat then flagCoarse else 0)

/-- A role's records of some types replaced by others. -/
def Glexon.setRecs (g : Glexon) (k stage : Nat) (types : List Nat) (rs : List Rec) : Glexon :=
  g.modRole k fun t => { t with recs := (t.recs.filter fun r => !types.contains r.typ.toNat) ++ rs, stages := t.stages ||| stage }

/-- The bytes of records, one after another. -/
def recsBytes (rs : List Rec) : List Byte := rs.flatMap Rec.bytes

/-! ### Saturation (R331) -/

/-- The role's saturation of the tick is reported, once. -/
def Glexon.saturate (g : Glexon) (k : Nat) (n : Word) (p : Plan) : Glexon :=
  let lost := ((p.cores.map fun c => c.s.id).filter fun i => p.noDet.contains i || p.noArr.contains i).length
  let g0 := g.wr (Reg.RE_ROLE_COARSE k) (word (n.toNat % 2 ^ 48 * 65536 + satN 8 lost * 256 + p.level))
  if p.sat = false ∨ (g.role k).sat then g0
  else
    let pay := leBytes 1 k ++ leBytes 1 p.level
      ++ leBytes 2 ((decide (p.fold ≠ [])).toNat + 2 * (decide (p.noDet ≠ [])).toNat + 4 * (decide (p.noArr ≠ [])).toNat)
      ++ leBytes 4 p.fold.length ++ leBytes 8 p.offered ++ leBytes 4 (g.inBudget k / 1024) ++ leBytes 4 p.sent
      ++ leBytes 4 lost ++ leBytes 4 0
    let g1 := g0.alarm k 0x0301 n 0 0 (p.flags 0) pay false
    let g2 := (g1.bumpFld (Reg.RE_ROLE_SAT k) 32 32 1).bumpFld (Reg.RE_ROLE_SAT k) 0 32 p.fold.length
    let g3 := if (g.role k).satPrev then g2
      else g2.event 0x0512 24 [word k, n, word p.fold.length, word p.level]
    g3.modRole k fun t => { t with sat := true }

/-! ### Arrival instances at the apex (R337) -/

/-- RE_INST_STAT takes the number of open instances. -/
def Glexon.instStat (g : Glexon) : Glexon :=
  g.wr Reg.RE_INST_STAT (putFld (g.rd Reg.RE_INST_STAT) 32 32 g.fl.inst.length)

/-- The entry of an instance with a flag set. -/
def Instance.close (i : Instance) (flag : Nat) : Instance :=
  { i with entry := putAt i.entry 37 (leBytes 1 (leAt i.entry 37 1 ||| flag)) }

/-- Instances that meet a condition close with a flag. -/
def Glexon.closeInst (g : Glexon) (flag : Nat) (c : Instance → Bool) : Glexon :=
  (g.modFl fun f => { f with inst := f.inst.filter fun i => !c i,
                             closed := f.closed ++ (f.inst.filter c).map fun i => i.close flag }).instStat

/-- Is an instance's key that of an arrival entry of a set? -/
def Instance.isKey (i : Instance) (s : SetRef) (a : Arrival) : Bool :=
  i.set_ == s.id && i.gen == s.gen && i.mark == a.mark && i.arg == a.arg

/-- One entry of a data tick merges into the open table. -/
def Glexon.instInto (g : Glexon) (n : Word) (s : SetRef) (a : Arrival) : Glexon :=
  let old := g.fl.inst.find? fun i => i.isKey s a
  match old with
  | some i =>
    let m := match parseArrivals 1 i.entry with
      | e :: _ => e.merge a
      | [] => a
    g.modFl fun f => { f with inst := f.inst.map fun x => if x.isKey s a then { x with entry := m.bytes } else x }
  | none =>
    let first := g.fl.inst.foldl (fun (b : Option Instance) i => match b with
      | none => some i
      | some x => if i.since.toNat < x.since.toNat then some i else some x) none
    let g1 := match first with
      | some o => if g.fl.inst.length < 4096 then g
          else ((g.closeInst 4 fun i => i == o).event 0x0514 24 [word o.set_, word o.mark, word o.arg]).bumpFld Reg.RE_INST_STAT 0 32 1
      | none => g
    (g1.modFl fun f => { f with inst := f.inst ++
        [{ set_ := s.id, gen := s.gen, mark := a.mark, arg := a.arg, since := n, entry := a.bytes }] }).instStat

/-- INSTANCE_TIMEOUT (R337): instances whose first data tick lies INST_TIMEOUT ticks back close. -/
def execInstanceTimeout (s : State) : Answer :=
  onCore (fun g => g.closeInst 2 fun i =>
    decide (i.since.toNat + max 1 (fld (g.rd Reg.RE_CTRL) 32 16) ≤ g.tk.tickNo.toNat)) s

/-! ### Result slots (R338, R339) -/

/-- Publishes a payload in slot pair `i` for data tick `n` (R339, steps 1 to 5). -/
def Glexon.publish (g : Glexon) (i : Nat) (n : Word) (flags : Nat) (pay : List Byte) : Glexon :=
  match g.image.pairs[i]? with
  | none => g
  | some p =>
    let cb := (g.rd Reg.RE_SLOT_BASE).toNat + pairOff g.image.pairs i
    let latest := memNat g.mem cb 8
    let ack := min latest (memNat g.mem (cb + 8) 8)
    let s := latest + 1
    let buf := cb + 64 + (s % 2) * p.size
    let g1 := if ack < s - 1 then
        (g.memPut (cb + 16) (leBytes 8 (memNat g.mem (cb + 16) 8 + 1))).bump Reg.RE_SLOT_UNACKED 1
      else g
    let g2 := g1.memPut (buf + 56) (leBytes 8 0)
    let hdr := leBytes 8 s ++ leBytes 8 n.toNat ++ memBytes g.mem (cb + 24) 4 ++ leBytes 2 flags ++ leBytes 2 0
      ++ leBytes 4 pay.length ++ leBytes 4 (crc32c pay) ++ leBytes 24 0
    let g3 := (g2.memPut buf hdr).memPut (buf + 64) pay
    let g4 := (g3.memPut (buf + 56) (leBytes 8 s)).memPut cb (leBytes 8 s)
    (g4.bump Reg.RE_PUBLISHED 1).modFl fun f => { f with pub := i :: f.pub }

/-- Flags of the records that a role has formed for a set, with FINAL in bit 8. -/
def Glexon.pubFlags (g : Glexon) (k id gen : Nat) (n : Word) : Nat :=
  let rs := (g.role k).recs.filter fun r => r.wsId.toNat == id && r.wsGen.toNat == gen
  let fin := (g.setsOf k n).any fun s => s.id == id && s.gen == gen && s.final
  rs.foldl (fun a r => a ||| r.flags.toNat) (if (g.role k).part then flagPartial else 0) + (if fin then 256 else 0)

/-! ### Operations (R347) -/

/-- An operation that has formed records writes them at its output address. -/
def reOut (c : EngCtx) (d : List Byte) (g g1 : Glexon) (rs : List Rec) (read : Nat) : EngRes :=
  let l := recsBytes rs
  let out := leAt d 16 8
  if leAt d 24 4 < l.length then xerr g d 4
  else if memRange out l.length = false then xerr g d 2
  else { g := c.write g1 out l false, desc := setW (setW d 44 l.length) 48 0, rd := read, wr := l.length }

/-- REDUCE_CORE (R316 to R322, R327, R331): SET_CORE of every set, and DIGEST_BALANCE. -/
def reCore (c : EngCtx) (d : List Byte) (k : Nat) (n : Word) (g : Glexon) : EngRes :=
  let p := g.plan k n
  let step (acc : List Rec × Glexon) (x : Core0) : List Rec × Glexon :=
    let (rs, h) := acc.2.formRecs k 0x0202 n x.s (p.flags x.flags)
      (x.payloads k p.level (p.noDet.contains x.s.id) (p.noArr.contains x.s.id))
    (acc.1 ++ rs, h)
  let (cores, g1) := p.cores.foldl step ([], g)
  let up := p.kids.filter fun x => x.present
  let fl := p.flags (carried (up.flatMap fun x => x.recs) ||| (if up.length = g.fanIn k then 0 else flagAbsent))
  let (bal, g2) := if bit (g.rd Reg.DG_CTRL) 62 then
      g1.formRecs k 0x0230 n { id := 0, gen := 0, final := false } fl [p.bals.flatMap BalEnt.bytes]
    else ([], g1)
  let rs := cores ++ bal
  let r := reOut c d g (g2.setRecs k (if bal = [] then 2 else 66) [0x0202, 0x0230] rs) rs p.offered
  if r.st = 3 then r
  else
    let h := (r.g.saturate k n p).modRole k fun t =>
      { t with offered := p.offered, folded := p.fold, noDet := decide (p.noDet ≠ []), noArr := decide (p.noArr ≠ []), part := p.part }
    let h1 := if k = 3 then
        p.bals.foldl (fun (h : Glexon) e => h.balanceStep n
          (((p.cores.find? fun x => x.s.id == e.id).map fun x => x.tally.expected).getD 0) e) h
      else h
    { r with g := h1 }

/-- The apex takes in the LONG_SAMPLE entries of LIST fields (R376). -/
def Glexon.seeItems (g : Glexon) (n : Word) (s : SetRef) (es : List FEnt) : Glexon :=
  ((g.specOf s.id).fields.filter fun f => f.op == 11 && f.src.typ == 0x0108 && f.src.at_ == 0
      && decide (8 ≤ f.src.len) && decide (f.src.len + 4 ≤ f.size)).foldl (fun (h : Glexon) f =>
    (es.filter fun e => e.id == f.id && e.op == 11).foldl (fun (h : Glexon) e =>
      (listOf e.data).1.foldl (fun (h : Glexon) x => h.itemSeen (leAt x 0 4) (leAt x f.src.len 4) (leAt x 4 4) n) h) h) g

/-- REDUCE_DETAIL (R323 to R326): SET_DETAIL of every set that has detail fields. -/
def reDetail (c : EngCtx) (d : List Byte) (k : Nat) (n : Word) (g : Glexon) : EngRes :=
  let p := g.plan k n
  let step (acc : List Rec × Glexon) (x : Core0) : List Rec × Glexon :=
    match g.detailOf k n p.kids p.fold x.s with
    | ([], _) => acc
    | (es, fl) =>
      let (rs, h) := acc.2.formRecs k 0x0203 n x.s (p.flags (fl ||| (x.flags &&& flagAbsent)))
        (payloads (pre16 k 0 es.length) (es.map FEnt.bytes))
      (acc.1 ++ rs, h)
  let (rs, g1) := p.cores.foldl step ([], g)
  let r := reOut c d g (g1.setRecs k 4 [0x0203] rs) rs p.offered
  if r.st = 3 ∨ k ≠ 3 then r
  else { r with g := p.cores.foldl (fun (h : Glexon) x => h.seeItems n x.s (g.detailOf k n p.kids p.fold x.s).1) r.g }

/-- REDUCE_ARRIVALS (R335 to R337): ARRIVALS of every set that has instances; the apex merges them into its open table. -/
def reArrivals (c : EngCtx) (d : List Byte) (k : Nat) (n : Word) (g : Glexon) : EngRes :=
  let p := g.plan k n
  let step (acc : List Rec × Glexon) (x : Core0) : List Rec × Glexon :=
    match g.arrivalsOf k n p.kids p.fold x.s with
    | ([], _) => acc
    | (as, fl) =>
      let (rs, h) := acc.2.formRecs k 0x0204 n x.s (p.flags (fl ||| (x.flags &&& flagAbsent)))
        (payloads (pre16 k 0 as.length) (as.map Arrival.bytes))
      (acc.1 ++ rs, h)
  let (rs, g1) := p.cores.foldl step ([], g)
  let r := reOut c d g (g1.setRecs k 8 [0x0204] rs) rs p.offered
  if r.st = 3 ∨ k ≠ 3 then r
  else
    { r with g := p.cores.foldl (fun (h : Glexon) x =>
        let h1 := (g.arrivalsOf k n p.kids p.fold x.s).1.foldl (fun (h : Glexon) a => h.instInto n x.s a) h
        let mine (i : Instance) : Bool := i.set_ == x.s.id && i.gen == x.s.gen
        let h2 := h1.closeInst 1 fun i => mine i && decide (x.tally.expected ≤ leAt i.entry 8 4) && decide (x.tally.expected ≠ 0)
        if x.s.final then h2.closeInst 0 mine else h2) r.g }

/-- A SET_DETAIL or ARRIVALS record coarsened by `l` steps. -/
def coarsenRec (l : Nat) (r : Rec) : Rec :=
  let pre := putAt (r.payload.take 16) 1 (leBytes 1 l)
  let body := r.payload.drop 16
  let fl : Byte := if l = 0 then r.flags else r.flags ||| BitVec.ofNat 8 flagCoarse
  if r.typ = 0x0203 then
    { r with flags := fl, payload := pre ++ (parseEnts 65536 body).flatMap fun e => (FEnt.coarsenBy l e).bytes }
  else if r.typ = 0x0204 then
    { r with flags := fl, payload := pre ++ (parseArrivals 65536 body).flatMap fun a => (a.coarsenBy l).bytes }
  else r

/-- COARSEN (R329): the role's detail and arrivals at a level; at level 7 what still does not fit is dropped. -/
def reCoarsen (c : EngCtx) (d : List Byte) (k : Nat) (n : Word) (g : Glexon) : EngRes :=
  let l := leAt d 30 1
  let p := g.plan k n
  let gone (r : Rec) : Bool := (r.typ == 0x0203 && p.noDet.contains r.wsId.toNat) || (r.typ == 0x0204 && p.noArr.contains r.wsId.toNat)
  let mine := (g.role k).recs.filter fun r => r.typ == 0x0203 || r.typ == 0x0204
  let rs := (mine.filter fun r => l < 7 || !gone r).map (coarsenRec l)
  if 7 < l then xerr g d 1
  else
    let r := reOut c d g ((g.setRecs k 0 [0x0203, 0x0204] rs).modRole k fun t => { t with level := l }) rs (recsBytes mine).length
    if r.st = 3 then r else { r with g := r.g.saturate k n p }

/-- PUBLISH (R338, R339). -/
def rePublish (c : EngCtx) (d : List Byte) (k : Nat) (n : Word) (g : Glexon) : EngRes :=
  let i := leAt d 40 4
  let len := leAt d 24 4
  let src := leAt d 16 8
  match g.image.pairs[i]? with
  | none => xerr g d 1
  | some p =>
    if fld (g.rd Reg.RE_SLOT_COUNT) 0 14 ≤ i then xerr g d 1
    else if p.size < len + 64 then xerr g d 4
    else if memRange src len = false ∨ memRange ((g.rd Reg.RE_SLOT_BASE).toNat + pairOff g.image.pairs i) (64 + 2 * p.size) = false then
      xerr g d 2
    else if g.fl.pub.contains i then xerr g d 5
    else
      let (l, bad, g1) := c.read g src len
      if bad then { g := g1, desc := setW d 48 3, st := 2, rd := len }
      else
        let g2 := (g1.publish i n (g1.pubFlags k p.set_ p.gen n) l).modRole k fun t => { t with stages := t.stages ||| 128 }
        { g := g2, desc := setW (setW d 44 len) 48 0, rd := len, wr := len }

/-- An operation of the Reduction Engine: codes 1 to 5 of Table 11.14. -/
def reOp (c : EngCtx) (code : Nat) (d : List Byte) (g : Glexon) : EngRes :=
  let k := leAt d 29 1
  let n := word (leAt d 32 8)
  if bit (g.rd Reg.RE_CTRL) 63 = false then xoff g d 0
  else if leAt d 28 1 ≠ code ∨ 3 < k ∨ zeros d 31 32 = false ∨ zeros d 52 64 = false ∨ g.roleActive k = false then xerr g d 1
  else if code = 1 then reCore c d k n g
  else if code = 2 then reDetail c d k n g
  else if code = 3 then reArrivals c d k n g
  else if code = 4 then reCoarsen c d k n g
  else rePublish c d k n g

/-! ### Upward (R29, R306, R332) -/

/-- A role's ROLE_SUMMARY (Table 11.7), with what it has formed, leaves at the work deadline; a parent on this Glexon takes
its records from record memory. -/
def Glexon.releaseRole (g : Glexon) (k : Nat) (overran : Bool) : Glexon :=
  let n := g.tk.tickNo - BitVec.ofNat 64 (1 + k)
  let p := g.plan k n
  let t := g.role k
  let mark (r : Rec) : Rec := if overran then { r with flags := r.flags ||| BitVec.ofNat 8 flagPartial } else r
  let recs := t.recs.map mark
  let up := p.kids.filter fun x => x.present
  let sums := up.flatMap fun x => x.recs.filter fun r => r.typ == 0x0201
  let add (o : Nat) : Nat := (sums.map fun r => leAt r.payload o 4).sum
  let unobs := if k = 0 then (p.kids.filter fun x => !x.present && g.unobserved x.who).length else add 32
  let sent := (recs.map Rec.size).sum + 104
  let fl := p.flags (carried (up.flatMap fun x => x.recs) ||| (if up.length = g.fanIn k then 0 else flagAbsent)
    ||| (if overran then flagPartial else 0))
  let pay := leBytes 1 k ++ leBytes 1 t.level ++ leBytes 2 ((t.stages ||| 1) + (if overran then 0 else 272 + (if k = 0 then 32 else 0)))
    ++ leBytes 4 (g.fanIn k) ++ leBytes 4 up.length ++ leBytes 4 (g.fanIn k - up.length) ++ leBytes 4 p.fold.length
    ++ leBytes 4 (p.cores.length) ++ leBytes 4 (add 24 + overran.toNat) ++ leBytes 4 (add 28 + t.sat.toNat) ++ leBytes 4 unobs
    ++ leBytes 4 recs.length ++ leBytes 8 p.offered ++ leBytes 8 sent ++ leBytes 8 0
  let g0 := g.modRole k fun t => { t with recs := recs, done := true, part := t.part || overran }
  if g0.indexValid = false then g0
  else
    let (r, g1) := g0.newRec k 0x0201 10 n 0 0 fl pay
    if k = 3 then g1
    else if g1.localUp k then
      (recs ++ [r]).foldl (fun (h : Glexon) x => h.childIn (k + 1) (g.childPos k) x false) g1
    else g1.upward k r

end Sys2Proof.Machine
end

