-- ==== Sys2Proof/Machine/Compress.lean ====
section
/-! DEFINITION. Compression Engine operations (chapter 16). -/

namespace Sys2Proof.Machine

/-- Bytes of a state area (R442). -/
def ceArea : Nat := 245760

/-- The stream kept for a state address. -/
def Glexon.stream (g : Glexon) (a : Nat) : CeStream := SMap.get .none g.ce a

/-- The kind of a stream as bytes 0 to 7 of its state area hold it (R442). -/
def CeStream.kind : CeStream → Nat
  | .none => 0
  | .deflate _ => 1
  | .inflate _ _ => 2
  | .done => 3

/-- The entries of a chain table: buffer address and length (R441). -/
def chainOf (l : List Byte) : List (Nat × Nat) := (chunks 16 (l.length / 16) l).map fun e => (leAt e 0 8, leAt e 8 4)

/-- The pieces of an output, in chain order (R441). -/
def spread : List (Nat × Nat) → List Byte → List (Nat × List Byte)
  | [], _ => []
  | (a, n) :: r, l => (a, l.take n) :: spread r (l.drop n)

/-- Is the descriptor within Table 16.1? -/
def ceDescOk (code : Nat) (d : List Byte) : Bool :=
  let fl := leAt d 14 1
  let cl := leAt d 40 2
  decide (leAt d 8 4 ≤ 16777216) && decide (leAt d 12 1 = code) && decide (leAt d 13 1 ≤ if code = 1 then 3 else 0)
    && decide (fl < 8) && decide (fl / 2 ≠ 3) && zeros d 15 16 && decide (1 ≤ leAt d 32 1) && decide (leAt d 32 1 ≤ 16)
    && zeros d 33 36 && decide (1 ≤ leAt d 36 4) && zeros d 42 44
    && (if code = 1 then decide (1 ≤ cl) && decide (cl ≤ 4096) else decide (cl = 0))

/-- What a stream operation answers: status, output, input bytes consumed, the stream after it. -/
structure CeRes where
  status : Nat
  out    : List Byte
  used   : Nat
  st     : CeStream
  blocks : Nat := 0
  deriving DecidableEq, Repr

/-- DEFLATE on a stream (R444 to R447). -/
def ceDeflate (d : List Byte) (st : CeStream) (input : List Byte) (cap : Nat) : CeRes :=
  let s : DefStream := match st with
    | .deflate s => s
    | _ => {}
  let r := deflateOp s input (leAt d 13 1) (leAt d 14 1 / 2) (leAt d 40 2) cap
  { status := if r.full then 5 else 0, out := r.out, used := r.consumed,
    st := if r.st.final ∧ r.st.held = [] then .done else .deflate r.st }

/-- INFLATE on a stream (R448, R449): the bytes consumed before decode again to the place the state keeps. -/
def ceInflate (st : CeStream) (input : List Byte) (cap : Nat) : CeRes :=
  let (before, given) : List Byte × Nat := match st with
    | .inflate l k => (l, k)
    | _ => ([], 0)
  let r := inflateAll (before ++ input) (given + cap)
  { status := r.status, out := r.out.drop given, used := r.consumed - before.length,
    st := if r.status = 6 ∨ r.status = 7 then .inflate ((before ++ input).take (max before.length r.consumed)) r.out.length
          else .done, blocks := r.blocks }

/-- The bound of R451 on an operation's xe_clk cycles. -/
def ceCycles (code : Nat) (d : List Byte) (r : CeRes) : Nat :=
  if code = 1 then 2000 + r.used * ((leAt d 40 2 + 7) / 8) + (r.out.length + 15) / 16
  else 2000 + (r.out.length + 7) / 8 + (r.used + 3) / 4 + 600 * r.blocks

/-- Counts a completion: by status, and for CE_STAT. The cycles an operation takes are a free value within R451's bound. -/
def Glexon.ceCount (g : Glexon) (status bound : Nat) : Glexon :=
  let (f, g1) := g.fresh
  let g2 := if status = 0 then g1 else g1.bump (Reg.CE_STATUS_CNT status) 1
  { g2 with ceTick := (g2.ceTick.1 + 1, g2.ceTick.2 + min bound (Config.freeWord f 0).toNat) }

/-- A rejected operation. -/
def ceReject (g : Glexon) (d : List Byte) (status : Nat) : EngRes := xerr (g.ceCount status 2000) d status

/-- The descriptor's fields that the engine writes (Table 16.1). -/
def ceWrites (d : List Byte) (status used : Nat) (out : List Byte) : List Byte :=
  putAt (setW (setW (setW d 44 used) 48 status) 52 out.length) 56 (leBytes 8 (crc64 out))

/-- An operation whose ranges hold: input read, stream carried on, buffers filled, state and counts written. -/
def ceRun (c : EngCtx) (code : Nat) (d chain : List Byte) (cap : Nat) (st : CeStream) (g : Glexon) : EngRes :=
  let sa := leAt d 16 8
  let ca := leAt d 24 8
  let (input, badIn, g1) := c.read g (leAt d 0 8) (leAt d 8 4)
  let badAll := badIn || g1.poisoned ca chain.length || (!bit (BitVec.ofNat 8 (leAt d 14 1)) 0 && g1.poisoned sa ceArea)
  if badAll then
    { g := g1.ceCount 3 2000, desc := ceWrites d 3 0 [], st := 2, rd := leAt d 8 4 }
  else
    let r := if code = 1 then ceDeflate d st input cap else ceInflate st input cap
    let bufs := spread (chainOf chain) r.out
    let g2 : Glexon := bufs.foldl (fun (h : Glexon) (e : Nat × List Byte) =>
      if e.2 = [] then h
      else if overlap e.1 e.2.length (leAt d 0 8) (leAt d 8 4) ∨ overlap e.1 e.2.length sa ceArea
          ∨ overlap e.1 e.2.length ca chain.length then
        let (f, h1) := h.fresh
        c.write h1 e.1 (freeBytes f e.2.length) false
      else c.write h e.1 e.2 false) g1
    let g3 : Glexon := (List.range bufs.length).foldl (fun (h : Glexon) i =>
      c.write h (ca + 16 * i + 12) (leBytes 4 ((bufs.getD i (0, [])).2.length)) false) g2
    let g4 := (c.write g3 sa (leBytes 8 r.st.kind) false).heal sa ceArea
    let g5 : Glexon := { g4 with ce := SMap.put .none g4.ce sa (if c.o.spoilt then .none else r.st) }
    let g6 := ((g5.bump Reg.CE_BYTES_IN r.used).bump Reg.CE_BYTES_OUT r.out.length).ceCount r.status (ceCycles code d r)
    { g := g6, desc := ceWrites d r.status r.used r.out, rd := leAt d 8 4, wr := r.out.length }

/-- An operation of the Compression Engine (R440 to R450): code 1 DEFLATE, 2 INFLATE. -/
def ceOp (c : EngCtx) (code : Nat) (d : List Byte) (g : Glexon) : EngRes :=
  let sa := leAt d 16 8
  let ca := leAt d 24 8
  let chain := memBytes g.mem ca (16 * leAt d 32 1)
  let isNew := bit (BitVec.ofNat 8 (leAt d 14 1)) 0
  if bit (g.rd Reg.CE_CTRL) 63 = false then xoff g d 3
  else if ceDescOk code d = false then ceReject g d 1
  else if memRange (leAt d 0 8) (leAt d 8 4) = false ∨ sa % 64 ≠ 0 ∨ memRange sa ceArea = false ∨ ca % 16 ≠ 0
      ∨ memRange ca chain.length = false then ceReject g d 2
  else if g.poisoned ca chain.length = false ∧ (chainOf chain).any (fun e => e.2 = 0) then ceReject g d 1
  else if g.poisoned ca chain.length = false ∧ (chainOf chain).any (fun e => memRange e.1 e.2 = false) then ceReject g d 2
  else if isNew = false ∧ g.poisoned sa ceArea = false ∧ memNat g.mem sa 8 ≠ code then ceReject g d 4
  else
    let kept := if isNew then .none else g.stream sa
    ceRun c code d chain (min (leAt d 36 4) ((chainOf chain).map fun e => e.2).sum) kept g

end Sys2Proof.Machine
end

