-- ==== Sys2Proof/Machine/Xop.lean ====
section
/-! DEFINITION. XOP on each shared engine and on the Remote Memory Engine: issue, begin, completion (R234, R245). -/

namespace Sys2Proof.Machine

/-! ### Issue -/

/-- REDUCE_CORE. -/
def execReduceCore (o : SlotOp) (s : State) : Answer := slotCmd (fXop 0 1) semXop o s
/-- REDUCE_DETAIL. -/
def execReduceDetail (o : SlotOp) (s : State) : Answer := slotCmd (fXop 0 2) semXop o s
/-- REDUCE_ARRIVALS. -/
def execReduceArrivals (o : SlotOp) (s : State) : Answer := slotCmd (fXop 0 3) semXop o s
/-- COARSEN. -/
def execCoarsen (o : SlotOp) (s : State) : Answer := slotCmd (fXop 0 4) semXop o s
/-- PUBLISH. -/
def execPublish (o : SlotOp) (s : State) : Answer := slotCmd (fXop 0 5) semXop o s
/-- SCORE. -/
def execScore (o : SlotOp) (s : State) : Answer := slotCmd (fXop 1 1) semXop o s
/-- FEAT_UPDATE. -/
def execFeatUpdate (o : SlotOp) (s : State) : Answer := slotCmd (fXop 1 2) semXop o s
/-- CRC64. -/
def execCrc64 (o : SlotOp) (s : State) : Answer := slotCmd (fXop 2 1) semXop o s
/-- CRC32C. -/
def execCrc32c (o : SlotOp) (s : State) : Answer := slotCmd (fXop 2 2) semXop o s
/-- M61_DIGEST. -/
def execM61Digest (o : SlotOp) (s : State) : Answer := slotCmd (fXop 2 3) semXop o s
/-- CRC64_VERIFY. -/
def execCrc64Verify (o : SlotOp) (s : State) : Answer := slotCmd (fXop 2 0x11) semXop o s
/-- CRC32C_VERIFY. -/
def execCrc32cVerify (o : SlotOp) (s : State) : Answer := slotCmd (fXop 2 0x12) semXop o s
/-- M61_VERIFY. -/
def execM61Verify (o : SlotOp) (s : State) : Answer := slotCmd (fXop 2 0x13) semXop o s
/-- DEFLATE. -/
def execDeflate (o : SlotOp) (s : State) : Answer := slotCmd (fXop 3 1) semXop o s
/-- INFLATE. -/
def execInflate (o : SlotOp) (s : State) : Answer := slotCmd (fXop 3 2) semXop o s
/-- RM_WRITE. -/
def execRmWrite (o : SlotOp) (s : State) : Answer := slotCmd (fXop 4 1) semXop o s
/-- RM_READ. -/
def execRmRead (o : SlotOp) (s : State) : Answer := slotCmd (fXop 4 2) semXop o s
/-- RM_FETCH_ADD. -/
def execRmFetchAdd (o : SlotOp) (s : State) : Answer := slotCmd (fXop 4 3) semXop o s
/-- RM_CMP_SWAP. -/
def execRmCmpSwap (o : SlotOp) (s : State) : Answer := slotCmd (fXop 4 4) semXop o s

/-! ### Begin -/

/-- A Remote Memory operation of core `n` starts by its descriptor; one that does not start has its status at once. -/
def Glexon.rmXop (g : Glexon) (n : Nat) (o : EngOp) (a code : Nat) (ecc : Ecc) : Glexon :=
  let (st, g1) := g.rmStart (some (n, o.tag)) code a (o.data.take 64) ecc
  if st = 0 then (if code = 1 then g1.modCore n fun k => { k with posted := k.posted + 1 } else g1)
  else ((g1.busWrite (some (n, o.tag)) (a + 48) (leBytes 4 st)).count 2 4 2 1).markOp n o.tag (decide (st ≠ 3)) (decide (st = 3))

/-- What a shared operation that has begun does at once: the Compression Engine reads its chain table (R441), the Remote Memory
Engine starts what is no WRITE (R430). -/
def Glexon.xopBegun (g : Glexon) (n i : Nat) (o : EngOp) : Glexon :=
  match o.kind with
  | .xop a code =>
    if o.bad then g
    else if o.eng = 3 then
      let ca := leAt o.data 24 8
      let len := 16 * leAt o.data 32 1
      if memRange ca len then g.setOp n i { o with data := o.data.take 64 ++ memBytes g.mem ca len } else g
    else if o.eng = 4 ∧ code ≠ 1 then g.rmXop n o a code .ok
    else g
  | _ => g

/-- ENGINE_OP_BEGIN (R234): the oldest waiting operation of a queue of a core begins. -/
def execEngineOpBegin (core : BitVec 5) (q : EngQueue) (s : State) : Answer :=
  onCore (fun g =>
    let n := core.toNat
    let i := ((g.settle n).core n).ops.findIdx fun o => o.q = q && !o.begun
    let g1 := g.engineBegin n q
    match q, (g1.core n).ops[i]? with
    | .shared e, some o => if o.q = q ∧ o.begun then (g1.count 2 e.toNat 0 1).xopBegun n i o else g1
    | _, _ => g1) s

/-! ### Completion -/

/-- The counter of descriptors that an engine has completed with XERR. -/
def Glexon.countXerr (g : Glexon) (eng : Nat) : Glexon :=
  if eng = 0 then g.bump Reg.RE_XOP_ERR 1 else if eng = 1 then g.bump Reg.ES_XOP_ERR 1 else if eng = 2 then g.bump Reg.DG_XOP_ERR 1
  else if eng = 3 then g.bump Reg.CE_XOP_ERR 1 else g

/-- A Remote Memory operation completes: a WRITE when its source has been read, the others when nothing of them is outstanding. -/
def Glexon.rmDone (g : Glexon) (n i : Nat) (o : EngOp) (a code : Nat) (ecc : Ecc) : Glexon :=
  let fin (h : Glexon) : Glexon :=
    match (h.core n).ops[i]? with
    | some x => h.endOp n i (if x.bad then 2 else if x.err then 3 else 0)
    | none => h
  if code = 1 then fin (if o.bad then g else g.rmXop n o a code ecc)
  else if g.rm.qps.any fun e => e.2.ops.any fun r => decide (r.owner = .core n o.tag) && decide (r.code ≠ 1) then g
  else fin g

/-- XOP_COMPLETE (R245): the oldest operation of a core in a shared engine's queue completes; its descriptor is written. -/
def execXopComplete (core : BitVec 5) (eng : BitVec 3) (ecc : Ecc) (s : State) : Answer :=
  onCore (fun g =>
    let n := core.toNat
    let e := eng.toNat
    match (g.core n).oldest (.shared eng) with
    | some (i, o) =>
      match o.kind with
      | .xop a code =>
        if e = 4 then g.rmDone n i o a code ecc
        else if o.bad then g.endOp n i 2
        else
          let c : EngCtx := { n := n, o := o, ecc := ecc }
          let d := o.data.take 64
          let r := if e = 0 then reOp c code d g else if e = 1 then esOp c code d g else if e = 2 then dgOp c code d g
            else ceOp c code d g
          let g1 := (c.write r.g a r.desc false).endOp n i r.st
          let g2 := if r.st = 3 then (g1.count 2 e 2 1).countXerr e else g1
          let g3 := (g2.count 2 e 3 r.rd).count 2 e 4 r.wr
          if e = 1 then g3.modEs fun x => { x with xops := x.xops + 1 } else g3
      | _ => g
    | none => g) s

end Sys2Proof.Machine
end

