-- ==== Sys2Proof/Machine/Boundary.lean ====
section
/-! DEFINITION. A boundary of the Glexon in the order of R190, the work deadline (R22), and the provisional boundary (R494). -/

namespace Sys2Proof.Machine

/-! ### The work deadline (R5, R17, R22, R228, R332) -/

/-- The longest front part of a list of records that fits `n` bytes. -/
def fitRecs (n : Nat) : List Rec → List Rec
  | [] => []
  | r :: l => if Rec.size r ≤ n then r :: fitRecs (n - Rec.size r) l else []

/-- Publishes records in slot pair `i` for data tick `n`, as many as fit, unless the pair has been published in this tick; the
number published. -/
def Glexon.publishRecs (g : Glexon) (i : Option Nat) (n : Word) (rs : List Rec) : Nat × Glexon :=
  match i with
  | none => (0, g)
  | some i =>
    match g.image.pairs[i]? with
    | none => (0, g)
    | some p =>
      let l := fitRecs (p.size - 64) rs
      if l = [] ∨ g.fl.pub.contains i ∨ fld (g.rd Reg.RE_SLOT_COUNT) 0 14 ≤ i
          ∨ memRange ((g.rd Reg.RE_SLOT_BASE).toNat + pairOff g.image.pairs i) (64 + 2 * p.size) = false then (0, g)
      else (l.length, g.publish i n (l.foldl (fun a r => a ||| r.flags.toNat) 0) (recsBytes l))

/-- The apex publishes the arrival instances that have closed, one ARRIVALS record each (R337). -/
def Glexon.publishClosed (g : Glexon) (n : Word) : Glexon :=
  if g.indexValid = false ∨ g.image.arrPair = none ∨ g.fl.closed = [] then g
  else
    let step (acc : List Rec × Glexon) (i : Instance) : List Rec × Glexon :=
      let (r, h) := acc.2.newRec 3 0x0204 10 n i.set_ i.gen (if (g.role 3).part then flagPartial else 0) (pre16 3 0 1 ++ i.entry)
      (acc.1 ++ [r], h)
    let (rs, g1) := g.fl.closed.foldl step ([], g)
    let (m, g2) := g1.publishRecs g.image.arrPair n rs
    g2.modFl fun f => { f with closed := f.closed.drop m }

/-- Cores of which ABORTMASK shows the bit work for the role (R228). -/
def Glexon.roleAborted (g : Glexon) (k : Nat) : Bool := SMap.get 0 g.variant.roleMap k &&& g.abortMask.toNat != 0

/-- Role `k` ends its tick: what its sequences and instances have come to is told, an overrun is counted, and its summary
leaves. -/
def Glexon.roleDeadline (g : Glexon) (k : Nat) : Glexon :=
  let n := g.tk.tickNo - BitVec.ofNat 64 (1 + k)
  let beyond := g.roleAborted k
  let g1 := g.seqScores k n
  let g2 := if k = 3 then g1.publishClosed n else g1
  let g3 := (g2.publishRecs (SMap.get none g2.image.alarmPair k) n (g2.role k).alarms).2
  let g4 := if beyond then (g3.bump (Reg.RE_ROLE_OVERRUN k) 1).event 0x0510 24 [word k, g3.tk.tickNo] else g3
  g4.releaseRole k beyond

/-- WORK_DEADLINE (R22): cores that still work abort, and every active role releases what it has, the lowest level first. -/
def execWorkDeadline (s : State) : Answer :=
  onCore (fun g =>
    if g.tk.ticking = false then g
    else
      (List.range 4).foldl (fun (h : Glexon) k => if h.roleOn k ∧ (h.role k).done = false then h.roleDeadline k else h)
        g.coresDeadline) s

/-! ### The tick that ends -/

/-- The increases of the Tap ports' loss counters over the tick. -/
def Glexon.lossTick (g : Glexon) : Glexon :=
  let now : List (Nat × Nat) := (List.range 256).map fun i => (i, (g.rd (Reg.TP_LOSS_INDIGO (i / 4) + 8 * (i % 4))).toNat)
  g.modFl fun f =>
    { f with lossInc := now.foldl (fun m x => SMap.put 0 m x.1 (x.2 - SMap.get 0 f.lossAt x.1)) f.lossInc,
             lossAt := now.foldl (fun m x => SMap.put 0 m x.1 x.2) f.lossAt }

/-- Greyouts and Blackouts that take effect at this boundary write their events (R415). -/
def Glexon.tellApplied (g : Glexon) : Glexon :=
  let l := g.ts.applied
  l.foldl (fun (h : Glexon) x =>
    let (grey, target, mask, rate) := x
    if grey then h.event 0x0325 30 [word target, word mask, word rate] else h.event 0x0326 30 [word target, word mask])
    { g with ts := { g.ts with applied := [] } }

/-- Writes that the hardware refused firmware in the tick are told (R474). -/
def Glexon.tellAuth (g : Glexon) : Glexon :=
  let (n, a) := g.mg.auth
  if n = 0 then g else { (g.event 0x0708 31 [word a, word n]) with mg := { g.mg with auth := (0, 0) } }

/-- The tick in progress ends: the cores stop, accounts and counts close. -/
def Glexon.endTick (g : Glexon) (b : BoundaryIn) : Glexon :=
  let g1 := ((g.coresDeadline.collTick.epClose b).esTickEnd.lossTick.tellApplied.tellAuth)
  let g2 := g1.wr Reg.CE_STAT (word (satN 32 g1.ceTick.1 * 2 ^ 32 + satN 32 g1.ceTick.2))
  { g2 with ceTick := (0, 0), mg := { g2.mg with energy := 0 } }

/-! ### The instant (R58 to R62, R510) -/

/-- The first boundary of a Glexon that is LOCKED and holds an epoch (R60): its values, once a change that is due has been
taken, and its number. -/
def Glexon.firstTick (g : Glexon) : Glexon × Word :=
  let late (h : Glexon) : Nat := max h.tk.startAt h.nowNs
  let g1 := match g.tk.pend with
    | some x => { g.adoptEpoch with tk := { g.adoptEpoch.tk with startAt := max g.tk.startAt x.at_, next := none } }
    | none => g
  let k := (firstBoundary g1.tk.epoch g1.tk.period (late g1)).1
  if g1.tk.pchg ≠ 0 ∧ g1.changeAt ≤ k then
    let g2 := g1.changePeriod
    (g2, word (firstBoundary g2.tk.epoch g2.tk.period (late g2)).1)
  else (g1, word k)

/-- The next boundary of a Glexon that is ticking: an epoch change that is due takes effect, or the period change named for it
(R58, R61, R62). -/
def Glexon.nextTick (g : Glexon) : Glexon × Word :=
  let due : Bool := match g.tk.pend with
    | some x => x.stop || decide (x.at_ ≤ g.boundNs (g.tk.tickNo + 1))
    | none => false
  let g1 := if due then g.adoptEpoch else if g.changeDue ∧ g.tk.next = none then g.changePeriod else g
  (g1, g1.tk.next.getD (g1.tk.tickNo + 1))

/-- The local clock comes to the boundary's instant, and core_clk with it. -/
def Glexon.toInstant (g : Glexon) (ns : Nat) : Glexon :=
  let d := ns - g.nowNs
  { g with tk := { g.tk with clk := max g.tk.clk (ns * nsUnit) }, coreClk := g.coreClk + d * 36 / 5 }

/-- The Time Keeper takes boundary `n` (R60, R73, R502): TK_TICKNO reads n. -/
def Glexon.tickIs (g : Glexon) (n : Word) : Glexon :=
  let hold := g.holding
  let g1 : Glexon := { g with tk := { g.tk with
      ticking := true, tickNo := n, next := none, holdTick := hold,
      capt := g.tk.capt.map fun e => (e.1, { e.2 with told := false }) } }
  let g2 := if hold then g1.bump Reg.TK_HOLD_TICKS 1 else g1
  if n.toNat % 65536 = 0 then g2.event 0x010B 34 [n] else g2

/-! ### What the pulse brings (R16, R32, R190) -/

/-- Is an address one of TS_GATE_e? -/
def isGate (a : Nat) : Bool := decide (Reg.TS_GATE 0 ≤ a) && decide (a < Reg.TS_GATE 64)

/-- RWT values take effect (R16). A gate list that is invalid does not (R406); a slot given a FAN_IN outside its level's range
stays inactive (R32). -/
def Glexon.rwtBoundary (g : Glexon) (n : Word) : Glexon :=
  let l := (List.range 64).map fun e => g.rwtRd (Reg.TS_GATE e)
  let gates := g.rwt.any fun e => isGate e.1
  let ok := gateOk l
  let g1 : Glexon := g.rwt.foldl (fun (h : Glexon) e => match e.2 with
    | some v => if isGate e.1 ∧ ok = false then h else h.wr e.1 v
    | none => h) { g with rwt := [] }
  let g2 := if gates ∧ ok = false then
      (g1.wr Reg.TS_GATE_STAT (putBit (g1.rd Reg.TS_GATE_STAT) 63 true)).event 0x0323 30 [n, word (gateN l)]
    else g1
  let g3 := g2.wr Reg.TS_GATE_STAT (putFld (g2.rd Reg.TS_GATE_STAT) 0 6 (gateN g2.gateList % 64))
  (List.range 4).foldl (fun (h : Glexon) k =>
    match SMap.get none g.rwt (Reg.RE_ROLE_CFG k) with
    | some v => if bit v 63 ∧ roleOk k v = false then h.event 0x0511 24 [word k, v] else h
    | none => h) g3

/-- Alive counters of the roles (R306): `d` is how far the tick number has moved; a slot that becomes active starts at 0. -/
def Glexon.aliveBoundary (g : Glexon) (was : List Nat) (d : Word) : Glexon :=
  (List.range 4).foldl (fun (h : Glexon) k =>
    if h.roleOn k = false then h
    else
      let a := if was.contains k then SMap.get 0 h.fl.alive k + BitVec.setWidth 16 d else 0
      h.modFl fun f => { f with alive := SMap.put 0 f.alive k a }) g

/-- Each role freezes its input and begins anew; records of data ticks already reduced are let go (R43). -/
def Glexon.rolesBegin (g : Glexon) (n : Word) : Glexon :=
  let part := decide (g.mg.partAt = some n)
  g.modFl fun f => { f with
    told := [], peers := [], pub := [], rwTick := (0, 0, 0),
    roles := (List.range 4).foldl (fun (m : SMap RoleTick) k =>
      SMap.put {} m k { part := part, satPrev := (SMap.get {} f.roles k).sat }) [],
    ing := (List.range 4).foldl (fun (m : SMap (List Ing)) k =>
      SMap.put [] m k ((SMap.get [] f.ing k).filter fun i => decide (n.toNat ≤ i.tick.toNat + 1 + k))) [] }

/-- A TICK block is queued on every port that is UP (R159). -/
def Glexon.tickBlocks (g : Glexon) : Glexon :=
  { g with ports := g.ports.map fun e => (e.1, { e.2 with tickDue := e.2.tickDue || e.2.up }) }

/-- Queue pairs at a boundary (R435, R439). -/
def Glexon.qpsBoundary (g : Glexon) : Glexon :=
  { g with rm := { g.rm with qps := g.rm.qps.map fun e => (e.1, { e.2 with told := false, gap := true }) } }

/-- The first tick after bring-up or a stop (R492, R511). -/
def Glexon.begun (g : Glexon) (n : Word) : Glexon :=
  let g1 := (g.buDone 8).buEnter 8 0
  if g.mg.rejoin then
    { (g1.event 0x0547 31 [n]) with mg := { g1.mg with rejoin := false, partAt := some n } }
  else g1

/-- What the pulse of boundary `n` brings to every block. `was`: the slots active in the tick before; `last`: the tick that
ended, `none` at a first boundary. -/
def Glexon.pulseTo (g : Glexon) (was : List Nat) (last : Option Word) (prev n : Word) : Glexon :=
  let sel := g.rwt.any fun e => decide (Reg.OB_SEL 0 ≤ e.1) && decide (e.1 < Reg.OB_SEL 256)
  let g1 := (g.gatesDue n).rwtBoundary n
  let g2 := if g1.imageDue n then g1.imageSwap (word (fld (g1.rd Reg.MG_IMG_ACT) 0 63)) else g1
  let g3 := (((g2.obsSources sel).esActivate n).aliveBoundary was (n - prev)).rolesBegin n
  let g4 := match last with
    | some m => g3.auBoundary m
    | none => g3
  let g5 := (((g4.wsFree n).wsBoundary n).wsDecide n).keyBoundary n
  let g6 := ((g5.selectVariant.coresAtBoundary.gateEntry 0).tickBlocks.qpsBoundary).sendBeacon
  let g7 := if g6.roleOn 0 then g6.rwIndex else g6
  { g7.epBegin with pulse := g7.coreClk / 4 }

/-- The full boundary of a Glexon whose core domain runs. -/
def Glexon.boundary (g : Glexon) (b : BoundaryIn) : Glexon :=
  let prev := g.tk.tickNo
  let was := (List.range 4).filter fun k => g.roleOn k
  if g.tk.ticking then
    if g.tk.lost then g
    else
      let (g1, n) := (g.endTick b).nextTick
      let adopted := decide (g1.tk.next ≠ none)
      let g2 := ((g1.toInstant (g1.boundNs n)).obsSnap n b.obs).tickIs n
      let g3 : Glexon := if adopted then { g2 with mg := { g2.mg with partAt := some n } } else g2
      g3.pulseTo was (some prev) prev n
  else if g.tk.mode = .locked ∧ g.tk.hasEpoch then
    let (g1, n) := g.firstTick
    let g2 := ((g1.toInstant (g1.boundNs n)).obsSnap n b.obs).tickIs n
    let g3 : Glexon := if g.tk.pend ≠ none then { g2 with mg := { g2.mg with partAt := some n } } else g2
    (g3.begun n).pulseTo was none prev n
  else g

/-- A boundary in thermal halt (R462): the Time Keeper alone runs on. -/
def Glexon.haltBoundary (g : Glexon) : Glexon :=
  if g.tk.ticking ∧ g.tk.lost = false then
    let (g1, n) := g.nextTick
    (g1.toInstant (g1.boundNs n)).tickIs n
  else g

/-- GLEXON_BOUNDARY (R190). -/
def execGlexonBoundary (b : BoundaryIn) (s : State) : Answer :=
  onTk (fun g => if g.coreUp then g.boundary b else g.haltBoundary) s

/-- PROVISIONAL_BOUNDARY (R494): a LOCKED Glexon that is not ticking begins its gate list at the next whole millisecond. -/
def execProvisionalBoundary (s : State) : Answer :=
  onCore (fun g =>
    if g.tk.ticking = false ∧ g.tk.mode = .locked then
      (g.toInstant ((g.nowNs + 999999) / 1000000 * 1000000)).gateEntry 0
    else g) s

end Sys2Proof.Machine
end

