-- ==== Sys2Proof/Machine/Access.lean ====
section
/-! DEFINITION. Writes of the Glexon's registers that no command of their own spells (R14, R51, R179 to R181, R474, R475). -/

namespace Sys2Proof.Machine

/-- A write in the MG block: by the access code, with the registers that start something (R455). -/
def Glexon.mgWrite (g : Glexon) (a : Nat) (v : Word) : Glexon :=
  if a = Reg.MG_WDOG_KICK then g.kick
  else if a = Reg.MG_RESTART then g.restartWrite v
  else g.plainWrite a v

/-- A register that holds fuses (Table 6.8). -/
def isFused (a : Nat) : Bool := a == Reg.ID_CHIP || a == Reg.ID_SERIAL || a == Reg.ID_CAPS || a == Reg.ID_ECID

/-- A write that the PCIe endpoint drops (R181). -/
def Glexon.pcieDrop (g : Glexon) : Glexon := g.bump Reg.ID_PCIE_DROP 1

/-- An access of an agent that is no core to an address where nothing is (R179). -/
def Glexon.badAddr (g : Glexon) (agent : Nat) : Glexon :=
  g.wr Reg.ID_BADADDR (putFld (satFld (g.rd Reg.ID_BADADDR) 32 32 1) 24 6 agent)

/-- May firmware write the bytes of record memory there (Table 17.10)? The rewind ring and the active image half are refused. -/
def Glexon.fwMay (g : Glexon) (a : Nat) : Bool :=
  !(decide (a + 8 > 0x001000000000) && decide (a < 0x001C00000000))
    && !(decide (a + 8 > g.activeAt) && decide (a < g.activeAt + 0x10000000))

/-- A write of 8 bytes at an address outside the MG block, by an agent that is no core. -/
def Glexon.agentWrite (g : Glexon) (agent a : Nat) (v : Word) : Glexon :=
  match addrKind a with
  | .csr =>
    if agent = 35 then g.pcieDrop
    else if agent = 31 ∧ isFused a then g.authRefused a
    else g.csrWrite agent a v
  | .hbm =>
    if agent = 35 then g.pcieDrop
    else if agent = 31 ∧ g.fwMay a = false then g.authRefused a
    else if memRange a 8 then g.busWrite none a (leBytes 8 v.toNat)
    else g.badAddr agent
  | .sram _ => if agent = 35 then g.pcieDrop else if agent = 31 then g else if memRange a 8 then g.busWrite none a (leBytes 8 v.toNat) else g.badAddr agent
  | .none => if agent = 35 then g.pcieDrop else g.badAddr agent

/-- REGISTER_WRITE (R14): a write of 8 bytes by an agent; the MG block is in the management domain. Cores reach neither the MG
nor the ID block (R216), and an unmapped address has no effect (R179). -/
def execRegisterWrite (agent : BitVec 6) (addr : BitVec 48) (data : Word) (s : State) : Answer :=
  let a := addr.toNat
  let n := agent.toNat
  if 0x80E00000 ≤ a ∧ a < 0x80F00000 then onMgmt (fun g => if n < 24 then g else g.mgWrite (a / 8 * 8) data) s
  else
    onCore (fun g =>
      if 24 ≤ n then g.agentWrite n (a / 8 * 8) data
      else if addrKind a = .csr ∧ a < 0x80F00000 then g.csrWrite n (a / 8 * 8) data
      else g) s

/-- TK_STEP (R51). -/
def execTkStep (agent : BitVec 6) (v : Word) (s : State) : Answer := onCore (fun g => g.writeStep agent.toNat v) s

/-- TK_SLEW (R51). -/
def execTkSlew (v : Word) (s : State) : Answer := onCore (fun g => g.writeSlew v) s

end Sys2Proof.Machine
end

