-- ==== Sys2Proof/Machine/Pldm.lean ====
section
/-! DEFINITION. MCTP control and PLDM messages that firmware answers (R473). PRESUMED: the message layouts of DMTF DSP0236, DSP0240
and DSP0248, which the spec names and does not print. -/

namespace Sys2Proof.Machine

/-- Firmware's answer to an MCTP message: the message bytes from the message type on, or `none` for one that the command does not
fit. They go unanswered while no firmware runs. -/
def onMctp (f : Glexon → Option (List Byte × Glexon)) (s : State) : Answer :=
  onMgmt (fun g =>
    if g.fwOn = false then g
    else match f g with
      | some (l, g1) => g1.modMg fun m => { m with reply := l }
      | none => g) s

/-- An MCTP control request `cmd`: message type 0, request bit; `f`: completion code with data, and the Glexon, of the request's data. -/
def mctpControl (cmd : Nat) (f : Glexon → List Byte → List Byte × Glexon) (msg : List Byte) (s : State) : Answer :=
  onMctp (fun g =>
    if msg.length < 3 ∨ leAt msg 0 1 % 128 ≠ 0 ∨ leAt msg 1 1 < 128 ∨ leAt msg 2 1 ≠ cmd then none
    else
      let (r, g1) := f g (msg.drop 3)
      some (leBytes 1 0 ++ leBytes 1 (leAt msg 1 1 % 32) ++ leBytes 1 cmd ++ r, g1)) s

/-- A PLDM request `cmd` of type `typ`: message type 1, request bit. -/
def pldm (typ cmd : Nat) (f : Glexon → List Byte → List Byte × Glexon) (msg : List Byte) (s : State) : Answer :=
  onMctp (fun g =>
    if msg.length < 4 ∨ leAt msg 0 1 % 128 ≠ 1 ∨ leAt msg 1 1 < 128 ∨ leAt msg 2 1 % 64 ≠ typ ∨ leAt msg 3 1 ≠ cmd then none
    else
      let (r, g1) := f g (msg.drop 4)
      some (leBytes 1 1 ++ leBytes 1 (leAt msg 1 1 % 32) ++ leBytes 1 typ ++ leBytes 1 cmd ++ r, g1)) s

/-- ERROR_INVALID_DATA. -/
def ccData : List Byte := [0x02]
/-- ERROR_INVALID_LENGTH. -/
def ccLength : List Byte := [0x03]

/-! ### MCTP control (DSP0236) -/

/-- Set Endpoint ID: operations 0 and 1 take an EID from 8 to 254. -/
def execSetEndpointId (msg : List Byte) (s : State) : Answer :=
  mctpControl 1 (fun g d =>
    let e := leAt d 1 1
    if d.length < 2 then (ccLength, g)
    else if 2 ≤ leAt d 0 1 % 4 ∨ e < 8 ∨ e = 255 then (ccData, g)
    else ([0, 0, BitVec.ofNat 8 e, 0], g.modMg fun m => { m with eid := BitVec.ofNat 8 e })) msg s

/-- Get Endpoint ID. -/
def execGetEndpointId (msg : List Byte) (s : State) : Answer := mctpControl 2 (fun g _ => ([0, g.mg.eid, 0, 0], g)) msg s

/-- Get Endpoint UUID. -/
def execGetEndpointUuid (msg : List Byte) (s : State) : Answer :=
  mctpControl 3 (fun g _ => (0 :: Config.uuid Config.idSerial, g)) msg s

/-- Get MCTP Version Support. -/
def execGetMctpVersionSupport (msg : List Byte) (s : State) : Answer :=
  mctpControl 4 (fun g d => if d = [] then (ccLength, g) else (0 :: Config.mctpData 0 4 (leAt d 0 1), g)) msg s

/-- Get Message Type Support: one type beside control, PLDM. -/
def execGetMessageTypeSupport (msg : List Byte) (s : State) : Answer := mctpControl 5 (fun g _ => ([0, 1, 1], g)) msg s

/-! ### PLDM type 0 (DSP0240) -/

/-- SetTID. -/
def execSettid (msg : List Byte) (s : State) : Answer :=
  pldm 0 1 (fun g d =>
    let t := leAt d 0 1
    if d = [] then (ccLength, g) else if t = 0 ∨ t = 255 then (ccData, g)
    else ([0], g.modMg fun m => { m with tid := BitVec.ofNat 8 t })) msg s

/-- GetTID. -/
def execGettid (msg : List Byte) (s : State) : Answer := pldm 0 2 (fun g _ => ([0, g.mg.tid], g)) msg s

/-- Is a PLDM type supported? -/
def pldmType (t : Nat) : Bool := decide (t = 0 ∨ t = 2)

/-- GetPLDMVersion. -/
def execGetpldmversion (msg : List Byte) (s : State) : Answer :=
  pldm 0 3 (fun g d =>
    if d.length < 6 then (ccLength, g) else if pldmType (leAt d 5 1) = false then ([0x83], g)
    else ([0, 0, 0, 0, 0, 5] ++ Config.mctpData 1 3 (leAt d 5 1), g)) msg s

/-- GetPLDMTypes: types 0 and 2. -/
def execGetpldmtypes (msg : List Byte) (s : State) : Answer := pldm 0 4 (fun g _ => (0 :: leBytes 8 5, g)) msg s

/-- The commands of a type that the endpoint answers. -/
def pldmCmds (t : Nat) : List Nat := if t = 0 then [1, 2, 3, 4, 5] else [0x04, 0x11, 0x21, 0x50, 0x51]

/-- GetPLDMCommands. -/
def execGetpldmcommands (msg : List Byte) (s : State) : Answer :=
  pldm 0 5 (fun g d =>
    if d = [] then (ccLength, g) else if pldmType (leAt d 0 1) = false then ([0x83], g)
    else (0 :: leBytes 32 ((pldmCmds (leAt d 0 1)).map fun c => 2 ^ c).sum, g)) msg s

/-! ### PLDM type 2 (DSP0248, Table 17.9) -/

/-- A numeric sensor's reading in the hardware's units, or `none` for one that has failed; the outer `none` is no such sensor. -/
def Glexon.numeric (g : Glexon) (id : Nat) : Option (Option Int) :=
  let temp (v : BitVec 16) : Option Int := if v = 0x8000 then none else some v.toInt
  if 1 ≤ id ∧ id ≤ 24 then some (temp (g.sensor (id - 1)))
  else if id = 25 then some (g.hottest.map fun x => x.2.toInt)
  else if 32 ≤ id ∧ id < 48 then some (some (fld (g.rd (Reg.MG_RAIL (id - 32))) 0 16 : Nat))
  else if 48 ≤ id ∧ id < 64 then some (some (fld (g.rd (Reg.MG_RAIL (id - 48))) 32 16 : Nat))
  else if id = 64 then some (some (g.mg.secE / 400000000000 : Nat))
  else none

/-- GetSensorReading: a signed 32-bit reading; operational state 0 enabled, 4 failed. -/
def execGetsensorreading (msg : List Byte) (s : State) : Answer :=
  pldm 2 0x11 (fun g d =>
    if d.length < 3 then (ccLength, g)
    else
      match g.numeric (leAt d 0 2) with
      | none => ([0x80], g)
      | some (some v) => ([0, 5, 0, 0, 1, 1, 1] ++ leBytes 4 (wrapI 32 v), g)
      | some none => ([0, 5, 4, 0, 0, 0, 0] ++ leBytes 4 0, g)) msg s

/-- A state sensor's state: 80 thermal state, 81 RUNNING, RESTARTING, NO_FIRMWARE or THERMAL_HALT. -/
def Glexon.stateSensor (g : Glexon) (id : Nat) : Option Nat :=
  if id = 80 then some g.thermal
  else if id = 81 then some (match g.mgState with
    | 0 => 1
    | 1 => 3
    | 2 => 2
    | _ => 4)
  else none

/-- GetStateSensorReadings. -/
def execGetstatesensorreadings (msg : List Byte) (s : State) : Answer :=
  pldm 2 0x21 (fun g d =>
    if d.length < 4 then (ccLength, g)
    else
      match g.stateSensor (leAt d 0 2) with
      | none => ([0x80], g)
      | some v => ([0, 1, 0, BitVec.ofNat 8 v, BitVec.ofNat 8 v, BitVec.ofNat 8 v], g)) msg s

/-- GetPDRRepositoryInfo. -/
def execGetpdrrepositoryinfo (msg : List Byte) (s : State) : Answer := pldm 2 0x50 (fun g _ => (0 :: Config.mctpData 1 0x50 0, g)) msg s

/-- GetPDR: the whole record from its start, as many bytes as asked for. -/
def execGetpdr (msg : List Byte) (s : State) : Answer :=
  pldm 2 0x51 (fun g d =>
    if d.length < 13 then (ccLength, g)
    else
      match Config.pdr (leAt d 0 4) with
      | none => ([0x82], g)
      | some (l, next) =>
        let o := leAt d 4 4
        let part := (l.drop o).take (leAt d 9 2)
        let more := decide (o + part.length < l.length)
        let flag : Nat := if o = 0 then (if more then 0 else 5) else if more then 1 else 4
        (0 :: leBytes 4 next ++ leBytes 4 (if more then o + part.length else 0) ++ leBytes 1 flag ++ leBytes 2 part.length ++ part, g)) msg s

/-- SetEventReceiver. -/
def execSeteventreceiver (msg : List Byte) (s : State) : Answer :=
  pldm 2 0x04 (fun g d =>
    if d.length < 3 then (ccLength, g) else if 3 < leAt d 0 1 ∨ leAt d 1 1 ≠ 0 then (ccData, g)
    else
      let r := if leAt d 0 1 = 0 then none else some (BitVec.ofNat 8 (leAt d 0 1), BitVec.ofNat 8 (leAt d 2 1))
      ([0], g.modMg fun m => { m with evRecv := r })) msg s

end Sys2Proof.Machine
end

