-- ==== Sys2Proof/Machine/Dispatch.lean ====
section
/-! DEFINITION. The meaning of each command. -/

namespace Sys2Proof.Machine

def exec (i : Instr) (s : State) : Host.Outcome State Fault Refusal :=
  match i with
  | .bmPwrOkFall => Sys2Proof.Machine.execBmPwrOkFall s
  | .bmPwrOkRise => Sys2Proof.Machine.execBmPwrOkRise s
  | .bmRstNAssert => Sys2Proof.Machine.execBmRstNAssert s
  | .bmRstNRelease => Sys2Proof.Machine.execBmRstNRelease s
  | .clkGap => Sys2Proof.Machine.execClkGap s
  | .eventCount evt incs => Sys2Proof.Machine.execEventCount evt incs s
  | .markerCapture id arg => Sys2Proof.Machine.execMarkerCapture id arg s
  | .pcSample core pc stall => Sys2Proof.Machine.execPcSample core pc stall s
  | .pcWindowClose => Sys2Proof.Machine.execPcWindowClose s
  | .snoopBeat bt => Sys2Proof.Machine.execSnoopBeat bt s
  | .auditQuery site => Sys2Proof.Machine.execAuditQuery site s
  | .auditAnswer => Sys2Proof.Machine.execAuditAnswer s
  | .auditWindowWrite addr data strb => Sys2Proof.Machine.execAuditWindowWrite addr data strb s
  | .auditSlotExpire slot => Sys2Proof.Machine.execAuditSlotExpire slot s
  | .auditSlotClearDone slot => Sys2Proof.Machine.execAuditSlotClearDone slot s
  | .energyIncrement nJ => Sys2Proof.Machine.execEnergyIncrement nJ s
  | .droopEvent input level => Sys2Proof.Machine.execDroopEvent input level s
  | .hostCsrWrite addr data => Sys2Proof.Machine.execHostCsrWrite addr data s
  | .bmTimeSecRead => Sys2Proof.Machine.execBmTimeSecRead s
  | .programSwap byTap data => Sys2Proof.Machine.execProgramSwap byTap data s
  | .programValidationDone => Sys2Proof.Machine.execProgramValidationDone s
  | .bumasBoundary khz => Sys2Proof.Machine.execBumasBoundary khz s
  | .thermalRoundDone reads => Sys2Proof.Machine.execThermalRoundDone reads s
  | .voltageRoundDone reads => Sys2Proof.Machine.execVoltageRoundDone reads s
  | .probeOverrun cut => Sys2Proof.Machine.execProbeOverrun cut s
  | .probeWaitDone cycles => Sys2Proof.Machine.execProbeWaitDone cycles s
  | .snapC o => Sys2Proof.Machine.execSnapC o s
  | .snapP o => Sys2Proof.Machine.execSnapP o s
  | .snapE o => Sys2Proof.Machine.execSnapE o s
  | .snapS o => Sys2Proof.Machine.execSnapS o s
  | .deltaC o => Sys2Proof.Machine.execDeltaC o s
  | .deltaE o => Sys2Proof.Machine.execDeltaE o s
  | .probeSel o => Sys2Proof.Machine.execProbeSel o s
  | .probeAdd o => Sys2Proof.Machine.execProbeAdd o s
  | .probeAddI o => Sys2Proof.Machine.execProbeAddI o s
  | .probeSub o => Sys2Proof.Machine.execProbeSub o s
  | .probeSubI o => Sys2Proof.Machine.execProbeSubI o s
  | .probeAnd o => Sys2Proof.Machine.execProbeAnd o s
  | .probeAndI o => Sys2Proof.Machine.execProbeAndI o s
  | .probeOr o => Sys2Proof.Machine.execProbeOr o s
  | .probeOrI o => Sys2Proof.Machine.execProbeOrI o s
  | .orK o => Sys2Proof.Machine.execOrK o s
  | .shfL o => Sys2Proof.Machine.execShfL o s
  | .shfR o => Sys2Proof.Machine.execShfR o s
  | .shfA o => Sys2Proof.Machine.execShfA o s
  | .shfO o => Sys2Proof.Machine.execShfO o s
  | .probeCmpEq o => Sys2Proof.Machine.execProbeCmpEq o s
  | .probeCmpNe o => Sys2Proof.Machine.execProbeCmpNe o s
  | .probeCmpLtu o => Sys2Proof.Machine.execProbeCmpLtu o s
  | .probeCmpGeu o => Sys2Proof.Machine.execProbeCmpGeu o s
  | .probeCmpLt o => Sys2Proof.Machine.execProbeCmpLt o s
  | .probeCmpGe o => Sys2Proof.Machine.execProbeCmpGe o s
  | .probeBr o => Sys2Proof.Machine.execProbeBr o s
  | .probeBrZ o => Sys2Proof.Machine.execProbeBrZ o s
  | .probeBrNz o => Sys2Proof.Machine.execProbeBrNz o s
  | .histV o => Sys2Proof.Machine.execHistV o s
  | .histW o => Sys2Proof.Machine.execHistW o s
  | .threshMi o => Sys2Proof.Machine.execThreshMi o s
  | .threshC o => Sys2Proof.Machine.execThreshC o s
  | .emitW o => Sys2Proof.Machine.execEmitW o s
  | .emitK o => Sys2Proof.Machine.execEmitK o s
  | .emitH o => Sys2Proof.Machine.execEmitH o s
  | .emitRMarker o => Sys2Proof.Machine.execEmitRMarker o s
  | .emitRPcSamples o => Sys2Proof.Machine.execEmitRPcSamples o s
  | .emitRDigest o => Sys2Proof.Machine.execEmitRDigest o s
  | .emitRSensor o => Sys2Proof.Machine.execEmitRSensor o s
  | .emitREnergy o => Sys2Proof.Machine.execEmitREnergy o s
  | .pcsampF o => Sys2Proof.Machine.execPcsampF o s
  | .pcsampS o => Sys2Proof.Machine.execPcsampS o s
  | .pcsampH o => Sys2Proof.Machine.execPcsampH o s
  | .digsetS o => Sys2Proof.Machine.execDigsetS o s
  | .digsetE o => Sys2Proof.Machine.execDigsetE o s
  | .adcstartT o => Sys2Proof.Machine.execAdcstartT o s
  | .adcstartV o => Sys2Proof.Machine.execAdcstartV o s
  | .waittT o => Sys2Proof.Machine.execWaittT o s
  | .waittA o => Sys2Proof.Machine.execWaittA o s
  | .waittP o => Sys2Proof.Machine.execWaittP o s
  | .probeEnd o => Sys2Proof.Machine.execProbeEnd o s
  | .tapQueueAgeOut => Sys2Proof.Machine.execTapQueueAgeOut s
  | .bumasBlockSlot => Sys2Proof.Machine.execBumasBlockSlot s
  | .creditReceive c => Sys2Proof.Machine.execCreditReceive c s
  | .tapNop c => Sys2Proof.Machine.execTapNop c s
  | .csrWrite c => Sys2Proof.Machine.execCsrWrite c s
  | .csrRead c => Sys2Proof.Machine.execCsrRead c s
  | .progLoad c => Sys2Proof.Machine.execProgLoad c s
  | .tapGreyout c => Sys2Proof.Machine.execTapGreyout c s
  | .tapBlackout c => Sys2Proof.Machine.execTapBlackout c s
  | .auditThresh c => Sys2Proof.Machine.execAuditThresh c s
  | .tapReset c => Sys2Proof.Machine.execTapReset c s
  | .linkRetrain c => Sys2Proof.Machine.execLinkRetrain c s
  | .timeReceive t => Sys2Proof.Machine.execTimeReceive t s
  | .bumasServoUpdate => Sys2Proof.Machine.execBumasServoUpdate s
  | .tickReceive t => Sys2Proof.Machine.execTickReceive t s
  | .signalDetect e lane => Sys2Proof.Machine.execSignalDetect e lane s
  | .trainDone e lane => Sys2Proof.Machine.execTrainDone e lane s
  | .codewordLock e lane => Sys2Proof.Machine.execCodewordLock e lane s
  | .deskewDone e => Sys2Proof.Machine.execDeskewDone e s
  | .linkInit e two fresh => Sys2Proof.Machine.execLinkInit e two fresh s
  | .trainingTimeout e => Sys2Proof.Machine.execTrainingTimeout e s
  | .laneFail e lane => Sys2Proof.Machine.execLaneFail e lane s
  | .tpPortCfgWrite q data => Sys2Proof.Machine.execTpPortCfgWrite q data s
  | .glexonBlockSlot p => Sys2Proof.Machine.execGlexonBlockSlot p s
  | .tapDataBlock p chk bytes => Sys2Proof.Machine.execTapDataBlock p chk bytes s
  | .recordIngest p cls => Sys2Proof.Machine.execRecordIngest p cls s
  | .auditTileAccept p => Sys2Proof.Machine.execAuditTileAccept p s
  | .cmdAckReceive p a => Sys2Proof.Machine.execCmdAckReceive p a s
  | .cmdResend p seq => Sys2Proof.Machine.execCmdResend p seq s
  | .creditSend p => Sys2Proof.Machine.execCreditSend p s
  | .timeSend p => Sys2Proof.Machine.execTimeSend p s
  | .timeEchoReceive p e => Sys2Proof.Machine.execTimeEchoReceive p e s
  | .glexonBoundary b => Sys2Proof.Machine.execGlexonBoundary b s
  | .provisionalBoundary => Sys2Proof.Machine.execProvisionalBoundary s
  | .admission => Sys2Proof.Machine.execAdmission s
  | .mauveGreyout => Sys2Proof.Machine.execMauveGreyout s
  | .selfCheck core fail => Sys2Proof.Machine.execSelfCheck core fail s
  | .coreEntry core => Sys2Proof.Machine.execCoreEntry core s
  | .coreWithdrawn core => Sys2Proof.Machine.execCoreWithdrawn core s
  | .workDeadline => Sys2Proof.Machine.execWorkDeadline s
  | .auditWorkList => Sys2Proof.Machine.execAuditWorkList s
  | .resultRead outs => Sys2Proof.Machine.execResultRead outs s
  | .replayAgeOut => Sys2Proof.Machine.execReplayAgeOut s
  | .profileCheck idx => Sys2Proof.Machine.execProfileCheck idx s
  | .profileCheckDone => Sys2Proof.Machine.execProfileCheckDone s
  | .nop o => Sys2Proof.Machine.execNop o s
  | .add o => Sys2Proof.Machine.execAdd o s
  | .sub o => Sys2Proof.Machine.execSub o s
  | .addI o => Sys2Proof.Machine.execAddI o s
  | .and o => Sys2Proof.Machine.execAnd o s
  | .or o => Sys2Proof.Machine.execOr o s
  | .xor o => Sys2Proof.Machine.execXor o s
  | .andI o => Sys2Proof.Machine.execAndI o s
  | .orI o => Sys2Proof.Machine.execOrI o s
  | .xorI o => Sys2Proof.Machine.execXorI o s
  | .shl o => Sys2Proof.Machine.execShl o s
  | .shr o => Sys2Proof.Machine.execShr o s
  | .sra o => Sys2Proof.Machine.execSra o s
  | .ror o => Sys2Proof.Machine.execRor o s
  | .shlI o => Sys2Proof.Machine.execShlI o s
  | .shrI o => Sys2Proof.Machine.execShrI o s
  | .sraI o => Sys2Proof.Machine.execSraI o s
  | .mul o => Sys2Proof.Machine.execMul o s
  | .mulhU o => Sys2Proof.Machine.execMulhU o s
  | .mulhS o => Sys2Proof.Machine.execMulhS o s
  | .minS o => Sys2Proof.Machine.execMinS o s
  | .minU o => Sys2Proof.Machine.execMinU o s
  | .maxS o => Sys2Proof.Machine.execMaxS o s
  | .maxU o => Sys2Proof.Machine.execMaxU o s
  | .clz o => Sys2Proof.Machine.execClz o s
  | .ctz o => Sys2Proof.Machine.execCtz o s
  | .popc o => Sys2Proof.Machine.execPopc o s
  | .movI o => Sys2Proof.Machine.execMovI o s
  | .movh o => Sys2Proof.Machine.execMovh o s
  | .sel o => Sys2Proof.Machine.execSel o s
  | .add3 o => Sys2Proof.Machine.execAdd3 o s
  | .madd o => Sys2Proof.Machine.execMadd o s
  | .cmpEq o => Sys2Proof.Machine.execCmpEq o s
  | .cmpNe o => Sys2Proof.Machine.execCmpNe o s
  | .cmpLtS o => Sys2Proof.Machine.execCmpLtS o s
  | .cmpLtU o => Sys2Proof.Machine.execCmpLtU o s
  | .cmpGeS o => Sys2Proof.Machine.execCmpGeS o s
  | .cmpGeU o => Sys2Proof.Machine.execCmpGeU o s
  | .cmpEqI o => Sys2Proof.Machine.execCmpEqI o s
  | .cmpNeI o => Sys2Proof.Machine.execCmpNeI o s
  | .cmpLtSI o => Sys2Proof.Machine.execCmpLtSI o s
  | .cmpLtUI o => Sys2Proof.Machine.execCmpLtUI o s
  | .cmpGeSI o => Sys2Proof.Machine.execCmpGeSI o s
  | .cmpGeUI o => Sys2Proof.Machine.execCmpGeUI o s
  | .btst o => Sys2Proof.Machine.execBtst o s
  | .pand o => Sys2Proof.Machine.execPand o s
  | .por o => Sys2Proof.Machine.execPor o s
  | .pxor o => Sys2Proof.Machine.execPxor o s
  | .pandn o => Sys2Proof.Machine.execPandn o s
  | .pnot o => Sys2Proof.Machine.execPnot o s
  | .pmovG o => Sys2Proof.Machine.execPmovG o s
  | .pmovP o => Sys2Proof.Machine.execPmovP o s
  | .br o => Sys2Proof.Machine.execBr o s
  | .brZ o => Sys2Proof.Machine.execBrZ o s
  | .brNz o => Sys2Proof.Machine.execBrNz o s
  | .dbnz o => Sys2Proof.Machine.execDbnz o s
  | .call o => Sys2Proof.Machine.execCall o s
  | .ret o => Sys2Proof.Machine.execRet o s
  | .ldB o => Sys2Proof.Machine.execLdB o s
  | .ldH o => Sys2Proof.Machine.execLdH o s
  | .ldW o => Sys2Proof.Machine.execLdW o s
  | .ldD o => Sys2Proof.Machine.execLdD o s
  | .ldBS o => Sys2Proof.Machine.execLdBS o s
  | .ldHS o => Sys2Proof.Machine.execLdHS o s
  | .ldWS o => Sys2Proof.Machine.execLdWS o s
  | .stB o => Sys2Proof.Machine.execStB o s
  | .stH o => Sys2Proof.Machine.execStH o s
  | .stW o => Sys2Proof.Machine.execStW o s
  | .stD o => Sys2Proof.Machine.execStD o s
  | .amoAdd o => Sys2Proof.Machine.execAmoAdd o s
  | .amoCas o => Sys2Proof.Machine.execAmoCas o s
  | .mfs o => Sys2Proof.Machine.execMfs o s
  | .mts o => Sys2Proof.Machine.execMts o s
  | .farAccessReturn core place ecc => Sys2Proof.Machine.execFarAccessReturn core place ecc s
  | .coreWaitEnd core cycles => Sys2Proof.Machine.execCoreWaitEnd core cycles s
  | .vadd o => Sys2Proof.Machine.execVadd o s
  | .vsub o => Sys2Proof.Machine.execVsub o s
  | .vmul o => Sys2Proof.Machine.execVmul o s
  | .vfma o => Sys2Proof.Machine.execVfma o s
  | .vmin o => Sys2Proof.Machine.execVmin o s
  | .vmax o => Sys2Proof.Machine.execVmax o s
  | .vabs o => Sys2Proof.Machine.execVabs o s
  | .vneg o => Sys2Proof.Machine.execVneg o s
  | .vand o => Sys2Proof.Machine.execVand o s
  | .vor o => Sys2Proof.Machine.execVor o s
  | .vxor o => Sys2Proof.Machine.execVxor o s
  | .vshfLeft o => Sys2Proof.Machine.execVshfLeft o s
  | .vshfLogicalRight o => Sys2Proof.Machine.execVshfLogicalRight o s
  | .vshfArithRight o => Sys2Proof.Machine.execVshfArithRight o s
  | .vcmpEq o => Sys2Proof.Machine.execVcmpEq o s
  | .vcmpNe o => Sys2Proof.Machine.execVcmpNe o s
  | .vcmpLt o => Sys2Proof.Machine.execVcmpLt o s
  | .vcmpLe o => Sys2Proof.Machine.execVcmpLe o s
  | .vcmpGt o => Sys2Proof.Machine.execVcmpGt o s
  | .vcmpGe o => Sys2Proof.Machine.execVcmpGe o s
  | .vsel o => Sys2Proof.Machine.execVsel o s
  | .vcvt o => Sys2Proof.Machine.execVcvt o s
  | .vbcast o => Sys2Proof.Machine.execVbcast o s
  | .vext o => Sys2Proof.Machine.execVext o s
  | .vins o => Sys2Proof.Machine.execVins o s
  | .vperm o => Sys2Proof.Machine.execVperm o s
  | .vredAdd o => Sys2Proof.Machine.execVredAdd o s
  | .vredMin o => Sys2Proof.Machine.execVredMin o s
  | .vredMax o => Sys2Proof.Machine.execVredMax o s
  | .vexp2 o => Sys2Proof.Machine.execVexp2 o s
  | .vlog2 o => Sys2Proof.Machine.execVlog2 o s
  | .vrcp o => Sys2Proof.Machine.execVrcp o s
  | .vrsqrt o => Sys2Proof.Machine.execVrsqrt o s
  | .vld o => Sys2Proof.Machine.execVld o s
  | .vst o => Sys2Proof.Machine.execVst o s
  | .vmov o => Sys2Proof.Machine.execVmov o s
  | .mma o => Sys2Proof.Machine.execMma o s
  | .tld o => Sys2Proof.Machine.execTld o s
  | .tst o => Sys2Proof.Machine.execTst o s
  | .accnetCfg o => Sys2Proof.Machine.execAccnetCfg o s
  | .dmaFarToLocal o => Sys2Proof.Machine.execDmaFarToLocal o s
  | .dmaLocalToFar o => Sys2Proof.Machine.execDmaLocalToFar o s
  | .vprog o => Sys2Proof.Machine.execVprog o s
  | .waitE o => Sys2Proof.Machine.execWaitE o s
  | .fenceM o => Sys2Proof.Machine.execFenceM o s
  | .fenceE o => Sys2Proof.Machine.execFenceE o s
  | .fenceX o => Sys2Proof.Machine.execFenceX o s
  | .fenceF o => Sys2Proof.Machine.execFenceF o s
  | .ticksync o => Sys2Proof.Machine.execTicksync o s
  | .engineOpBegin core q => Sys2Proof.Machine.execEngineOpBegin core q s
  | .mmaComplete core eng residue => Sys2Proof.Machine.execMmaComplete core eng residue s
  | .tileOpComplete core eng => Sys2Proof.Machine.execTileOpComplete core eng s
  | .dmaComplete core ecc => Sys2Proof.Machine.execDmaComplete core ecc s
  | .xopComplete core eng ecc => Sys2Proof.Machine.execXopComplete core eng ecc s
  | .vprogComplete core eng => Sys2Proof.Machine.execVprogComplete core eng s
  | .mcWithdrawReq agent mask => Sys2Proof.Machine.execMcWithdrawReq agent mask s
  | .mcRestoreReq agent mask => Sys2Proof.Machine.execMcRestoreReq agent mask s
  | .reduceCore o => Sys2Proof.Machine.execReduceCore o s
  | .reduceDetail o => Sys2Proof.Machine.execReduceDetail o s
  | .reduceArrivals o => Sys2Proof.Machine.execReduceArrivals o s
  | .coarsen o => Sys2Proof.Machine.execCoarsen o s
  | .publish o => Sys2Proof.Machine.execPublish o s
  | .score o => Sys2Proof.Machine.execScore o s
  | .featUpdate o => Sys2Proof.Machine.execFeatUpdate o s
  | .crc64 o => Sys2Proof.Machine.execCrc64 o s
  | .crc32c o => Sys2Proof.Machine.execCrc32c o s
  | .m61Digest o => Sys2Proof.Machine.execM61Digest o s
  | .crc64Verify o => Sys2Proof.Machine.execCrc64Verify o s
  | .crc32cVerify o => Sys2Proof.Machine.execCrc32cVerify o s
  | .m61Verify o => Sys2Proof.Machine.execM61Verify o s
  | .deflate o => Sys2Proof.Machine.execDeflate o s
  | .inflate o => Sys2Proof.Machine.execInflate o s
  | .rmWrite o => Sys2Proof.Machine.execRmWrite o s
  | .rmRead o => Sys2Proof.Machine.execRmRead o s
  | .rmFetchAdd o => Sys2Proof.Machine.execRmFetchAdd o s
  | .rmCmpSwap o => Sys2Proof.Machine.execRmCmpSwap o s
  | .write pk => Sys2Proof.Machine.execWrite pk s
  | .readReq pk => Sys2Proof.Machine.execReadReq pk s
  | .readResp pk => Sys2Proof.Machine.execReadResp pk s
  | .fetchAdd pk => Sys2Proof.Machine.execFetchAdd pk s
  | .cmpSwap pk => Sys2Proof.Machine.execCmpSwap pk s
  | .atomicResp pk => Sys2Proof.Machine.execAtomicResp pk s
  | .ack pk => Sys2Proof.Machine.execAck pk s
  | .nak pk => Sys2Proof.Machine.execNak pk s
  | .messageDeliver qpn => Sys2Proof.Machine.execMessageDeliver qpn s
  | .retransmitTimeout qpn psn => Sys2Proof.Machine.execRetransmitTimeout qpn psn s
  | .pathResume qpn path => Sys2Proof.Machine.execPathResume qpn path s
  | .qpInit qpn cfg => Sys2Proof.Machine.execQpInit qpn cfg s
  | .qpRts qpn cfg => Sys2Proof.Machine.execQpRts qpn cfg s
  | .qpDrain qpn cfg => Sys2Proof.Machine.execQpDrain qpn cfg s
  | .qpReset qpn cfg => Sys2Proof.Machine.execQpReset qpn cfg s
  | .mrRegister r attr => Sys2Proof.Machine.execMrRegister r attr s
  | .mrDeregister r attr => Sys2Proof.Machine.execMrDeregister r attr s
  | .rekey r => Sys2Proof.Machine.execRekey r s
  | .amberStaleDiscard => Sys2Proof.Machine.execAmberStaleDiscard s
  | .pullStart => Sys2Proof.Machine.execPullStart s
  | .pullTick => Sys2Proof.Machine.execPullTick s
  | .bootLoadStart => Sys2Proof.Machine.execBootLoadStart s
  | .bootImageRead => Sys2Proof.Machine.execBootImageRead s
  | .portServe p => Sys2Proof.Machine.execPortServe p s
  | .gateEntry e => Sys2Proof.Machine.execGateEntry e s
  | .shaperRefill => Sys2Proof.Machine.execShaperRefill s
  | .cmdInbandSend => Sys2Proof.Machine.execCmdInbandSend s
  | .commandReceive bytes => Sys2Proof.Machine.execCommandReceive bytes s
  | .submitCmd q => Sys2Proof.Machine.execSubmitCmd q s
  | .greyout => Sys2Proof.Machine.execGreyout s
  | .blackout => Sys2Proof.Machine.execBlackout s
  | .wsCreate => Sys2Proof.Machine.execWsCreate s
  | .wsTeardown => Sys2Proof.Machine.execWsTeardown s
  | .epoch => Sys2Proof.Machine.execEpoch s
  | .epochAdopt => Sys2Proof.Machine.execEpochAdopt s
  | .periodChange => Sys2Proof.Machine.execPeriodChange s
  | .pChange => Sys2Proof.Machine.execPChange s
  | .beacon => Sys2Proof.Machine.execBeacon s
  | .collKey => Sys2Proof.Machine.execCollKey s
  | .gateList => Sys2Proof.Machine.execGateList s
  | .announce => Sys2Proof.Machine.execAnnounce s
  | .listHeld => Sys2Proof.Machine.execListHeld s
  | .listHeldResend id => Sys2Proof.Machine.execListHeldResend id s
  | .tallyExpire id gen => Sys2Proof.Machine.execTallyExpire id gen s
  | .announceResend slot => Sys2Proof.Machine.execAnnounceResend slot s
  | .announceTimeout slot => Sys2Proof.Machine.execAnnounceTimeout slot s
  | .epochIssue => Sys2Proof.Machine.execEpochIssue s
  | .mapReread => Sys2Proof.Machine.execMapReread s
  | .instanceTimeout => Sys2Proof.Machine.execInstanceTimeout s
  | .itemExpire => Sys2Proof.Machine.execItemExpire s
  | .decodePairExpire => Sys2Proof.Machine.execDecodePairExpire s
  | .modelCheck k addr => Sys2Proof.Machine.execModelCheck k addr s
  | .modelCheckDone k => Sys2Proof.Machine.execModelCheckDone k s
  | .inv => Sys2Proof.Machine.execInv s
  | .sampleBufferWrite => Sys2Proof.Machine.execSampleBufferWrite s
  | .traceFrame => Sys2Proof.Machine.execTraceFrame s
  | .traceResync agent => Sys2Proof.Machine.execTraceResync agent s
  | .syncReceive m => Sys2Proof.Machine.execSyncReceive m s
  | .followUpReceive m => Sys2Proof.Machine.execFollowUpReceive m s
  | .delayReqSend => Sys2Proof.Machine.execDelayReqSend s
  | .delayReqReceive m => Sys2Proof.Machine.execDelayReqReceive m s
  | .delayRespReceive m => Sys2Proof.Machine.execDelayRespReceive m s
  | .syncSend => Sys2Proof.Machine.execSyncSend s
  | .announceSend => Sys2Proof.Machine.execAnnounceSend s
  | .ptpAnnounceReceive a => Sys2Proof.Machine.execPtpAnnounceReceive a s
  | .syncTimeout => Sys2Proof.Machine.execSyncTimeout s
  | .announceReceiptTimeout => Sys2Proof.Machine.execAnnounceReceiptTimeout s
  | .tickStopped => Sys2Proof.Machine.execTickStopped s
  | .tkStep agent v => Sys2Proof.Machine.execTkStep agent v s
  | .tkSlew v => Sys2Proof.Machine.execTkSlew v s
  | .tkNowSecRead => Sys2Proof.Machine.execTkNowSecRead s
  | .tkAddendWrite v => Sys2Proof.Machine.execTkAddendWrite v s
  | .tkRefSelWrite v => Sys2Proof.Machine.execTkRefSelWrite v s
  | .ppsInEdge => Sys2Proof.Machine.execPpsInEdge s
  | .ppsInLost => Sys2Proof.Machine.execPpsInLost s
  | .ref10mLost => Sys2Proof.Machine.execRef10mLost s
  | .ppsOutRise => Sys2Proof.Machine.execPpsOutRise s
  | .ppsOutFall => Sys2Proof.Machine.execPpsOutFall s
  | .comparatorArm k v => Sys2Proof.Machine.execComparatorArm k v s
  | .cmpFire k => Sys2Proof.Machine.execCmpFire k s
  | .trigPulseEnd pin => Sys2Proof.Machine.execTrigPulseEnd pin s
  | .captEdge j rising => Sys2Proof.Machine.execCaptEdge j rising s
  | .captRead j => Sys2Proof.Machine.execCaptRead j s
  | .registerWrite agent addr data => Sys2Proof.Machine.execRegisterWrite agent addr data s
  | .fabricLaneFail p mask => Sys2Proof.Machine.execFabricLaneFail p mask s
  | .fabricPortUp p mask => Sys2Proof.Machine.execFabricPortUp p mask s
  | .hbmTempRead t0 t1 => Sys2Proof.Machine.execHbmTempRead t0 t1 s
  | .sensorSample reads => Sys2Proof.Machine.execSensorSample reads s
  | .thermalTrip => Sys2Proof.Machine.execThermalTrip s
  | .railSample rails => Sys2Proof.Machine.execRailSample rails s
  | .eventRecordWrite => Sys2Proof.Machine.execEventRecordWrite s
  | .evrCursor v => Sys2Proof.Machine.execEvrCursor v s
  | .mirrorAppend fail => Sys2Proof.Machine.execMirrorAppend fail s
  | .brownout => Sys2Proof.Machine.execBrownout s
  | .heartbeat => Sys2Proof.Machine.execHeartbeat s
  | .watchdogExpire => Sys2Proof.Machine.execWatchdogExpire s
  | .mgWdogKick _data => Sys2Proof.Machine.execMgWdogKick _data s
  | .mgRestart data => Sys2Proof.Machine.execMgRestart data s
  | .coldBoot nor => Sys2Proof.Machine.execColdBoot nor s
  | .slotAck q => Sys2Proof.Machine.execSlotAck q s
  | .imgLoad q => Sys2Proof.Machine.execImgLoad q s
  | .imgActivate q => Sys2Proof.Machine.execImgActivate q s
  | .imageSwap => Sys2Proof.Machine.execImageSwap s
  | .fwStage q img => Sys2Proof.Machine.execFwStage q img s
  | .fwActivate q => Sys2Proof.Machine.execFwActivate q s
  | .fwActivationRestart => Sys2Proof.Machine.execFwActivationRestart s
  | .fwCommit q => Sys2Proof.Machine.execFwCommit q s
  | .fwRevert q => Sys2Proof.Machine.execFwRevert q s
  | .coreWithdraw q => Sys2Proof.Machine.execCoreWithdraw q s
  | .coreRestore q => Sys2Proof.Machine.execCoreRestore q s
  | .sdcClear q => Sys2Proof.Machine.execSdcClear q s
  | .memberList q => Sys2Proof.Machine.execMemberList q s
  | .setEndpointId msg => Sys2Proof.Machine.execSetEndpointId msg s
  | .getEndpointId msg => Sys2Proof.Machine.execGetEndpointId msg s
  | .getMctpVersionSupport msg => Sys2Proof.Machine.execGetMctpVersionSupport msg s
  | .getMessageTypeSupport msg => Sys2Proof.Machine.execGetMessageTypeSupport msg s
  | .getEndpointUuid msg => Sys2Proof.Machine.execGetEndpointUuid msg s
  | .gettid msg => Sys2Proof.Machine.execGettid msg s
  | .settid msg => Sys2Proof.Machine.execSettid msg s
  | .getpldmversion msg => Sys2Proof.Machine.execGetpldmversion msg s
  | .getpldmtypes msg => Sys2Proof.Machine.execGetpldmtypes msg s
  | .getpldmcommands msg => Sys2Proof.Machine.execGetpldmcommands msg s
  | .getsensorreading msg => Sys2Proof.Machine.execGetsensorreading msg s
  | .getstatesensorreadings msg => Sys2Proof.Machine.execGetstatesensorreadings msg s
  | .getpdrrepositoryinfo msg => Sys2Proof.Machine.execGetpdrrepositoryinfo msg s
  | .getpdr msg => Sys2Proof.Machine.execGetpdr msg s
  | .seteventreceiver msg => Sys2Proof.Machine.execSeteventreceiver msg s
  | .bypass => Sys2Proof.Machine.execBypass s
  | .samplePreload => Sys2Proof.Machine.execSamplePreload s
  | .extest => Sys2Proof.Machine.execExtest s
  | .clamp => Sys2Proof.Machine.execClamp s
  | .highz => Sys2Proof.Machine.execHighz s
  | .extestPulse => Sys2Proof.Machine.execExtestPulse s
  | .extestTrain => Sys2Proof.Machine.execExtestTrain s
  | .sysRstNRelease => Sys2Proof.Machine.execSysRstNRelease s
  | .sysRstNAssert => Sys2Proof.Machine.execSysRstNAssert s
  | .corePwrokFall => Sys2Proof.Machine.execCorePwrokFall s
  | .droopRecovery input => Sys2Proof.Machine.execDroopRecovery input s
  | .hbmTrainingDone => Sys2Proof.Machine.execHbmTrainingDone s
  | .corePwrokRise => Sys2Proof.Machine.execCorePwrokRise s
  | .mgRstNAssert => Sys2Proof.Machine.execMgRstNAssert s
  | .illegal core slot first => Sys2Proof.Machine.execIllegal core slot first s
  | .badOpcode opcode c => Sys2Proof.Machine.execBadOpcode opcode c s
  | .badReq opcode q => Sys2Proof.Machine.execBadReq opcode q s

end Sys2Proof.Machine
end

