-- ==== Sys2Proof/Machine/Idle.lean ====
section
/-! DEFINITION. What passes while no command waits: one tk_clk cycle of the clocks (R48, R155). -/

namespace Sys2Proof.Machine

/-- One tk_clk cycle on the Bumas: 25 of 32 such cycles bring a pb_clk cycle, at which its local clock steps (R155). -/
def Bumas.idle (b : Bumas) : Bumas :=
  let t := b.time
  if t.phase + 25 < 32 then { b with time := { t with phase := t.phase + 25 } }
  else { b with time := { t with phase := t.phase + 25 - 32, clk := ((t.clk : Int) + pbAddend + t.corr).toNat } }

/-- One tk_clk cycle on the Glexon: the local clock, and nine quarters of a core_clk cycle. -/
def Glexon.idle (g : Glexon) : Glexon :=
  let g1 := if g.tkUp then g.tkCycle else g
  if g.coreUp then { g1 with coreClk := g1.coreClk + 9 } else g1

/-- One tk_clk cycle of the machine. DESIGN CHOICE: the step on an empty queue. -/
def State.idle (s : State) : State :=
  { s with bm := if s.bm.alive then s.bm.idle else s.bm, gx := s.gx.idle }

end Sys2Proof.Machine
end

