-- ==== Sys2Proof/Safety.lean ====
section
/-! DEFINITION. What a safe run is, and the invariants and next states in which statements speak of it. -/

namespace Sys2Proof.Machine

/-- A step that neither faults nor refuses. -/
def Completes (s : State) : Prop := ∃ t, step s = .next t

/-! ### The Bumas -/

/-- The Bumas after a probe instruction of `n` cycles that goes on to the next word, before its result is written. -/
def Bumas.passed (b : Bumas) (n : Nat) : Bumas :=
  { b with pcsReq := false, probe := { b.probe with
      pc := b.probe.pc + 1, instrs := b.probe.instrs + 1, cycles := b.probe.cycles + n } }

/-- No buffer of the macro holds more than it can (R84, R112, R122, R133), and a run's program counter lies in a program of 1 to
1,024 validated words (R116, R117). -/
structure Bumas.Sound (b : Bumas) : Prop where
  marks   : b.markC.marks.length ≤ 256
  marksP  : b.markP.marks.length ≤ 256
  opens   : b.probe.opens.length ≤ 256
  emit    : b.probe.emitUsed ≤ 65536
  block   : ∀ p, b.probe.block = some p → p.length ≤ 16384
  passed  : b.probe.val = .passed → 1 ≤ b.probe.valLen ∧ b.probe.valLen ≤ 1024
  valid   : b.probe.progValid = true → 1 ≤ b.probe.len ∧ b.probe.len ≤ 1024
  running : b.probe.running = true → b.probe.progValid = true ∧ b.probe.pc < b.probe.len

/-! ### The Tap links -/

/-- The end of a link is out of reset. -/
def State.endRuns (s : State) : LinkEnd → Bool
  | .bumas => s.bm.alive
  | .port _ => s.gx.coreUp

/-- The training of an end. -/
def State.train (s : State) : LinkEnd → Train
  | .bumas => s.bm.tap.tr
  | .port p => (s.gx.port p.toNat).tr

/-- The end may use two lanes. -/
def State.paired (s : State) : LinkEnd → Bool
  | .bumas => true
  | .port p => s.gx.tpPair p.toNat

/-- A Tap command was executed and its answer queued: the next number is expected, no counter and nothing of the Glexon changed,
and `P` holds of the Bumas. -/
def Answered (s : State) (r : Answer) (seq : BitVec 32) (status : Byte) (data : Word) (P : Bumas → Prop) : Prop :=
  ∃ b : Bumas, r = .next { s with bm := b } ∧ b.tap.next = s.bm.tap.next + 1 ∧
    b.tap.acks = s.bm.tap.acks ++ [{ seq := seq, status := status, data := data }] ∧ b.cnt = s.bm.cnt ∧ P b

/-! ### Slots of a core's program -/

/-- The Glexon when a slot issues: the first slot of a bundle opens it, after the results due by then have landed. -/
def Glexon.entered (g : Glexon) (o : SlotOp) : Glexon := if o.first then g.openBundle o.core.toNat else g

/-- A slot's governing predicate is true: of some lane, where it governs lanes (R203, R204). -/
def Form.runs (f : Form) (k : Core) (o : SlotOp) : Bool :=
  match f.c with
  | .pred => if f.lanes then k.mask o.c != 0 else bit (k.mask o.c) 0
  | _ => true

/-- The core as the slot finds it. -/
def State.slotCore (s : State) (o : SlotOp) : Core := (s.gx.entered o).core o.core.toNat

/-- The slot issues and executes (R193, R203 to R205, R210, R215): the core domain runs, the bundle store holds this word at this
point of the program, the bundle is open, no field names a register that awaits a far load, the slot is one the opcode may stand in,
every field is legal, and the governing predicate is true (of some lane, where it governs lanes). -/
def State.slotReady (s : State) (f : Form) (o : SlotOp) : Bool :=
  s.gx.coreUp && s.gx.fetches f o && (s.slotCore o).isOpen && (f.blocked (s.slotCore o) o).isEmpty
    && f.slots.testBit o.slot.toNat && f.legal o && f.runs (s.slotCore o) o

/-- The next state of a slot that changes its core alone: every other core, memory, every register and the Bumas stay. -/
def State.slotNext (s : State) (o : SlotOp) (k : Core) : State :=
  { s with gx := (s.gx.entered o).setCore o.core.toNat { k with next := o.slot.toNat + 1 } }

/-- The next state of a slot that changes the chip beside its core: the core is `k`, and no other core, no byte of memory, no
register and nothing of the Bumas changed. -/
def State.CoreBecomes (s t : State) (o : SlotOp) (k : Core) : Prop :=
  t.bm = s.bm ∧ t.gx.mem = (s.gx.entered o).mem ∧ t.gx.regs = (s.gx.entered o).regs ∧ t.gx.core o.core.toNat = k ∧
    ∀ m, m ≠ o.core.toNat → t.gx.core m = (s.gx.entered o).core m

/-- The operands that a DMA may have (R237, R244): LEN in units of 64 bytes, a local range in the core's own SRAM, a far range in
memory, both aligned. -/
def dmaAllowed (k : Core) (o : SlotOp) : Bool :=
  decide (1 ≤ fld o.imm 8 24) && decide (fld o.imm 8 24 ≤ 131072) && decide ((k.rg o.a.toNat).toNat % 64 = 0)
    && decide ((k.rg o.b.toNat).toNat % 64 = 0) && inOwnSram o.core.toNat (k.rg o.a.toNat).toNat (64 * fld o.imm 8 24)
    && memRange (k.rg o.b.toNat).toNat (64 * fld o.imm 8 24)

/-- A slot's engine operation enters its queue (R232, R233): if its tag is idle and fewer than 8 operations wait in the queue. With
a busy tag it faults with ENGINE, subcode 1, and with a full queue with subcode 2. -/
def State.Enters (s : State) (o : SlotOp) (i : Instr) (q : EngQueue) (kind : EngKind) : Prop :=
  ((∀ p ∈ (s.slotCore o).ops, p.tag ≠ fld o.imm 0 5) → ((s.slotCore o).ops.filter fun p => p.q = q).length < 8 →
    ∃ t, exec i s = .next t ∧ s.CoreBecomes t o { (s.slotCore o) with
      next := o.slot.toNat + 1
      ops := (s.slotCore o).ops ++
        [{ q := q, tag := fld o.imm 0 5, kind := kind, pc := (s.slotCore o).pc, gs := (s.slotCore o).g }] }) ∧
  ((∃ p ∈ (s.slotCore o).ops, p.tag = fld o.imm 0 5) →
    exec i s = .next { s with gx := (s.gx.entered o).faultAt o.core.toNat 10 o.slot.toNat none 1 }) ∧
  ((∀ p ∈ (s.slotCore o).ops, p.tag ≠ fld o.imm 0 5) → 8 ≤ ((s.slotCore o).ops.filter fun p => p.q = q).length →
    exec i s = .next { s with gx := (s.gx.entered o).faultAt o.core.toNat 10 o.slot.toNat none 2 })

/-- A result with the flags it raises, if any (R201, R220). -/
def Core.sendF (k : Core) (slot lat : Nat) (e : Effect) (fl : Nat) : Core :=
  if fl = 0 then k.send slot lat e else (k.send slot lat e).send slot lat (.flags fl)

/-! ### Fabric commands, the mailbox, and packets -/

/-- The command executor runs, and a command of type `t` stands at the head of its FIFO (R412). -/
def State.heads (s : State) (t : Nat) (r : Rec) (rest : List Rec) : Prop :=
  s.gx.coreUp = true ∧ bit (s.gx.rd Reg.TS_CTRL) 62 = true ∧ s.gx.ts.fifo = r :: rest ∧ r.typ.toNat = t

/-- Firmware has taken the request at the ring's head and answered it with a status (R468). -/
def State.replied (s t : State) (q : MbxReq) (status : Nat) : Prop :=
  t.gx.rd Reg.MG_MBX_REQ_CI = word ((fld (s.gx.rd Reg.MG_MBX_REQ_CI) 0 6 + 1) % 64) ∧
  t.gx.rd Reg.MG_MBX_RSP_PI = word ((fld (s.gx.rd Reg.MG_MBX_RSP_PI) 0 6 + 1) % 64) ∧
  t.gx.rd (Reg.MG_MBX_RSP (fld (s.gx.rd Reg.MG_MBX_RSP_PI) 0 6) 0) = word (q.id.toNat + status * 2 ^ 32)

/-- The engine takes the packet: it runs, the packet is whole and of this opcode, and comes from the peer of a queue pair in RTS; its
PSN is new and within the window (R418, R425 to R427); no boundary is noted on the queue pair (R435). -/
def State.takesPacket (s : State) (pk : RmFrame) (p : RmPkt) : Prop :=
  s.gx.coreUp = true ∧ bit (s.gx.rd Reg.RM_CTRL) 63 = true ∧ leAt pk.bytes 0 1 = p.op ∧ rmFormOk pk.bytes = true ∧
  p = RmPkt.ofBytes pk.bytes ∧ s.gx.qpState p.dst = 2 ∧ fld (s.gx.qpCfg p.dst) 24 12 = p.srcq ∧
  fld (s.gx.qpCfg p.dst) 0 8 = pk.src.toNat ∧ (s.gx.qp p.dst).gap = false ∧
  seqDist (s.gx.qp p.dst).base p.psn < 1024 ∧ (s.gx.qp p.dst).got.contains p.psn = false

/-! ### Management -/

/-- The boot ROM has run for the management state `m` and left `m'` (R458): firmware runs from the slot that it chose, one boot
attempt used unless that is the fallback, with no update staged; or no slot boots. -/
def Mgmt.Restarted (m m' : Mgmt) : Prop :=
  match m.choose with
  | some (b, fallback) => m'.run = .running ∧ m'.slotB = b ∧ m'.staged = false ∧ m'.actAt = none ∧
      m'.bootRec.tries = if fallback then m.bootRec.tries else m.bootRec.tries - 1
  | none => m'.run = .noFirmware ∧ m'.wdogAt = none

/-- An MCTP control request of this command: message type 0, request bit. -/
def mctpFits (cmd : Nat) (msg : List Byte) : Bool :=
  decide (3 ≤ msg.length) && decide (leAt msg 0 1 % 128 = 0) && decide (128 ≤ leAt msg 1 1) && decide (leAt msg 2 1 = cmd)

/-- A PLDM request of this type and command: message type 1, request bit. -/
def pldmFits (typ cmd : Nat) (msg : List Byte) : Bool :=
  decide (4 ≤ msg.length) && decide (leAt msg 0 1 % 128 = 1) && decide (128 ≤ leAt msg 1 1) && decide (leAt msg 2 1 % 64 = typ)
    && decide (leAt msg 3 1 = cmd)

/-- The header of a response, before its completion code: it carries the request's instance ID. -/
def mctpHead (cmd : Nat) (msg : List Byte) : List Byte := [0, BitVec.ofNat 8 (leAt msg 1 1 % 32), BitVec.ofNat 8 cmd]

/-- The header of a PLDM response. -/
def pldmHead (typ cmd : Nat) (msg : List Byte) : List Byte :=
  [1, BitVec.ofNat 8 (leAt msg 1 1 % 32), BitVec.ofNat 8 typ, BitVec.ofNat 8 cmd]

/-- The command is answered with the bytes `l`; the management state is `m`, and nothing else changed. -/
def State.Replies (s : State) (i : Instr) (m : Mgmt) (l : List Byte) : Prop :=
  exec i s = .next { s with gx := { s.gx with mg := { m with reply := l } } }

end Sys2Proof.Machine
end

