-- ==== Sys2Proof/Certificates/Slice0/Obligations.lean ====
section
/-! DEFINITION. The statements for the provers: what the numbered rules of the spec say that a command does, family by family, and
the rules of the whole block. A record update `{ s with … }` in a conclusion is the frame too: whatever it does not name is unchanged. -/

open Sys2Proof Sys2Proof.Machine

/-! ### The machine -/

/-- A step with a command at the front of the queue is that command's effect on the state with the queue's rest, and every command
completes, in every state, and leaves the queue as it is. On an empty queue the clocks advance and nothing else happens: one cycle
of `tk_clk` passes, which is the model's choice (log entry 2). -/
def Obligations.StepRunsTheFrontCommand : Prop := ∀ s : State,
  (∀ c rest, s.pending = c :: rest → step s = exec c { s with pending := rest }) ∧
  (∀ i : Instr, ∃ t, exec i s = .next t ∧ t.pending = s.pending) ∧
  (s.pending = [] → ∃ t, step s = .next t ∧ t.pending = [] ∧ t.gx.mem = s.gx.mem ∧ t.gx.regs = s.gx.regs ∧
    t.gx.cores = s.gx.cores ∧ t.gx.mg = s.gx.mg ∧ t.bm.regs = s.bm.regs ∧ t.bm.probe = s.bm.probe ∧ t.bm.cnt = s.bm.cnt ∧
    (s.gx.tkUp = false → t.gx = s.gx) ∧ (s.bm.alive = false → t.bm = s.bm))

/-- R3, R100, R454, R523: no command changes both parts. While the Bumas is unpowered or in reset, MG_RST_N is low and the Time
Keeper is in reset, only pins, supplies, the JTAG port, a cold boot and the Bumas's answer to its host's register port move anything.
While the core domain does not run, no command writes memory or a core, but for a reset that clears both. -/
def Obligations.CommandsKeepToTheirPart : Prop :=
  (∀ (i : Instr) (s t : State), exec i s = .next t → t.bm = s.bm ∨ t.gx = s.gx) ∧
  (∀ (i : Instr) (s : State), s.bm.alive = false → s.gx.tkUp = false → s.gx.mgRstN = false → exec i s = .next s ∨
    i ∈ ([.bmPwrOkRise, .bmPwrOkFall, .bmRstNAssert, .bmRstNRelease, .bmTimeSecRead, .sysRstNAssert, .sysRstNRelease, .corePwrokFall,
      .corePwrokRise, .bypass, .samplePreload, .extest, .clamp, .highz, .extestPulse, .extestTrain] : List Instr) ∨
    (∃ a d, i = .hostCsrWrite a d) ∨ (∃ b d, i = .programSwap b d) ∨ ∃ n, i = .coldBoot n) ∧
  (∀ (i : Instr) (s t : State), exec i s = .next t → s.gx.coreUp = false →
    (t.gx.mem = s.gx.mem ∧ t.gx.cores = s.gx.cores) ∨ (t.gx.mem = [] ∧ t.gx.cores = []))

/-- R15, R102, R454, R521: the machine right after reset: both parts in reset, every register at its reset value, the time stopped,
no tick, links in reset, memory with nothing listed, no core issuing, no event, and no command waiting; no buffer of the Bumas holds
more than it can. The value 0 of a byte of memory that nothing has written is the model's choice (log entry 3). -/
def Obligations.ResetLeavesTheResetState : Prop :=
  State.reset.pending = [] ∧ State.reset.bm.alive = false ∧ State.reset.gx.tkUp = false ∧ State.reset.gx.mgRstN = false ∧
  (∀ a, State.reset.gx.rd a = regReset gxRegFams a) ∧ (∀ a, State.reset.bm.rd a = regReset bmRegFams a) ∧
  State.reset.gx.tk.ticking = false ∧ State.reset.gx.tk.tickNo = 0 ∧ State.reset.gx.tk.mode = .free ∧
  State.reset.bm.time.ticking = false ∧ State.reset.bm.time.state = .none ∧
  (∀ p, (State.reset.gx.port p).tr.st = .disabled) ∧ State.reset.bm.tap.tr.st = .disabled ∧
  State.reset.gx.mem = [] ∧ Memory.wf State.reset.gx.mem = true ∧ (∀ a, memByte State.reset.gx.mem a = 0) ∧
  (∀ n, (State.reset.gx.core n).phase = .idle) ∧ State.reset.gx.events = [] ∧ (∀ i, SMap.get 0 State.reset.bm.cnt i = 0) ∧
  State.reset.bm.Sound

/-- R84, R112, R116, R117, R122, R133: whatever step the machine takes from a state in which no buffer of the Bumas holds more than
it can and a run's program counter lies in a validated program, that holds after it. -/
def Obligations.EveryStepKeepsTheBumasSound : Prop :=
  ∀ s t : State, s.bm.Sound → step s = .next t → t.bm.Sound
/-! ### The Bumas macro: power, counting, markers, samples, snoop channels, audit sites, sensors, register port -/

/-- R100, R102 (Table 3.13): reset by either pin returns the whole block to its reset values, keeps the pins, and notes its
cause; release of the last of the two starts link training (R101). The model's own count of free values goes on (log entry 14). -/
def Obligations.PowerAndResetPinsMoveTheBumas : Prop := ∀ s : State,
  exec .bmPwrOkFall s = .next { s with
    bm :=
      { Bumas.reset with pwrOk := false, rstN := s.bm.rstN, cause := .pwr, free := s.bm.free } } ∧
  exec .bmRstNAssert s = .next { s with
    bm :=
      { Bumas.reset with
        pwrOk := s.bm.pwrOk, rstN := false, free := s.bm.free,
                           cause := if s.bm.alive then .rst else s.bm.cause } } ∧
  (s.bm.pwrOk = false → exec .bmPwrOkRise s = .next { s with
    bm :=
      { s.bm with pwrOk := true, tap := if s.bm.rstN then { s.bm.tap with tr := { st := .detect } } else s.bm.tap } }) ∧
  (s.bm.rstN = false → exec .bmRstNRelease s = .next { s with
    bm :=
      { s.bm with rstN := true, tap := if s.bm.pwrOk then { s.bm.tap with tr := { st := .detect } } else s.bm.tap } })

/-- R82: every counter takes the sum, modulo 2⁶⁴, of its event line (below 256) and of every increment port that names it; nothing
but the counters changes. R84: a marker with an ID is latched after the others with its argument and the local time of its
capture; the 257th of an interval is dropped and counted; ID 0 is dropped, counted, and sets PORT_ERR (bit 4 of BM_IRQ_STAT). R86,
R93, R81: a PC sample in the open window is kept under its core's number, a second one of the same core replaces it and counts as
DUP, one outside a window counts as STRAY; the window closes; an energy increment is added modulo 2⁶⁴; a clock gap is noted for
the tick's records. Each sets PORT_ERR (bit 4) or CLK_GAP (bit 3) only where said. -/
def Obligations.CountersMarkersAndSamplesAreTaken : Prop :=
  (∀ (s : State) (evt : BitVec 256) (incs : List CntInc),
    s.bm.running = true → ∃ cnt : SMap Word,
      exec (.eventCount evt incs) s = .next { s with bm := { s.bm with cnt := cnt } } ∧
      ∀ c : Nat, SMap.get 0 cnt c = SMap.get 0 s.bm.cnt c + (if c < 256 ∧ evt.getLsbD c = true then 1 else 0)
        + word ((incs.filter fun i => i.id.toNat = c).map fun i => i.inc.toNat).sum) ∧
  (∀ (s : State) (id : BitVec 16) (arg : BitVec 32),
    s.bm.running = true →
    (id ≠ 0 → s.bm.markC.marks.length < 256 → exec (.markerCapture id arg) s = .next { s with
      bm := { s.bm with
          markC := { s.bm.markC with marks := s.bm.markC.marks ++ [⟨id, arg, s.bm.nowNs⟩] } } }) ∧
    (id ≠ 0 → 256 ≤ s.bm.markC.marks.length → exec (.markerCapture id arg) s = .next { s with
      bm := { s.bm with
          markC := { s.bm.markC with dropped := s.bm.markC.dropped + 1 } } }) ∧
    (id = 0 → exec (.markerCapture id arg) s = .next { s with
      bm :=
          ({ s.bm with markC := { s.bm.markC with zeroId := s.bm.markC.zeroId + 1 } } : Bumas).wr Reg.BM_IRQ_STAT
            (putBit (s.bm.rd Reg.BM_IRQ_STAT) 4 true) })) ∧
  (∀ s : State,
    (∀ core pc stall, s.bm.running = true → s.bm.pcs.isOpen = true → core.toNat < fld (s.bm.rd Reg.BM_PCS_CFG) 0 10 →
      s.bm.pcs.mode ≠ .stride →
      (SMap.get none s.bm.pcs.samples core.toNat = none →
        exec (.pcSample core pc stall) s = .next { s with
          bm := { s.bm with
          pcs := { s.bm.pcs with
            taken := s.bm.pcs.taken + 1, samples := SMap.put none s.bm.pcs.samples core.toNat (some ⟨pc, stall, false⟩) } } }) ∧
      (SMap.get none s.bm.pcs.samples core.toNat ≠ none →
        exec (.pcSample core pc stall) s = .next { s with
          bm := ({ s.bm with
          pcs := { s.bm.pcs with
            dup := s.bm.pcs.dup + 1, samples := SMap.put none s.bm.pcs.samples core.toNat (some ⟨pc, stall, true⟩) } } : Bumas).wr
              Reg.BM_IRQ_STAT (putBit (s.bm.rd Reg.BM_IRQ_STAT) 4 true) })) ∧
    (∀ core pc stall, s.bm.running = true → s.bm.pcs.isOpen = false →
      exec (.pcSample core pc stall) s = .next { s with
        bm := ({ s.bm with pcs := { s.bm.pcs with stray := s.bm.pcs.stray + 1 } } :
          Bumas).wr Reg.BM_IRQ_STAT (putBit (s.bm.rd Reg.BM_IRQ_STAT) 4 true) }) ∧
    (s.bm.alive = true → exec .pcWindowClose s = .next { s with bm := { s.bm with pcs := { s.bm.pcs with isOpen := false } } }) ∧
    (∀ nJ, s.bm.running = true → exec (.energyIncrement nJ) s = .next { s with
      bm :=
        { s.bm with energy := s.bm.energy + word nJ.toNat, incs := s.bm.incs + 1 } }) ∧
    (s.bm.alive = true → exec .clkGap s = .next { s with
      bm :=
        ({ s.bm with time := { s.bm.time with clkGap := true } } : Bumas).wr Reg.BM_IRQ_STAT
          (putBit (s.bm.rd Reg.BM_IRQ_STAT) 3 true) }))

/-- R87, R107: a message counts in the interval of its last beat: a middle beat only joins the message in progress, whatever it
carries, and the last beat counts the message and its bytes. R89, R264: a query is queued with the tick, the hash of its site and
the threshold in force, and selected when the hash is below the threshold; the answer to the oldest query takes the lowest free
slot. R90, R91, R98: a write inside a granted slot, past its first beat, changes exactly the strobed bytes; a write outside a
granted slot changes no byte and counts as stray; an expired slot is cleared, and once cleared reads zero everywhere and is free. -/
def Obligations.SnoopMessagesAndAuditSitesAreTaken : Prop :=
  (∀ (s : State) (bt : SnoopBeat) (c : SnoopCh) (m : SnoopMsg),
    s.bm.running = true → s.bm.snpEn = true → SMap.get {} s.bm.snoop bt.ch.toNat = c → c.skip = false → c.msg = some m →
    (bt.last = false → exec (.snoopBeat bt) s = .next { s with
      bm := { s.bm with
      snoop := SMap.put {} s.bm.snoop bt.ch.toNat
          { c with msg := some { m with beats := m.beats ++ [(bt.data, bt.keep)] } } } }) ∧
    (bt.last = true → m.fmt.toNat < 9 → ∃ a : SnoopAcc, exec (.snoopBeat bt) s = .next { s with
      bm := { s.bm with
          snoop := SMap.put {} s.bm.snoop bt.ch.toNat { c with msg := none, cur := a } } } ∧
      a.msgs = satN 32 (c.cur.msgs + 1) ∧ a.lastFmt = m.fmt.toNat ∧
      a.bytes = c.cur.bytes + ((m.beats ++ [(bt.data, bt.keep)]).map fun p => (keptBytes p.1 p.2).length).sum ∧
      a.lastCrc = word (crc64 ((m.beats ++ [(bt.data, bt.keep)]).map fun p => keptBytes p.1 p.2).flatten))) ∧
  (∀ s : State, s.bm.running = true →
    (∀ site, exec (.auditQuery site) s = .next { s with
      bm := { s.bm with
      audit := { s.bm.audit with
        cur := { s.bm.audit.cur with queries := s.bm.audit.cur.queries + 1 },
        pend := s.bm.audit.pend ++ [{
          site := site, tick := s.bm.time.tickNo, aw := s.bm.awEn, lk := s.bm.linkUp,
            hash := auditHash (s.bm.rd Reg.BM_AUDIT_SEED).toNat s.bm.time.tickNo.toNat s.bm.dieIndex site.toNat,
            thr := BitVec.ofNat 32 (fld (s.bm.rd Reg.BM_AUDIT_THRESH) 0 32),
            sel := decide ((auditHash (s.bm.rd Reg.BM_AUDIT_SEED).toNat s.bm.time.tickNo.toNat s.bm.dieIndex site.toNat).toNat
              < fld (s.bm.rd Reg.BM_AUDIT_THRESH) 0 32) }] } } }) ∧
    (∀ q rest slot, s.bm.audit.pend = q :: rest → q.sel = true → q.aw = true → q.lk = true → s.bm.linkUp = true →
      s.bm.sizePending = false → q.tick = s.bm.time.tickNo → (q.tick, q.site) ∉ s.bm.audit.sites →
      s.bm.audit.freeSlot? = some slot →
      ∃ a : BmAudit, exec .auditAnswer s = .next { s with bm := { s.bm with audit := a } } ∧
        a.take = true ∧ a.slotOut = BitVec.ofNat 5 slot ∧ a.pend = rest ∧ a.window = s.bm.audit.window ∧
        a.slots = SMap.put {} s.bm.audit.slots slot
          { st := .granted, grantTick := q.tick, site := q.site, hash := q.hash, thr := q.thr } ∧
        a.cur = { s.bm.audit.cur with selected := s.bm.audit.cur.selected + 1, granted := s.bm.audit.cur.granted + 1 })) ∧
  (∀ s : State,
    (∀ addr data strb, s.bm.awReady = true →
      (SMap.get {} s.bm.audit.slots (addr.toNat / 64 * 64 / s.bm.audit.slotSize.getD 2097152)).st = .granted →
      addr.toNat % 64 = 0 → addr.toNat % s.bm.audit.slotSize.getD 2097152 ≠ 0 →
      ∃ w : SMap Byte, exec (.auditWindowWrite addr data strb) s = .next { s with
        bm := { s.bm with
            audit := { s.bm.audit with window := w } } } ∧
        ∀ a : Nat, SMap.get 0 w a = if addr.toNat ≤ a ∧ a < addr.toNat + 64 ∧ strb.getLsbD (a - addr.toNat) = true
          then BitVec.ofNat 8 (fldN data.toNat (8 * (a - addr.toNat)) 8) else SMap.get 0 s.bm.audit.window a) ∧
    (∀ addr data strb, s.bm.awReady = true →
      (SMap.get {} s.bm.audit.slots (addr.toNat / 64 * 64 / s.bm.audit.slotSize.getD 2097152)).st ≠ .granted →
      exec (.auditWindowWrite addr data strb) s = .next { s with
        bm :=
          ({ s.bm with audit := { s.bm.audit with stray := s.bm.audit.stray + 1 } } : Bumas).wr Reg.BM_IRQ_STAT
            (putBit (s.bm.rd Reg.BM_IRQ_STAT) 4 true) }) ∧
    (∀ slot, s.bm.alive = true → (SMap.get {} s.bm.audit.slots slot.toNat).st = .granted →
      (SMap.get {} s.bm.audit.slots slot.toNat).grantTick.toNat + 1 ≤ s.bm.time.tickNo.toNat →
      ∃ t, exec (.auditSlotExpire slot) s = .next t ∧ (SMap.get {} t.bm.audit.slots slot.toNat).st = .clearing ∧
        t.bm.audit.expired = s.bm.audit.expired + 1 ∧ bit (t.bm.rd Reg.BM_IRQ_STAT) 2 = true ∧
        t.bm.audit.window = s.bm.audit.window ∧ t.bm.tap = s.bm.tap ∧ t.gx = s.gx) ∧
    (∀ slot, s.bm.alive = true → (SMap.get {} s.bm.audit.slots slot.toNat).st = .clearing →
      ∃ t, exec (.auditSlotClearDone slot) s = .next t ∧ (SMap.get {} t.bm.audit.slots slot.toNat).st = .free ∧
        (∀ a, a / s.bm.audit.slotSize.getD 2097152 = slot.toNat → SMap.get 0 t.bm.audit.window a = 0) ∧
        (∀ a, a / s.bm.audit.slotSize.getD 2097152 ≠ slot.toNat →
          SMap.get 0 t.bm.audit.window a = SMap.get 0 s.bm.audit.window a) ∧ t.gx = s.gx))

/-- R128 to R130: a fall below its threshold on an armed, enabled droop input is one event and deepens the level; a recovery arms it
again; a round that ends replaces the readings of its inputs, an open input reading 0x8000 and a voltage clamped to 0.30 V and
1.50 V. -/
def Obligations.SensorRoundsAndDroopsReplaceReadings : Prop := ∀ s : State,
  (∀ (input : BitVec 3) (level : BitVec 16), s.bm.running = true → bit (s.bm.rd Reg.BM_SNS_EN) (48 + input.toNat) = true →
    (SMap.get {} s.bm.droop input.toNat).below = false → level.toNat < s.bm.droopThr input.toNat →
    ∃ d : SMap Droop, exec (.droopEvent input level) s = .next { s with bm := { s.bm with droop := d } } ∧
      (SMap.get {} d input.toNat).below = true ∧
      (SMap.get {} d input.toNat).events = min 65535 ((SMap.get {} s.bm.droop input.toNat).events + 1) ∧
      (SMap.get {} d input.toNat).deepest.toNat = min level.toNat (SMap.get {} s.bm.droop input.toNat).deepest.toNat ∧
      ∀ i, i ≠ input.toNat → SMap.get {} d i = SMap.get {} s.bm.droop i) ∧
  (∀ input : BitVec 3, s.bm.alive = true →
    ∃ d : SMap Droop, exec (.droopRecovery input) s = .next { s with bm := { s.bm with droop := d } } ∧
      ∀ i, SMap.get {} d i = if i = input.toNat then { (SMap.get {} s.bm.droop i) with below := false }
        else SMap.get {} s.bm.droop i) ∧
  (∀ reads m, s.bm.alive = true → s.bm.therm.running = some m → s.bm.therm.waiting = none →
    ∃ c : Conv, exec (.thermalRoundDone reads) s = .next { s with bm := { s.bm with therm := c } } ∧
      c.running = none ∧ c.rounds = s.bm.therm.rounds + 1 ∧
      ∀ i < 32, SMap.get 0x8000 c.reads i = if m.testBit i then thermReading (reads.getD i .broken)
        else SMap.get 0x8000 s.bm.therm.reads i) ∧
  (∀ reads m, s.bm.alive = true → s.bm.volt.running = some m → s.bm.volt.waiting = none →
    ∃ c : Conv, exec (.voltageRoundDone reads) s = .next { s with bm := { s.bm with volt := c, free := s.bm.free + 16 } } ∧
      c.running = none ∧ c.rounds = s.bm.volt.rounds + 1 ∧
      ∀ j < 16, ∀ v, reads[j]? = some (.volt v) → m.testBit j = true →
        (SMap.get 0xFFFF c.reads j).toNat = max 0x04B0 (min 0x1770 v.toNat))

/-- R14, R96: a host write of a register that the host owns acknowledges without error, an RW register reading the written value
(reserved bits 0) at once; a write that its owner does not permit changes no register but the refusal count and answers an error;
a read of BM_TIME_SEC latches the sub-second part of the same instant. -/
def Obligations.HostPortWritesWhatItOwns : Prop := ∀ s : State, s.bm.alive = true →
  (∀ (addr : BitVec 13) (data : Word) (f : RegFam), addr.toNat * 8 < 0x8000 → regFind bmRegFams (addr.toNat * 8) = some f →
    f.acc = .rw → f.own = .host → progBufOf (addr.toNat * 8) = none → addr.toNat * 8 ≠ Reg.BM_CTRL →
    exec (.hostCsrWrite addr data) s = .next { s with
      bm := { (s.bm.wr (addr.toNat * 8) (data &&& f.wmask)) with
        csrErr := false, csrData := 0 } }) ∧
  (∀ (addr : BitVec 13) (data : Word), s.bm.csrMayWrite .host (addr.toNat * 8) = false →
    exec (.hostCsrWrite addr data) s = .next { s with
      bm := { (s.bm.wr Reg.BM_CSR_REFUSED
        (satAdd (s.bm.rd Reg.BM_CSR_REFUSED) 1)) with csrErr := true, csrData := 0 } }) ∧
  (∃ t, exec .bmTimeSecRead s = .next t ∧ t.bm.rd Reg.BM_TIME_SUB = word (subOf s.bm.time.clk) ∧ t.bm.csrErr = false ∧
    t.bm.cnt = s.bm.cnt ∧ t.bm.time = s.bm.time ∧ t.gx = s.gx)

/-! ### The probe sequencer -/

/-- R111, R113, R114 (Table 4.3): each instruction that writes one register writes s_RD (a write to s0 is discarded, and s0 reads
0) with the operation of its row, in its row's cycles, and goes on to the next word; the alert mask, the histograms, the
snapshots, the counters, the queue and the Glexon stay. Each row: the command, OP, V, cycles, result. R114 (CMP, relation in
IMM[2:0]): the compare writes 1 or 0; OR.K ORs IMM shifted left by 12 × RB for RB up to 5, and faults with OPERAND beyond. R114,
R118: SNAP.C, SNAP.P and DELTA.C read counter s_RA + IMM of the two snapshot copies, in 2 cycles, never the live counter, and
fault with INDEX above 4,095; SNAP.E reads the energy copies, and faults with OPERAND for another IMM. -/
def Obligations.ProbeArithmeticComparesAndSnapshots : Prop :=
  (∀ row ∈ ([
      (.snapS, 0x01, 3, 1, fun b o => b.statusItem o.imm.toNat),
      (.deltaE, 0x02, 1, 2, fun b _ => b.energyN - b.energyP),
      (.probeSel, 0x03, 0, 1, fun b o => if b.sreg (o.imm.setWidth 4) ≠ 0 then b.sreg o.ra else b.sreg o.rb),
      (.probeAdd, 0x04, 0, 1, fun b o => b.sreg o.ra + b.sreg o.rb),
      (.probeAddI, 0x04, 1, 1, fun b o => b.sreg o.ra + o.imm.signExtend 64),
      (.probeSub, 0x05, 0, 1, fun b o => b.sreg o.ra - b.sreg o.rb),
      (.probeSubI, 0x05, 1, 1, fun b o => b.sreg o.ra - o.imm.signExtend 64),
      (.probeAnd, 0x06, 0, 1, fun b o => b.sreg o.ra &&& b.sreg o.rb),
      (.probeAndI, 0x06, 1, 1, fun b o => b.sreg o.ra &&& o.imm.zeroExtend 64),
      (.probeOr, 0x07, 0, 1, fun b o => b.sreg o.ra ||| b.sreg o.rb),
      (.probeOrI, 0x07, 1, 1, fun b o => b.sreg o.ra ||| o.imm.zeroExtend 64),
      (.shfL, 0x08, 0, 1, fun b o => b.sreg o.ra <<< (((b.sreg o.rb).toNat + o.imm.toNat % 64) % 64)),
      (.shfR, 0x08, 1, 1, fun b o => b.sreg o.ra >>> (((b.sreg o.rb).toNat + o.imm.toNat % 64) % 64)),
      (.shfA, 0x08, 2, 1, fun b o => (b.sreg o.ra).sshiftRight (((b.sreg o.rb).toNat + o.imm.toNat % 64) % 64)),
      (.shfO, 0x08, 3, 1, fun b o => (b.sreg o.ra).rotateRight (((b.sreg o.rb).toNat + o.imm.toNat % 64) % 64))] :
        List ((ProbeOp → Instr) × Nat × Nat × Nat × (Bumas → ProbeOp → Word))),
    ∀ (s : State) (o : ProbeOp), s.bm.issues row.2.1 row.2.2.1 o = true → s.bm.probe.pc + 1 < s.bm.probe.len →
      exec (row.1 o) s = .next { s with bm := (s.bm.passed row.2.2.2.1).setSreg o.rd (row.2.2.2.2 s.bm o) }) ∧
  ((∀ row ∈ ([(.probeCmpEq, 0, fun x y => x == y), (.probeCmpNe, 1, fun x y => x != y), (.probeCmpLtu, 2, fun x y => x.ult y),
        (.probeCmpGeu, 3, fun x y => !x.ult y), (.probeCmpLt, 4, fun x y => x.slt y), (.probeCmpGe, 5, fun x y => !x.slt y)] :
        List ((ProbeOp → Instr) × BitVec 12 × (Word → Word → Bool))),
      ∀ (s : State) (o : ProbeOp), s.bm.issues 0x09 0 { o with imm := row.2.1 } = true → s.bm.probe.pc + 1 < s.bm.probe.len →
        exec (row.1 o) s = .next { s with
          bm :=
            (s.bm.passed 1).setSreg o.rd (if row.2.2 (s.bm.sreg o.ra) (s.bm.sreg o.rb) then 1 else 0) }) ∧
    (∀ (s : State) (o : ProbeOp), s.bm.issues 0x07 2 o = true →
      (o.rb.toNat ≤ 5 → s.bm.probe.pc + 1 < s.bm.probe.len → exec (.orK o) s = .next { s with
        bm :=
          (s.bm.passed 1).setSreg o.rd (s.bm.sreg o.ra ||| (o.imm.zeroExtend 64 <<< (12 * o.rb.toNat))) }) ∧
      (5 < o.rb.toNat → exec (.orK o) s = .next { s with
        bm :=
          ({ s.bm with pcsReq := false } : Bumas).probeFault 3 s.bm.probe.pc }))) ∧
  (∀ (s : State) (o : ProbeOp),
    (∀ row ∈ ([(.snapC, 0x01, 0, fun b c => SMap.get 0 b.snapN c), (.snapP, 0x01, 1, fun b c => SMap.get 0 b.snapP c),
        (.deltaC, 0x02, 0, fun b c => SMap.get 0 b.snapN c - SMap.get 0 b.snapP c)] :
        List ((ProbeOp → Instr) × Nat × Nat × (Bumas → Nat → Word))),
      s.bm.issues row.2.1 row.2.2.1 o = true →
      ((s.bm.sreg o.ra + o.imm.zeroExtend 64).toNat ≤ 4095 → s.bm.probe.pc + 1 < s.bm.probe.len →
        exec (row.1 o) s = .next { s with
          bm :=
            (s.bm.passed 2).setSreg o.rd (row.2.2.2 s.bm (s.bm.sreg o.ra + o.imm.zeroExtend 64).toNat) }) ∧
      (4095 < (s.bm.sreg o.ra + o.imm.zeroExtend 64).toNat →
        exec (row.1 o) s = .next { s with bm := ({ s.bm with pcsReq := false } : Bumas).probeFault 1 s.bm.probe.pc })) ∧
    (s.bm.issues 0x01 2 o = true →
      (o.imm = 0 → s.bm.probe.pc + 1 < s.bm.probe.len →
        exec (.snapE o) s = .next { s with bm := (s.bm.passed 2).setSreg o.rd s.bm.energyN }) ∧
      (o.imm = 1 → s.bm.probe.pc + 1 < s.bm.probe.len →
        exec (.snapE o) s = .next { s with bm := (s.bm.passed 2).setSreg o.rd s.bm.energyP }) ∧
      (1 < o.imm.toNat → exec (.snapE o) s = .next { s with
        bm :=
          ({ s.bm with pcsReq := false } : Bumas).probeFault 3 s.bm.probe.pc })))

/-- R115: a fault ends the run: nothing runs until the next boundary, the cause's program counter and the count of faults stand in
BM_PROBE_STAT, and no register of the sequencer changes. R114: a branch whose target lies in the program goes there in 2 cycles
when taken, and to the next word in 1 when not. -/
def Obligations.ProbeBranchesAndFaults : Prop :=
  (∀ (b : Bumas) (cause pc : Nat), pc < 1024 →
    (b.probeFault cause pc).probe.running = false ∧ (b.probeFault cause pc).probe.s = b.probe.s ∧
    fld ((b.probeFault cause pc).rd Reg.BM_PROBE_STAT) 0 10 = pc ∧
    fld ((b.probeFault cause pc).rd Reg.BM_PROBE_STAT) 32 16 = min 65535 (fld (b.rd Reg.BM_PROBE_STAT) 32 16 + 1) ∧
    (b.probeFault cause pc).probe.block = none ∧ (b.probeFault cause pc).cnt = b.cnt) ∧
  (∀ row ∈ ([(.probeBr, 0, fun _ => true), (.probeBrZ, 1, fun v => v == 0), (.probeBrNz, 2, fun v => v != 0)] :
      List ((ProbeOp → Instr) × Nat × (Word → Bool))),
    ∀ (s : State) (o : ProbeOp) (t : Nat), s.bm.issues 0x0A row.2.1 o = true →
      (row.2.2 (s.bm.sreg o.ra) = true → (s.bm.probe.pc : Int) + o.imm.toInt = t → t < s.bm.probe.len →
        exec (row.1 o) s = .next { s with
          bm := { s.bm with
          pcsReq := false, probe := { s.bm.probe with
            pc := t, cycles := s.bm.probe.cycles + 2, instrs := s.bm.probe.instrs + 1 } } }) ∧
      (row.2.2 (s.bm.sreg o.ra) = false → s.bm.probe.pc + 1 < s.bm.probe.len →
        exec (row.1 o) s = .next { s with bm := s.bm.passed 1 }))

/-- R119, R120: HIST.V adds 1, and HIST.W the low 32 bits of s_RB, to the bin that floor(log₂ v) + 1 names (0 for 0, at most 63),
saturating at 32 bits, and no other bin changes; THRESH.C sets its alert bit, which stays set, and writes 1, when s_RA is not
below s_RB, and writes 0 otherwise. R119 (the bins): bin k ≥ 1 below 63 holds exactly the values from 2ᵏ⁻¹ to 2ᵏ − 1, and bin 0
holds 0. R121, R122: THRESH.MI with a base ID in range scans the markers of the closed interval once a run; a second one in the
run writes 0 and scans nothing; a base ID out of range faults with OPERAND. -/
def Obligations.HistogramsAlertsAndTheIntervalScan : Prop :=
  (∀ (s : State) (o : ProbeOp), s.bm.probe.pc + 1 < s.bm.probe.len →
    (∀ row ∈ ([(.histV, 0, fun _ => 1), (.histW, 1, fun w => w.toNat % 2 ^ 32)] :
        List ((ProbeOp → Instr) × Nat × (Word → Nat))),
      s.bm.issues 0x0B row.2.1 o = true → ∃ h : SMap Nat,
        exec (row.1 o) s = .next { s with bm := { (s.bm.passed 2) with probe := { (s.bm.passed 2).probe with hists := h } } } ∧
        ∀ k, SMap.get 0 h k = if k = 64 * (o.imm.toNat % 16) + histBin (s.bm.sreg o.ra).toNat
          then min (2 ^ 32 - 1) (SMap.get 0 s.bm.probe.hists k + row.2.2 (s.bm.sreg o.rb)) else SMap.get 0 s.bm.probe.hists k) ∧
    (s.bm.issues 0x0C 1 o = true →
      ((s.bm.sreg o.rb).toNat ≤ (s.bm.sreg o.ra).toNat → exec (.threshC o) s = .next { s with
        bm :=
          ({ (s.bm.passed 1) with
            probe := { (s.bm.passed 1).probe with
                alert := s.bm.probe.alert ||| (1#32 <<< (o.imm.toNat % 32)) } } : Bumas).setSreg o.rd 1 }) ∧
      ((s.bm.sreg o.ra).toNat < (s.bm.sreg o.rb).toNat → exec (.threshC o) s = .next { s with
        bm :=
          (s.bm.passed 1).setSreg o.rd 0 }))) ∧
  (∀ v k : Nat,
    (k < 63 → (histBin v = k ↔ if k = 0 then v = 0 else 2 ^ (k - 1) ≤ v ∧ v < 2 ^ k)) ∧
    (histBin v = 63 ↔ 2 ^ 62 ≤ v) ∧ (v ≠ 0 → histBin v = min 63 (Nat.log2 v + 1))) ∧
  (∀ (s : State) (o : ProbeOp), s.bm.issues 0x0C 0 o = true →
    (miBaseOk (fld (s.bm.sreg o.ra) 0 16) = false → exec (.threshMi o) s = .next { s with
      bm :=
        ({ s.bm with pcsReq := false } : Bumas).probeFault 3 s.bm.probe.pc }) ∧
    (miBaseOk (fld (s.bm.sreg o.ra) 0 16) = true → s.bm.probe.scanned = true → s.bm.probe.pc + 1 < s.bm.probe.len →
      exec (.threshMi o) s = .next { s with bm := (s.bm.passed 2).setSreg o.rd 0 }) ∧
    (miBaseOk (fld (s.bm.sreg o.ra) 0 16) = true → s.bm.probe.scanned = false → s.bm.markP.marks = [] → s.bm.probe.opens = [] →
      s.bm.probe.pc + 1 < s.bm.probe.len → exec (.threshMi o) s = .next { s with
        bm :=
          ({ (s.bm.passed 2) with probe := { (s.bm.passed 2).probe with scanned := true } } : Bumas).setSreg o.rd 0 }))

/-- R112, R133: an EMIT that fits the 64 KiB buffer uses its bytes: EMIT.W and EMIT.H add one entry (16 and 264 bytes) to the open
COUNTER_BLOCK and EMIT.K its deltas; EMIT.R closes one record of its type, counted and numbered. One that does not fit sets EMIT_FULL
and adds nothing. -/
def Obligations.EmitsFillTheBufferInOrder : Prop := ∀ (s : State) (o : ProbeOp), s.bm.probe.pc + 1 < s.bm.probe.len →
  (∀ row ∈ ([(.emitW, 0, cbEntry o.imm.toNat 1 1 (leBytes 8 (s.bm.sreg o.ra).toNat)),
      (.emitH, 2, cbEntry (o.imm.toNat % 16) 3 32
        ((List.range 64).map fun k => leBytes 4 (SMap.get 0 s.bm.probe.hists (64 * (o.imm.toNat % 16) + k))).flatten)] :
      List ((ProbeOp → Instr) × Nat × List Byte)),
    s.bm.issues 0x0D row.2.1 o = true →
    (s.bm.probe.emitUsed + row.2.2.length ≤ 65536 → (s.bm.probe.block.getD []).length + row.2.2.length ≤ 16384 →
      exec (row.1 o) s = .next { s with
        bm :=
          { (s.bm.passed (4 + (row.2.2.length + 63) / 64)) with
            probe := { (s.bm.passed (4 + (row.2.2.length + 63) / 64)).probe with
                emitUsed := s.bm.probe.emitUsed + row.2.2.length, block := some (s.bm.probe.block.getD [] ++ row.2.2) } } }) ∧
    (65536 < s.bm.probe.emitUsed + row.2.2.length → exec (row.1 o) s = .next { s with
      bm :=
        { (s.bm.passed 4) with probe := { (s.bm.passed 4).probe with emitFull := true } } })) ∧
  (∀ c n : Nat, s.bm.issues 0x0D 1 o = true → (s.bm.sreg o.ra + o.imm.zeroExtend 64).toNat = c → (s.bm.sreg o.rb).toNat = n →
    0 < n → n ≤ 2047 → c + n ≤ 4096 → s.bm.probe.block = none → s.bm.probe.emitUsed + 8 + 8 * n ≤ 65536 →
    exec (.emitK o) s = .next { s with
      bm := { (s.bm.passed (4 + (8 * n + 8 + 63) / 64)) with
      probe :=
        { (s.bm.passed (4 + (8 * n + 8 + 63) / 64)).probe with
          emitUsed := s.bm.probe.emitUsed + (8 * n + 8), block := some (cbEntry c 2 n (s.bm.deltas c n)) } } }) ∧
  (∀ row ∈ ([(.emitRMarker, 3, s.bm.markerPayload), (.emitRPcSamples, 4, s.bm.closeWindow.pcPayload),
      (.emitRDigest, 5, ((onesBelow 16 (s.bm.sreg o.ra).toNat).map s.bm.digestEntry).flatten),
      (.emitRSensor, 6, s.bm.sensorPayload), (.emitREnergy, 7, s.bm.energyPayload)] :
      List ((ProbeOp → Instr) × BitVec 12 × List Byte)),
    o.imm = row.2.1 → s.bm.issues 0x0D 3 o = true → s.bm.probe.emitUsed + row.2.2.length ≤ 65536 →
    ∃ t, exec (row.1 o) s = .next t ∧ t.bm.probe.emitUsed = s.bm.probe.emitUsed + row.2.2.length ∧
      t.bm.probe.closed = s.bm.probe.closed + 1 ∧ t.bm.tap.seq = s.bm.tap.seq + 1 ∧ t.bm.probe.pc = s.bm.probe.pc + 1 ∧
      t.bm.probe.s = s.bm.probe.s ∧ t.bm.cnt = s.bm.cnt ∧ t.gx = s.gx)

/-- R124, R126, R128, R114: the first PCSAMP of a run opens the collection window in its mode; DIGSET.S and DIGSET.E set what takes
effect at a channel's next first beat; ADCSTART asks for a round over the named, enabled inputs; a WAITT whose condition holds passes
in one cycle and another waits. -/
def Obligations.ProbeRequestsAndWaits : Prop := ∀ (s : State) (o : ProbeOp), s.bm.probe.pc + 1 < s.bm.probe.len →
  (∀ row ∈ ([(.pcsampF, 0, PcMode.full, 1), (.pcsampS, 1, .stride, o.imm.toNat % 512 + 1), (.pcsampH, 2, .hist, 1)] :
      List ((ProbeOp → Instr) × Nat × PcMode × Nat)),
    s.bm.issues 0x0E row.2.1 o = true → s.bm.pcs.acted = false → s.bm.pcsEn = true →
    exec (row.1 o) s = .next { s with
      bm := { (s.bm.passed 1) with
      pcsReq := true, pcs := { s.bm.pcs with
        acted := true, isOpen := true, mode := row.2.2.1, stride := row.2.2.2, samples := [] } } }) ∧
  (s.bm.issues 0x0F 0 o = true → ∃ c : SMap SnoopCh,
    exec (.digsetS o) s = .next { s with bm := { (s.bm.passed 1) with snoop := c } } ∧
    ∀ i, SMap.get {} c i = if i = o.imm.toNat % 16
      then { (SMap.get {} s.bm.snoop i) with seedSet := some (fld (s.bm.sreg o.ra) 0 61) } else SMap.get {} s.bm.snoop i) ∧
  (s.bm.issues 0x0F 1 o = true → ∃ c : SMap SnoopCh,
    exec (.digsetE o) s = .next { s with bm := { (s.bm.passed 1) with snoop := c } } ∧
    ∀ i < 16, SMap.get {} c i = { (SMap.get {} s.bm.snoop i) with enSet := some (bit (s.bm.sreg o.ra) i) }) ∧
  (s.bm.issues 0x10 0 o = true → exec (.adcstartT o) s = .next { s with
    bm := { (s.bm.passed 1) with
      therm := s.bm.therm.request (fld (s.bm.sreg o.ra) 0 32 &&& s.bm.sensEn .therm) } }) ∧
  (s.bm.issues 0x10 1 o = true → exec (.adcstartV o) s = .next { s with
    bm := { (s.bm.passed 1) with
      volt := s.bm.volt.request (fld (s.bm.sreg o.ra) 0 16 &&& s.bm.sensEn .volt) } }) ∧
  (∀ row ∈ ([(.waittT, 0, ProbeWait.time o.imm), (.waittA, 1, .adc), (.waittP, 2, .pcs)] :
      List ((ProbeOp → Instr) × Nat × ProbeWait)),
    s.bm.issues 0x11 row.2.1 o = true →
    (s.bm.waitHolds row.2.2 = true → exec (row.1 o) s = .next { s with bm := s.bm.passed 1 }) ∧
    (s.bm.waitHolds row.2.2 = false → exec (row.1 o) s = .next { s with
      bm :=
        { s.bm with pcsReq := false, probe := { s.bm.probe with wait := some row.2.2 } } })) ∧
  (∀ cycles, s.bm.running = true → s.bm.probe.running = true → s.bm.probe.wait = some .pcs → s.bm.pcs.isOpen = false →
    exec (.probeWaitDone cycles) s = .next { s with
      bm := { s.bm with
      probe := { s.bm.probe with
        wait := none, pc := s.bm.probe.pc + 1, instrs := s.bm.probe.instrs + 1,
        cycles := s.bm.probe.cycles + max 1 cycles.toNat } } })

/-- R109, R110, R116, R117: END and the 50 µs limit end the run, and its TICK_SUMMARY takes the next sequence numbers; a SWAP of a
program starts its validation, which passes exactly when every word of it is valid and its length is 1 to 1,024. R83, R107: at the
boundary of the next tick the copies of the ended interval become those at S_(n−1), and the live counters, the energy, the markers
and the audit counts become those at S_n; the counters go on counting, and the marker latch is empty. -/
def Obligations.ProbeProgramsAndTheBoundary : Prop :=
  (∀ s : State,
    (∀ o, s.bm.issues 0x3F 0 o = true → s.bm.probe.block = none → ∃ t, exec (.probeEnd o) s = .next t ∧
      t.bm.probe.running = false ∧ t.bm.probe.instrs = s.bm.probe.instrs + 1 ∧ t.bm.tap.seq = s.bm.tap.seq + 1 ∧
      t.bm.probe.s = s.bm.probe.s ∧ t.bm.cnt = s.bm.cnt ∧ t.gx = s.gx) ∧
    (s.bm.running = true → s.bm.probe.running = true → ∃ t, exec (.probeOverrun none) s = .next t ∧ t.bm.probe.running = false ∧
      fld (t.bm.rd Reg.BM_PROBE_STAT) 48 16 = min 65535 (fld (s.bm.rd Reg.BM_PROBE_STAT) 48 16 + 1) ∧
      t.bm.probe.s = s.bm.probe.s ∧ t.bm.probe.block = none ∧ t.gx = s.gx) ∧
    (∀ data, s.bm.alive = true → ∃ t, exec (.programSwap true data) s = .next t ∧ t.bm.probe.swap = true ∧
      t.bm.probe.val = .running ∧ t.bm.probe.valLen = fld data 16 11 ∧ t.bm.probe.valTag = BitVec.ofNat 32 (fld data 32 32) ∧
      t.bm.regs = s.bm.regs ∧ t.gx = s.gx) ∧
    (s.bm.alive = true → s.bm.probe.val = .running → ∃ t, exec .programValidationDone s = .next t ∧ t.gx = s.gx ∧
      t.bm.regs = s.bm.regs ∧
      (t.bm.probe.val = .passed ↔ 0 < s.bm.probe.valLen ∧ s.bm.probe.valLen ≤ 1024 ∧
        ∀ i < s.bm.probe.valLen, probeWordOk s.bm.probe.valLen i (s.bm.progWord (!s.bm.probe.progBuf) i) = true) ∧
      (t.bm.probe.val ≠ .passed → t.bm.probe.val = .failed))) ∧
  (∀ (s : State) (khz : BitVec 21),
    s.bm.alive = true → s.bm.time.ticking = true → ∃ t, exec (.bumasBoundary khz) s = .next t ∧
      t.bm.snapN = s.bm.cnt ∧ t.bm.snapP = s.bm.snapN ∧ t.bm.cnt = s.bm.cnt ∧
      t.bm.energyN = s.bm.energy ∧ t.bm.energyP = s.bm.energyN ∧ t.bm.energy = s.bm.energy ∧
      t.bm.markP = s.bm.markC ∧ t.bm.markC = {} ∧ t.bm.audit.prev = s.bm.audit.cur ∧ t.bm.audit.cur = {} ∧
      t.bm.rwt = [] ∧ (s.bm.time.adopt = none → t.bm.time.tickNo = s.bm.time.tickNo + 1) ∧
      t.bm.rd Reg.BM_SNAP_TICK = t.bm.time.tickNo ∧ t.bm.rd Reg.BM_CLK_MEAS = word khz.toNat ∧ t.gx = s.gx)

/-! ### The Tap link: both ends -/

/-- R160, R161 (Table 5.7), at either end of either link: a signal brings DETECT to TRAIN; the last trained lane brings TRAIN to
FEC_ALIGN; codeword lock on the one lane in use brings FEC_ALIGN to INIT, and on the second of two lanes to DESKEW; alignment
brings DESKEW to INIT; a limit that expires in FEC_ALIGN, DESKEW or INIT brings DETECT; and in UP a ×2 link that loses a lane goes
to FEC_ALIGN on the other, a degrade. R145, R160, R163, R165: the Bumas enters UP with the initial credit limits 64, 1,024, 1,024
and 256; a port that expects a die enters UP with the same limits, and one that does not holds the link in INIT and writes
TAP_UNEXPECTED; a TP_PORT_CFG write with EN = 0 disables the port, and the first one with EN = 1 starts detection. -/
def Obligations.LinksTrainAndComeUp : Prop :=
  (∀ (s : State) (e : LinkEnd) (lane : Bool), s.endRuns e = true →
    ((s.train e).st = .detect → ∃ t, exec (.signalDetect e lane) s = .next t ∧ (t.train e).st = .train ∧
      (if lane then (t.train e).sig1 else (t.train e).sig0) = true) ∧
    ((s.train e).st = .train → (s.train e).sig0 = !lane → (s.train e).sig1 = lane →
      ∃ t, exec (.trainDone e lane) s = .next t ∧ (t.train e).st = .fecAlign) ∧
    ((s.train e).st = .fecAlign → (s.train e).trn0 = !lane → (s.train e).trn1 = lane →
      ∃ t, exec (.codewordLock e lane) s = .next t ∧ (t.train e).st = .init) ∧
    ((s.train e).st = .fecAlign → (s.train e).trn0 = true → (s.train e).trn1 = true → (s.train e).want ≠ 1 →
      s.paired e = true → (if lane then (s.train e).lane0 else (s.train e).lane1) = true →
      ∃ t, exec (.codewordLock e lane) s = .next t ∧ (t.train e).st = .deskew) ∧
    ((s.train e).st = .deskew → ∃ t, exec (.deskewDone e) s = .next t ∧ (t.train e).st = .init) ∧
    ((s.train e).st = .fecAlign ∨ (s.train e).st = .deskew ∨ (s.train e).st = .init →
      ∃ t, exec (.trainingTimeout e) s = .next t ∧ (t.train e).st = .detect ∧ (t.train e).width = 0) ∧
    ((s.train e).st = .up → (s.train e).width = 2 → ∃ t, exec (.laneFail e lane) s = .next t ∧ (t.train e).st = .fecAlign ∧
      (t.train e).degr = true ∧ (t.train e).retrains = (s.train e).retrains + 1 ∧
      (if lane then (t.train e).trn0 else (t.train e).trn1) = true ∧ (if lane then (t.train e).trn1 else (t.train e).trn0) = false)) ∧
  (∀ s : State,
    (∀ two fresh, s.bm.alive = true → s.bm.tap.tr.st = .init → ∃ t, exec (.linkInit .bumas two fresh) s = .next t ∧
      t.bm.linkUp = true ∧ t.bm.tap.limit = [(0, 64), (1, 1024), (2, 1024), (3, 256)] ∧ t.bm.tap.sent = [] ∧
      (s.bm.tap.tr.degr = false → t.bm.tap.next = 1 ∧ t.bm.tap.hist = []) ∧ bit (t.bm.rd Reg.BM_IRQ_STAT) 1 = true ∧
      t.bm.cnt = s.bm.cnt ∧ t.gx = s.gx) ∧
    (∀ p two fresh, s.gx.coreUp = true → (s.gx.port p.toNat).tr.st = .init →
      (s.gx.tpExpected p.toNat = true → ∃ t, exec (.linkInit (.port p) two fresh) s = .next t ∧ (t.gx.port p.toNat).up = true ∧
        (t.gx.port p.toNat).limit = [(0, 64), (1, 1024), (2, 1024), (3, 256)] ∧ t.gx.mem = s.gx.mem ∧ t.bm = s.bm) ∧
      (s.gx.tpExpected p.toNat = false → (s.gx.port p.toNat).held = false → s.gx.events.length < 256 →
        ∃ t, exec (.linkInit (.port p) two fresh) s = .next t ∧ (t.gx.port p.toNat).held = true ∧
          (t.gx.port p.toNat).tr = (s.gx.port p.toNat).tr ∧ (t.gx.events.map fun x => x.code) = s.gx.events.map (fun x => x.code) ++ [0x0205] ∧
          t.gx.regs = s.gx.regs ∧ t.bm = s.bm)) ∧
    (∀ q data, s.gx.coreUp = true → (s.gx.port q.toNat).up = false →
      (bit data 63 = false → ∃ t, exec (.tpPortCfgWrite q data) s = .next t ∧ (t.gx.port q.toNat).tr.st = .disabled ∧
        t.gx.tpEn q.toNat = false ∧ t.bm = s.bm) ∧
      (bit data 63 = true → s.gx.tpEn q.toNat = false → ∃ t, exec (.tpPortCfgWrite q data) s = .next t ∧
        (t.gx.port q.toNat).tr.st = .detect ∧ t.gx.tpEn q.toNat = true ∧ t.gx.tpExpected q.toNat = bit data 62 ∧ t.bm = s.bm)))

/-- R141 to R143, R152, R155: in its block slot the Bumas drives, in this order, the oldest CMD_ACK, a TIME_ECHO, a DATA block of
the highest class that has a record, credit and tokens, else IDLE; a DATA block takes one block of credit of its class. R149: at
the end of a tick exactly the unstarted Teal and Mauve records of the tick or before, and the unstarted Sienna records sealed
before it, leave the transmit queue; what has begun, and Indigo, stays in order. R145, R155 to R157, R159: a good CREDIT block
sets the four limits; a good TIME block is stamped and queues its echo; sixteen offsets whose mean lies within ±1 µs are slewed
away, one beyond steps the clock and stops ticking; a TICK block starts a locked block at its tick, epoch and period. A block that
fails its check changes BM_TAP_ERR alone. -/
def Obligations.TheBumasSendsAndReceivesBlocks : Prop :=
  (∀ s : State, s.bm.alive = true → s.bm.linkUp = true →
    (∀ a rest, s.bm.tap.acks = a :: rest → s.bm.tap.after = none → exec .bumasBlockSlot s = .next { s with
      bm := { s.bm with
        tap := { s.bm.tap with
          acks := rest, block := mkBlock ([0x21, 0, 0, 0] ++ leBytes 4 a.seq.toNat ++ [a.status]
            ++ leBytes 7 0 ++ leBytes 8 a.data.toNat) } } }) ∧
    (∀ id t1 t2, s.bm.tap.acks = [] → s.bm.time.echo = some (id, t1, t2) → exec .bumasBlockSlot s = .next { s with
      bm := { s.bm with
        time := { s.bm.time with echo := none, exch := some (id, t1, t2, s.bm.stamp + bmEgress) },
        tap := { s.bm.tap with
          block := mkBlock ([0x31, 0, 0, 0] ++ timeWordBytes t2 ++ timeWordBytes (s.bm.stamp + bmEgress)
            ++ leBytes 2 0 ++ leBytes 2 id.toNat) } } }) ∧
    (∀ c x, s.bm.tap.acks = [] → s.bm.time.echo = none → s.bm.sendClass = some c → s.bm.tap.head c = some x →
      ∃ t, exec .bumasBlockSlot s = .next t ∧ t.bm.tap.block = dataBlock c x.sent (Rec.blocks x.r) (Rec.bytes x.r) ∧
        SMap.get 0 t.bm.tap.sent c = SMap.get 0 s.bm.tap.sent c + 1 ∧
        (∀ d, d ≠ c → SMap.get 0 t.bm.tap.sent d = SMap.get 0 s.bm.tap.sent d) ∧ t.bm.tap.limit = s.bm.tap.limit ∧
        t.bm.cnt = s.bm.cnt ∧ t.gx = s.gx) ∧
    (s.bm.tap.acks = [] → s.bm.time.echo = none → s.bm.sendClass = none → exec .bumasBlockSlot s = .next { s with
      bm := { s.bm with
        tap := { s.bm.tap with block := mkBlock [0x00] } } })) ∧
  (∀ s : State, s.bm.alive = true → ∃ t, exec .tapQueueAgeOut s = .next t ∧
    t.bm.tap.q = s.bm.tap.q.filter (fun x => !(decide (x.sent = 0) &&
      ((decide (x.r.cls = 1) || decide (x.r.cls = 3)) && decide (x.r.tick.toNat ≤ s.bm.time.tickNo.toNat) ||
        decide (x.r.cls = 2) && decide (x.r.tick.toNat + 1 ≤ s.bm.time.tickNo.toNat)))) ∧
    t.bm.cnt = s.bm.cnt ∧ t.bm.probe = s.bm.probe ∧ t.bm.time = s.bm.time ∧ t.gx = s.gx) ∧
  (∀ s : State, s.bm.alive = true →
    (∀ c : CreditBlk, s.bm.linkUp = true → c.chk = ⟨true, true⟩ → ∃ l : SMap (BitVec 32),
      exec (.creditReceive c) s = .next { s with bm := { s.bm with tap := { s.bm.tap with limit := l } } } ∧
      SMap.get 0 l 0 = c.lim0 ∧ SMap.get 0 l 1 = c.lim1 ∧ SMap.get 0 l 2 = c.lim2 ∧ SMap.get 0 l 3 = c.lim3) ∧
    (∀ c : CreditBlk, s.bm.linkUp = true → c.chk = ⟨true, false⟩ → exec (.creditReceive c) s = .next { s with
      bm :=
        s.bm.wr Reg.BM_TAP_ERR (satFld (s.bm.rd Reg.BM_TAP_ERR) 16 16 1) }) ∧
    (∀ x : TimeBlk, s.bm.linkUp = true → x.chk = ⟨true, true⟩ → ∃ t, exec (.timeReceive x) s = .next t ∧
      t.bm.time.echo = some (x.id, ofTimeWord x.t1, s.bm.stamp - bmIngress) ∧ t.bm.time.glexHold = stateHold x.state ∧
      t.bm.time.ticking = s.bm.time.ticking ∧ t.bm.cnt = s.bm.cnt ∧ t.gx = s.gx) ∧
    (∀ f : Int, 16 ≤ s.bm.time.offsets.length → s.bm.time.state ≠ .holdover → s.bm.time.state ≠ .none →
      (s.bm.time.offsets.take 16).sum / 16 = f → ∃ t, exec .bumasServoUpdate s = .next t ∧
        t.bm.rd Reg.BM_TAP_OFFSET = BitVec.ofInt 64 f ∧ t.gx = s.gx ∧
        (s.bm.time.lossSince = false ∨ (-65536000 ≤ f ∧ f ≤ 65536000) → t.bm.time.clk = s.bm.time.clk ∧ t.bm.time.ticking = s.bm.time.ticking ∧
          t.bm.time.offsets = s.bm.time.offsets.drop 16) ∧
        (s.bm.time.lossSince = true → f < -65536000 ∨ 65536000 < f → t.bm.time.ticking = false ∧ t.bm.time.state = .acquiring ∧
          t.bm.time.clk = ((s.bm.time.clk : Int) - f * 65536).toNat)) ∧
    (∀ x : TickBlk, s.bm.linkUp = true → x.chk = ⟨true, true⟩ → s.bm.time.ticking = false → s.bm.time.state = .locked → stateHold x.state = false →
      exec (.tickReceive x) s = .next { s with
        bm := { s.bm with
        time := { s.bm.time with
        ticking := true, glexHold := false,
          tickNo := word ((s.bm.nowNs - (x.epochSec.toNat * 1000000000 + x.epochNs.toNat)) / (250000 * 2 ^ (x.period.toNat % 8))),
          epoch := x.epochSec.toNat * 1000000000 + x.epochNs.toNat, period := x.period.toNat % 8, pchg := x.pchg, adopt := none } } }))

/-- R151 to R154 (Table 5.5): a good command block that carries the next number is executed once and acknowledged: NOP does
nothing else; CSR_READ answers the register's value; CSR_WRITE writes its entry or is REFUSED; PROG_LOAD puts a word into the
inactive buffer; GREYOUT, BLACKOUT and AUDIT_THRESH are held for the next boundary; RESET and LINK_RETRAIN wait for their
acknowledgement to leave; an opcode outside the table is answered BAD_OPCODE. R151: a repeated command of the 16 before NEXT is
not executed again: the remembered answer is sent again and the repeat counted, and no register but BM_TAP_CMD_STAT changes; a
command ahead of NEXT changes nothing. -/
def Obligations.TapCommandsExecuteOnce : Prop :=
  (∀ (s : State) (c : TapCmd),
    s.bm.alive = true → s.bm.linkUp = true → c.chk = ⟨true, true⟩ → c.seq = s.bm.tap.next →
    (c.argLen = 0 → Answered s (exec (.tapNop c) s) c.seq 0 0 fun b => b.regs = s.bm.regs ∧ b.rwt = s.bm.rwt) ∧
    (c.argLen = 2 → leAt c.args 0 2 ≠ Reg.BM_TIME_SEC → Answered s (exec (.csrRead c) s) c.seq 0 (s.bm.csrRead .tap (leAt c.args 0 2))
      fun b => b.regs = s.bm.regs ∧ b.rwt = s.bm.rwt) ∧
    (c.argLen = 16 → s.bm.csrMayWrite .tap (leAt c.args 0 2) = true → ∃ b1, s.bm.csrWrite .tap (leAt c.args 0 2) (word (leAt c.args 8 8)) = (b1, true) ∧
      Answered s (exec (.csrWrite c) s) c.seq 0 0 fun b => b.regs = b1.regs ∧ b.rwt = b1.rwt) ∧
    (c.argLen = 16 → s.bm.csrMayWrite .tap (leAt c.args 0 2) = false →
      Answered s (exec (.csrWrite c) s) c.seq 1 0 fun b => b.rwt = s.bm.rwt) ∧
    (∀ i w, c.argLen = 8 → leAt c.args 0 2 = i → i < 1024 → leAt c.args 2 1 = 1 → leAt c.args 3 1 = 0 → leAt c.args 4 4 = w →
      s.bm.bufWritable (!s.bm.probe.progBuf) = true → Answered s (exec (.progLoad c) s) c.seq 0 0 fun b =>
        b.progWord (!s.bm.probe.progBuf) i = w ∧
        ∀ j < 1024, j ≠ i → b.progWord (!s.bm.probe.progBuf) j = s.bm.progWord (!s.bm.probe.progBuf) j) ∧
    (∀ m, c.argLen = 16 → leAt c.args 0 1 = m → tapMaskOk m = true → Answered s (exec (.tapGreyout c) s) c.seq 0 0 fun b =>
      b.regs = s.bm.regs ∧ ∀ k, 1 ≤ k → k ≤ 3 → b.csrRead .tap (Reg.BM_TAP_SHAPE k) =
        if m.testBit k then word (leAt c.args 8 8) &&& 0xFFFFFF0000FFFFFF else s.bm.csrRead .tap (Reg.BM_TAP_SHAPE k)) ∧
    (∀ m, c.argLen = 1 → leAt c.args 0 1 = m → tapMaskOk m = true → Answered s (exec (.tapBlackout c) s) c.seq 0 0 fun b =>
      b.regs = s.bm.regs ∧ b.csrRead .tap Reg.BM_TAP_BLACKOUT = word m) ∧
    (c.argLen = 4 → Answered s (exec (.auditThresh c) s) c.seq 0 0 fun b =>
      b.regs = s.bm.regs ∧ b.csrRead .tap Reg.BM_AUDIT_THRESH = word (leAt c.args 0 4)) ∧
    (c.argLen = 2 → leAt c.args 0 2 = 0x5A5A → Answered s (exec (.tapReset c) s) c.seq 0 0 fun b =>
      b.regs = s.bm.regs ∧ b.tap.after = some (c.seq, .reset)) ∧
    (∀ w, c.argLen = 1 → leAt c.args 0 1 = w → w = 1 ∨ w = 2 → Answered s (exec (.linkRetrain c) s) c.seq 0 0 fun b =>
      b.regs = s.bm.regs ∧ b.tap.after = some (c.seq, .retrain (decide (w = 2)))) ∧
    (∀ op : BitVec 16, 8 < op.toNat → Answered s (exec (.badOpcode op c) s) c.seq 2 0 fun b => b.rwt = s.bm.rwt)) ∧
  (∀ (s : State) (c : TapCmd) (a : TapAck),
    s.bm.alive = true → s.bm.linkUp = true → c.chk = ⟨true, true⟩ →
    (∀ x ∈ ([.tapNop c, .csrWrite c, .csrRead c, .progLoad c, .tapGreyout c, .tapBlackout c, .auditThresh c, .tapReset c,
        .linkRetrain c] : List Instr),
      (1 ≤ (s.bm.tap.next - c.seq).toNat → (s.bm.tap.next - c.seq).toNat ≤ 16 →
        (s.bm.tap.hist.find? fun y => y.seq == c.seq) = some a → exec x s = .next { s with
          bm := { s.bm with
            regs := (s.bm.wr Reg.BM_TAP_CMD_STAT (satFld (s.bm.rd Reg.BM_TAP_CMD_STAT) 16 16 1)).regs,
            tap := { s.bm.tap with acks := s.bm.tap.acks ++ [a] } } }) ∧
      (1 ≤ (c.seq - s.bm.tap.next).toNat → (c.seq - s.bm.tap.next).toNat < 2 ^ 31 → exec x s = .next s)))

/-- R141, R146, R151, R152, R155, R159: in its block slot a port sends a due TICK, a due TIME block, a command (which takes the next
number and waits for its answer), a due CREDIT block, else IDLE; a good CMD_ACK retires its own command only; an unanswered command
is sent again; and a good TIME_ECHO of the exchange in progress gives t4 for the next TIME block. -/
def Obligations.PortSendsAndIsAnswered : Prop := ∀ (s : State) (p : BitVec 6), s.gx.coreUp = true →
  ((s.gx.port p.toNat).up = true →
    ((s.gx.port p.toNat).tickDue = true → exec (.glexonBlockSlot p) s = .next { s with
      gx := s.gx.setPort p.toNat
        { (s.gx.port p.toNat) with tickDue := false, block := s.gx.tickBlock } }) ∧
    (∀ c rest, (s.gx.port p.toNat).tickDue = false → (s.gx.port p.toNat).timeDue = false → (s.gx.port p.toNat).cmdQ = c :: rest →
      (s.gx.port p.toNat).resend = [] → (s.gx.port p.toNat).unacked.length < 16 →
      exec (.glexonBlockSlot p) s = .next { s with
        gx := s.gx.setPort p.toNat { (s.gx.port p.toNat) with
          cmdQ := rest, nextSeq := (s.gx.port p.toNat).nextSeq + 1,
          unacked := (s.gx.port p.toNat).unacked ++ [{ c with seq := (s.gx.port p.toNat).nextSeq }],
          block := cmdBlock { c with seq := (s.gx.port p.toNat).nextSeq } } }) ∧
    (∀ a : AckBlk, a.chk = ⟨true, true⟩ → ∃ t, exec (.cmdAckReceive p a) s = .next t ∧
      (t.gx.port p.toNat).unacked = (s.gx.port p.toNat).unacked.filter (fun x => x.seq != a.seq) ∧
      ((∃ x ∈ (s.gx.port p.toNat).unacked, x.seq = a.seq) → (t.gx.port p.toNat).ack = some (a.seq, a.status, a.data)) ∧
      t.gx.regs = s.gx.regs ∧ t.gx.mem = s.gx.mem ∧ t.bm = s.bm) ∧
    (∀ (e : EchoBlk) (t1 : Int), e.chk = ⟨true, true⟩ → (s.gx.port p.toNat).t1 = some (e.id, t1) →
      ∃ t, exec (.timeEchoReceive p e) s = .next t ∧ (t.gx.port p.toNat).t1 = none ∧
        (t.gx.port p.toNat).t4 = some (e.id, s.gx.stamp - s.gx.tsc (Reg.TK_TSC_ING 3)) ∧ t.gx.mem = s.gx.mem ∧ t.bm = s.bm)) ∧
  exec (.creditSend p) s = .next { s with gx := s.gx.setPort p.toNat { (s.gx.port p.toNat) with creditDue := true } } ∧
  exec (.timeSend p) s = .next { s with gx := s.gx.setPort p.toNat { (s.gx.port p.toNat) with timeDue := true } } ∧
  (∀ seq c, (s.gx.port p.toNat).unacked.find? (fun x => x.seq == seq) = some c → c.resent < 16 →
    exec (.cmdResend p seq) s = .next { s with
      gx := s.gx.setPort p.toNat { (s.gx.port p.toNat) with
        resend := (s.gx.port p.toNat).resend ++ [seq],
        unacked := (s.gx.port p.toNat).unacked.map fun x => if x.seq = seq then { x with resent := x.resent + 1 } else x } })

/-! ### The Time Keeper -/

/-- R49: an addend that firmware writes while the servo is off takes effect as it is within ±500 ppm of nominal, and otherwise as
the nearer limit, with ADDEND_CLAMPED written; while SERVO_EN = 1 the write is ignored. Nothing else changes. R50: a read of
TK_NOW_SEC answers the seconds and latches the nanoseconds and visible fraction of the same instant in TK_NOW_SUB, whatever the
latch held; nothing else changes. -/
def Obligations.AddendAndTimeReads : Prop :=
  (∀ (s : State) (v : Word), s.gx.coreUp = true →
    (s.gx.servoEn = true → exec (.tkAddendWrite v) s = .next s) ∧
    (s.gx.servoEn = false → 5366024766 ≤ fld v 0 40 → fld v 0 40 ≤ 5371393474 →
      exec (.tkAddendWrite v) s = .next { s with gx := s.gx.wr Reg.TK_ADDEND (word (fld v 0 40)) }) ∧
    (s.gx.servoEn = false → fld v 0 40 < 5366024766 → exec (.tkAddendWrite v) s = .next { s with
      gx :=
        (s.gx.wr Reg.TK_ADDEND (word 5366024766)).event 0x0107 34 [word (fld v 0 40)] }) ∧
    (s.gx.servoEn = false → 5371393474 < fld v 0 40 → exec (.tkAddendWrite v) s = .next { s with
      gx :=
        (s.gx.wr Reg.TK_ADDEND (word 5371393474)).event 0x0107 34 [word (fld v 0 40)] })) ∧
  ((∀ s : State, s.gx.coreUp = true →
    exec .tkNowSecRead s = .next { s with
      gx := { (s.gx.wr Reg.TK_NOW_SUB (word (subOf s.gx.tk.clk))) with
        rdData := word (secOf s.gx.tk.clk) } }) ∧
    (∀ (g : Glexon) (n : Nat), g.csrRead n Reg.TK_NOW_SEC = (word (secOf g.tk.clk), g.wr Reg.TK_NOW_SUB (word (subOf g.tk.clk))) ∧
      g.csrRead n Reg.TK_NOW_SUB = (g.rd Reg.TK_NOW_SUB, g)))

/-- R51 (Table 2.7), R68: a step adds its signed nanoseconds at once while not ticking, and while ticking changes nothing but the
recorder, which takes STEP_REFUSED; a slew is held in 2⁻³² ns; a TK_CFG write with SERVO_EN = 0 makes MODE FREE and REF_SEL
stands. R69 to R72: arming sets the comparator's configuration; a comparator that is not armed, or is tick-relative with an offset
that is not below P, does not fire; one that fires sets FIRED, and an absolute one is then no longer armed; a trigger pulse ends;
a captured edge appends one word to its FIFO of 16, and a read takes the oldest, or repeats the last and notes an underrun. -/
def Obligations.StepsComparatorsAndCaptures : Prop :=
  (∀ (s : State) (v : Word), s.gx.coreUp = true →
    (s.gx.tk.ticking = false → ∀ a : BitVec 6, exec (.tkStep a v) s = .next { s with
      gx := { s.gx with
      tk := { s.gx.tk with
        clk := ((s.gx.tk.clk : Int) + v.toInt * 2 ^ 32).toNat } } }) ∧
    (s.gx.tk.ticking = true → ∀ a : BitVec 6, a ≠ 31 → exec (.tkStep a v) s = .next { s with gx := s.gx.event 0x010A 34 [v] }) ∧
    exec (.tkSlew v) s = .next { s with gx := { s.gx with tk := { s.gx.tk with slew := v.toInt * 2 ^ 32 } } } ∧
    (bit v 0 = true → ∃ t, exec (.tkRefSelWrite v) s = .next t ∧ t.gx.rd Reg.TK_CFG = v &&& 3 ∧ t.gx.tk.refOk = bit v 1 ∧
      t.gx.tk.mode = s.gx.tk.mode ∧ t.gx.tk.clk = s.gx.tk.clk ∧ t.gx.mem = s.gx.mem ∧ t.bm = s.bm) ∧
    (bit v 0 = false → ∃ t, exec (.tkRefSelWrite v) s = .next t ∧ t.gx.rd Reg.TK_CFG = v &&& 3 ∧ t.gx.tk.mode = .free ∧
      t.gx.tk.clk = s.gx.tk.clk ∧ t.gx.mem = s.gx.mem ∧ t.bm = s.bm)) ∧
  (∀ s : State, s.gx.coreUp = true →
    (∀ k : BitVec 4, SMap.get false s.gx.tk.armed k.toNat = false → exec (.cmpFire k) s = .next s) ∧
    (∀ k : BitVec 4, s.gx.cmpMode k.toNat = 2 → s.gx.pNs ≤ fld (s.gx.rd (Reg.TK_CMP_TIME k.toNat)) 4 30 → exec (.cmpFire k) s = .next s) ∧
    (∀ k : BitVec 4, SMap.get false s.gx.tk.armed k.toNat = true → s.gx.cmpMode k.toNat = 0 → ∃ t, exec (.cmpFire k) s = .next t ∧
      bit (t.gx.rd (Reg.TK_CMP_CFG k.toNat)) 59 = true ∧ SMap.get false t.gx.tk.armed k.toNat = false ∧
      t.gx.tk.clk = s.gx.tk.clk ∧ t.gx.mem = s.gx.mem ∧ t.bm = s.bm) ∧
    (∀ (k : BitVec 4) (v : Word), bit v 63 = true → fld v 61 2 = 2 → ∃ t, exec (.comparatorArm k v) s = .next t ∧
      SMap.get false t.gx.tk.armed k.toNat = true ∧
      (∀ j, j ≠ k.toNat → SMap.get false t.gx.tk.armed j = SMap.get false s.gx.tk.armed j) ∧
      t.gx.tk.clk = s.gx.tk.clk ∧ t.gx.mem = s.gx.mem ∧ t.bm = s.bm) ∧
    (∀ pin : BitVec 2, ∃ m, exec (.trigPulseEnd pin) s = .next { s with gx := { s.gx with tk := { s.gx.tk with trig := m } } } ∧
      (SMap.get {} m pin.toNat).active = false ∧ ∀ j, j ≠ pin.toNat → SMap.get {} m j = SMap.get {} s.gx.tk.trig j) ∧
    (∀ (j : BitVec 2) (f : CaptFifo), SMap.get {} s.gx.tk.capt j.toNat = f → f.edge = none → f.words.length < 16 →
      bit (s.gx.rd (Reg.TK_CAPT_CFG j.toNat)) 63 = true → fld (s.gx.rd (Reg.TK_CAPT_CFG j.toNat)) 61 2 = 0 →
      ∃ t, exec (.captEdge j true) s = .next t ∧ t.gx.regs = s.gx.regs ∧ t.bm = s.bm ∧
        (SMap.get {} t.gx.tk.capt j.toNat).words = f.words ++
          [captWord (s.gx.tk.clk * 16 / 2 ^ 32 - fld (s.gx.rd (Reg.TK_CAPT_CFG j.toNat)) 0 16)]) ∧
    (∀ (j : BitVec 2) (f : CaptFifo), SMap.get {} s.gx.tk.capt j.toNat = f →
      (∀ w r, f.words = w :: r → exec (.captRead j) s = .next { s with
        gx := { s.gx with
        rdData := w,
          tk := { s.gx.tk with capt := SMap.put {} s.gx.tk.capt j.toNat { f with words := r, last := w } } } }) ∧
      (f.words = [] → exec (.captRead j) s = .next { s with
        gx := { s.gx with
        rdData := f.last,
          tk := { s.gx.tk with capt := SMap.put {} s.gx.tk.capt j.toNat { f with under := true } } } })))

/-- R54, R55: a Sync is accepted only from the chosen master and only with a later sequenceId modulo 2¹⁶: a two-step one is
remembered with its corrected ingress time, until its Follow_Up measures the offset; any other Sync is discarded and counted in
TK_PTP_DISCARD, and nothing else changes. (While an epoch is held; before that a lock may also announce a role, R499.) R54: a
slave's Delay_Req takes its egress time, and the Delay_Resp that answers it from its master gives the mean path delay; a master
answers a Delay_Req with its ingress time and sends Sync and Announce with rising sequence numbers; an Announce of a foreign clock
is remembered. -/
def Obligations.PtpMessages : Prop :=
  (∀ (s : State) (m : PtpSync), s.gx.coreUp = true →
    s.gx.tk.mode ≠ .locked →
    (s.gx.syncOk m = true → m.twoStep = true → exec (.syncReceive m) s = .next { s with
      gx := { s.gx with
      tk := { s.gx.tk with
        lastSeq := some m.seq, twoStep := some (m.seq, s.gx.ptpIn, m.corr.toInt) } } }) ∧
    (s.gx.syncOk m = true → m.twoStep = false → s.gx.servoEn = false → ∃ t, exec (.syncReceive m) s = .next t ∧
      t.gx.tk.lastSeq = some m.seq ∧ t.gx.tk.offset = s.gx.ptpIn - ptpTime m.t1 - m.corr.toInt - s.gx.tk.meanPath ∧
      t.gx.regs = s.gx.regs ∧ t.gx.mem = s.gx.mem ∧ t.bm = s.bm) ∧
    (s.gx.tk.master.map (fun x => x.clock) ≠ some m.master ∨ (∃ q, s.gx.tk.lastSeq = some q ∧
        ((m.seq - q).toNat = 0 ∨ 2 ^ 15 ≤ (m.seq - q).toNat)) →
      exec (.syncReceive m) s = .next { s with gx := s.gx.wr Reg.TK_PTP_DISCARD (satAdd (s.gx.rd Reg.TK_PTP_DISCARD) 1) }) ∧
    (∀ t2 corr, s.gx.tk.twoStep = some (m.seq, t2, corr) → s.gx.tk.master.map (fun x => x.clock) = some m.master →
      s.gx.servoEn = false → ∃ t, exec (.followUpReceive m) s = .next t ∧ t.gx.tk.twoStep = none ∧
        t.gx.tk.offset = t2 - ptpTime m.t1 - (corr + m.corr.toInt) - s.gx.tk.meanPath ∧ t.gx.regs = s.gx.regs ∧
        t.gx.mem = s.gx.mem ∧ t.bm = s.bm)) ∧
  (∀ s : State, s.gx.coreUp = true → s.gx.ptpEn = true →
    (s.gx.tk.master.isSome = true → s.gx.tk.isMaster = false → exec .delayReqSend s = .next { s with
      gx := { s.gx with
        tk := { s.gx.tk with
          dreqSeq := s.gx.tk.dreqSeq + 1, dreq := some (s.gx.tk.dreqSeq, s.gx.ptpEg),
            ptpOut := some (.delayReq s.gx.tk.dreqSeq) } } }) ∧
    (s.gx.tk.isMaster = true → ∀ m : PtpDelay, exec (.delayReqReceive m) s = .next { s with
      gx := { s.gx with
        tk := { s.gx.tk with ptpOut := some (.delayResp m.clock m.seq s.gx.ptpIn) } } }) ∧
    (∀ (m : PtpDelay) (t3 d : Int), s.gx.tk.dreq = some (m.seq, t3) → s.gx.tk.down = some d →
      s.gx.tk.master.map (fun x => x.clock) = some m.clock → exec (.delayRespReceive m) s = .next { s with
        gx := { s.gx with
          tk := { s.gx.tk with dreq := none, meanPath := (d + (ptpTime m.time - t3 - m.corr.toInt)) / 2 } } }) ∧
    (s.gx.tk.isMaster = true → exec .syncSend s = .next { s with
      gx := { s.gx with
      tk := { s.gx.tk with
        syncSeq := s.gx.tk.syncSeq + 1,
        ptpOut := some (.sync s.gx.tk.syncSeq (!bit (s.gx.rd Reg.TK_PTP_CFG) 7) s.gx.ptpEg) } } }) ∧
    (s.gx.tk.isMaster = true → ∃ t, exec .announceSend s = .next t ∧ t.gx.tk.annSeq = s.gx.tk.annSeq + 1 ∧
      t.gx.tk.ptpOut = some (.announce (BitVec.ofNat 8 s.gx.clockClass) (BitVec.ofNat 8 (fld (s.gx.rd Reg.TK_PTP_CLASS) 16 8))
        (BitVec.ofNat 8 (fld (s.gx.rd Reg.TK_PTP_CLASS) 8 8)) (BitVec.ofNat 8 (fld (s.gx.rd Reg.TK_PTP_CLASS) 0 8)) s.gx.tk.annSeq) ∧
      t.gx.regs = s.gx.regs ∧ t.bm = s.bm) ∧
    (∀ a : PtpAnn, a.domain.toNat = fld (s.gx.rd Reg.TK_PTP_CFG) 16 8 → ∃ t n, exec (.ptpAnnounceReceive a) s = .next t ∧
      t.gx.tk.foreign = (a, n) :: s.gx.tk.foreign.filter (fun x => decide (x.1.clock ≠ a.clock)) ∧ 1 ≤ n ∧
      t.gx.regs = s.gx.regs ∧ t.gx.mem = s.gx.mem ∧ t.bm = s.bm))

/-- R52, R67, R68, R73, R510: a LOCKED clock whose Sync stops, whose master is lost or whose PPS is lost goes to HOLDOVER with
that cause; a lost 10 MHz reference makes MODE ACQUIRING; after TIME_LOST the next boundary is not taken: TICKING clears. R66,
R67: PPS_OUT rises unless MODE is FREE without PPS_FREE, and falls; in grandmaster mode an edge of PPS_IN far from the second is
ignored and counted once the clock has locked. -/
def Obligations.TimeReferencesAndThePulse : Prop :=
  (∀ s : State, s.gx.tkUp = true →
    (s.gx.tk.mode = .locked → s.gx.events.length < 256 → ∃ t, exec .syncTimeout s = .next t ∧ t.gx.tk.mode = .holdover ∧
      t.gx.tk.clk = s.gx.tk.clk ∧ t.gx.tk.ticking = s.gx.tk.ticking ∧ t.gx.mem = s.gx.mem ∧
      t.gx.events.map (fun e => (e.code, e.args)) = s.gx.events.map (fun e => (e.code, e.args)) ++ [(0x0102, [word 0])] ∧ t.bm = s.bm) ∧
    (s.gx.tk.mode = .locked → ∃ t, exec .announceReceiptTimeout s = .next t ∧ t.gx.tk.mode = .holdover ∧
      t.gx.tk.clk = s.gx.tk.clk ∧ t.gx.tk.ticking = s.gx.tk.ticking ∧ t.gx.mem = s.gx.mem ∧ t.bm = s.bm) ∧
    (s.gx.gmMode = true → s.gx.tk.mode = .locked → ∃ t, exec .ppsInLost s = .next t ∧ t.gx.tk.mode = .holdover ∧
      t.gx.tk.ppsOk = false ∧ t.gx.tk.clk = s.gx.tk.clk ∧ t.gx.mem = s.gx.mem ∧ t.bm = s.bm) ∧
    (bit (s.gx.rd Reg.TK_CFG) 1 = true → s.gx.tk.refOk = true → exec .ref10mLost s = .next { s with
      gx :=
        { (s.gx.event 0x0105 34 []) with tk := { s.gx.tk with refOk := false, mode := .acquiring, good := 0 } } }) ∧
    (s.gx.tk.lost = true → s.gx.tk.ticking = true → exec .tickStopped s = .next { s with
      gx :=
        { (s.gx.event 0x0546 34 [s.gx.tk.tickNo]) with
          tk := { s.gx.tk with
            lost := false, ticking := false, mode := .acquiring, good := 0, startAt := 0 } } })) ∧
  (∀ s : State, s.gx.tkUp = true →
    exec .ppsOutRise s = .next { s with
      gx := { s.gx with
      tk := { s.gx.tk with
        ppsOut := decide (s.gx.tk.mode ≠ .free) || bit (s.gx.rd Reg.TK_PPS_CFG) 32 } } } ∧
    exec .ppsOutFall s = .next { s with gx := { s.gx with tk := { s.gx.tk with ppsOut := false } } } ∧
    (∀ x : Nat, s.gx.gmMode = true → s.gx.tk.everLocked = true → s.gx.tk.mode ≠ .locked →
      nsOf s.gx.tk.clk % 1000000000 = x → 100000 < x → x < 499999999 → exec .ppsInEdge s = .next { s with
        gx :=
          s.gx.wr Reg.TK_PPS_STAT (satAdd (s.gx.rd Reg.TK_PPS_STAT) 1) }) ∧
    (s.gx.gmMode = true → s.gx.servoEn = false → s.gx.tk.mode ≠ .locked → nsOf s.gx.tk.clk % 1000000000 < 100000 →
      ∃ t, exec .ppsInEdge s = .next t ∧ t.gx.tk.ppsOk = true ∧ t.gx.tk.clk = s.gx.tk.clk ∧ t.gx.regs = s.gx.regs ∧ t.bm = s.bm))

/-! ### The cores: scalar and predicate instructions, memory, branches -/

/-- R198, R206 (Tables 7.8, 7.9): each scalar instruction that executes sends its result to gd, visible after its latency; nothing else
of the state the slot found changes. Each row: the command, its form (OP and fields), latency, result. -/
def Obligations.ScalarInstructionsSendTheirResult : Prop :=
  ∀ row ∈ ([
    (.add, fG3 0x01, 1, fun k o => k.rg o.a.toNat + k.rg o.b.toNat),
    (.sub, fG3 0x02, 1, fun k o => k.rg o.a.toNat - k.rg o.b.toNat),
    (.addI, fGI 0x03 immAll, 1, fun k o => k.rg o.a.toNat + o.imm.signExtend 64),
    (.and, fG3 0x04, 1, fun k o => k.rg o.a.toNat &&& k.rg o.b.toNat),
    (.or, fG3 0x05, 1, fun k o => k.rg o.a.toNat ||| k.rg o.b.toNat),
    (.xor, fG3 0x06, 1, fun k o => k.rg o.a.toNat ^^^ k.rg o.b.toNat),
    (.andI, fGI 0x07 immAll, 1, fun k o => k.rg o.a.toNat &&& o.imm.zeroExtend 64),
    (.orI, fGI 0x08 immAll, 1, fun k o => k.rg o.a.toNat ||| o.imm.zeroExtend 64),
    (.xorI, fGI 0x09 immAll, 1, fun k o => k.rg o.a.toNat ^^^ o.imm.zeroExtend 64),
    (.shl, fG3 0x0A, 1, fun k o => k.rg o.a.toNat <<< ((k.rg o.b.toNat).toNat % 64)),
    (.shr, fG3 0x0B, 1, fun k o => k.rg o.a.toNat >>> ((k.rg o.b.toNat).toNat % 64)),
    (.sra, fG3 0x0C, 1, fun k o => (k.rg o.a.toNat).sshiftRight ((k.rg o.b.toNat).toNat % 64)),
    (.ror, fG3 0x0D, 1, fun k o => (k.rg o.a.toNat).rotateRight ((k.rg o.b.toNat).toNat % 64)),
    (.shlI, fGI 0x0E 63, 1, fun k o => k.rg o.a.toNat <<< o.imm.toNat),
    (.shrI, fGI 0x0F 63, 1, fun k o => k.rg o.a.toNat >>> o.imm.toNat),
    (.sraI, fGI 0x10 63, 1, fun k o => (k.rg o.a.toNat).sshiftRight o.imm.toNat),
    (.mul, fG3 0x11, 3, fun k o => k.rg o.a.toNat * k.rg o.b.toNat),
    (.mulhU, fG3 0x12, 3, fun k o => BitVec.ofNat 64 ((k.rg o.a.toNat).toNat * (k.rg o.b.toNat).toNat / 2 ^ 64)),
    (.mulhS, fG3 0x13, 3, fun k o => BitVec.ofInt 64 ((k.rg o.a.toNat).toInt * (k.rg o.b.toNat).toInt / 2 ^ 64)),
    (.minS, fG3 0x14, 1, fun k o => if (k.rg o.b.toNat).toInt < (k.rg o.a.toNat).toInt then k.rg o.b.toNat else k.rg o.a.toNat),
    (.minU, fG3 0x15, 1, fun k o => if (k.rg o.b.toNat).toNat < (k.rg o.a.toNat).toNat then k.rg o.b.toNat else k.rg o.a.toNat),
    (.maxS, fG3 0x16, 1, fun k o => if (k.rg o.a.toNat).toInt < (k.rg o.b.toNat).toInt then k.rg o.b.toNat else k.rg o.a.toNat),
    (.maxU, fG3 0x17, 1, fun k o => if (k.rg o.a.toNat).toNat < (k.rg o.b.toNat).toNat then k.rg o.b.toNat else k.rg o.a.toNat),
    (.clz, fG2 0x18, 1, fun k o => word (((List.range 64).find? fun i => bit (k.rg o.a.toNat) (63 - i)).getD 64)),
    (.ctz, fG2 0x19, 1, fun k o => word (((List.range 64).find? fun i => bit (k.rg o.a.toNat) i).getD 64)),
    (.popc, fG2 0x1A, 1, fun k o => word ((List.range 64).filter fun i => bit (k.rg o.a.toNat) i).length),
    (.movI, { op := 0x1B, slots := 3, d := .g, imm := immAll }, 1, fun _ o => o.imm.signExtend 64),
    (.movh, fGI 0x1C immAll, 1, fun k o => (o.imm.zeroExtend 64 <<< 32) ||| (k.rg o.a.toNat &&& 0xFFFFFFFF)),
    (.sel, { op := 0x1D, slots := 3, d := .g, a := .g, b := .g, c := .sel }, 1,
      fun k o => if bit (k.mask o.c) 0 then k.rg o.a.toNat else k.rg o.b.toNat),
    (.add3, fG4 0x1E, 1, fun k o => k.rg o.a.toNat + k.rg o.b.toNat + k.rg o.c.toNat),
    (.madd, fG4 0x1F, 3, fun k o => k.rg o.a.toNat * k.rg o.b.toNat + k.rg o.c.toNat),
    (.pmovP, { op := 0x36, slots := 3, d := .g, a := .p }, 1, fun k o => (k.rp o.a.toNat).zeroExtend 64)] :
      List ((SlotOp → Instr) × Form × Nat × (Core → SlotOp → Word))),
  ∀ (s : State) (o : SlotOp), s.slotReady row.2.1 o = true →
    exec (row.1 o) s = .next (s.slotNext o ((s.slotCore o).send o.slot.toNat row.2.2.1
      (.g o.d.toNat (row.2.2.2 (s.slotCore o) o))))

/-- R206, R207 (Tables 7.8, 7.9): a compare that executes makes every bit of pd equal its outcome, visible in the next cycle; the
predicate operations act bit by bit; NOP does nothing in any slot. R193, R205, R226: a slot whose predicate is false does nothing;
one in a slot its opcode may not stand in faults with SLOT, one with a field that its form does not allow faults with
ILLEGAL_INSTRUCTION: ADD stands for the forms of three registers. -/
def Obligations.ComparesPredicatesAndUnfitSlots : Prop :=
  ((∀ row ∈ ([
      (.cmpEq, fCmp 0x20, fun k o => decide (k.rg o.a.toNat = k.rg o.b.toNat)),
      (.cmpNe, fCmp 0x21, fun k o => decide (k.rg o.a.toNat ≠ k.rg o.b.toNat)),
      (.cmpLtS, fCmp 0x22, fun k o => decide ((k.rg o.a.toNat).toInt < (k.rg o.b.toNat).toInt)),
      (.cmpLtU, fCmp 0x23, fun k o => decide ((k.rg o.a.toNat).toNat < (k.rg o.b.toNat).toNat)),
      (.cmpGeS, fCmp 0x24, fun k o => decide ((k.rg o.b.toNat).toInt ≤ (k.rg o.a.toNat).toInt)),
      (.cmpGeU, fCmp 0x25, fun k o => decide ((k.rg o.b.toNat).toNat ≤ (k.rg o.a.toNat).toNat)),
      (.cmpEqI, fCmpI 0x28 immAll, fun k o => decide (k.rg o.a.toNat = o.imm.signExtend 64)),
      (.cmpNeI, fCmpI 0x29 immAll, fun k o => decide (k.rg o.a.toNat ≠ o.imm.signExtend 64)),
      (.cmpLtSI, fCmpI 0x2A immAll, fun k o => decide ((k.rg o.a.toNat).toInt < o.imm.toInt)),
      (.cmpLtUI, fCmpI 0x2B immAll, fun k o => decide ((k.rg o.a.toNat).toNat < (o.imm.signExtend 64).toNat)),
      (.cmpGeSI, fCmpI 0x2C immAll, fun k o => decide (o.imm.toInt ≤ (k.rg o.a.toNat).toInt)),
      (.cmpGeUI, fCmpI 0x2D immAll, fun k o => decide ((o.imm.signExtend 64).toNat ≤ (k.rg o.a.toNat).toNat)),
      (.btst, fCmpI 0x2E 63, fun k o => bit (k.rg o.a.toNat) o.imm.toNat)] :
        List ((SlotOp → Instr) × Form × (Core → SlotOp → Bool))),
      ∀ (s : State) (o : SlotOp), s.slotReady row.2.1 o = true →
        exec (row.1 o) s = .next (s.slotNext o ((s.slotCore o).send o.slot.toNat 1
          (.p o.d.toNat (if row.2.2 (s.slotCore o) o then BitVec.allOnes 32 else 0) (BitVec.allOnes 32))))) ∧
    (∀ row ∈ ([
      (.pand, fP3 0x30, fun k o => k.rp o.a.toNat &&& k.rp o.b.toNat),
      (.por, fP3 0x31, fun k o => k.rp o.a.toNat ||| k.rp o.b.toNat),
      (.pxor, fP3 0x32, fun k o => k.rp o.a.toNat ^^^ k.rp o.b.toNat),
      (.pandn, fP3 0x33, fun k o => k.rp o.a.toNat &&& ~~~k.rp o.b.toNat),
      (.pnot, { op := 0x34, slots := 3, d := .p, a := .p }, fun k o => ~~~k.rp o.a.toNat),
      (.pmovG, { op := 0x35, slots := 3, d := .p, a := .g }, fun k o => (k.rg o.a.toNat).setWidth 32)] :
        List ((SlotOp → Instr) × Form × (Core → SlotOp → BitVec 32))),
      ∀ (s : State) (o : SlotOp), s.slotReady row.2.1 o = true →
        exec (row.1 o) s = .next (s.slotNext o ((s.slotCore o).send o.slot.toNat 1
          (.p o.d.toNat (row.2.2 (s.slotCore o) o) (BitVec.allOnes 32))))) ∧
    (∀ (s : State) (o : SlotOp), s.slotReady { op := 0, slots := 15, c := .unused } o = true →
      exec (.nop o) s = .next (s.slotNext o (s.slotCore o)))) ∧
  (∀ (s : State) (o : SlotOp),
    s.gx.coreUp = true → s.gx.fetches (fG3 0x01) o = true → (s.slotCore o).isOpen = true →
    ((fG3 0x01).blocked (s.slotCore o) o).isEmpty = true →
    ((fG3 0x01).slots.testBit o.slot.toNat = true → o.c.toNat < 16 → bit ((s.slotCore o).mask o.c) 0 = false →
      exec (.add o) s = .next (s.slotNext o (s.slotCore o))) ∧
    (2 ≤ o.slot.toNat → exec (.add o) s = .next { s with gx := (s.gx.entered o).faultAt o.core.toNat 2 o.slot.toNat none 0 }) ∧
    (o.slot.toNat < 2 → o.c.toNat < 16 → bit ((s.slotCore o).mask o.c) 0 = true → (fG3 0x01).legal o = false →
      exec (.add o) s = .next { s with gx := (s.gx.entered o).faultAt o.core.toNat 1 o.slot.toNat none 0 }))

/-- R208 to R210: a taken branch to a bundle of the program makes it issue three cycles after its own; one not taken costs nothing;
CALL writes the next bundle's number to g31; RET goes to g31; DBNZ counts down; a target outside the program faults with
BUNDLE_RANGE. The trace aside, only the core changes. -/
def Obligations.BranchesIssueTheirTargetThreeCyclesLater : Prop := ∀ (s : State) (o : SlotOp) (t : Nat),
  t < (s.gx.entered o).progLen o.core.toNat →
  (∀ row ∈ ([
    (.br, { op := 0x40, slots := 1, imm := immAll }, fun _ => true, fun k => k),
    (.brZ, { op := 0x41, slots := 1, a := .g, imm := immAll }, fun k => decide (k.rg o.a.toNat = 0), fun k => k),
    (.brNz, { op := 0x42, slots := 1, a := .g, imm := immAll }, fun k => decide (k.rg o.a.toNat ≠ 0), fun k => k),
    (.dbnz, { op := 0x43, slots := 1, a := .g, imm := immAll }, fun k => decide (k.rg o.a.toNat - 1 ≠ 0),
      fun k => k.send o.slot.toNat 1 (.g o.a.toNat (k.rg o.a.toNat - 1))),
    (.call, { op := 0x44, slots := 1, imm := immAll }, fun _ => true,
      fun k => k.send o.slot.toNat 1 (.g 31 (word (k.pc + 1))))] :
      List ((SlotOp → Instr) × Form × (Core → Bool) × (Core → Core))),
    s.slotReady row.2.1 o = true →
    (((s.slotCore o).pc : Int) + o.imm.toInt = t → row.2.2.1 (s.slotCore o) = true →
      ∃ u, exec (row.1 o) s = .next u ∧ s.CoreBecomes u o
        { (row.2.2.2 (s.slotCore o)) with npc := t, ncyc := (s.slotCore o).cyc + 3, next := o.slot.toNat + 1 }) ∧
    (row.2.2.1 (s.slotCore o) = false → exec (row.1 o) s = .next (s.slotNext o (row.2.2.2 (s.slotCore o))))) ∧
  (s.slotReady { op := 0x45, slots := 1 } o = true → ((s.slotCore o).rg 31).toNat = t →
    ∃ u, exec (.ret o) s = .next u ∧
      s.CoreBecomes u o { (s.slotCore o) with npc := t, ncyc := (s.slotCore o).cyc + 3, next := o.slot.toNat + 1 }) ∧
  (s.slotReady { op := 0x45, slots := 1 } o = true → (s.gx.entered o).progLen o.core.toNat ≤ ((s.slotCore o).rg 31).toNat →
    exec (.ret o) s = .next { s with gx := (s.gx.entered o).faultAt o.core.toNat 3 o.slot.toNat none 0 })

/-- R211, R213, R215: a load from the core's own SRAM takes its bytes, little-endian, zero- or sign-extended, and its result is
visible four cycles later; no byte of memory changes. An unaligned address faults with ALIGN, an unmapped one of the own window
with ADDRESS, and poisoned bytes with POISON. Any other address is a far access: it takes one of the eight places. R211, R212,
R214, R216: a store sends the low bytes of gb to its address, applied in the next cycle; a misaligned one faults with ALIGN, one
to no region with ADDRESS, and one to a CSR block with another width than 8 bytes, or to the MG or ID block, with SCOPE. R211,
R215: an atomic on 8 aligned bytes of the own SRAM is sent, to be performed in the next cycle: AMO.ADD adds gb to memory at ga +
imm, AMO.CAS writes gb at ga where memory holds gc; gd takes the old value. A misaligned one faults with ALIGN. -/
def Obligations.LoadsStoresAndAtomics : Prop :=
  (∀ row ∈ ([(.ldB, 0x50, 1, false), (.ldH, 0x51, 2, false), (.ldW, 0x52, 4, false), (.ldD, 0x53, 8, false),
        (.ldBS, 0x54, 1, true), (.ldHS, 0x55, 2, true), (.ldWS, 0x56, 4, true)] :
        List ((SlotOp → Instr) × Nat × Nat × Bool)),
    ∀ (s : State) (o : SlotOp) (a : Nat), s.slotReady (fLoad row.2.1) o = true →
      a = ((s.slotCore o).rg o.a.toNat + o.imm.signExtend 64).toNat →
      (a % row.2.2.1 ≠ 0 → exec (row.1 o) s = .next { s with gx := (s.gx.entered o).faultAt o.core.toNat 6 o.slot.toNat (some a) 0 }) ∧
      (a % row.2.2.1 = 0 → ownWindow o.core.toNat a = true → isMem a = false →
        exec (row.1 o) s = .next { s with gx := (s.gx.entered o).faultAt o.core.toNat 4 o.slot.toNat (some a) 0 }) ∧
      (a % row.2.2.1 = 0 → ownWindow o.core.toNat a = true → isMem a = true → (s.gx.entered o).poisoned a row.2.2.1 = true →
        exec (row.1 o) s = .next { s with gx := (s.gx.entered o).faultAt o.core.toNat 7 o.slot.toNat (some a) 0 }) ∧
      (a % row.2.2.1 = 0 → ownWindow o.core.toNat a = true → isMem a = true → (s.gx.entered o).poisoned a row.2.2.1 = false →
        ∃ u v, exec (row.1 o) s = .next u ∧ u.gx.mem = (s.gx.entered o).mem ∧ u.bm = s.bm ∧
          (u.gx.core o.core.toNat).flight = ((s.slotCore o).send o.slot.toNat 4 (.g o.d.toNat v)).flight ∧
          v = (if row.2.2.2 then BitVec.ofInt 64 (sextN (8 * row.2.2.1) (memNat (s.gx.entered o).mem a row.2.2.1))
               else word (memNat (s.gx.entered o).mem a row.2.2.1))) ∧
      (a % row.2.2.1 = 0 → ownWindow o.core.toNat a = false → (s.slotCore o).far.length < 8 →
        exec (row.1 o) s = .next (s.slotNext o ((s.slotCore o).send o.slot.toNat 1
          (.far { reg := o.d.toNat, addr := a, kind := .load row.2.2.1 row.2.2.2, pc := (s.slotCore o).pc }))))) ∧
  (∀ row ∈ ([(.stB, 0x58, 1), (.stH, 0x59, 2), (.stW, 0x5A, 4), (.stD, 0x5B, 8)] : List ((SlotOp → Instr) × Nat × Nat)),
    ∀ (s : State) (o : SlotOp) (a : Nat), s.slotReady (fStore row.2.1) o = true →
      a = ((s.slotCore o).rg o.a.toNat + o.imm.signExtend 64).toNat →
      (a % row.2.2 ≠ 0 → exec (row.1 o) s = .next { s with gx := (s.gx.entered o).faultAt o.core.toNat 6 o.slot.toNat (some a) 0 }) ∧
      (a % row.2.2 = 0 → addrKind a = .none →
        exec (row.1 o) s = .next { s with gx := (s.gx.entered o).faultAt o.core.toNat 4 o.slot.toNat (some a) 0 }) ∧
      (a % row.2.2 = 0 → addrKind a = .csr → row.2.2 ≠ 8 ∨ 0x80E00000 ≤ a →
        exec (row.1 o) s = .next { s with gx := (s.gx.entered o).faultAt o.core.toNat 5 o.slot.toNat (some a) 0 }) ∧
      (a % row.2.2 = 0 → isMem a = true → exec (row.1 o) s = .next (s.slotNext o ((s.slotCore o).send o.slot.toNat 1
        (.store [(a, leBytes row.2.2 ((s.slotCore o).rg o.b.toNat).toNat)]))))) ∧
  (∀ (s : State) (o : SlotOp) (a : Nat),
    (s.slotReady { op := 0x60, slots := 2, d := .g, a := .g, b := .g, imm := immAll } o = true →
      a = ((s.slotCore o).rg o.a.toNat + o.imm.signExtend 64).toNat →
      (a % 8 ≠ 0 → exec (.amoAdd o) s = .next { s with gx := (s.gx.entered o).faultAt o.core.toNat 6 o.slot.toNat (some a) 0 }) ∧
      (a % 8 = 0 → ownWindow o.core.toNat a = true → isMem a = true → (s.gx.entered o).poisoned a 8 = false →
        exec (.amoAdd o) s = .next (s.slotNext o ((s.slotCore o).send o.slot.toNat 1 (.amo {
          reg := o.d.toNat, addr := a,
            kind := .add ((s.slotCore o).rg o.b.toNat), pc := (s.slotCore o).pc }))))) ∧
    (s.slotReady { op := 0x61, slots := 2, d := .g, a := .g, b := .g, c := .g } o = true → a = ((s.slotCore o).rg o.a.toNat).toNat →
      a % 8 = 0 → ownWindow o.core.toNat a = true → isMem a = true → (s.gx.entered o).poisoned a 8 = false →
      exec (.amoCas o) s = .next (s.slotNext o ((s.slotCore o).send o.slot.toNat 1 (.amo {
        reg := o.d.toNat, addr := a,
          kind := .cas ((s.slotCore o).rg o.b.toNat) ((s.slotCore o).rg o.c.toNat), pc := (s.slotCore o).pc })))))

/-- R200 (Table 7.5): MFS reads each special register of the table under its code and faults with OPERAND on a code that is not
there; MTS writes FPSTAT[4:0] and faults on every other code. R215, R217: a far load that returns fills its register with the
value of its bytes and gives up its place, whatever the other places hold, when it is the oldest and its address is memory that is
not poisoned. -/
def Obligations.SpecialRegistersAndFarLoads : Prop :=
  (∀ (s : State) (o : SlotOp),
    (s.slotReady { op := 0x70, slots := 3, d := .g, imm := 0xFFF } o = true →
      (∀ row ∈ ([(0x000, fun g _ => g.tk.tickNo), (0x001, fun _ k => word k.cyc), (0x002, fun g _ => word g.tdead),
          (0x003, fun g _ => word g.tk.period), (0x004, fun _ _ => word o.core.toNat), (0x007, fun _ k => word k.entry),
          (0x009, fun _ k => k.lineMask), (0x00A, fun g _ => g.abortMask.zeroExtend 64),
          (0x00B, fun g _ => (g.shortAt g.tk.tickNo).zeroExtend 64), (0x00C, fun g k => word (g.pulse + k.cyc)),
          (0x00D, fun _ k => word k.stall), (0x00E, fun _ k => k.fpstat)] : List (Nat × (Glexon → Core → Word))),
        o.imm.toNat = row.1 → exec (.mfs o) s = .next (s.slotNext o ((s.slotCore o).send o.slot.toNat 1
          (.g o.d.toNat (row.2 (s.gx.entered o) (s.slotCore o)))))) ∧
      (0x00E < o.imm.toNat → exec (.mfs o) s = .next { s with gx := (s.gx.entered o).faultAt o.core.toNat 9 o.slot.toNat none 0 })) ∧
    (s.slotReady { op := 0x71, slots := 3, a := .g, imm := 0xFFF } o = true →
      (o.imm = 0x00E → exec (.mts o) s = .next (s.slotNext o ((s.slotCore o).send o.slot.toNat 1
        (.fpstat ((s.slotCore o).rg o.a.toNat &&& 0x1F))))) ∧
      (o.imm ≠ 0x00E → exec (.mts o) s = .next { s with gx := (s.gx.entered o).faultAt o.core.toNat 9 o.slot.toNat none 0 }))) ∧
  (∀ (s : State) (core : BitVec 5) (f : FarAccess) (rest : List FarAccess) (n : Nat),
    s.gx.coreUp = true → (s.gx.core core.toNat).far = f :: rest → f.kind = .load n false → f.got = none → f.reg ≠ 0 →
    isMem f.addr = true → s.gx.poisoned f.addr n = false →
    ∃ t, exec (.farAccessReturn core 0 .ok) s = .next t ∧ (t.gx.core core.toNat).far = rest ∧
      (t.gx.core core.toNat).rg f.reg = word (memNat s.gx.mem f.addr n) ∧
      (∀ r, r ≠ f.reg → (t.gx.core core.toNat).rg r = (s.gx.core core.toNat).rg r) ∧ t.gx.mem = s.gx.mem ∧ t.bm = s.bm)

/-- R195: a result takes effect in its cycle and not before; R198: g0 reads 0 and p0 reads all ones, and what is written to them
is discarded. R196: of two results that become visible in the same register in the same cycle, the later-issued prevails, and of
two of one bundle the one of the higher slot, in whichever order they were sent: for g, v and p registers. -/
def Obligations.ResultsTakeEffectInOrder : Prop :=
  (∀ (g : Glexon) (n cyc : Nat) (k : Core) (f : Flight) (r : Nat) (v : Word),
    g.core n = k → k.flight = [f] → f.eff = .g r v →
    (cyc < f.due → ((g.advance n cyc).core n).rg r = k.rg r ∧ ((g.advance n cyc).core n).flight = [f]) ∧
    (f.due ≤ cyc → ((g.advance n cyc).core n).rg r = (if r = 0 then 0 else v) ∧ ((g.advance n cyc).core n).flight = []) ∧
    (∀ q, q ≠ r → ((g.advance n cyc).core n).rg q = k.rg q) ∧ (∀ q, ((g.advance n cyc).core n).rp q = k.rp q) ∧
    k.rg 0 = 0 ∧ k.rp 0 = BitVec.allOnes 32 ∧ (g.advance n cyc).mem = g.mem) ∧
  (∀ (g : Glexon) (n cyc : Nat) (a b : Flight),
    a.due = b.due → a.due ≤ cyc → a.sent < b.sent ∨ (a.sent = b.sent ∧ a.slot < b.slot) →
    (∀ (r : Nat) (x y : Word), r ≠ 0 → a.eff = .g r x → b.eff = .g r y →
      (g.core n).flight = insFlight a [b] ∨ (g.core n).flight = insFlight b [a] → ((g.advance n cyc).core n).rg r = y) ∧
    (∀ (r : Nat) (x y ma mb : VReg), a.eff = .v r x ma → b.eff = .v r y mb →
      (g.core n).flight = insFlight a [b] ∨ (g.core n).flight = insFlight b [a] →
      ((g.advance n cyc).core n).rv r &&& mb = y &&& mb ∧ ((g.advance n cyc).core n).rv r &&& (ma &&& ~~~mb) = x &&& (ma &&& ~~~mb)) ∧
    (∀ (r : Nat) (x y ma mb : BitVec 32), r ≠ 0 → a.eff = .p r x ma → b.eff = .p r y mb →
      (g.core n).flight = insFlight a [b] ∨ (g.core n).flight = insFlight b [a] →
      ((g.advance n cyc).core n).rp r &&& mb = y &&& mb ∧ ((g.advance n cyc).core n).rp r &&& (ma &&& ~~~mb) = x &&& (ma &&& ~~~mb)))

/-! ### The cores: vector instructions -/

/-- R204, R219, R220 (Table 7.12): a vector instruction acts on each element, keeps the lanes that its mask leaves out, and sets the
flags of its executing elements, each after its latency; floating-point types: VADD, VSUB, VMUL, VMIN, VMAX, VABS and VNEG. Integer
types: the exact result where it fits the element, and the low bits of a product. -/
def Obligations.VectorArithmeticActsOnEachElement : Prop :=
  (∀ row ∈ ([(.vadd, 0x80, 4, FFmt.addE), (.vsub, 0x81, 4, FFmt.subE), (.vmul, 0x82, 4, FFmt.mulE),
      (.vmin, 0x84, 1, fun f => f.minMaxE true), (.vmax, 0x85, 1, fun f => f.minMaxE false)] :
      List ((SlotOp → Instr) × Nat × Nat × (FFmt → Nat → Nat → FRes))),
    ∀ (s : State) (o : SlotOp) (f : FFmt), s.slotReady (fV3 row.2.1) o = true → ETy.ofCode (fld o.imm 0 3) = some (.fp f) →
    ∃ v fl, exec (row.1 o) s = .next (s.slotNext o ((s.slotCore o).sendF o.slot.toNat row.2.2.1
        (.v o.d.toNat v (laneMask ((s.slotCore o).mask o.c))) fl)) ∧
      ∀ j < 1024 / f.width, fld v (f.width * j) f.width =
        (row.2.2.2 f (fld ((s.slotCore o).rv o.a.toNat) (f.width * j) f.width)
          (fld ((s.slotCore o).rv o.b.toNat) (f.width * j) f.width)).bits % 2 ^ f.width) ∧
  (∀ row ∈ ([(.vadd, 0x80, fun a b => a + b), (.vsub, 0x81, fun a b => a - b), (.vmin, 0x84, fun a b => min a b),
      (.vmax, 0x85, fun a b => max a b)] : List ((SlotOp → Instr) × Nat × (Int → Int → Int))),
    ∀ (s : State) (o : SlotOp) (w : Nat), s.slotReady (fV3 row.2.1) o = true → ETy.ofCode (fld o.imm 0 3) = some (.int w) →
    ∃ v, exec (row.1 o) s = .next (s.slotNext o ((s.slotCore o).send o.slot.toNat 1
        (.v o.d.toNat v (laneMask ((s.slotCore o).mask o.c))))) ∧
      ∀ j < 1024 / w, ∀ x : Int, x = row.2.2 (sextN w (fld ((s.slotCore o).rv o.a.toNat) (w * j) w))
          (sextN w (fld ((s.slotCore o).rv o.b.toNat) (w * j) w)) →
        -(2 ^ (w - 1) : Nat) ≤ x → x < (2 ^ (w - 1) : Nat) → sextN w (fld v (w * j) w) = x) ∧
  (∀ (s : State) (o : SlotOp) (w : Nat), s.slotReady (fV3 0x82) o = true → ETy.ofCode (fld o.imm 0 3) = some (.int w) →
    ∃ v, exec (.vmul o) s = .next (s.slotNext o ((s.slotCore o).send o.slot.toNat 2
        (.v o.d.toNat v (laneMask ((s.slotCore o).mask o.c))))) ∧
      ∀ j < 1024 / w, fld v (w * j) w =
        fld ((s.slotCore o).rv o.a.toNat) (w * j) w * fld ((s.slotCore o).rv o.b.toNat) (w * j) w % 2 ^ w) ∧
  (∀ row ∈ ([(.vabs, 0x86, fun w a => a % 2 ^ (w - 1), fun x => (x.natAbs : Int)),
      (.vneg, 0x87, fun w a => a ^^^ 2 ^ (w - 1), fun x => -x)] :
      List ((SlotOp → Instr) × Nat × (Nat → Nat → Nat) × (Int → Int))),
    ∀ (s : State) (o : SlotOp) (t : ETy), s.slotReady (fV2 row.2.1 7) o = true → ETy.ofCode (fld o.imm 0 3) = some t →
    ∃ v, exec (row.1 o) s = .next (s.slotNext o ((s.slotCore o).send o.slot.toNat 1
        (.v o.d.toNat v (laneMask ((s.slotCore o).mask o.c))))) ∧
      ∀ j < 1024 / t.width, ∀ a, a = fld ((s.slotCore o).rv o.a.toNat) (t.width * j) t.width →
        (∀ f, t = .fp f → fld v (t.width * j) t.width = row.2.2.1 t.width a % 2 ^ t.width) ∧
        (∀ w, t = .int w → row.2.2.2 (sextN w a) < (2 ^ (w - 1) : Nat) → sextN w (fld v (w * j) w) = row.2.2.2 (sextN w a))) ∧
  (∀ (m : BitVec 32) (i : Nat), i < 1024 → (laneMask m).getLsbD i = m.getLsbD (i / 32))

/-- R220, R222, R223 (Tables 7.12, 7.13): VFMA on floating-point types, and the FP32 approximations VEXP2, VLOG2, VRCP and VRSQRT,
element by element; VCVT between INT32 and FP32, narrowing into one half of vd and widening from one half of va. An integer type
in VFMA, and a reserved type code, fault with OPERAND. -/
def Obligations.VectorFusedApproximateAndConvert : Prop :=
  (∀ (s : State) (o : SlotOp), s.slotReady fVfma o = true →
    (∀ f, ETy.ofCode (fld o.imm 0 3) = some (.fp f) →
      ∃ v fl, exec (.vfma o) s = .next (s.slotNext o ((s.slotCore o).sendF o.slot.toNat 4
          (.v o.d.toNat v (BitVec.allOnes 1024)) fl)) ∧
        ∀ j < 1024 / f.width, fld v (f.width * j) f.width =
          (f.fmaE (fld ((s.slotCore o).rv o.a.toNat) (f.width * j) f.width) (fld ((s.slotCore o).rv o.b.toNat) (f.width * j) f.width)
            (fld ((s.slotCore o).rv o.c.toNat) (f.width * j) f.width)).bits % 2 ^ f.width) ∧
    ((∀ f, ETy.ofCode (fld o.imm 0 3) ≠ some (.fp f)) →
      exec (.vfma o) s = .next { s with gx := (s.gx.entered o).faultAt o.core.toNat 9 o.slot.toNat none 0 })) ∧
  (∀ row ∈ ([(.vexp2, 0x98, vexp2E), (.vlog2, 0x99, vlog2E), (.vrcp, 0x9A, vrcpE), (.vrsqrt, 0x9B, vrsqrtE)] :
      List ((SlotOp → Instr) × Nat × (Nat → FRes))),
    ∀ (s : State) (o : SlotOp), s.slotReady (fV2 row.2.1 0) o = true →
    ∃ v fl, exec (row.1 o) s = .next (s.slotNext o ((s.slotCore o).sendF o.slot.toNat 8
        (.v o.d.toNat v (laneMask ((s.slotCore o).mask o.c))) fl)) ∧
      ∀ j < 32, fld v (32 * j) 32 = (row.2.2 (fld ((s.slotCore o).rv o.a.toNat) (32 * j) 32)).bits % 2 ^ 32) ∧
  (∀ (s : State) (o : SlotOp), s.slotReady (fV2 0x90 0x7F) o = true →
    (fld o.imm 0 6 = 3 → ∃ v fl, exec (.vcvt o) s = .next (s.slotNext o ((s.slotCore o).sendF o.slot.toNat 2
        (.v o.d.toNat v (laneMask ((s.slotCore o).mask o.c))) fl)) ∧
      ∀ j < 32, fld v (32 * j) 32 = (fp32.ofIntE (sextN 32 (fld ((s.slotCore o).rv o.a.toNat) (32 * j) 32))).bits % 2 ^ 32) ∧
    (fld o.imm 0 6 = 24 → ∃ v fl, exec (.vcvt o) s = .next (s.slotNext o ((s.slotCore o).sendF o.slot.toNat 2
        (.v o.d.toNat v (laneMask ((s.slotCore o).mask o.c))) fl)) ∧
      ∀ j < 32, fld v (32 * j) 32 = (fp32.toIntE 32 (fld ((s.slotCore o).rv o.a.toNat) (32 * j) 32)).bits % 2 ^ 32) ∧
    (∀ h, h = (if bit o.imm 6 then 32 else 0) → fld o.imm 0 6 = 8 →
      ∃ v fl, exec (.vcvt o) s = .next (s.slotNext o ((s.slotCore o).sendF o.slot.toNat 2 (.v o.d.toNat v
          (laneMask ((s.slotCore o).mask o.c &&& (if bit o.imm 6 then 0xFFFF0000 else 0x0000FFFF)))) fl)) ∧
        ∀ j < 32, fld v (16 * (h + j)) 16 =
          (fp32.convertE bf16 (fld ((s.slotCore o).rv o.a.toNat) (32 * j) 32)).bits % 2 ^ 16) ∧
    (∀ h, h = (if bit o.imm 6 then 32 else 0) → fld o.imm 0 6 = 1 →
      ∃ v fl, exec (.vcvt o) s = .next (s.slotNext o ((s.slotCore o).sendF o.slot.toNat 2
          (.v o.d.toNat v (laneMask ((s.slotCore o).mask o.c))) fl)) ∧
        ∀ j < 32, fld v (32 * j) 32 =
          (bf16.convertE fp32 (fld ((s.slotCore o).rv o.a.toNat) (16 * (h + j)) 16)).bits % 2 ^ 32))

/-- R204, R207, R221 (Table 7.12): VCMP on 32-bit integers writes one predicate bit for each lane, under its mask, two cycles
later; VRED.MIN and VRED.MAX of INT32 lanes give the least and the greatest of the executing lanes, sign-extended, and VRED.ADD of
a single executing lane gives that lane. R204, R219 (Table 7.12): VAND, VOR, VXOR and VMOV act on whole lanes; VSEL takes each
lane from va where the selected mask is 1 and from vb elsewhere; VSHF shifts each integer element by IMM[9:5]; VPERM takes lane
vb[i][4:0] of va; VBCAST copies the low bits of ga to every element; VEXT and VINS move one element. -/
def Obligations.VectorComparesBitsAndMoves : Prop :=
  ((∀ row ∈ ([(.vcmpEq, 0, fun a b => decide (a = b)), (.vcmpNe, 1, fun a b => decide (a ≠ b)), (.vcmpLt, 2, fun a b => decide (a < b)),
        (.vcmpLe, 3, fun a b => decide (a ≤ b)), (.vcmpGt, 4, fun a b => decide (b < a)), (.vcmpGe, 5, fun a b => decide (b ≤ a))] :
        List ((SlotOp → Instr) × Nat × (Int → Int → Bool))),
      ∀ (s : State) (o : SlotOp), s.slotReady (fVcmp row.2.1) o = true → fld o.imm 0 3 = 3 →
      ∃ v : BitVec 32, exec (row.1 o) s = .next (s.slotNext o ((s.slotCore o).send o.slot.toNat 2
          (.p o.d.toNat v ((s.slotCore o).mask o.c)))) ∧
        ∀ j < 32, v.getLsbD j = row.2.2 (sextN 32 (fld ((s.slotCore o).rv o.a.toNat) (32 * j) 32))
          (sextN 32 (fld ((s.slotCore o).rv o.b.toNat) (32 * j) 32))) ∧
    (∀ row ∈ ([(.vredMin, 0x96, fun a b => decide (a ≤ b)), (.vredMax, 0x97, fun a b => decide (b ≤ a))] :
        List ((SlotOp → Instr) × Nat × (Int → Int → Bool))),
      ∀ (s : State) (o : SlotOp), s.slotReady (fVred row.2.1) o = true → fld o.imm 0 3 = 3 → (s.slotCore o).mask o.c ≠ 0 →
      ∃ x : Int, exec (row.1 o) s = .next (s.slotNext o ((s.slotCore o).send o.slot.toNat 4 (.g o.d.toNat (BitVec.ofInt 64 x)))) ∧
        (∃ j < 32, bit ((s.slotCore o).mask o.c) j = true ∧ x = sextN 32 (fld ((s.slotCore o).rv o.a.toNat) (32 * j) 32)) ∧
        ∀ j < 32, bit ((s.slotCore o).mask o.c) j = true →
          row.2.2 x (sextN 32 (fld ((s.slotCore o).rv o.a.toNat) (32 * j) 32)) = true) ∧
    (∀ (s : State) (o : SlotOp) (j : Nat), s.slotReady (fVred 0x95) o = true → fld o.imm 0 3 = 3 → j < 32 →
      (s.slotCore o).mask o.c = BitVec.ofNat 32 (2 ^ j) →
      exec (.vredAdd o) s = .next (s.slotNext o ((s.slotCore o).send o.slot.toNat 6
        (.g o.d.toNat (word (fld ((s.slotCore o).rv o.a.toNat) (32 * j) 32)))))) ∧
    (∀ (s : State) (o : SlotOp), s.slotReady (fVred 0x95) o = true → fld o.imm 0 3 ≤ 3 → (s.slotCore o).mask o.c = 0 →
      exec (.vredAdd o) s = .next (s.slotNext o ((s.slotCore o).send o.slot.toNat 6 (.g o.d.toNat 0))))) ∧
  ((∀ row ∈ ([(.vand, fV3 0x88, fun a b => a &&& b), (.vor, fV3 0x89, fun a b => a ||| b), (.vxor, fV3 0x8A, fun a b => a ^^^ b),
        (.vmov, fV2 0xA8 0, fun a _ => a)] : List ((SlotOp → Instr) × Form × (VReg → VReg → VReg))),
      ∀ (s : State) (o : SlotOp), s.slotReady row.2.1 o = true →
      exec (row.1 o) s = .next (s.slotNext o ((s.slotCore o).send o.slot.toNat 1 (.v o.d.toNat
        (row.2.2 ((s.slotCore o).rv o.a.toNat) ((s.slotCore o).rv o.b.toNat)) (laneMask ((s.slotCore o).mask o.c)))))) ∧
    (∀ (s : State) (o : SlotOp), s.slotReady fVsel o = true →
      ∃ v, exec (.vsel o) s = .next (s.slotNext o ((s.slotCore o).send o.slot.toNat 1 (.v o.d.toNat v (BitVec.allOnes 1024)))) ∧
        ∀ i < 1024, v.getLsbD i = if ((s.slotCore o).mask o.c).getLsbD (i / 32) then ((s.slotCore o).rv o.a.toNat).getLsbD i
          else ((s.slotCore o).rv o.b.toNat).getLsbD i) ∧
    (∀ row ∈ ([(.vshfLeft, 0, fun w a c => a * 2 ^ c % 2 ^ w), (.vshfLogicalRight, 1, fun _ a c => a / 2 ^ c),
        (.vshfArithRight, 2, fun w a c => wrapI w (sextN w a / (2 ^ c : Nat)))] :
        List ((SlotOp → Instr) × Nat × (Nat → Nat → Nat → Nat))),
      ∀ (s : State) (o : SlotOp) (w : Nat), s.slotReady (fVshf row.2.1) o = true → ETy.ofCode (fld o.imm 0 3) = some (.int w) →
      ∃ v, exec (row.1 o) s = .next (s.slotNext o ((s.slotCore o).send o.slot.toNat 1
          (.v o.d.toNat v (laneMask ((s.slotCore o).mask o.c))))) ∧
        ∀ j < 1024 / w, fld v (w * j) w = row.2.2 w (fld ((s.slotCore o).rv o.a.toNat) (w * j) w) (fld o.imm 5 5)) ∧
    (∀ (s : State) (o : SlotOp), s.slotReady fVperm o = true →
      ∃ v, exec (.vperm o) s = .next (s.slotNext o ((s.slotCore o).send o.slot.toNat 2
          (.v o.d.toNat v (laneMask ((s.slotCore o).mask o.c))))) ∧
        ∀ j < 32, fld v (32 * j) 32 = fld ((s.slotCore o).rv o.a.toNat) (32 * fld ((s.slotCore o).rv o.b.toNat) (32 * j) 5) 32) ∧
    (∀ (s : State) (o : SlotOp) (t : ETy), s.slotReady fVbcast o = true → ETy.ofCode (fld o.imm 0 3) = some t →
      ∃ v, exec (.vbcast o) s = .next (s.slotNext o ((s.slotCore o).send o.slot.toNat 2
          (.v o.d.toNat v (laneMask ((s.slotCore o).mask o.c))))) ∧
        ∀ j < 1024 / t.width, fld v (t.width * j) t.width = fld ((s.slotCore o).rg o.a.toNat) 0 t.width) ∧
    (∀ (s : State) (o : SlotOp) (t : ETy) (j : Nat), ETy.ofCode (fld o.imm 0 3) = some t → j = fld o.imm 7 7 → j < 1024 / t.width →
      live t.width ((s.slotCore o).mask o.c) j = true →
      (s.slotReady fVext o = true → exec (.vext o) s = .next (s.slotNext o ((s.slotCore o).send o.slot.toNat 2 (.g o.d.toNat
        (match t with
          | .fp _ => word (fld ((s.slotCore o).rv o.a.toNat) (t.width * j) t.width)
          | .int w => BitVec.ofInt 64 (sextN w (fld ((s.slotCore o).rv o.a.toNat) (w * j) w))))))) ∧
      (s.slotReady fVins o = true → ∃ v m, exec (.vins o) s = .next (s.slotNext o ((s.slotCore o).send o.slot.toNat 2
          (.v o.d.toNat v m))) ∧
        fld v (t.width * j) t.width = fld ((s.slotCore o).rg o.a.toNat) 0 t.width ∧
        ∀ i < 1024, m.getLsbD i = decide (t.width * j ≤ i ∧ i < t.width * (j + 1)))))

/-- R224: VLD reads 128 aligned bytes of the own SRAM, lane 0 first, five cycles later, and VST sends the bytes of its executing lanes;
a misaligned address faults with ALIGN, any other core's SRAM, HBM or a register with SCOPE. -/
def Obligations.VectorLoadsAndStores : Prop := ∀ (s : State) (o : SlotOp) (a : Nat),
  a = ((s.slotCore o).rg o.a.toNat + o.imm.signExtend 64).toNat →
  (s.slotReady fVld o = true →
    (a % 128 ≠ 0 → exec (.vld o) s = .next { s with gx := (s.gx.entered o).faultAt o.core.toNat 6 o.slot.toNat (some a) 0 }) ∧
    (a % 128 = 0 → addrKind a ≠ .none → addrKind a ≠ .sram o.core.toNat →
      exec (.vld o) s = .next { s with gx := (s.gx.entered o).faultAt o.core.toNat 5 o.slot.toNat (some a) 0 }) ∧
    (a % 128 = 0 → addrKind a = .sram o.core.toNat → (s.gx.entered o).poisoned a 128 = false →
      (s.gx.entered o).clash none false a 128 = false →
      ∃ v, exec (.vld o) s = .next (s.slotNext o ((s.slotCore o).send o.slot.toNat 5
          (.v o.d.toNat v (laneMask ((s.slotCore o).mask o.c))))) ∧
        ∀ i < 128, BitVec.ofNat 8 (fld v (8 * i) 8) = memByte (s.gx.entered o).mem (a + i))) ∧
  (s.slotReady fVst o = true →
    (a % 128 ≠ 0 → exec (.vst o) s = .next { s with gx := (s.gx.entered o).faultAt o.core.toNat 6 o.slot.toNat (some a) 0 }) ∧
    (a % 128 = 0 → addrKind a = .sram o.core.toNat →
      ∃ l, exec (.vst o) s = .next (s.slotNext o ((s.slotCore o).send o.slot.toNat 1 (.store l))) ∧
        ∀ x, x ∈ l ↔ ∃ i < 32, bit ((s.slotCore o).mask o.c) i = true ∧
          x = (a + 4 * i, leBytes 4 (fld ((s.slotCore o).rv o.b.toNat) (32 * i) 32))))

/-! ### The cores: engines, waits and fences -/

/-- R232, R233, R236, R237 (Table 8.1): an operation whose operands and ranges are allowed, whose tag is idle and whose queue holds
fewer than 8 enters its queue at issue, with a copy of the `g` registers; with a busy tag, or a full queue, it faults with ENGINE. -/
def Obligations.EngineOperationsEnterTheirQueue : Prop :=
  ∀ row ∈ ([
    (.mma, fE 0xC0 immAll 0 0 .tile .g .g, fun _ o => .matrix (BitVec.ofNat 4 (fld o.imm 5 4)),
      fun k o => .mma (o.d.toNat % 8) (k.rg o.a.toNat).toNat (k.rg o.b.toNat).toNat (fld o.imm 20 12) (fld o.imm 12 4) (fld o.imm 16 4)
        (bit o.imm 11) (fld o.imm 9 2),
      fun k o => decide (o.core.toNat < 8) && decide (fld o.imm 20 12 ≠ 0) && fmtPair (fld o.imm 12 4) (fld o.imm 16 4)
        && decide ((k.rg o.a.toNat).toNat % 128 = 0) && decide ((k.rg o.b.toNat).toNat % 128 = 0)
        && inOwnSram o.core.toNat (k.rg o.a.toNat).toNat (mmaBytes (fld o.imm 12 4) (16 * fld o.imm 20 12)
          (cfgBlock (k.netSlot (fld o.imm 5 4) (fld o.imm 9 2))))
        && inOwnSram o.core.toNat (k.rg o.b.toNat).toNat (mmaBytes (fld o.imm 16 4) (16 * fld o.imm 20 12)
          (cfgBlock (k.netSlot (fld o.imm 5 4) (fld o.imm 9 2))))),
    (.tld, fE 0xC1 0x3FF 0 0 .tile .g .unused, fun _ o => .matrix (BitVec.ofNat 4 (fld o.imm 5 4)),
      fun k o => .tld (o.d.toNat % 8) (k.rg o.a.toNat).toNat (bit o.imm 9),
      fun k o => decide (o.core.toNat < 8) && decide ((k.rg o.a.toNat).toNat % 128 = 0)
        && inOwnSram o.core.toNat (k.rg o.a.toNat).toNat 32768),
    (.tst, fE 0xC2 0xFFF 0 0 .tile .g .unused, fun _ o => .matrix (BitVec.ofNat 4 (fld o.imm 5 4)),
      fun k o => .tst (o.d.toNat % 8) (k.rg o.a.toNat).toNat (fld o.imm 9 3),
      fun k o => decide (o.core.toNat < 8) && decide (fld o.imm 9 3 ≤ 3) && decide ((k.rg o.a.toNat).toNat % 128 = 0)
        && inOwnSram o.core.toNat (k.rg o.a.toNat).toNat (tstBytes (fld o.imm 9 3))),
    (.accnetCfg, fE 0xC3 0x7FF 0 0 .unused .g .unused, fun _ o => .matrix (BitVec.ofNat 4 (fld o.imm 5 4)),
      fun k o => .accnet (k.rg o.a.toNat).toNat (fld o.imm 9 2),
      fun k o => decide (o.core.toNat < 8) && decide ((k.rg o.a.toNat).toNat % 64 = 0)
        && inOwnSram o.core.toNat (k.rg o.a.toNat).toNat 64),
    (.dmaFarToLocal, fE 0xC4 0xFFFFFF3F 0x20 0 .unused .g .g, fun _ _ => .dma,
      fun k o => .dma (k.rg o.a.toNat).toNat (k.rg o.b.toNat).toNat (64 * fld o.imm 8 24) false, dmaAllowed),
    (.dmaLocalToFar, fE 0xC4 0xFFFFFF3F 0x20 0x20 .unused .g .g, fun _ _ => .dma,
      fun k o => .dma (k.rg o.a.toNat).toNat (k.rg o.b.toNat).toNat (64 * fld o.imm 8 24) true, dmaAllowed),
    (.vprog, fE 0xC6 0xFFFF007F 0 0 .unused .g .unused, fun _ o => .vector (BitVec.ofNat 2 (fld o.imm 5 2)),
      fun k o => .vprog (k.rg o.a.toNat).toNat (fld o.imm 16 16),
      fun k o => decide (8 ≤ o.core.toNat) && decide (1 ≤ fld o.imm 16 16) && decide (fld o.imm 16 16 ≤ 4096)
        && decide (fld o.imm 5 2 ≠ 0) && decide ((k.rg o.a.toNat).toNat % 8 = 0)
        && inOwnSram o.core.toNat (k.rg o.a.toNat).toNat (8 * fld o.imm 16 16))] :
      List ((SlotOp → Instr) × Form × (Core → SlotOp → EngQueue) × (Core → SlotOp → EngKind) × (Core → SlotOp → Bool))),
  ∀ (s : State) (o : SlotOp), s.slotReady row.2.1 o = true → row.2.2.2.2 (s.slotCore o) o = true →
    s.Enters o (row.1 o) (row.2.2.1 (s.slotCore o) o) (row.2.2.2.1 (s.slotCore o) o)

/-- R168, R236, R245: XOP on each engine: its descriptor lies aligned in the core's own SRAM, and the engine is in a window of this core
(the Remote Memory Engine needs none, and its operations wait in the core's queue of it): the operation enters the queue.
Outside a window an operation of a shared engine faults with ENGINE_WINDOW. -/
def Obligations.SharedEngineOperationsNeedTheirWindow : Prop :=
  ∀ row ∈ ([(.reduceCore, 0, 1), (.reduceDetail, 0, 2), (.reduceArrivals, 0, 3), (.coarsen, 0, 4), (.publish, 0, 5), (.score, 1, 1),
      (.featUpdate, 1, 2), (.crc64, 2, 1), (.crc32c, 2, 2), (.m61Digest, 2, 3), (.crc64Verify, 2, 0x11), (.crc32cVerify, 2, 0x12),
      (.m61Verify, 2, 0x13), (.deflate, 3, 1), (.inflate, 3, 2), (.rmWrite, 4, 1), (.rmRead, 4, 2), (.rmFetchAdd, 4, 3),
      (.rmCmpSwap, 4, 4)] : List ((SlotOp → Instr) × Nat × Nat)),
  ∀ (s : State) (o : SlotOp) (a : Nat), s.slotReady (fXop row.2.1 row.2.2) o = true → a = ((s.slotCore o).rg o.a.toNat).toNat →
    a % 64 = 0 → inOwnSram o.core.toNat a 64 = true →
    (row.2.1 = 4 ∨ (s.gx.entered o).inWindow row.2.1 o.core.toNat (s.slotCore o).cyc = true →
      s.Enters o (row.1 o) (.shared (BitVec.ofNat 3 row.2.1)) (.xop a row.2.2)) ∧
    (row.2.1 ≠ 4 → (s.gx.entered o).inWindow row.2.1 o.core.toNat (s.slotCore o).cyc = false →
      exec (row.1 o) s = .next { s with gx := (s.gx.entered o).faultAt o.core.toNat 8 o.slot.toNat none 0 })

/-- R234, R241, R242, R244: a DMA takes its source bytes when it begins, and its completion writes them at its destination and
ends it with its tag idle; TLD replaces its tile, ACCNET.CFG its configuration slot, TST writes its tile; an overlapped operation
is left out here. R238, R243, R256: an MMA completes by replacing its tile and ending its operation; with a residue mismatch its
tag takes RESIDUE and the fault is counted and reported. R246: a vector program of a single VMOV copies the engine's own register.
R245, R294 to R296, R308: an operation of the Digest Unit whose descriptor holds every rule completes: the digest of its source
bytes is in its descriptor with status 0, or 1 where a check differs, the tag reads 0, and no other byte of memory changes. -/
def Obligations.EngineOperationsComplete : Prop :=
  (∀ (s : State) (core : BitVec 5) (p : EngOp) (rest : List EngOp),
    s.gx.coreUp = true → (s.gx.core core.toNat).ops = p :: rest →
    (∀ loc far len toFar, p.q = .dma → p.kind = .dma loc far len toFar → p.begun = false → (s.gx.core core.toNat).isOpen = false →
      s.gx.clash (some (core.toNat, p.tag)) false (if toFar then loc else far) len = false →
      ∃ t, exec (.engineOpBegin core .dma) s = .next t ∧ t.gx.mem = s.gx.mem ∧ t.bm = s.bm ∧
        (t.gx.core core.toNat).ops = { p with
          begun := true, data := memBytes s.gx.mem (if toFar then loc else far) len,
          bad := s.gx.poisoned (if toFar then loc else far) len } :: rest) ∧
    (∀ loc far len toFar, p.q = .dma → p.kind = .dma loc far len toFar → p.begun = true → p.bad = false → p.spoilt = false →
      s.gx.clash (some (core.toNat, p.tag)) true (if toFar then far else loc) p.data.length = false →
      ∃ t, exec (.dmaComplete core .ok) s = .next t ∧ t.gx.mem = memWrite s.gx.mem (if toFar then far else loc) p.data ∧
        (t.gx.core core.toNat).ops = rest ∧ SMap.get 0 (t.gx.core core.toNat).tags p.tag = 0 ∧ t.gx.regs = s.gx.regs ∧ t.bm = s.bm) ∧
    (∀ e t a isInt, p.q = .matrix e → p.kind = .tld t a isInt → p.begun = true → p.bad = false → p.spoilt = false →
      ∃ u, exec (.tileOpComplete core e) s = .next u ∧ u.gx.mem = s.gx.mem ∧ (u.gx.core core.toNat).ops = rest ∧
        (u.gx.core core.toNat).tile e.toNat t = .known isInt ((chunks 8 4096 p.data).map fun l => word (leNat l)) ∧
        (∀ f i, 8 * f + i ≠ 8 * e.toNat + t → (u.gx.core core.toNat).tile f i = (s.gx.core core.toNat).tile f i) ∧ u.bm = s.bm) ∧
    (∀ e t a out, p.q = .matrix e → p.kind = .tst t a out → p.begun = true → p.bad = false → p.spoilt = false →
      s.gx.clash (some (core.toNat, p.tag)) true a p.data.length = false →
      ∃ u, exec (.tileOpComplete core e) s = .next u ∧ u.gx.mem = memWrite s.gx.mem a p.data ∧ (u.gx.core core.toNat).ops = rest ∧
        u.bm = s.bm) ∧
    (∀ e a net, p.q = .matrix e → p.kind = .accnet a net → p.begun = true → p.bad = false → p.spoilt = false →
      ∃ u, exec (.tileOpComplete core e) s = .next u ∧ u.gx.mem = s.gx.mem ∧ (u.gx.core core.toNat).ops = rest ∧
        (u.gx.core core.toNat).netSlot e.toNat net = p.data ∧ u.bm = s.bm)) ∧
  (∀ (s : State) (core : BitVec 5) (p : EngOp) (rest : List EngOp),
    s.gx.coreUp = true → (s.gx.core core.toNat).ops = p :: rest → p.begun = true → p.bad = false → p.spoilt = false →
    (∀ e t a b kq fa fb net, p.q = .matrix e → p.kind = .mma t a b kq fa fb true net →
      (∃ u, exec (.mmaComplete core e false) s = .next u ∧ u.gx.mem = s.gx.mem ∧ u.gx.regs = s.gx.regs ∧
        (u.gx.core core.toNat).ops = rest ∧ SMap.get 0 (u.gx.core core.toNat).tags p.tag = 0 ∧
        (u.gx.core core.toNat).tile e.toNat t = mmaTile p ((s.gx.core core.toNat).tile e.toNat t)) ∧
      (∃ u, exec (.mmaComplete core e true) s = .next u ∧ u.gx.mem = s.gx.mem ∧ (u.gx.core core.toNat).ops = rest ∧
        SMap.get 0 (u.gx.core core.toNat).tags p.tag = 1 ∧
        (s.gx.events.length < 256 → ∃ x ∈ u.gx.events, x.code = 0x0522 ∧ x.agent = core.toNat))) ∧
    (∀ e a d c, p.q = .vector e → p.kind = .vprog a 1 → d < 32 → c < 32 →
      p.data = leBytes 8 (0xA8 * 2 ^ 56 + d * 2 ^ 50 + c * 2 ^ 44) →
      ∃ u, exec (.vprogComplete core e) s = .next u ∧ u.gx.mem = s.gx.mem ∧ (u.gx.core core.toNat).ops = rest ∧
        SMap.get 0 (SMap.get {} (u.gx.core core.toNat).vecs e.toNat).v d = SMap.get 0 (SMap.get {} (s.gx.core core.toNat).vecs e.toNat).v c)) ∧
  (∀ (s : State) (core : BitVec 5) (p : EngOp) (rest : List EngOp) (a code len v : Nat),
    s.gx.coreUp = true → (s.gx.core core.toNat).ops = p :: rest → p.q = .shared 2 → p.kind = .xop a code → p.begun = true →
    p.bad = false → p.spoilt = false → p.data.length = 64 → code ∈ [1, 2, 3, 0x11, 0x12, 0x13] →
    bit (s.gx.rd Reg.DG_CTRL) 63 = true → len = leAt p.data 8 4 → 1 ≤ len → len ≤ 16777216 → zeros p.data 13 16 = true →
    zeros p.data 52 64 = true →
    (code % 16 = 3 → leAt p.data 16 8 < 2 ^ 61 ∧ 5 ≤ leAt p.data 12 1 ∧ leAt p.data 12 1 ≤ 8 ∧ len % m61Width (leAt p.data 12 1) = 0) →
    memRange (leAt p.data 0 8) len = true → s.gx.poisoned (leAt p.data 0 8) len = false →
    s.gx.clash (some (core.toNat, p.tag)) false (leAt p.data 0 8) len = false →
    s.gx.clash (some (core.toNat, p.tag)) true a 64 = false →
    v = digestOf code p.data (memBytes s.gx.mem (leAt p.data 0 8) len) →
    ∃ t, exec (.xopComplete core 2 .ok) s = .next t ∧ t.bm = s.bm ∧ t.gx.regs = s.gx.regs ∧ (t.gx.core core.toNat).ops = rest ∧
      SMap.get 0 (t.gx.core core.toNat).tags p.tag = 0 ∧
      t.gx.mem = memWrite s.gx.mem a (p.data.take 40 ++ leBytes 8 v ++
        leBytes 4 (if code < 16 ∨ v = leAt p.data 32 8 then 0 else 1) ++ p.data.drop 52))

/-- R197, R247, R252, R253: a wait or fence takes hold when its bundle is complete. It ends at once, with no cycle lost, where its
condition already holds, and the core waits where it does not: WAIT.E for the tags of its mask, FENCE.M for the far accesses,
FENCE.E for every engine operation, FENCE.F for the posted Remote Memory writes; FENCE.X never waits; TICKSYNC joins the barrier. -/
def Obligations.WaitsAndFences : Prop :=
  (∀ row ∈ ([
    (.waitE, fE 0xC8 immAll 0 0 .g .unused .unused, fun o => .tags o.imm o.d.toNat, fun o k => k.ops.any fun p => bit o.imm p.tag),
    (.fenceM, fE 0xD0 0 0 0 .unused .unused .unused, fun _ => .fenceM, fun _ k => decide (k.far ≠ [])),
    (.fenceE, fE 0xD1 0 0 0 .unused .unused .unused, fun _ => .fenceE, fun _ k => decide (k.ops ≠ [])),
    (.fenceX, fE 0xD2 0 0 0 .unused .unused .unused, fun _ => .fenceX, fun _ _ => false),
    (.fenceF, fE 0xD3 0 0 0 .unused .unused .unused, fun _ => .fenceF, fun _ k => decide (k.posted ≠ 0)
      || k.ops.any fun p => decide (p.q = .shared 4) && (match p.kind with
        | .xop _ c => c == 1
        | _ => false)),
    (.ticksync, fE 0xDF 0 0 0 .unused .unused .unused, fun _ => .ticksync, fun _ k => decide (k.ops ≠ []))] :
      List ((SlotOp → Instr) × Form × (SlotOp → Wait) × (SlotOp → Core → Bool))),
    ∀ (s : State) (o : SlotOp) (c : Glexon), s.slotReady row.2.1 o = true →
    c = ((s.gx.entered o).setCore o.core.toNat { (s.slotCore o) with
      wait := row.2.2.1 o, next := o.slot.toNat + 1 }).closeBundle o.core.toNat →
    ∃ t, exec (row.1 o) s = .next t ∧ t.bm = s.bm ∧
      (row.2.2.2 o (c.core o.core.toNat) = true → t.gx = c) ∧
      (row.2.2.2 o (c.core o.core.toNat) = false → (c.core o.core.toNat).ncyc < c.tdead → (c.core o.core.toNat).cyc + 1 < c.tdead →
        (t.gx.core o.core.toNat).wait = .none ∧ (t.gx.core o.core.toNat).ncyc = (c.core o.core.toNat).ncyc ∧ t.gx.mem = c.mem)) ∧
  (∀ (s : State) (core : BitVec 5) (n : BitVec 32), s.gx.coreUp = true → (s.gx.core core.toNat).phase = .issuing →
    (s.gx.core core.toNat).wait = .fenceX → (s.gx.core core.toNat).ncyc + n.toNat < s.gx.tdead →
    ∃ t, exec (.coreWaitEnd core n) s = .next t ∧ (t.gx.core core.toNat).wait = .none ∧
      (t.gx.core core.toNat).ncyc = (s.gx.core core.toNat).ncyc + n.toNat ∧ t.gx.mem = s.gx.mem ∧ t.gx.regs = s.gx.regs)

/-- R199, R202, R254, R256, R257: CORE_ENTRY begins the tick's work at the entry of the image's variant, in cycle 3,600, with cleared
registers; a self-check that passes leaves the core in service, and one that fails aborts it for the tick and makes its
withdrawal pending; a pending withdrawal takes effect at its boundary; requests are the management processor's, and any other
agent's is refused and counted; an undefined opcode faults. -/
def Obligations.CoresEnterCheckAndWithdraw : Prop := ∀ (s : State) (core : BitVec 5), s.gx.coreUp = true → core.toNat < 24 →
  (s.gx.tk.ticking = true → s.gx.withdrawn core.toNat = false → (s.gx.core core.toNat).check = false →
    (s.gx.core core.toNat).phase = .idle → bit s.gx.abortMask core.toNat = false → (s.gx.core core.toNat).inSet = true →
    ∃ t, exec (.coreEntry core) s = .next t ∧ (t.gx.core core.toNat).phase = .issuing ∧
      (t.gx.core core.toNat).npc = SMap.get 0 s.gx.variant.entry core.toNat ∧ (t.gx.core core.toNat).ncyc = 3600 ∧
      (∀ r, (t.gx.core core.toNat).rg r = 0) ∧ (∀ r, (t.gx.core core.toNat).rv r = 0) ∧ (t.gx.core core.toNat).fpstat = 0 ∧
      (∀ i, SMap.get 0 (t.gx.core core.toNat).tags i = 0) ∧ (t.gx.core core.toNat).isOpen = false ∧ t.gx.mem = s.gx.mem) ∧
  ((s.gx.core core.toNat).check = true → (s.gx.core core.toNat).restore = false →
    exec (.selfCheck core none) s = .next { s with
      gx := s.gx.setCore core.toNat { (s.gx.core core.toNat) with check := false, restore := false } } ∧
    ∀ f : CheckFail, ∃ t, exec (.selfCheck core (some f)) s = .next t ∧ (t.gx.core core.toNat).phase = .aborted ∧
      bit t.gx.abortMask core.toNat = true ∧
      (t.gx.core core.toNat).wdraw = (if (s.gx.core core.toNat).wdraw.isNone then some (s.gx.tk.tickNo + 1, 1)
        else (s.gx.core core.toNat).wdraw)) ∧
  (∀ n cause, s.gx.tk.ticking = true → (s.gx.core core.toNat).wdraw = some (n, cause) → n.toNat ≤ s.gx.tk.tickNo.toNat →
    (∀ c < core.toNat, (s.gx.core c).wdraw = none) →
    ∃ t, exec (.coreWithdrawn core) s = .next t ∧ t.gx.withdrawn core.toNat = true ∧ (t.gx.core core.toNat).phase = .idle ∧
      (t.gx.core core.toNat).wdraw = none ∧ t.gx.mem = s.gx.mem) ∧
  (∀ row ∈ ([(.mcWithdrawReq, Reg.MC_WITHDRAW_REQ), (.mcRestoreReq, Reg.MC_RESTORE_REQ)] :
      List ((BitVec 6 → BitVec 24 → Instr) × Nat)),
    ∀ m : BitVec 24, exec (row.1 31 m) s = .next { s with gx := s.gx.wr row.2 (s.gx.rd row.2 ||| m.zeroExtend 64) } ∧
    ∀ a : BitVec 6, a ≠ 31 → exec (row.1 a m) s = .next { s with gx := s.gx.bump Reg.MC_CMD_REFUSED 1 }) ∧
  (∀ (slot : BitVec 2) (o : SlotOp), o = { core := core, slot := slot, first := false, d := 0, a := 0, b := 0, c := 0, imm := 0 } →
    s.gx.slotWord core.toNat (s.gx.core core.toNat).pc slot.toNat = 0xFF00000000000000 →
    s.gx.fetches { op := 0xFF, slots := 15, c := .unused, imm := immAll } o = true → (s.gx.core core.toNat).isOpen = true →
    exec (.illegal core slot false) s = .next { s with gx := s.gx.faultAt core.toNat 1 slot.toNat none 0 })

/-! ### The Glexon's engines: audit, scoring, reduction, energy, traffic -/

/-- R271 to R273, R277 to R280, R284: a profile check records the entry and leaves its code and its mark; a tile that passes the
arrival checks enters staging, and one that fails is rejected; the verdict unit fills a line from the queue within its cycles; a
first replay that waited too long is discarded; a result that agrees is CLEAN, a replay without result is tried again, and one that
read poisoned data is rejected. -/
def Obligations.AuditTilesAreStagedReplayedAndJudged : Prop := ∀ s : State, s.gx.coreUp = true →
  (∀ i : Byte, ∃ t, exec (.profileCheck i) s = .next t ∧ t.gx.au = { s.gx.au with check := some i.toNat } ∧
    t.gx.rd Reg.AU_PROF_RESULT = word (i.toNat * 256) ∧ t.gx.mem = s.gx.mem ∧ t.bm = s.bm) ∧
  (∀ i, s.gx.au.check = some i → ∃ t c, exec .profileCheckDone s = .next t ∧ t.gx.au.check = none ∧
    t.gx.rd Reg.AU_PROF_RESULT = word (2 ^ 63 + i * 256 + c) ∧ t.gx.au.marks = s.gx.au.marks ++ [(i, decide (c = 0))] ∧
    t.gx.mem = s.gx.mem) ∧
  (∀ (p : BitVec 6) r0 at0 g1 r g2, s.gx.siennaRelease.stageFull = false →
    s.gx.siennaRelease.popFifo p.toNat 2 = some ((r0, at0), g1) → g1.tapMeter p.toNat r0 = (some r, g2) → g2.tk.ticking = true →
    (g2.wsEntry 0 r.wsId.toNat).takes r.wsGen.toNat r.tick = true →
    (g2.arrivalFail r.payload = 0 → ∃ t x, exec (.auditTileAccept p) s = .next t ∧ t.gx.au.tiles = g2.au.tiles ++ [x] ∧ x.r = r ∧
      x.port = p.toNat ∧ x.kind = .first ∧ x.on = none ∧ x.arrived = g2.tk.tickNo ∧ t.gx.au.verd = g2.au.verd) ∧
    (g2.arrivalFail r.payload ≠ 0 → ∃ t, exec (.auditTileAccept p) s = .next t ∧
      SMap.get 0 t.gx.au.verd 4 = SMap.get 0 g2.au.verd 4 + 1 ∧
      SMap.get 0 t.gx.au.rej (g2.arrivalFail r.payload) = SMap.get 0 g2.au.rej (g2.arrivalFail r.payload) + 1)) ∧
  (∀ l, s.gx.tk.ticking = true → s.gx.au.work = [] → s.gx.image.replay.filter s.gx.lineOn = [l] →
    ∃ (t : State) (q : List Tile9), exec .auditWorkList s = .next t ∧ t.gx.au.work = q.map (fun x => x.id) ∧ q.Sublist s.gx.au.queue ∧
      (∀ x ∈ q, lineTakes l x = true) ∧ (q.map fun x => x.hdr.cycles).sum ≤ l.cycles ∧ t.gx.regs = s.gx.regs ∧ t.gx.mem = s.gx.mem) ∧
  (∃ t, exec .replayAgeOut s = .next t ∧ t.gx.au.work = s.gx.au.work ∧
    ∀ x, x ∈ t.gx.au.tiles ↔ x ∈ s.gx.au.tiles ∧ ∀ y ∈ s.gx.au.tiles, y.kind = .first → y.on = none →
      fld (s.gx.rd Reg.AU_MAX_AGE) 0 16 < s.gx.tk.tickNo.toNat - y.arrived.toNat → y.id ≠ x.id) ∧
  (∀ x line c, s.gx.au.tiles = [x] → s.gx.au.work = [x.id] → x.on = some (line, c) → x.w1 = none →
    (x.tries < 2 → ∃ t, exec (.resultRead [.residue]) s = .next t ∧ t.gx.au.work = [] ∧
      t.gx.au.tiles = [{ x with kind := .again, tries := x.tries + 1, cores := c :: x.cores, on := none }] ∧
      t.gx.rd Reg.AU_REREPLAY = satAdd (s.gx.rd Reg.AU_REREPLAY) 1) ∧
    (∃ t, exec (.resultRead [.poisoned]) s = .next t ∧ t.gx.au.work = [] ∧ t.gx.au.tiles = [] ∧
      SMap.get 0 t.gx.au.verd 4 = SMap.get 0 s.gx.au.verd 4 + 1) ∧
    (∀ crc d f u y, x.hdr.profile ≠ 0 → crc.toNat = x.hdr.digest → ∃ t, exec (.resultRead [.wrong crc d f u y]) s = .next t ∧
      t.gx.au.work = [] ∧ t.gx.au.tiles = [] ∧ SMap.get 0 t.gx.au.verd 0 = SMap.get 0 s.gx.au.verd 0 + 1))

/-- R337, R352, R358, R375, R376: an instance whose first data tick lies INST_TIMEOUT ticks back closes with the timeout flag; a
model check notes the image's address and then, if every rule of the image check holds, makes the model the next one of its slot, else
shows the rule that failed; INV marks the feature cache; stale decode pairs leave their rings and stale items their table. -/
def Obligations.InstancesModelsAndItemsExpire : Prop := ∀ s : State, s.gx.coreUp = true →
  (∃ t, exec .instanceTimeout s = .next t ∧
    t.gx.fl.inst = s.gx.fl.inst.filter (fun i =>
      decide (s.gx.tk.tickNo.toNat < i.since.toNat + max 1 (fld (s.gx.rd Reg.RE_CTRL) 32 16))) ∧
    t.gx.fl.closed = s.gx.fl.closed ++ (s.gx.fl.inst.filter fun i =>
      decide (i.since.toNat + max 1 (fld (s.gx.rd Reg.RE_CTRL) 32 16) ≤ s.gx.tk.tickNo.toNat)).map (fun i => i.close 2) ∧
    t.gx.mem = s.gx.mem ∧ t.bm = s.bm) ∧
  (∀ (k : BitVec 4) (a : Word), ∃ t, exec (.modelCheck k a) s = .next t ∧
    t.gx.modelSlot k.toNat = { (s.gx.modelSlot k.toNat) with check := some (fld a 0 48) } ∧
    t.gx.rd (Reg.ES_MODEL_ADDR k.toNat) = word (fld a 0 48) ∧ t.gx.mem = s.gx.mem) ∧
  (∀ (k : BitVec 4) (a : Nat), (s.gx.modelSlot k.toNat).check = some a → ∃ t, exec (.modelCheckDone k) s = .next t ∧
    (s.gx.modelCheckCode a = 0 → t.gx.modelSlot k.toNat = { (s.gx.modelSlot k.toNat) with
      check := none, next := some (Model.ofBytes (memBytes s.gx.mem a (memNat s.gx.mem (a + 20) 4))) }) ∧
    (s.gx.modelCheckCode a ≠ 0 → t.gx.modelSlot k.toNat = { (s.gx.modelSlot k.toNat) with check := none } ∧
      fld (t.gx.rd (Reg.ES_MODEL_STAT k.toNat)) 0 8 = s.gx.modelCheckCode a) ∧ t.gx.mem = s.gx.mem) ∧
  (∃ t, exec .inv s = .next t ∧ t.gx.es = { s.gx.es with inv := true } ∧ bit (t.gx.rd Reg.ES_CTRL) 62 = true ∧ t.gx.mem = s.gx.mem) ∧
  (∃ t, exec .decodePairExpire s = .next t ∧ (∀ p < 64, SMap.get [] t.gx.es.dec p = s.gx.ringLive p) ∧
    t.gx.es.items = s.gx.es.items ∧ t.gx.regs = s.gx.regs ∧ t.gx.mem = s.gx.mem) ∧
  exec .itemExpire s = .next { s with
    gx := { s.gx with
      es := { s.gx.es with
      items := s.gx.es.items.filter fun i =>
        decide (s.gx.tk.tickNo.toNat ≤ i.last.toNat + fld (s.gx.rd Reg.ES_ITEM_CFG) 0 32) } } }

/-- R384, R386 to R388, R391, R392: admission admits the lines of a prefix of the priority order, each of which leaves the predicted
energy within the budget, and the first line that does not fit ends it; it admits none while the planner is off, a reading is
missing, the package is at T_HARD or a stack is hot. A budget exceeded 16 ticks in a row applies Mauve Greyout. -/
def Obligations.AdmissionStaysWithinTheBudget : Prop := ∀ s : State, s.gx.coreUp = true → s.gx.tk.ticking = true →
  (s.gx.ep.due = true → ∃ t adm rest, exec .admission s = .next t ∧ t.gx.ep.due = false ∧
    s.gx.openLines = adm ++ rest ∧ t.gx.rd Reg.EP_ADMIT = word (adm.foldl (fun a l => a + 2 ^ l.line) 0) ∧
    (∀ n < adm.length, s.gx.overBudget ((adm.take (n + 1)).map s.gx.lineEst).sum s.gx.budget = false) ∧
    (bit (s.gx.rd Reg.EP_CTRL) 63 = false ∨ s.gx.ep.missing ≠ none ∨ s.gx.ep.stale = true ∨ s.gx.mg.hbmHot ≠ 0 ∨
      ((16 * s.gx.therm.1 : Nat) : Int) ≤ s.gx.tj → adm = []) ∧
    (bit (s.gx.rd Reg.EP_CTRL) 63 = true → s.gx.ep.missing = none → s.gx.ep.stale = false → s.gx.mg.hbmHot = 0 →
      s.gx.tj < ((16 * s.gx.therm.1 : Nat) : Int) → ∀ l r, rest = l :: r →
      s.gx.overBudget (((adm ++ [l]).map s.gx.lineEst).sum) s.gx.budget = true) ∧
    t.gx.mem = s.gx.mem ∧ t.bm = s.bm) ∧
  (s.gx.roleOn 0 = true → bit (s.gx.rd Reg.EP_CTRL) 61 = true →
    (s.gx.ep.grey = false → 16 ≤ s.gx.ep.overB → ∃ t, exec .mauveGreyout s = .next t ∧ t.gx.ep = { s.gx.ep with grey := true } ∧
      (s.gx.events.length < 256 → ∃ x ∈ t.gx.events, x.code = 0x0607 ∧ x.agent = 33 ∧ x.args = [1])) ∧
    (s.gx.ep.grey = true → 256 ≤ s.gx.ep.inB → ∃ t, exec .mauveGreyout s = .next t ∧ t.gx.ep = { s.gx.ep with grey := false }) ∧
    (s.gx.ep.grey = false → s.gx.ep.overB < 16 → exec .mauveGreyout s = .next s))

/-- R395, R396, R401, R402, R405, R410: a gate entry sets both gates; a refill adds RATE × 256 ns to each shaped bucket, to at most
its burst; a free port serves an eligible Q0 first, then Q1, then the smallest tag, and the head frame of the queue leaves it; the
waiting commands leave in-band. -/
def Obligations.TrafficIsGatedShapedAndServed : Prop := ∀ s : State, s.gx.coreUp = true →
  (∀ e : BitVec 6, s.gx.gateBase ≠ none → e.toNat < gateN s.gx.gateList → ∃ t, exec (.gateEntry e) s = .next t ∧
    t.gx.ts = { s.gx.ts with
      amber := bit (s.gx.rd (Reg.TS_GATE e.toNat)) 34, umber := bit (s.gx.rd (Reg.TS_GATE e.toNat)) 35, entry := e.toNat } ∧
    t.gx.regs = s.gx.regs ∧ t.gx.mem = s.gx.mem) ∧
  (∃ t, exec .shaperRefill s = .next t ∧ t.gx.regs = s.gx.regs ∧ t.gx.mem = s.gx.mem ∧ ∀ p < 8, ∀ c < 4,
    SMap.get 0 (t.gx.egress p).tok c = if (s.gx.shape p c).1 = 0 then SMap.get 0 (s.gx.egress p).tok c
      else min (SMap.get 0 (s.gx.egress p).tok c + 4 * (s.gx.shape p c).1) (125 * (s.gx.shape p c).2)) ∧
  (∀ (p : BitVec 3) (q : Nat), bit (s.gx.rd Reg.TS_CTRL) 63 = true → SMap.get 0 s.gx.portLanes p.toNat ≠ 0 →
    (s.gx.serveQ p.toNat = some q → ∃ t f rest, exec (.portServe p) s = .next t ∧ ((s.gx.egress p.toNat).q q).frames = f :: rest ∧
      ((t.gx.egress p.toNat).q q).frames = rest ∧ (t.gx.egress p.toNat).sent = some (s.gx.leaving f) ∧ t.gx.mem = s.gx.mem) ∧
    (s.gx.eligible p.toNat 0 = true → s.gx.serveQ p.toNat = some 0) ∧
    (s.gx.eligible p.toNat 0 = false → s.gx.eligible p.toNat 1 = true → s.gx.serveQ p.toNat = some 1) ∧
    (s.gx.serveQ p.toNat = some q → s.gx.eligible p.toNat q = true) ∧
    (s.gx.serveQ p.toNat = none → exec (.portServe p) s = .next s)) ∧
  (bit (s.gx.rd Reg.TS_CTRL) 62 = true → ∃ t, exec .cmdInbandSend s = .next t ∧ t.gx.ts.outq = [] ∧ t.gx.tk = s.gx.tk ∧
    t.gx.mem = s.gx.mem)

/-! ### Fabric commands and the mailbox -/

/-- R411, R412: a command that is whole and new enters the command FIFO, and the same command received again does not; a datagram
whose form fails is counted and dropped; the executor refuses a command whose arguments do not fit its row, counts it and applies
nothing of it. -/
def Obligations.CommandsEnterOnce : Prop := ∀ s : State, s.gx.coreUp = true →
  (∀ l : List Byte, cmdFormOk l = false →
    exec (.commandReceive l) s = .next { s with gx := s.gx.bumpFld Reg.TS_CMD_STAT 16 16 1 }) ∧
  (∀ (l : List Byte) (r : Rec) (d : Dedup), cmdFormOk l = true → r = Rec.ofBytes l → s.gx.ts.fifo.length < 256 →
    (SMap.get {} s.gx.ts.dedup (Rec.origin r)).look (Rec.cycles r) r.seq.toNat = (d, false, false) →
    ∃ t, exec (.commandReceive l) s = .next t ∧ t.gx.ts.fifo = s.gx.ts.fifo ++ [r] ∧ t.gx.regs = s.gx.regs ∧ t.gx.mem = s.gx.mem ∧
      ∃ u, exec (.commandReceive l) t = .next u ∧ u.gx.ts.fifo = t.gx.ts.fifo ∧
        u.gx.rd Reg.TS_CMD_STAT = satFld (t.gx.rd Reg.TS_CMD_STAT) 48 16 1) ∧
  (∀ row ∈ ([(.greyout, 0x0401), (.blackout, 0x0402), (.wsCreate, 0x0403), (.wsTeardown, 0x0404), (.epoch, 0x0405),
      (.periodChange, 0x0406), (.beacon, 0x0407), (.collKey, 0x0408), (.gateList, 0x0409), (.announce, 0x040A), (.listHeld, 0x040B)] :
      List (Instr × Nat)), ∀ r rest, s.heads row.2 r rest → cmdArgsOk r = false →
    exec row.1 s = .next { s with gx := ({ s.gx with ts := { s.gx.ts with fifo := rest } }).cmdRefuse (Rec.origin r) r.seq.toNat row.2 })

/-- R38 to R41, R47, R58, R61, R303, R407, R409, R413, R414, R499: what the executor does with each command whose arguments fit:
Greyout and Blackout write the registers of this Glexon or of the die; a watch-set command waits for the boundaries of each role;
an epoch, a period change, a beacon, a key and a gate list are kept; a child's announcement and a leaf's report are recorded. -/
def Obligations.FabricCommandsTakeEffect : Prop := ∀ (s : State) (r : Rec) (rest : List Rec), cmdArgsOk r = true →
  (s.heads 0x0401 r rest → (s.gx.targetOf r = some none → ∃ t, exec .greyout s = .next t ∧ t.gx.ts.fifo = rest ∧ ∀ c < 4,
      bit (BitVec.ofNat 8 (leAt r.payload 16 1)) c = true →
      SMap.get none t.gx.rwt (Reg.TS_GREY c) = some (s.gx.maskW (Reg.TS_GREY c) (word (leAt r.payload 24 8)))) ∧
    (∀ p, s.gx.targetOf r = some (some p) → ∃ t, exec .greyout s = .next t ∧ t.gx.ts.fifo = rest ∧ ∀ c < 4,
      bit (BitVec.ofNat 8 (leAt r.payload 16 1)) c = true →
      SMap.get none (t.gx.port p).want (Reg.BM_TAP_SHAPE c) = some (word (leAt r.payload 24 8)))) ∧
  (s.heads 0x0402 r rest → (s.gx.targetOf r = some none → ∃ t, exec .blackout s = .next t ∧ t.gx.ts.fifo = rest ∧
      SMap.get none t.gx.rwt Reg.TS_BLACKOUT = some (s.gx.maskW Reg.TS_BLACKOUT (word (leAt r.payload 16 1)))) ∧
    (∀ p, s.gx.targetOf r = some (some p) → ∃ t, exec .blackout s = .next t ∧ t.gx.ts.fifo = rest ∧
      SMap.get none (t.gx.port p).want Reg.BM_TAP_BLACKOUT = some (word (leAt r.payload 16 1)))) ∧
  (∀ row ∈ ([(.wsCreate, 0x0403), (.wsTeardown, 0x0404)] : List (Instr × Nat)), s.heads row.2 r rest → Rec.eff r ≠ 0 →
    (row.2 = 0x0404 → leAt r.payload 24 8 = Rec.eff r + 3) →
    ∃ t, exec row.1 s = .next t ∧ t.gx.ts.fifo = rest ∧ t.gx.fl.wsPend = s.gx.fl.wsPend ++ (([2, 1, 0].filter fun k =>
      s.gx.roleOn k).map fun k => {
        slot := k, at_ := word (Rec.eff r + 3 - k), create := r.typ == 0x0403, id := leAt r.payload 16 2,
                                      gen := leAt r.payload 18 2, cmd := r })) ∧
  (s.heads 0x0405 r rest → s.gx.tk.ticking = false → ∃ t, exec .epoch s = .next t ∧ t.gx.ts.fifo = rest ∧ t.gx.tk.hasEpoch = true ∧
    t.gx.tk.period = leAt r.payload 28 1 ∧ t.gx.tk.ticking = false ∧
    t.gx.tk.epoch + leAt r.payload 32 8 * t.gx.pNs = leAt r.payload 16 6 * 1000000000) ∧
  (s.heads 0x0406 r rest → ∃ t, exec .periodChange s = .next t ∧ t.gx.ts.fifo = rest ∧
    t.gx.tk = { s.gx.tk with pchg := word (Rec.eff r % 2 ^ 61 * 8 + leAt r.payload 16 1) }) ∧
  (s.heads 0x0407 r rest → s.gx.tk.ticking = false → ∃ t, exec .beacon s = .next t ∧ t.gx.ts.fifo = rest ∧ t.gx.tk.hasEpoch = true ∧
    t.gx.tk.epoch = leAt r.payload 32 6 * 1000000000 + leAt r.payload 40 4 ∧ t.gx.tk.period = leAt r.payload 24 1 ∧
    t.gx.tk.pchg = word (leAt r.payload 48 8)) ∧
  (s.heads 0x0408 r rest → ∃ t, exec .collKey s = .next t ∧ t.gx.ts.fifo = rest ∧
    t.gx.ts.key = some (word (Rec.eff r), word (leAt r.payload 16 8)) ∧ t.gx.regs = s.gx.regs) ∧
  (s.heads 0x0409 r rest → ∃ t, exec .gateList s = .next t ∧ t.gx.ts.fifo = rest ∧ t.gx.ts.gates = some (word (Rec.eff r),
    (List.range (leAt r.payload 16 1)).map fun i => word (leAt r.payload (24 + 8 * i) 8)) ∧ t.gx.regs = s.gx.regs) ∧
  (∀ k pos, s.heads 0x040A r rest → s.gx.targetOf r = some none → s.gx.tk.ticking = true → k = leAt r.payload 32 1 + 1 →
    ((SMap.get {} s.gx.image.roles k).children).find? (fun c => c.2 == Rec.origin r) = some (pos, Rec.origin r) →
    word (leAt r.payload 16 8) = s.gx.rd Reg.MG_BU_MAP →
    ∃ t, exec .announce s = .next t ∧ t.gx.ts.fifo = rest ∧ t.gx.annOf k pos = some {
      map := word (leAt r.payload 16 8),
        h := word (leAt r.payload 24 8), roles := leAt r.payload 36 4, up := leAt r.payload 40 4, dies := leAt r.payload 44 4 }) ∧
  (s.heads 0x040B r rest → s.gx.targetOf r = some none → s.gx.roleSet 3 = true →
    ∃ t x, exec .listHeld s = .next t ∧ t.gx.ts.fifo = rest ∧ x ∈ t.gx.fl.tallies ∧ x.id = leAt r.payload 16 2 ∧
      x.gen = leAt r.payload 18 2 ∧ Rec.origin r ∈ x.from_)

/-- R47, R58, R62, R499 to R501: a leaf stops repeating a report after 60 s; a tally may be dropped; an epoch change and a period
change take effect at their instants, the boundary n_c keeping its instant; the apex issues EPOCH when it is ready; a role repeats its
announcement, and announces without every child at its timeout. -/
def Obligations.EpochsPeriodsAndAnnouncements : Prop := ∀ s : State, s.gx.coreUp = true →
  (∀ (id : BitVec 12) (h : Held), (s.gx.fl.held.find? fun e => e.1 = id.toNat) = some (id.toNat, h) →
    h.since + 60000000000 ≤ s.gx.nowNs → exec (.listHeldResend id) s = .next { s with gx := s.gx.dropHeld id.toNat }) ∧
  (∀ (id : BitVec 12) (gen : BitVec 16), exec (.tallyExpire id gen) s = .next { s with
    gx := { s.gx with fl := { s.gx.fl with tallies := s.gx.fl.tallies.filter fun t => !(t.id == id.toNat && t.gen == gen.toNat) } } }) ∧
  (∀ x, s.gx.tk.ticking = true → s.gx.tk.pend = some x → ∃ t, exec .epochAdopt s = .next t ∧ t.gx.tk = { s.gx.tk with
      clk := max s.gx.tk.clk (x.at_ * 2 ^ 32), epoch := x.epoch, period := x.period, pend := none, next := some x.n } ∧
    t.gx.mem = s.gx.mem) ∧
  (s.gx.changeDue = true →
    s.gx.changeAt * (250000 * 2 ^ fld s.gx.tk.pchg 0 3) ≤ s.gx.tk.epoch + s.gx.changeAt * s.gx.pNs →
    ∃ t, exec .pChange s = .next t ∧ t.gx.tk.period = fld s.gx.tk.pchg 0 3 ∧ t.gx.tk.pchg = 0 ∧
      t.gx.tk.epoch + s.gx.changeAt * t.gx.pNs = s.gx.tk.epoch + s.gx.changeAt * s.gx.pNs ∧
      t.gx.rd Reg.TK_PREV_CHG = word (s.gx.changeAt * 8 + s.gx.tk.period) ∧ t.gx.mem = s.gx.mem) ∧
  (∀ n ts, s.gx.ready 3 = true → s.gx.tk.ticking = false → s.gx.tk.hasEpoch = false → s.gx.ts.fifo.length < 256 →
    n = max (s.gx.mapNat 16 8) ((s.gx.annSelf 3).h.toNat + 16777216) → ts = (s.gx.nowNs + 2000000000 + 999999999) / 1000000000 →
    n * (250000 * 2 ^ s.gx.mapNat 6 1) ≤ ts * 1000000000 →
    ∃ t r, exec .epochIssue s = .next t ∧ t.gx.ts.fifo = s.gx.ts.fifo ++ [r] ∧ r.typ = 0x0405 ∧
      r.payload.drop 16 = (leBytes 6 ts ++ leBytes 6 0 ++ leBytes 1 (s.gx.mapNat 6 1) ++ leBytes 3 0 ++ leBytes 8 n)) ∧
  (∀ k : BitVec 2, s.gx.ready k.toNat = true → s.gx.tk.hasEpoch = false →
    (k.toNat ≠ 3 → SMap.get false s.gx.mg.annDone k.toNat = true →
      ∃ t, exec (.announceResend k) s = .next t ∧ SMap.get false t.gx.mg.annDone k.toNat = true ∧ t.gx.mem = s.gx.mem ∧
        (k.toNat = s.gx.lowSlot → t.gx.rd Reg.MG_BU_ANN =
          word ((s.gx.annSelf k.toNat).roles % 2 ^ 32 * 2 ^ 32 + (s.gx.annSelf k.toNat).up % 2 ^ 32))) ∧
    (k.toNat ≠ 0 → SMap.get false s.gx.mg.annDone k.toNat = false →
      ∃ t, exec (.announceTimeout k) s = .next t ∧ SMap.get false t.gx.mg.annDone k.toNat = true ∧ t.gx.mem = s.gx.mem))

/-- R468, Table 17.7: firmware takes one request from the ring and answers it there. SUBMIT_CMD enters a fleet command in the FIFO;
MEMBER_LIST writes its part of a list; SLOT_ACK writes the sequence consumed; CORE_WITHDRAW, CORE_RESTORE and SDC_CLEAR write their
registers; IMG_LOAD and IMG_ACTIVATE refuse what is not ready; an unknown opcode has status 1. A request of the core domain fails
with 4 while that is in reset, and none is taken without firmware. -/
def Obligations.MailboxRequestsAreAnswered : Prop := ∀ (s : State) (q : MbxReq),
  (∀ row ∈ ([.submitCmd, .memberList, .slotAck, .imgLoad, .imgActivate, .coreWithdraw, .coreRestore, .sdcClear] :
      List (MbxReq → Instr)),
    (s.gx.fwOn = false → exec (row q) s = .next s) ∧
    (s.gx.fwOn = true → s.gx.coreUp = false → ∃ t, exec (row q) s = .next t ∧ s.replied t q 4 ∧ t.gx.mem = s.gx.mem)) ∧
  (s.gx.fwOn = true → ∀ op : BitVec 16, op = 0 ∨ 12 < op.toNat → ∃ t, exec (.badReq op q) s = .next t ∧ s.replied t q 1) ∧
  (s.gx.fwOn = true → s.gx.coreUp = true →
    (leAt q.args 0 2 = 0x0406 → leAt q.args 12 4 = toFleet → s.gx.indexValid = true → s.gx.ts.fifo.length < 256 →
      cmdArgsOk (s.gx.newCmd 0x0406 toFleet (word (leAt q.args 16 8)) (q.args.drop 24)).1 = true →
      ∃ t, exec (.submitCmd q) s = .next t ∧ s.replied t q 0 ∧
        t.gx.ts.fifo = s.gx.ts.fifo ++ [(s.gx.newCmd 0x0406 toFleet (word (leAt q.args 16 8)) (q.args.drop 24)).1]) ∧
    (leAt q.args 0 2 < 0x0401 → ∃ t, exec (.submitCmd q) s = .next t ∧ s.replied t q 1) ∧
    (∀ id off len, id = leAt q.args 0 2 → off = leAt q.args 2 2 → len = leAt q.args 4 2 → id < 4096 → off % 8 = 0 → len % 8 = 0 →
      8 ≤ len → len ≤ 48 → off + len ≤ 512 → s.gx.clash none true (listAt id + off) len = false →
      ∃ t, exec (.memberList q) s = .next t ∧ s.replied t q 0 ∧
        t.gx.mem = memWrite s.gx.mem (listAt id + off) (((padTo 56 q.args).drop 8).take len)) ∧
    (∀ i, i = leAt q.args 0 4 → i < s.gx.image.pairs.length →
      s.gx.clash none true ((s.gx.rd Reg.RE_SLOT_BASE).toNat + pairOff s.gx.image.pairs i + 8) 8 = false →
      ∃ t, exec (.slotAck q) s = .next t ∧ s.replied t q 0 ∧ t.gx.mem = memWrite s.gx.mem
        ((s.gx.rd Reg.RE_SLOT_BASE).toNat + pairOff s.gx.image.pairs i + 8) (leBytes 8 (leAt q.args 8 8))) ∧
    (∀ row ∈ ([(.coreWithdraw, Reg.MC_WITHDRAW_REQ), (.coreRestore, Reg.MC_RESTORE_REQ)] : List ((MbxReq → Instr) × Nat)),
      ∃ t, exec (row.1 q) s = .next t ∧ s.replied t q 0 ∧ t.gx.mem = s.gx.mem ∧
        t.gx.rd row.2 = s.gx.rd row.2 ||| word (leAt q.args 0 4 % 2 ^ 24)) ∧
    (leAt q.args 0 1 < 64 → ∃ t, exec (.sdcClear q) s = .next t ∧ s.replied t q 0 ∧
      bit (t.gx.rd (Reg.AU_PORT_STAT (leAt q.args 0 1))) 63 = false) ∧
    (64 ≤ leAt q.args 0 1 → ∃ t, exec (.sdcClear q) s = .next t ∧ s.replied t q 1) ∧
    (s.gx.rm.boot.busy = true → ∃ t, exec (.imgLoad q) s = .next t ∧ s.replied t q 2) ∧
    (s.gx.rm.boot.busy = false → s.gx.mg.mapOk = false → ∃ t, exec (.imgLoad q) s = .next t ∧ s.replied t q 3) ∧
    (s.gx.imageUnmet ≠ 0 → ∃ t, exec (.imgActivate q) s = .next t ∧ s.replied t q 3 ∧ t.gx.image = s.gx.image) ∧
    (s.gx.imageUnmet = 0 → s.gx.tk.tickNo.toNat + 5 ≤ leAt q.args 0 8 → leAt q.args 0 8 < 2 ^ 63 →
      ∃ t, exec (.imgActivate q) s = .next t ∧ s.replied t q 0 ∧ t.gx.rd Reg.MG_IMG_ACT = word (2 ^ 63 + leAt q.args 0 8) ∧
        t.gx.image = s.gx.image))

/-! ### Remote memory -/

/-- R419, R420, R422 to R424: queue pairs move through their states, a region is registered only within record memory and takes a new
generation, is deregistered, and is rekeyed. -/
def Obligations.QueuePairsAndRegions : Prop := ∀ s : State, s.gx.coreUp = true →
  (∀ row ∈ ([(.qpInit, 1, 0, 1), (.qpRts, 2, 1, 2), (.qpReset, 0, 1, 0)] : List ((BitVec 12 → Word → Instr) × Nat × Nat × Nat)),
    ∀ (q : BitVec 12) (v : Word), fld v 61 3 = row.2.1 → s.gx.qpState q.toNat = row.2.2.1 →
    ∃ t, exec (row.1 q v) s = .next t ∧ t.gx.qpState q.toNat = row.2.2.2 ∧ fld (t.gx.qpCfg q.toNat) 0 8 = fld v 0 8 ∧
      fld (t.gx.qpCfg q.toNat) 24 12 = fld v 24 12 ∧ t.gx.mem = s.gx.mem ∧
      ∀ p : BitVec 12, p ≠ q → t.gx.qp p.toNat = s.gx.qp p.toNat ∧ t.gx.qpCfg p.toNat = s.gx.qpCfg p.toNat) ∧
  (∀ (q : BitVec 12) (v : Word), fld v 61 3 = 3 → s.gx.qpState q.toNat = 2 →
    ∃ t, exec (.qpDrain q v) s = .next t ∧ t.gx.mem = s.gx.mem ∧
      t.gx.qpState q.toNat = (if (s.gx.qp q.toNat).ops = [] then 0 else 3)) ∧
  (∀ (r : BitVec 14) (v : Word), bit v 63 = true →
    (inRecordMem (s.gx.rd (Reg.RM_MR_BASE r.toNat)).toNat (64 * fld v 0 32) = true → (s.gx.rd (Reg.RM_MR_BASE r.toNat)).toNat % 64 = 0 →
      ∃ t, exec (.mrRegister r v) s = .next t ∧ bit (t.gx.rd (Reg.RM_MR_ATTR r.toNat)) 63 = true ∧
        t.gx.mrGen r.toNat = (s.gx.mrGen r.toNat + 1) % 256 ∧ t.gx.rd (Reg.RM_MR_HEAD r.toNat) = 0 ∧
        fld (t.gx.rd (Reg.RM_MR_ATTR r.toNat)) 0 32 = fld v 0 32 ∧ t.gx.mem = s.gx.mem) ∧
    (inRecordMem (s.gx.rd (Reg.RM_MR_BASE r.toNat)).toNat (64 * fld v 0 32) = false →
      ∃ t, exec (.mrRegister r v) s = .next t ∧ bit (t.gx.rd (Reg.RM_MR_ATTR r.toNat)) 63 = false ∧
        t.gx.rd Reg.RM_MR_REFUSED = satAdd (s.gx.rd Reg.RM_MR_REFUSED) 1)) ∧
  (∀ (r : BitVec 14) (v : Word), bit v 63 = false → ∃ t, exec (.mrDeregister r v) s = .next t ∧
    bit (t.gx.rd (Reg.RM_MR_ATTR r.toNat)) 63 = false ∧ t.gx.mrGen r.toNat = s.gx.mrGen r.toNat ∧ t.gx.mem = s.gx.mem) ∧
  (∀ r : BitVec 14,
    (SMap.get none s.gx.rm.keyAt r.toNat = none → ∃ t, exec (.rekey r) s = .next t ∧
      t.gx.mrGen r.toNat = (s.gx.mrGen r.toNat + 1) % 256 ∧ SMap.get none t.gx.rm.keyAt r.toNat = some s.gx.nowNs) ∧
    (∀ i, SMap.get none s.gx.rm.keyAt r.toNat = some i → s.gx.nowNs < i + 1000000 → ∃ t, exec (.rekey r) s = .next t ∧
      t.gx.mrGen r.toNat = s.gx.mrGen r.toNat ∧ t.gx.rd Reg.RM_MR_REFUSED = satAdd (s.gx.rd Reg.RM_MR_REFUSED) 1))

/-- R425 to R427, R432: a packet that is whole, new and from its peer, with a key in force, has its effect at once: WRITE places its
bytes, READ_REQ answers from memory and changes none of it, FETCH_ADD and CMP_SWAP perform their atomic on 8 aligned bytes and keep the
old value. -/
def Obligations.RequestsArePerformedOnMemory : Prop := ∀ (s : State) (pk : RmFrame) (p : RmPkt), s.takesPacket pk p →
  s.gx.keyCheck p.dst p.rkey = 0 →
  (p.op = 1 → p.dataOk none = true → bit (s.gx.attr p.rkey) 60 = true → p.raddr + p.moff + p.plen ≤ s.gx.regLen p.rkey →
    seqBefore p.msn (s.gx.qp p.dst).deliver = false → (s.gx.qp p.dst).asm = [] →
    s.gx.clash none true (s.gx.regBase p.rkey + p.raddr + p.moff) p.pay.length = false →
    ∃ t, exec (.write pk) s = .next t ∧ t.gx.mem = memWrite s.gx.mem (s.gx.regBase p.rkey + p.raddr + p.moff) p.pay ∧ t.bm = s.bm) ∧
  (p.op = 2 → p.flags % 4 = 3 → p.moff = 0 → 1 ≤ p.total → p.total ≤ 2097152 → bit (s.gx.attr p.rkey) 59 = true →
    p.raddr + p.total ≤ s.gx.regLen p.rkey → s.gx.poisoned (s.gx.regBase p.rkey + p.raddr) p.total = false →
    s.gx.clash none false (s.gx.regBase p.rkey + p.raddr) p.total = false →
    ∃ t, exec (.readReq pk) s = .next t ∧ t.gx.mem = s.gx.mem ∧
      (t.gx.qp p.dst).nextPsn = ((s.gx.qp p.dst).nextPsn + (p.total + 8191) / 8192) % 2 ^ 24) ∧
  (∀ row ∈ ([(.fetchAdd, 4, fun old => old + word (leAt p.pay 0 8)),
      (.cmpSwap, 5, fun old => if old = word (leAt p.pay 0 8) then word (leAt p.pay 8 8) else old)] :
      List ((RmFrame → Instr) × Nat × (Word → Word))),
    p.op = row.2.1 → p.flags % 4 = 3 → p.moff = 0 → p.total = p.plen → bit (s.gx.attr p.rkey) 61 = true → p.raddr % 8 = 0 →
    p.raddr + 8 ≤ s.gx.regLen p.rkey → s.gx.poisoned (s.gx.regBase p.rkey + p.raddr) 8 = false →
    s.gx.clash none true (s.gx.regBase p.rkey + p.raddr) 8 = false →
    ∃ t, exec (row.1 pk) s = .next t ∧
      memNat t.gx.mem (s.gx.regBase p.rkey + p.raddr) 8 = (row.2.2 (word (memNat s.gx.mem (s.gx.regBase p.rkey + p.raddr) 8))).toNat ∧
      (∀ a, (a < s.gx.regBase p.rkey + p.raddr ∨ s.gx.regBase p.rkey + p.raddr + 8 ≤ a) → memByte t.gx.mem a = memByte s.gx.mem a) ∧
      (t.gx.qp p.dst).atoms.head? = some (p.psn, word (memNat s.gx.mem (s.gx.regBase p.rkey + p.raddr) 8)))

/-- R420, R421, R425, R428, R431 to R433: a response places its data in the requester's memory; an ACK retires what it covers; a NAK of
the queue pair, and a seventeenth timeout, put it in ERROR; another timeout sends the packet again and counts it; a complete message
is delivered, with its entry in the region's arrival ring. -/
def Obligations.ResponsesAcknowledgementsAndDelivery : Prop := ∀ s : State,
  (∀ (pk : RmFrame) (p : RmPkt) (o : RmOp), s.takesPacket pk p → (s.gx.qp p.dst).ops = [o] → o.msn = p.msn → o.done = none →
    o.owner = .post →
    (p.op = 3 → o.code = 2 → p.dataOk none = true → p.raddr + p.moff + p.plen ≤ o.len → o.desc = none →
      s.gx.clash none true (o.loc + p.raddr + p.moff) p.pay.length = false →
      ∃ t, exec (.readResp pk) s = .next t ∧ t.gx.mem = memWrite s.gx.mem (o.loc + p.raddr + p.moff) p.pay) ∧
    (∀ d, p.op = 6 → 3 ≤ o.code → p.flags % 4 = 3 → o.desc = some d → s.gx.clash none true (d + 56) p.pay.length = false →
      s.gx.clash none true (d + 48) 4 = false →
      ∃ t, exec (.atomicResp pk) s = .next t ∧ (t.gx.qp p.dst).ops = [] ∧
        t.gx.mem = memWrite (memWrite s.gx.mem (d + 56) p.pay) (d + 48) (leBytes 4 0))) ∧
  (∀ (pk : RmFrame) (p : RmPkt), s.gx.coreUp = true → bit (s.gx.rd Reg.RM_CTRL) 63 = true → leAt pk.bytes 0 1 = p.op →
    rmFormOk pk.bytes = true → p = RmPkt.ofBytes pk.bytes → s.gx.qpState p.dst = 2 → fld (s.gx.qpCfg p.dst) 24 12 = p.srcq →
    fld (s.gx.qpCfg p.dst) 0 8 = pk.src.toNat → (s.gx.qp p.dst).ops = [] →
    (p.op = 0x10 → (s.gx.qp p.dst).wait = [] → ∃ t, exec (.ack pk) s = .next t ∧
      (∀ e, e ∈ (t.gx.qp p.dst).sent ↔ e ∈ (s.gx.qp p.dst).sent ∧ seqBefore e.psn p.psn = false ∧
        (e.psn = p.psn ∨ 256 < seqDist p.psn e.psn ∨ (leNat p.pay).testBit (seqDist p.psn e.psn - 1) = false)) ∧ t.gx.mem = s.gx.mem) ∧
    (p.op = 0x11 → p.total = 4 → ∃ t, exec (.nak pk) s = .next t ∧ t.gx.qpState p.dst = 4 ∧
      fld (t.gx.rd (Reg.RM_QP_ERR p.dst)) 56 8 = 11 ∧ (t.gx.qp p.dst).sent = [] ∧ t.gx.mem = s.gx.mem)) ∧
  (∀ (q : BitVec 12) (psn : BitVec 24) (e : RmSent), s.gx.coreUp = true → s.gx.qpState q.toNat = 2 → (s.gx.qp q.toNat).ops = [] →
    (s.gx.qp q.toNat).sent = [e] → e.psn = psn.toNat →
    (17 ≤ e.times → ∃ t, exec (.retransmitTimeout q psn) s = .next t ∧ t.gx.qpState q.toNat = 4 ∧ (t.gx.qp q.toNat).sent = []) ∧
    (e.times < 17 → ∃ t x, exec (.retransmitTimeout q psn) s = .next t ∧ (t.gx.qp q.toNat).sent = [x] ∧ x.psn = e.psn ∧
      x.times = e.times + 1 ∧ t.gx.rd Reg.RM_RETX = satAdd (s.gx.rd Reg.RM_RETX) 1 ∧ t.gx.mem = s.gx.mem)) ∧
  (∀ (q : BitVec 12) (n : BitVec 4), s.gx.coreUp = true → ∃ t, exec (.pathResume q n) s = .next t ∧
    SMap.get 0 (t.gx.qp q.toNat).susp n.toNat = 0 ∧ t.gx.mem = s.gx.mem ∧ t.gx.regs = s.gx.regs) ∧
  (∀ (q : BitVec 12) (m : RmAsm) (total ring head : Nat), s.gx.coreUp = true → (s.gx.qp q.toNat).asm = [m] →
    (s.gx.qp q.toNat).skip = [] → m.msn = (s.gx.qp q.toNat).deliver → m.fail = false → m.total = some total →
    m.got.length = (total + 8191) / 8192 → s.gx.qpAmber q.toNat = false → m.reg < 16383 →
    bit (s.gx.rd (Reg.RM_MR_ATTR m.reg)) 62 = true → ring = fld (s.gx.rd (Reg.RM_MR_RING m.reg)) 0 48 →
    head = fld (s.gx.rd (Reg.RM_MR_HEAD m.reg)) 0 32 →
    ∃ t, exec (.messageDeliver q) s = .next t ∧ (t.gx.qp q.toNat).deliver = (m.msn + 1) % 2 ^ 24 ∧
      t.gx.rd (Reg.RM_MR_HEAD m.reg) = word ((head + 1) % 2 ^ 32) ∧
      t.gx.mem = memWrite s.gx.mem (ring + 16 * (head % 4096)) (leBytes 8 (m.msn + m.off * 2 ^ 32) ++ leBytes 4 total ++
        leBytes 4 (memNat s.gx.mem (fld (s.gx.rd (Reg.RM_MR_BASE m.reg)) 0 48 + m.off + 8) 4)))

/-- R344 to R346, R397, R435, R436, R497: stale Amber frames leave their queues at the boundary; a pull starts from the first valid
entry and counts a tick that is not in the ring as missing; the boot load and a reread of the map fail at once where queue pair 0 is
not in RTS; an activated image takes effect at its boundary. -/
def Obligations.PullsBootLoadAndImages : Prop := ∀ s : State, s.gx.coreUp = true →
  ((∀ e ∈ s.gx.rm.qps, e.2.ops = []) → ∃ t, exec .amberStaleDiscard s = .next t ∧ t.gx.mem = s.gx.mem ∧ ∀ p < 8,
    (∀ q ∈ [2, 3, 4, 5], ((t.gx.egress p).q q).frames = []) ∧ ∀ q ∈ [0, 1, 6, 7], (t.gx.egress p).q q = (s.gx.egress p).q q) ∧
  (∀ i q d, s.gx.roleOn 0 = true → s.gx.fl.pull = none →
    ((List.range 8).find? fun i => memNat s.gx.mem (s.gx.pullAt i + 60) 4 = 1) = some i → d = memBytes s.gx.mem (s.gx.pullAt i) 64 →
    1 ≤ leAt d 8 4 → leAt d 8 4 ≤ 262144 → (leAt d 24 1).testBit 2 = false → leAt d 24 1 < 16 → zeros d 12 16 = true →
    zeros d 25 28 = true → s.gx.pullQpn i = some q →
    ∃ t, exec .pullStart s = .next t ∧ t.gx.mem = memWrite s.gx.mem (s.gx.pullAt i + 48) (leBytes 4 1) ∧
      t.gx.fl.pull = some { slot := i, tick := word (leAt d 0 8), left := leAt d 8 4, bytes := 0, miss := 0, full := false, qpn := q }) ∧
  (∀ p : Pull, s.gx.fl.pull = some p → p.ended = false → p.err = 0 → 2 ≤ p.left → (s.gx.qp p.qpn).ops = [] →
    memNat s.gx.mem ((s.gx.rd Reg.HM_RW_INDEX_BASE).toNat + 32 * (p.tick.toNat % 262144)) 8 ≠ p.tick.toNat →
    exec .pullTick s = .next { s with
      gx := { s.gx with
        fl := { s.gx.fl with pull := some { p with tick := p.tick + 1, left := p.left - 1, miss := p.miss + 1, full := false } } } }) ∧
  (s.gx.fwOn = true → s.gx.qpState 0 ≠ 2 → 0 < fld (s.gx.rd Reg.RM_BOOT_LEN) 0 29 → s.gx.rm.boot.busy = false →
    (s.gx.qp 0).ops = [] →
    (∃ t, exec .bootLoadStart s = .next t ∧ bit (t.gx.rd Reg.RM_BOOT_CTRL) 3 = true ∧ bit (t.gx.rd Reg.RM_BOOT_CTRL) 0 = false ∧
      t.gx.mem = s.gx.mem) ∧
    (s.gx.mg.mapOk = false → ∃ t, exec .mapReread s = .next t ∧ bit (t.gx.rd Reg.RM_BOOT_CTRL) 3 = true ∧ t.gx.mem = s.gx.mem)) ∧
  (s.gx.fwOn = true → s.gx.mg.mapOk = true → bit (s.gx.rd Reg.RM_BOOT_CTRL) 1 = true → s.gx.rm.boot.busy = false → s.gx.qpState 0 ≠ 2 →
    0 < fld (s.gx.rd Reg.RM_BOOT_IMGLEN) 0 29 → (s.gx.qp 0).ops = [] → ∃ t, exec .bootImageRead s = .next t ∧ bit (t.gx.rd Reg.RM_BOOT_CTRL) 3 = true ∧
      t.gx.staged = none ∧ t.gx.mem = s.gx.mem) ∧
  (∀ im, s.gx.tk.ticking = true → s.gx.imageDue (s.gx.tk.tickNo + 1) = true → s.gx.staged = some im →
    (∀ l ∈ im.sepia, l.line < 64) → ∃ t, exec .imageSwap s = .next t ∧ t.gx.image = im ∧ t.gx.staged = some s.gx.image ∧ t.gx.code = im.words ∧
      t.gx.mg.half = !s.gx.mg.half ∧ bit (t.gx.rd Reg.MG_IMG_ACT) 63 = false ∧
      ∀ n < 24, t.gx.rd (Reg.MC_PROG_LEN n) = word (SMap.get 0 im.lens n))

/-! ### Management: sensors, the recorder, firmware, messages, observation, resets -/

/-- R460 to R462, R530: a sample of the sensors shows in MG_TEMP and counts readings of 105 °C or more that follow each other; eight
of them put the chip in thermal halt, with the lowest such sensor in MG_TRIP and every link down; the rails' readings show in MG_RAIL
and add to the energy; a stack is HBM_HOT from 95 °C until below 90 °C, and doubles its refresh rate from 85 °C. -/
def Obligations.SensorsRailsAndThermalTrip : Prop := ∀ s : State,
  (s.gx.mgRstN = true → ∀ l : List (BitVec 16), ∃ t, exec (.sensorSample l) s = .next t ∧ t.bm = s.bm ∧ t.gx.mem = s.gx.mem ∧
    (∀ i < 24, t.gx.sensor i = l.getD i 0x8000) ∧
    ∀ i < 24, SMap.get 0 t.gx.mg.hot i =
      if l.getD i 0x8000 ≠ 0x8000 ∧ 1680 ≤ (l.getD i 0x8000).toInt then SMap.get 0 s.gx.mg.hot i + 1 else 0) ∧
  (s.gx.mgRstN = true → s.gx.mg.tripped = false →
    (∀ i, ((List.range 24).find? fun i => 8 ≤ SMap.get 0 s.gx.mg.hot i) = some i → ∃ t, exec .thermalTrip s = .next t ∧
      t.gx.mg.tripped = true ∧ t.gx.coreUp = false ∧ t.gx.portLanes = [] ∧ (∀ p, (t.gx.port p).up = false) ∧
      t.gx.rd Reg.MG_TRIP = word (2 ^ 63 + i * 2 ^ 16 + (s.gx.sensor i).toNat) ∧ t.gx.mem = s.gx.mem ∧ t.gx.tk = s.gx.tk) ∧
    (((List.range 24).find? fun i => 8 ≤ SMap.get 0 s.gx.mg.hot i) = none → exec .thermalTrip s = .next s)) ∧
  (s.gx.mgRstN = true → ∀ r : List RailIn, r.length = 16 → ∃ t, exec (.railSample r) s = .next t ∧ t.gx.mem = s.gx.mem ∧
    (∀ j x, r[j]? = some x → t.gx.rd (Reg.MG_RAIL j) = word (x.i.toNat * 2 ^ 32 + x.v.toNat)) ∧
    t.gx.mg.us = s.gx.mg.us + 1 ∧ t.gx.mg.energy = s.gx.mg.energy + (r.map fun x => x.v.toNat * x.i.toNat).sum) ∧
  (s.gx.coreUp = true → ∀ t0 t1 : Byte, ∃ t, exec (.hbmTempRead t0 t1) s = .next t ∧ t.gx.mem = s.gx.mem ∧
    (∀ a, a ≠ Reg.MG_EVR_STAT → t.gx.rd a = s.gx.rd a) ∧
    (∀ x ∈ [(0, t0.toNat), (1, t1.toNat)], bit t.gx.mg.hbmHot x.1 = (decide (95 ≤ x.2) || (bit s.gx.mg.hbmHot x.1 && decide (90 ≤ x.2))) ∧
      bit t.gx.mg.hbmFast x.1 = decide (85 ≤ x.2)))

/-- R463 to R467: the oldest event leaves the FIFO for the slot of its SEQ, and HEAD advances; after a loss EVR_OVERFLOW is recorded;
the cursor reads as written; the mirror takes the records that it has not; a brown-out keeps at most 32 records in the reserve; a
heartbeat is a second of operating time. -/
def Obligations.EventsAreRecordedAndMirrored : Prop := ∀ s : State, s.gx.mgRstN = true →
  (∀ h, h = (s.gx.rd Reg.MG_EVR_HEAD).toNat →
    (∀ e rest, s.gx.mg.lost = none → s.gx.events = e :: rest → ∃ t, exec .eventRecordWrite s = .next t ∧ t.gx.events = rest ∧
      SMap.get [] t.gx.mg.recs (h % 16384) = s.gx.evRecord e ∧ t.gx.rd Reg.MG_EVR_HEAD = word (h + 1) ∧ t.gx.mem = s.gx.mem ∧
      ∀ i, i ≠ h % 16384 → SMap.get [] t.gx.mg.recs i = SMap.get [] s.gx.mg.recs i) ∧
    (∀ x, s.gx.mg.lost = some x → x.left = 0 → ∃ t, exec .eventRecordWrite s = .next t ∧ t.gx.mg.lost = none ∧
      t.gx.events = s.gx.events ∧ leAt (SMap.get [] t.gx.mg.recs (h % 16384)) 32 2 = 0x0709 ∧
      t.gx.rd Reg.MG_EVR_HEAD = word (h + 1))) ∧
  (∀ v, exec (.evrCursor v) s = .next { s with gx := s.gx.wr Reg.MG_EVR_CURSOR v }) ∧
  (∀ l x, s.gx.recsFrom ((s.gx.rd Reg.MG_EVR_MIRRORED).toNat + 1) = l ++ [x] → ∃ t, exec (.mirrorAppend none) s = .next t ∧
    t.gx.mg.mirror = lastN 262144 (s.gx.mg.mirror ++ l ++ [x]) ∧ t.gx.rd Reg.MG_EVR_MIRRORED = word (recSeq x) ∧
    t.gx.events = s.gx.events) ∧
  (∃ t, exec .brownout s = .next t ∧ t.gx.mg.warn = true ∧ t.gx.mem = s.gx.mem ∧ t.gx.mg.mirror = s.gx.mg.mirror ∧
    t.gx.mg.reserve = lastN 32 (s.gx.recsFrom ((s.gx.rd Reg.MG_EVR_MIRRORED).toNat + 1)) ∧ t.gx.mg.reserve.length ≤ 32) ∧
  (∃ t, exec .heartbeat s = .next t ∧ t.gx.rd Reg.MG_OP_SECONDS = satFld (s.gx.rd Reg.MG_OP_SECONDS) 0 32 1 ∧
    t.gx.mg.secE = s.gx.mg.secAcc ∧ t.gx.mg.secAcc = 0 ∧ (s.gx.mg.ready = true → t.gx.mg.dropped = 0) ∧ t.gx.mem = s.gx.mem)

/-- R455, R458, R470, R471: a cold boot, a watchdog that expires, a write of the key to MG_RESTART and an activation come up in the slot
that the boot ROM chooses; a kick starts the watchdog again; FW_STAGE takes a valid image into the other slot of a committed firmware,
and refuses any other; FW_COMMIT blows fuses and commits the running slot; FW_REVERT prefers the other slot, if committed. -/
def Obligations.FirmwareBootsRestartsAndUpdates : Prop := ∀ s : State,
  (s.gx.mgRstN = false →
    (∃ t, exec (.coldBoot none) s = .next t ∧ t.gx.mgRstN = true ∧ t.gx.mg.ready = true ∧ s.gx.mg.Restarted t.gx.mg) ∧
    ∀ n : NorIn, ∃ t, exec (.coldBoot (some n)) s = .next t ∧ t.gx.mgRstN = true ∧ (s.gx.mg.program n).Restarted t.gx.mg ∧
      t.gx.mem = s.gx.mem ∧ t.gx.tk = s.gx.tk) ∧
  (s.gx.mgRstN = true →
    (∀ w, s.gx.mg.wdogAt = some w → w ≤ s.gx.mg.us → ∃ t, exec .watchdogExpire s = .next t ∧ s.gx.mg.Restarted t.gx.mg ∧
      t.gx.mem = s.gx.mem ∧ t.gx.cores = s.gx.cores) ∧
    (∀ v : Word, fld v 0 32 = 0x5A5A5A5A → ∃ t, exec (.mgRestart v) s = .next t ∧ s.gx.mg.Restarted t.gx.mg ∧
      t.gx.cores = s.gx.cores) ∧
    (∀ v : Word, fld v 0 32 ≠ 0x5A5A5A5A → exec (.mgRestart v) s = .next s) ∧
    (∀ b, s.gx.mg.actAt = some b → b.toNat ≤ s.gx.tk.tickNo.toNat + 1 → ∃ t, exec .fwActivationRestart s = .next t ∧
      s.gx.mg.Restarted t.gx.mg ∧ t.gx.cores = s.gx.cores)) ∧
  (s.gx.fwOn = true → ∀ q : MbxReq,
    (∀ v, exec (.mgWdogKick v) s = .next { s with
      gx := { s.gx with mg := { s.gx.mg with wdogAt := some (s.gx.mg.us + 1000 * fld (s.gx.rd Reg.MG_WDOG) 0 32) } } }) ∧
    (∀ img, ∃ t, exec (.fwStage q img) s = .next t ∧
      (s.gx.mg.committed s.gx.mg.slotB = false → s.replied t q 2 ∧ t.gx.mg = s.gx.mg) ∧
      (s.gx.mg.committed s.gx.mg.slotB = true → slotRule s.gx.mg.fuses (img.take 4194304) = 0 → s.replied t q 0 ∧
        t.gx.mg.slot (!s.gx.mg.slotB) = img.take 4194304 ∧ t.gx.mg.slot s.gx.mg.slotB = s.gx.mg.slot s.gx.mg.slotB ∧
        t.gx.mg.bootRec.pref = (!s.gx.mg.slotB) ∧ t.gx.mg.committed (!s.gx.mg.slotB) = false ∧ t.gx.mg.bootRec.tries = 3 ∧
        t.gx.mg.staged = true) ∧
      (s.gx.mg.committed s.gx.mg.slotB = true → slotRule s.gx.mg.fuses (img.take 4194304) ≠ 0 → s.replied t q 4 ∧
        t.gx.mg.bootRec = s.gx.mg.bootRec ∧ t.gx.mg.staged = false)) ∧
    (∃ t, exec (.fwActivate q) s = .next t ∧ (s.gx.mg.staged = false → s.replied t q 3) ∧
      (s.gx.mg.staged = true → leAt q.args 0 8 = 0 → s.replied t q 0 ∧ s.gx.mg.Restarted t.gx.mg) ∧
      (s.gx.mg.staged = true → s.gx.tk.tickNo.toNat < leAt q.args 0 8 → s.replied t q 0 ∧
        t.gx.mg.actAt = some (word (leAt q.args 0 8)))) ∧
    (∃ t, exec (.fwCommit q) s = .next t ∧ (s.gx.mg.committed s.gx.mg.slotB = true → s.replied t q 3) ∧
      (s.gx.mg.committed s.gx.mg.slotB = false → s.replied t q 0 ∧ t.gx.mg.committed s.gx.mg.slotB = true ∧
        t.gx.mg.fuses = max s.gx.mg.fuses (min 64 (s.gx.mg.svn s.gx.mg.slotB)))) ∧
    (∃ t, exec (.fwRevert q) s = .next t ∧ (s.gx.mg.committed (!s.gx.mg.slotB) = false → s.replied t q 3) ∧
      (s.gx.mg.committed (!s.gx.mg.slotB) = true → s.replied t q 0 ∧
        ({ s.gx.mg with bootRec := { s.gx.mg.bootRec with pref := !s.gx.mg.slotB } } : Mgmt).Restarted t.gx.mg)))

/-- R473: firmware answers an MCTP control request and a PLDM request with its header, a completion code and the data, and nothing
else changes but what a setter sets. The layouts are the model's, PRESUMED of DMTF DSP0236, DSP0240 and DSP0248 (log entry 67). A
message that the command does not fit, and any without firmware, goes unanswered. -/
def Obligations.ManagementMessagesAreAnswered : Prop := ∀ (s : State) (msg : List Byte),
  (∀ row ∈ ([(.setEndpointId, 1), (.getEndpointId, 2), (.getEndpointUuid, 3), (.getMctpVersionSupport, 4), (.getMessageTypeSupport, 5)] :
      List ((List Byte → Instr) × Nat)), s.gx.fwOn = false ∨ mctpFits row.2 msg = false → exec (row.1 msg) s = .next s) ∧
  (∀ row ∈ ([(.settid, 0, 1), (.gettid, 0, 2), (.getpldmversion, 0, 3), (.getpldmtypes, 0, 4), (.getpldmcommands, 0, 5),
      (.seteventreceiver, 2, 4), (.getsensorreading, 2, 0x11), (.getstatesensorreadings, 2, 0x21), (.getpdrrepositoryinfo, 2, 0x50),
      (.getpdr, 2, 0x51)] : List ((List Byte → Instr) × Nat × Nat)),
    s.gx.fwOn = false ∨ pldmFits row.2.1 row.2.2 msg = false → exec (row.1 msg) s = .next s) ∧
  (s.gx.fwOn = true → ∀ m : Mgmt, m = s.gx.mg →
    (mctpFits 1 msg = true → 5 ≤ msg.length → leAt msg 3 1 % 4 < 2 → 8 ≤ leAt msg 4 1 → leAt msg 4 1 ≤ 254 →
      s.Replies (.setEndpointId msg) { m with eid := BitVec.ofNat 8 (leAt msg 4 1) }
        (mctpHead 1 msg ++ [0, 0, BitVec.ofNat 8 (leAt msg 4 1), 0])) ∧
    (mctpFits 2 msg = true → s.Replies (.getEndpointId msg) m (mctpHead 2 msg ++ [0, m.eid, 0, 0])) ∧
    (mctpFits 3 msg = true → s.Replies (.getEndpointUuid msg) m (mctpHead 3 msg ++ 0 :: Config.uuid Config.idSerial)) ∧
    (mctpFits 4 msg = true → 4 ≤ msg.length →
      s.Replies (.getMctpVersionSupport msg) m (mctpHead 4 msg ++ 0 :: Config.mctpData 0 4 (leAt msg 3 1))) ∧
    (mctpFits 5 msg = true → s.Replies (.getMessageTypeSupport msg) m (mctpHead 5 msg ++ [0, 1, 1])) ∧
    (pldmFits 0 1 msg = true → 5 ≤ msg.length → leAt msg 4 1 ≠ 0 → leAt msg 4 1 ≠ 255 →
      s.Replies (.settid msg) { m with tid := BitVec.ofNat 8 (leAt msg 4 1) } (pldmHead 0 1 msg ++ [0])) ∧
    (pldmFits 0 2 msg = true → s.Replies (.gettid msg) m (pldmHead 0 2 msg ++ [0, m.tid])) ∧
    (pldmFits 0 3 msg = true → 10 ≤ msg.length → leAt msg 9 1 = 0 ∨ leAt msg 9 1 = 2 →
      s.Replies (.getpldmversion msg) m (pldmHead 0 3 msg ++ [0, 0, 0, 0, 0, 5] ++ Config.mctpData 1 3 (leAt msg 9 1))) ∧
    (pldmFits 0 4 msg = true → s.Replies (.getpldmtypes msg) m (pldmHead 0 4 msg ++ [0, 5, 0, 0, 0, 0, 0, 0, 0])) ∧
    (pldmFits 0 5 msg = true → 5 ≤ msg.length → leAt msg 4 1 = 0 ∨ leAt msg 4 1 = 2 →
      s.Replies (.getpldmcommands msg) m
        (pldmHead 0 5 msg ++ 0 :: leBytes 32 ((pldmCmds (leAt msg 4 1)).map fun c => 2 ^ c).sum)) ∧
    (pldmFits 2 4 msg = true → 7 ≤ msg.length → leAt msg 4 1 ≤ 3 → leAt msg 5 1 = 0 →
      s.Replies (.seteventreceiver msg) { m with
        evRecv := if leAt msg 4 1 = 0 then none
          else some (BitVec.ofNat 8 (leAt msg 4 1), BitVec.ofNat 8 (leAt msg 6 1)) } (pldmHead 2 4 msg ++ [0])) ∧
    (pldmFits 2 0x11 msg = true → 7 ≤ msg.length →
      (∀ i v, leAt msg 4 2 = i + 1 → i < 24 → v = s.gx.sensor i → v ≠ 0x8000 →
        s.Replies (.getsensorreading msg) m (pldmHead 2 0x11 msg ++ [0, 5, 0, 0, 1, 1, 1] ++ leBytes 4 (wrapI 32 v.toInt))) ∧
      (65 ≤ leAt msg 4 2 → s.Replies (.getsensorreading msg) m (pldmHead 2 0x11 msg ++ [0x80]))) ∧
    (pldmFits 2 0x21 msg = true → 8 ≤ msg.length → leAt msg 4 2 = 80 → s.Replies (.getstatesensorreadings msg) m
      (pldmHead 2 0x21 msg ++ [0, 1, 0, BitVec.ofNat 8 s.gx.thermal, BitVec.ofNat 8 s.gx.thermal, BitVec.ofNat 8 s.gx.thermal])) ∧
    (pldmFits 2 0x50 msg = true →
      s.Replies (.getpdrrepositoryinfo msg) m (pldmHead 2 0x50 msg ++ 0 :: Config.mctpData 1 0x50 0)) ∧
    (pldmFits 2 0x51 msg = true → 17 ≤ msg.length → Config.pdr (leAt msg 4 4) = none →
      s.Replies (.getpdr msg) m (pldmHead 2 0x51 msg ++ [0x82])) ∧
    (pldmFits 2 0x51 msg = true → 17 ≤ msg.length → ∀ l next, Config.pdr (leAt msg 4 4) = some (l, next) → leAt msg 8 4 = 0 →
      l.length ≤ leAt msg 13 2 →
      s.Replies (.getpdr msg) m (pldmHead 2 0x51 msg ++ 0 :: leBytes 4 next ++ leBytes 4 0 ++ [5] ++ leBytes 2 l.length ++ l)))

/-- R480, R481, R485 to R487: a set of counts goes into the ring of the sample buffer once, with the next sequence number, or, where
the ring lies wrong, into none of it; a trace frame has 1,024 bytes and the next frame number, and none leaves with nothing pending; a
source that lost packets inserts OVERFLOW with their number. -/
def Obligations.ObservationSamplesAndTraces : Prop := ∀ s : State, s.gx.coreUp = true →
  (∀ base n seq, s.gx.ob.due = true → bit (s.gx.rd Reg.OB_CTRL) 62 = true → base = fld (s.gx.rd Reg.OB_BUF_BASE) 0 48 →
    n = fld (s.gx.rd Reg.OB_BUF_ENTRIES) 0 17 → 1 ≤ n → seq = (satAdd (s.gx.rd Reg.OB_BUF_SEQ) 1).toNat →
    (base % 64 = 0 → 0x1C00000000 ≤ base → base + 2112 * n ≤ 0x2200000000 →
      s.gx.clash none true (base + 2112 * (seq % n)) 2112 = false →
      ∃ t, exec .sampleBufferWrite s = .next t ∧ t.gx.ob = { s.gx.ob with due := false } ∧
        t.gx.rd Reg.OB_BUF_SEQ = word seq ∧ t.gx.mem = memWrite s.gx.mem (base + 2112 * (seq % n)) (s.gx.sampleEntry seq) ∧
        (s.gx.sampleEntry seq).length = 2112) ∧
    (base % 64 ≠ 0 ∨ base < 0x1C00000000 → ∃ t, exec .sampleBufferWrite s = .next t ∧ t.gx.mem = s.gx.mem ∧
      bit (t.gx.rd Reg.OB_STAT) 63 = true ∧ t.gx.ob.due = false)) ∧
  (s.gx.ob.due = false → exec .sampleBufferWrite s = .next s) ∧
  (bit (s.gx.rd Reg.OB_CTRL) 61 = true → fld (s.gx.rd Reg.OB_CTRL) 0 2 ≠ 0 →
    (s.gx.ob.part ≠ [] ∨ s.gx.ob.out ≠ [] → ∃ t, exec .traceFrame s = .next t ∧ t.gx.ob.frame.length = 1024 ∧
      leAt t.gx.ob.frame 0 2 = s.gx.ob.seq.toNat ∧ t.gx.ob.seq = s.gx.ob.seq + 1 ∧
      t.gx.rd Reg.OB_TRC_SENT = satAdd (s.gx.rd Reg.OB_TRC_SENT) 1 ∧ t.gx.mem = s.gx.mem) ∧
    (s.gx.ob.part = [] → s.gx.ob.out = [] → (∀ a, (s.gx.src a).fifo = []) → exec .traceFrame s = .next s)) ∧
  (∀ (a : BitVec 6) (g : Glexon) (x : TrcSrc), g = s.gx.trcDrain → x = g.src a.toNat → x.on = true → 0 < x.lost →
    x.used + 46 ≤ 2048 → ∃ t, exec (.traceResync a) s = .next t ∧ t.gx.src a.toNat = { x with
      fifo := x.fifo ++ [[0x50, BitVec.ofNat 8 a.toNat] ++ varint 10 x.lost], lost := 0, due := some .resync } ∧
    t.gx.mem = s.gx.mem ∧ ∀ b, b ≠ a.toNat → t.gx.src b = g.src b)

/-- R454, R492, R521 to R523, R526, R528: SYS_RST_N low and the loss of core power clear the core domain, record memory with it, and
leave the registers of the management domain; the core domain runs again from the release of SYS_RST_N with core power present, which
also ends a thermal halt; MG_RST_N clears the management domain and leaves the core domain and the NOR devices; the instructions that take
pins act as BYPASS while SYS_RST_N is high. -/
def Obligations.ResetsSuppliesAndJtag : Prop := ∀ s : State,
  (s.gx.sysRstN = true → ∃ t, exec .sysRstNAssert s = .next t ∧ t.bm = s.bm ∧ t.gx.sysRstN = false ∧ t.gx.coreUp = false ∧
    t.gx.mem = [] ∧ t.gx.cores = [] ∧ t.gx.tk = {} ∧ t.gx.ports = [] ∧
    (∀ a, mgReg a = true → a ≠ Reg.MG_TRIP → t.gx.rd a = s.gx.rd a) ∧ t.gx.mg.slots = s.gx.mg.slots ∧ t.gx.mg.recs = s.gx.mg.recs ∧
    (s.gx.corePwrOk = true → t.gx.mg.tripped = false)) ∧
  (s.gx.sysRstN = false → ∃ t, exec .sysRstNRelease s = .next t ∧ t.bm = s.bm ∧ t.gx.sysRstN = true ∧ t.gx.mem = s.gx.mem ∧
    (s.gx.corePwrOk = true → t.gx.coreUp = true ∧ t.gx.mg.tripped = false) ∧
    (s.gx.corePwrOk = false → t.gx.coreLost = true ∧ t.gx.coreUp = false)) ∧
  (s.gx.corePwrOk = true → ∃ t, exec .corePwrokFall s = .next t ∧ t.bm = s.bm ∧ t.gx.corePwrOk = false ∧ t.gx.coreUp = false ∧
    t.gx.mem = [] ∧ t.gx.cores = [] ∧ t.gx.tk = {} ∧ (s.gx.sysRstN = true → t.gx.coreLost = true) ∧
    ∀ a, mgReg a = true → a ≠ Reg.MG_EVR_STAT → t.gx.rd a = s.gx.rd a) ∧
  exec .corePwrokRise s = .next { s with gx := { s.gx with corePwrOk := true } } ∧
  (s.gx.mgRstN = true → ∃ t, exec .mgRstNAssert s = .next t ∧ t.bm = s.bm ∧ t.gx.mgRstN = false ∧ t.gx.fwOn = false ∧
    (∀ a, t.gx.rd a = if 0x80E00000 ≤ a ∧ a < 0x80F00000 then regReset gxRegFams a else s.gx.rd a) ∧ t.gx.events = [] ∧
    t.gx.mem = s.gx.mem ∧ t.gx.cores = s.gx.cores ∧ t.gx.tk = s.gx.tk ∧ t.gx.coreUp = s.gx.coreUp ∧
    t.gx.mg.slots = s.gx.mg.slots ∧ t.gx.mg.mirror = s.gx.mg.mirror ∧ t.gx.mg.fuses = s.gx.mg.fuses) ∧
  (s.gx.coreUp = true → s.gx.mg.trained = false → ∃ t, exec .hbmTrainingDone s = .next t ∧ t.gx.mg.trained = true ∧
    t.gx.mem = s.gx.mem ∧ (s.gx.rd (Reg.MG_BU_TIME 1) = 0 → t.gx.rd (Reg.MG_BU_TIME 1) = word (max 1 s.gx.upMs % 2 ^ 32))) ∧
  (exec .bypass s = .next { s with gx := { s.gx with mg := { s.gx.mg with jtag := .bypass } } } ∧
    exec .samplePreload s = .next { s with gx := { s.gx with mg := { s.gx.mg with jtag := .sample } } } ∧
    ∀ row ∈ ([(.extest, .extest), (.clamp, .clamp), (.highz, .highz), (.extestPulse, .pulse), (.extestTrain, .train)] :
      List (Instr × Jtag)), exec row.1 s = .next { s with
        gx := { s.gx with mg := { s.gx.mg with jtag := if s.gx.sysRstN then .bypass else row.2 } } })

/-! ### Register writes, ingest, boundaries and fabric ports -/

/-- R14, R16, R179, R181, R183, R216, R474: an agent's write of a register of the Energy Planner or the Observation Unit follows its
access code; a write of record memory stores 8 bytes; a PCIe write outside the MG block is dropped and counted, an access where
nothing is shows in ID_BADADDR, a write of a fuse by firmware is refused and counted, and a core's write reaches neither the MG nor the
ID block. -/
def Obligations.RegisterWritesFollowTheirAccess : Prop := ∀ (s : State) (n : BitVec 6) (a : BitVec 48) (v : Word), a.toNat % 8 = 0 →
  (s.gx.coreUp = true → n ≠ 35 →
    (∀ f, 0x80C00000 ≤ a.toNat → a.toNat < 0x80E00000 → regFind gxRegFams a.toNat = some f →
      (f.acc = .rw → exec (.registerWrite n a v) s = .next { s with
        gx := s.gx.wr a.toNat ((s.gx.rd a.toNat &&& ~~~f.wmask) ||| (v &&& f.wmask)) }) ∧
      (f.acc = .rwt → ∃ t, exec (.registerWrite n a v) s = .next t ∧ t.gx.regs = s.gx.regs ∧ t.gx.mem = s.gx.mem ∧
        t.gx.rwtRd a.toNat = (s.gx.rd a.toNat &&& ~~~f.wmask) ||| (v &&& f.wmask)) ∧
      (f.acc = .row1c → exec (.registerWrite n a v) s = .next { s with
        gx := s.gx.wr a.toNat (s.gx.rd a.toNat &&& ~~~(v &&& f.cmask)) }) ∧
      (f.acc = .ro → exec (.registerWrite n a v) s = .next s)) ∧
    (24 ≤ n.toNat → addrKind a.toNat = .hbm → (n = 31 → s.gx.fwMay a.toNat = true) → memRange a.toNat 8 = true →
      s.gx.clash none true a.toNat 8 = false → ∃ t, exec (.registerWrite n a v) s = .next t ∧ t.bm = s.bm ∧ t.gx.regs = s.gx.regs ∧
        t.gx.mem = memWrite s.gx.mem a.toNat (leBytes 8 v.toNat)) ∧
    (24 ≤ n.toNat → addrKind a.toNat = .none → exec (.registerWrite n a v) s = .next { s with
      gx := s.gx.wr Reg.ID_BADADDR (putFld (satFld (s.gx.rd Reg.ID_BADADDR) 32 32 1) 24 6 n.toNat) }) ∧
    (n = 31 → isFused a.toNat = true → s.gx.tk.ticking = true → ∃ t, exec (.registerWrite n a v) s = .next t ∧
      t.gx.rd Reg.MG_AUTH_REFUSED = satAdd (s.gx.rd Reg.MG_AUTH_REFUSED) 1 ∧ t.gx.rd a.toNat = s.gx.rd a.toNat ∧
      t.gx.mem = s.gx.mem) ∧
    (n.toNat < 24 → addrKind a.toNat ≠ .csr ∨ 0x80F00000 ≤ a.toNat → exec (.registerWrite n a v) s = .next s)) ∧
  (s.gx.coreUp = true → a.toNat < 0x80E00000 ∨ 0x80F00000 ≤ a.toNat →
    exec (.registerWrite 35 a v) s = .next { s with gx := s.gx.bump Reg.ID_PCIE_DROP 1 }) ∧
  (0x80E00000 ≤ a.toNat → a.toNat < 0x80F00000 → n.toNat < 24 → exec (.registerWrite n a v) s = .next s)

/-- R142, R144, R170, R313: a first DATA block opens reassembly at its port and class, a block with the index expected continues it,
and a block that failed its check is counted and changes nothing else; the oldest complete record of a class leaves its FIFO, and
enters the leaf's ingest area if it passes the checks; while the leaf is not ticking it is dropped and counted. -/
def Obligations.TapRecordsAreReassembledAndIngested : Prop := ∀ (s : State) (p : BitVec 6), s.gx.coreUp = true →
  (∀ (l : List Byte) (c : Nat), (s.gx.port p.toNat).up = true → l.length = 60 → c = leAt l 1 1 / 64 → c ≠ 2 →
    (leAt l 1 1).testBit 4 = false →
    (∀ b k, SMap.get .idle (s.gx.port p.toNat).reasm c = .part b k → (leAt l 1 1).testBit 5 = false → leAt l 2 2 = k →
      ∃ t, exec (.tapDataBlock p { fecOk := true, crcOk := true } l) s = .next t ∧
        SMap.get .idle (t.gx.port p.toNat).reasm c = .part (b ++ (l.drop 4).take 56) (k + 1) ∧
        (t.gx.port p.toNat).fifo = (s.gx.port p.toNat).fifo ∧ t.gx.mem = s.gx.mem ∧ t.gx.regs = s.gx.regs) ∧
    (SMap.get .idle (s.gx.port p.toNat).reasm c = .idle → (leAt l 1 1).testBit 5 = true → leAt l 2 2 = 0 →
      ∃ t, exec (.tapDataBlock p { fecOk := true, crcOk := true } l) s = .next t ∧
        SMap.get .idle (t.gx.port p.toNat).reasm c = .part ((l.drop 4).take 56) 1 ∧
        (∀ d, d ≠ c → SMap.get .idle (t.gx.port p.toNat).reasm d = SMap.get .idle (s.gx.port p.toNat).reasm d) ∧
        (∀ q, q ≠ p.toNat → t.gx.port q = s.gx.port q) ∧ t.gx.mem = s.gx.mem ∧ t.gx.regs = s.gx.regs)) ∧
  (∀ (l : List Byte) (x : BlkCheck), (s.gx.port p.toNat).up = true → x.fecOk = true → x.crcOk = false →
    exec (.tapDataBlock p x l) s = .next { s with gx := s.gx.bumpFld (Reg.TP_BLKERR p.toNat) 0 32 1 }) ∧
  (∀ (c : BitVec 2) r blocks g1 g2 r1 g3, c ≠ 2 → s.gx.popFifo p.toNat c.toNat = some ((r, blocks), g1) →
    g2 = (g1.modPort p.toNat fun t => t.raise c.toNat blocks).count 5 p.toNat 2 blocks →
    g2.tapMeter p.toNat r = (some r1, g3) →
    (g3.tk.ticking = false → exec (.recordIngest p c) s = .next { s with gx := g3.bumpFld Reg.RE_INGEST_BAD 16 16 1 }) ∧
    (g3.tk.ticking = true → g3.ingestFail p.toNat r1 = 0 → bit (g3.rd Reg.DG_CTRL) 61 = false →
      ∃ t, exec (.recordIngest p c) s = .next t ∧
        t.gx.ingest 0 = g3.ingest 0 ++ [{ tick := r1.tick, child := p.toNat, r := r1 }] ∧ t.gx.tk = g3.tk) ∧
    (g3.tk.ticking = true → g3.ingestFail p.toNat r1 ≠ 0 → ∃ t, exec (.recordIngest p c) s = .next t ∧
      t.gx.fl.ing = g3.fl.ing ∧ t.gx.mem = g3.mem ∧ t.gx.tk = g3.tk)) ∧
  (∀ c : BitVec 2, s.gx.popFifo p.toNat c.toNat = none → exec (.recordIngest p c) s = .next s)

/-- R60, R462, R494: at a boundary with every core at rest the tick number rises by one, or the first tick begins, and in thermal halt the Time Keeper's alone; a
Glexon that is LOCKED and not ticking begins its gate list at the next whole millisecond. -/
def Obligations.BoundariesAdvanceTheTick : Prop := ∀ (s : State) (b : BoundaryIn), s.gx.tkUp = true →
  (s.gx.tk.ticking = true → s.gx.tk.lost = false → s.gx.tk.pend = none → s.gx.tk.next = none → s.gx.changeDue = false →
    ((∀ n < 24, (s.gx.core n).inSet = false) → ∃ t, exec (.glexonBoundary b) s = .next t ∧ t.bm = s.bm ∧
      t.gx.tk.ticking = true ∧ t.gx.tk.tickNo = s.gx.tk.tickNo + 1 ∧ t.gx.tk.period = s.gx.tk.period ∧
      t.gx.tk.epoch = s.gx.tk.epoch) ∧
    (s.gx.mg.tripped = true → ∃ t, exec (.glexonBoundary b) s = .next t ∧ t.gx.mem = s.gx.mem ∧ t.gx.cores = s.gx.cores ∧
      t.gx.tk.tickNo = s.gx.tk.tickNo + 1 ∧ t.gx.tk.clk = max s.gx.tk.clk (s.gx.boundNs (s.gx.tk.tickNo + 1) * 2 ^ 32))) ∧
  (s.gx.mg.tripped = false → s.gx.tk.ticking = false →
    (s.gx.tk.mode = .locked → s.gx.tk.hasEpoch = true → ∃ t, exec (.glexonBoundary b) s = .next t ∧ t.gx.tk.ticking = true) ∧
    (s.gx.tk.hasEpoch = false → exec (.glexonBoundary b) s = .next s) ∧
    (s.gx.tk.mode = .locked → ∃ t, exec .provisionalBoundary s = .next t ∧ t.bm = s.bm ∧ t.gx.regs = s.gx.regs ∧
      t.gx.mem = s.gx.mem ∧ t.gx.tk.clk = max s.gx.tk.clk ((s.gx.nowNs + 999999) / 1000000 * 1000000 * 2 ^ 32) ∧
      t.gx.ts.amber = bit (s.gx.rd (Reg.TS_GATE 0)) 34 ∧ t.gx.ts.umber = bit (s.gx.rd (Reg.TS_GATE 0)) 35 ∧ t.gx.ts.entry = 0)) ∧
  (s.gx.mg.tripped = false → s.gx.tk.mode ≠ .locked → exec .provisionalBoundary s = .next s)

/-- R22, R226, R228, R508, R509: at the work deadline of a Glexon without a role, with no result on its way, ABORTMASK takes the cores of the barrier set that still
work, and no other; a fabric port that retrains keeps the widest width whose lanes pass, or goes down, and firmware moves its roles to the
lowest port that is up; a port comes up with its virtual time at 0. -/
def Obligations.DeadlinesAndFabricPorts : Prop := ∀ s : State, s.gx.coreUp = true →
  (s.gx.tk.ticking = false → exec .workDeadline s = .next s) ∧
  (s.gx.tk.ticking = true → (∀ k < 4, s.gx.roleOn k = false) →
    (∀ n < 24, (s.gx.core n).isOpen = false ∧ (s.gx.core n).flight = []) → ∃ t, exec .workDeadline s = .next t ∧ t.bm = s.bm ∧ t.gx.tk = s.gx.tk ∧
    ∀ n < 24, bit t.gx.abortMask n = (bit s.gx.abortMask n || ((s.gx.core n).inSet &&
      (decide ((s.gx.core n).phase = .issuing) || decide ((s.gx.core n).phase = .idle))))) ∧
  (∀ (p : BitVec 3) (m : BitVec 4), SMap.get 0 s.gx.portLanes p.toNat ≠ 0 → ∃ t, exec (.fabricLaneFail p m) s = .next t ∧
    t.bm = s.bm ∧ t.gx.mem = s.gx.mem ∧ SMap.get 0 t.gx.portLanes p.toNat = lanesOf m ∧
    (∀ q, q ≠ p.toNat → SMap.get 0 t.gx.portLanes q = SMap.get 0 s.gx.portLanes q) ∧
    (m ≠ 0 → t.gx.rd Reg.TS_ROLE_PORT = s.gx.rd Reg.TS_ROLE_PORT) ∧
    (m = 0 → s.gx.fwOn = true → ∀ q < 8, q ≠ p.toNat → SMap.get 0 s.gx.portLanes q ≠ 0 →
      (∀ x < q, x ≠ p.toNat → SMap.get 0 s.gx.portLanes x = 0) → ∀ k < 4, s.gx.roleSet k = true →
      t.gx.rolePort k = if s.gx.rolePort k = p.toNat then q else s.gx.rolePort k)) ∧
  (∀ (p : BitVec 3) (m : BitVec 4), m ≠ 0 → ∃ t, exec (.fabricPortUp p m) s = .next t ∧ t.bm = s.bm ∧ t.gx.mem = s.gx.mem ∧
    SMap.get 0 t.gx.portLanes p.toNat = lanesOf m ∧ (t.gx.egress p.toNat).v = 0 ∧
    (∀ q, q ≠ p.toNat → SMap.get 0 t.gx.portLanes q = SMap.get 0 s.gx.portLanes q) ∧
    ∀ q, q ≠ p.toNat → t.gx.egress q = s.gx.egress q)
end

