-- ==== Sys2Proof/Laws/Commands.lean ====
section
/-! SUPPORT. What each way of running a command does: the part that it acts on when that part runs, nothing when it does not. -/

namespace Sys2Proof.Machine

/-- A command has its effect while the Bumas is out of reset and powered. -/
theorem onBumas_runs (f : Bumas → Bumas) (s : State) (h : s.bm.alive = true) : onBumas f s = .next { s with bm := f s.bm } := by
  simp [onBumas, h]

/-- A command changes nothing otherwise. -/
theorem onBumas_held (f : Bumas → Bumas) (s : State) (h : s.bm.alive = false) : onBumas f s = .next s := by simp [onBumas, h]

/-- All that a command can do. -/
theorem onBumas_cases (f : Bumas → Bumas) (s t : State) (h : onBumas f s = .next t) :
    (s.bm.alive = true ∧ t = { s with bm := f s.bm }) ∨ (s.bm.alive = false ∧ t = s) := by
  by_cases hc : s.bm.alive = true
  · rw [onBumas_runs f s hc] at h; injection h with h; exact .inl ⟨hc, h.symm⟩
  · rw [onBumas_held f s (by simpa using hc)] at h; injection h with h; exact .inr ⟨by simpa using hc, h.symm⟩

/-- A command has its effect while the Time Keeper runs. -/
theorem onTk_runs (f : Glexon → Glexon) (s : State) (h : s.gx.tkUp = true) : onTk f s = .next { s with gx := f s.gx } := by
  simp [onTk, h]

/-- A command changes nothing otherwise. -/
theorem onTk_held (f : Glexon → Glexon) (s : State) (h : s.gx.tkUp = false) : onTk f s = .next s := by simp [onTk, h]

/-- All that a command can do. -/
theorem onTk_cases (f : Glexon → Glexon) (s t : State) (h : onTk f s = .next t) :
    (s.gx.tkUp = true ∧ t = { s with gx := f s.gx }) ∨ (s.gx.tkUp = false ∧ t = s) := by
  by_cases hc : s.gx.tkUp = true
  · rw [onTk_runs f s hc] at h; injection h with h; exact .inl ⟨hc, h.symm⟩
  · rw [onTk_held f s (by simpa using hc)] at h; injection h with h; exact .inr ⟨by simpa using hc, h.symm⟩

/-- A command has its effect while the core domain runs. -/
theorem onCore_runs (f : Glexon → Glexon) (s : State) (h : s.gx.coreUp = true) : onCore f s = .next { s with gx := f s.gx } := by
  simp [onCore, h]

/-- A command changes nothing otherwise. -/
theorem onCore_held (f : Glexon → Glexon) (s : State) (h : s.gx.coreUp = false) : onCore f s = .next s := by simp [onCore, h]

/-- All that a command can do. -/
theorem onCore_cases (f : Glexon → Glexon) (s t : State) (h : onCore f s = .next t) :
    (s.gx.coreUp = true ∧ t = { s with gx := f s.gx }) ∨ (s.gx.coreUp = false ∧ t = s) := by
  by_cases hc : s.gx.coreUp = true
  · rw [onCore_runs f s hc] at h; injection h with h; exact .inl ⟨hc, h.symm⟩
  · rw [onCore_held f s (by simpa using hc)] at h; injection h with h; exact .inr ⟨by simpa using hc, h.symm⟩

/-- A command has its effect while MG_RST_N is high. -/
theorem onMgmt_runs (f : Glexon → Glexon) (s : State) (h : s.gx.mgRstN = true) : onMgmt f s = .next { s with gx := f s.gx } := by
  simp [onMgmt, h]

/-- A command changes nothing otherwise. -/
theorem onMgmt_held (f : Glexon → Glexon) (s : State) (h : s.gx.mgRstN = false) : onMgmt f s = .next s := by simp [onMgmt, h]

/-- All that a command can do. -/
theorem onMgmt_cases (f : Glexon → Glexon) (s t : State) (h : onMgmt f s = .next t) :
    (s.gx.mgRstN = true ∧ t = { s with gx := f s.gx }) ∨ (s.gx.mgRstN = false ∧ t = s) := by
  by_cases hc : s.gx.mgRstN = true
  · rw [onMgmt_runs f s hc] at h; injection h with h; exact .inl ⟨hc, h.symm⟩
  · rw [onMgmt_held f s (by simpa using hc)] at h; injection h with h; exact .inr ⟨by simpa using hc, h.symm⟩

/-- A pin command of the Bumas acts whatever its power and reset are. -/
theorem onBumasPins_next (f : Bumas → Bumas) (s : State) : onBumasPins f s = .next { s with bm := f s.bm } := rfl

/-- A pin command of the Glexon acts whatever its power and reset are. -/
theorem onGxPins_next (f : Glexon → Glexon) (s : State) : onGxPins f s = .next { s with gx := f s.gx } := rfl

/-- Firmware takes a mailbox request while it runs. -/
theorem onMbx_runs (f : Glexon → Glexon) (s : State) (h : s.gx.fwOn = true) :
    onMbx f s = .next { s with gx := f (s.gx.wr Reg.MG_MBX_REQ_CI (word ((fld (s.gx.rd Reg.MG_MBX_REQ_CI) 0 6 + 1) % 64))) } := by
  simp [onMbx, h]

/-- A mailbox request waits while no firmware runs. -/
theorem onMbx_held (f : Glexon → Glexon) (s : State) (h : s.gx.fwOn = false) : onMbx f s = .next s := by simp [onMbx, h]

/-- A slot that its core does not fetch at this point changes nothing. -/
theorem slotCmd_unfetched (f : Form) (sem : Slot → SlotRes) (o : SlotOp) (s : State) (h : s.gx.fetches f o = false) :
    slotCmd f sem o s = .next s := by
  simp [slotCmd, onCore, Glexon.slotOp, h]

/-- A packet of another opcode changes nothing. -/
theorem onPacket_other (op : Nat) (f : Glexon → RmPkt → Glexon) (pk : RmFrame) (s : State) (h : leAt pk.bytes 0 1 ≠ op) :
    onPacket op f pk s = .next s := by
  simp [onPacket, onCore, h]

end Sys2Proof.Machine
end

