-- ==== Sys2Proof/Laws/SMap.lean ====
section
/-! SUPPORT. Laws of sparse maps: what is read after a write, and that a write keeps the canonical form. -/

namespace Sys2Proof.Machine

variable {α : Type}

@[simp] theorem SMap.get_nil (d : α) (k : Nat) : SMap.get d [] k = d := rfl

/-- A read after a write at the same index gives the value written. -/
theorem SMap.get_put_same [DecidableEq α] (d : α) (m : SMap α) (k : Nat) (v : α) :
    SMap.get d (SMap.put d m k v) k = v := by
  induction m with
  | nil => by_cases hv : v = d <;> simp [SMap.put, SMap.get, hv]
  | cons e r ih =>
    obtain ⟨j, w⟩ := e
    by_cases hk : k = j
    · subst hk
      by_cases hv : v = d
      · subst hv; simpa [SMap.put] using ih
      · simp [SMap.put, SMap.get, hv]
    · by_cases hl : k < j ∧ v ≠ d
      · simp [SMap.put, SMap.get, hk, hl]
      · simpa [SMap.put, hk, hl, SMap.get] using ih

/-- A read at another index is not changed by a write. -/
theorem SMap.get_put_other [DecidableEq α] (d : α) (m : SMap α) (k i : Nat) (v : α) (h : i ≠ k) :
    SMap.get d (SMap.put d m k v) i = SMap.get d m i := by
  induction m with
  | nil => by_cases hv : v = d <;> simp [SMap.put, SMap.get, hv, h]
  | cons e r ih =>
    obtain ⟨j, w⟩ := e
    by_cases hk : k = j
    · subst hk
      by_cases hv : v = d
      · subst hv; simpa [SMap.put, SMap.get, h] using ih
      · simp [SMap.put, SMap.get, h, hv]
    · by_cases hl : k < j ∧ v ≠ d
      · simp [SMap.put, SMap.get, hk, hl, h]
      · simp only [SMap.put, hk, hl, if_false, SMap.get, ih]

/-- A map that is canonical from a bound is canonical from every lower one. -/
theorem SMap.wfFrom_mono [DecidableEq α] (d : α) (m : SMap α) (a b : Nat) (hab : a ≤ b)
    (h : SMap.wfFrom d b m = true) : SMap.wfFrom d a m = true := by
  cases m with
  | nil => rfl
  | cons e r =>
    simp only [SMap.wfFrom, Bool.and_eq_true, decide_eq_true_eq] at h ⊢
    exact ⟨⟨Nat.le_trans hab h.1.1, h.1.2⟩, h.2⟩

/-- A write at or above the bound keeps the canonical form from that bound. -/
theorem SMap.wfFrom_put [DecidableEq α] (d : α) (m : SMap α) (k : Nat) (v : α) (lo : Nat) (hlo : lo ≤ k)
    (h : SMap.wfFrom d lo m = true) : SMap.wfFrom d lo (SMap.put d m k v) = true := by
  induction m generalizing lo with
  | nil => by_cases hv : v = d <;> simp [SMap.put, SMap.wfFrom, hv, hlo]
  | cons e r ih =>
    obtain ⟨j, w⟩ := e
    simp only [SMap.wfFrom, Bool.and_eq_true, decide_eq_true_eq] at h
    by_cases hk : k = j
    · subst hk
      by_cases hv : v = d
      · simp only [SMap.put, hv, if_true]
        have hr : SMap.wfFrom d lo r = true := SMap.wfFrom_mono d r lo (k + 1) (by omega) h.2
        subst hv; exact ih lo hlo hr
      · simp only [SMap.put, hv, if_true, if_false, SMap.wfFrom, Bool.and_eq_true, decide_eq_true_eq]
        exact ⟨⟨h.1.1, hv⟩, h.2⟩
    · by_cases hl : k < j ∧ v ≠ d
      · rw [SMap.put, if_neg hk, if_pos hl]
        simp only [SMap.wfFrom, Bool.and_eq_true, decide_eq_true_eq]
        exact ⟨⟨hlo, hl.2⟩, ⟨by omega, h.1.2⟩, h.2⟩
      · simp only [SMap.put, hk, hl, if_false, SMap.wfFrom, Bool.and_eq_true, decide_eq_true_eq]
        refine ⟨h.1, ?_⟩
        by_cases hj : k < j
        · have hv : v = d := by
            by_contra hv; exact hl ⟨hj, hv⟩
          clear ih
          have : ∀ (r : SMap α) (lo : Nat), k < lo → SMap.wfFrom d lo r = true → SMap.put d r k v = r := by
            intro r
            induction r with
            | nil => intro _ _ _; simp [SMap.put, hv]
            | cons e r ih =>
              intro lo hlo h
              obtain ⟨i, x⟩ := e
              simp only [SMap.wfFrom, Bool.and_eq_true, decide_eq_true_eq] at h
              have h1 : k ≠ i := by omega
              have h2 : ¬ (k < i ∧ v ≠ d) := fun h => h.2 hv
              simp only [SMap.put, h1, h2, if_false]
              rw [ih (i + 1) (by omega) h.2]
          rw [this r (j + 1) (by omega) h.2]; exact h.2
        · exact ih (j + 1) (by omega) h.2

/-- A write keeps the canonical form. -/
theorem SMap.wf_put [DecidableEq α] (d : α) (m : SMap α) (k : Nat) (v : α) (h : SMap.wf d m = true) :
    SMap.wf d (SMap.put d m k v) = true := SMap.wfFrom_put d m k v 0 (Nat.zero_le k) h

/-- A change at one index keeps the canonical form. -/
theorem SMap.wf_mod [DecidableEq α] (d : α) (m : SMap α) (k : Nat) (f : α → α) (h : SMap.wf d m = true) :
    SMap.wf d (SMap.mod d m k f) = true := SMap.wf_put d m k _ h

/-- A change at one index is read there. -/
theorem SMap.get_mod_same [DecidableEq α] (d : α) (m : SMap α) (k : Nat) (f : α → α) :
    SMap.get d (SMap.mod d m k f) k = f (SMap.get d m k) := SMap.get_put_same d m k _

/-- A change at one index leaves every other index alone. -/
theorem SMap.get_mod_other [DecidableEq α] (d : α) (m : SMap α) (k i : Nat) (f : α → α) (h : i ≠ k) :
    SMap.get d (SMap.mod d m k f) i = SMap.get d m i := SMap.get_put_other d m k i _ h

end Sys2Proof.Machine
end

