-- ==== Sys2Proof/Laws/State.lean ====
section
/-! SUPPORT. What each update of the two parts leaves alone: one lemma per field per update. -/

namespace Sys2Proof.Machine

variable (g : Glexon) (b : Bumas)

@[simp] theorem Glexon.wr_sysRstN (a : Nat) (v : Word) : (g.wr a v).sysRstN = g.sysRstN := rfl
@[simp] theorem Glexon.wr_corePwrOk (a : Nat) (v : Word) : (g.wr a v).corePwrOk = g.corePwrOk := rfl
@[simp] theorem Glexon.wr_mgRstN (a : Nat) (v : Word) : (g.wr a v).mgRstN = g.mgRstN := rfl
@[simp] theorem Glexon.wr_coreLost (a : Nat) (v : Word) : (g.wr a v).coreLost = g.coreLost := rfl
@[simp] theorem Glexon.wr_rwt (a : Nat) (v : Word) : (g.wr a v).rwt = g.rwt := rfl
@[simp] theorem Glexon.wr_mem (a : Nat) (v : Word) : (g.wr a v).mem = g.mem := rfl
@[simp] theorem Glexon.wr_poison (a : Nat) (v : Word) : (g.wr a v).poison = g.poison := rfl
@[simp] theorem Glexon.wr_eccCorr (a : Nat) (v : Word) : (g.wr a v).eccCorr = g.eccCorr := rfl
@[simp] theorem Glexon.wr_eccUncorr (a : Nat) (v : Word) : (g.wr a v).eccUncorr = g.eccUncorr := rfl
@[simp] theorem Glexon.wr_portLanes (a : Nat) (v : Word) : (g.wr a v).portLanes = g.portLanes := rfl
@[simp] theorem Glexon.wr_rdData (a : Nat) (v : Word) : (g.wr a v).rdData = g.rdData := rfl
@[simp] theorem Glexon.wr_tk (a : Nat) (v : Word) : (g.wr a v).tk = g.tk := rfl
@[simp] theorem Glexon.wr_ports (a : Nat) (v : Word) : (g.wr a v).ports = g.ports := rfl
@[simp] theorem Glexon.wr_probe (a : Nat) (v : Word) : (g.wr a v).probe = g.probe := rfl
@[simp] theorem Glexon.wr_probeTag (a : Nat) (v : Word) : (g.wr a v).probeTag = g.probeTag := rfl
@[simp] theorem Glexon.wr_events (a : Nat) (v : Word) : (g.wr a v).events = g.events := rfl
@[simp] theorem Glexon.wr_cores (a : Nat) (v : Word) : (g.wr a v).cores = g.cores := rfl
@[simp] theorem Glexon.wr_abortMask (a : Nat) (v : Word) : (g.wr a v).abortMask = g.abortMask := rfl
@[simp] theorem Glexon.wr_code (a : Nat) (v : Word) : (g.wr a v).code = g.code := rfl
@[simp] theorem Glexon.wr_image (a : Nat) (v : Word) : (g.wr a v).image = g.image := rfl
@[simp] theorem Glexon.wr_coreClk (a : Nat) (v : Word) : (g.wr a v).coreClk = g.coreClk := rfl
@[simp] theorem Glexon.wr_pulse (a : Nat) (v : Word) : (g.wr a v).pulse = g.pulse := rfl
@[simp] theorem Glexon.wr_freeN (a : Nat) (v : Word) : (g.wr a v).freeN = g.freeN := rfl
@[simp] theorem Glexon.wr_obs (a : Nat) (v : Word) : (g.wr a v).obs = g.obs := rfl
@[simp] theorem Glexon.wr_trc (a : Nat) (v : Word) : (g.wr a v).trc = g.trc := rfl
@[simp] theorem Glexon.wr_staged (a : Nat) (v : Word) : (g.wr a v).staged = g.staged := rfl
@[simp] theorem Glexon.wr_au (a : Nat) (v : Word) : (g.wr a v).au = g.au := rfl
@[simp] theorem Glexon.wr_fl (a : Nat) (v : Word) : (g.wr a v).fl = g.fl := rfl
@[simp] theorem Glexon.wr_es (a : Nat) (v : Word) : (g.wr a v).es = g.es := rfl
@[simp] theorem Glexon.wr_ep (a : Nat) (v : Word) : (g.wr a v).ep = g.ep := rfl
@[simp] theorem Glexon.wr_ts (a : Nat) (v : Word) : (g.wr a v).ts = g.ts := rfl
@[simp] theorem Glexon.wr_rm (a : Nat) (v : Word) : (g.wr a v).rm = g.rm := rfl
@[simp] theorem Glexon.wr_ce (a : Nat) (v : Word) : (g.wr a v).ce = g.ce := rfl
@[simp] theorem Glexon.wr_ceTick (a : Nat) (v : Word) : (g.wr a v).ceTick = g.ceTick := rfl
@[simp] theorem Glexon.wr_mg (a : Nat) (v : Word) : (g.wr a v).mg = g.mg := rfl
@[simp] theorem Glexon.wr_ob (a : Nat) (v : Word) : (g.wr a v).ob = g.ob := rfl

@[simp] theorem Glexon.memPut_sysRstN (a : Nat) (l : List Byte) : (g.memPut a l).sysRstN = g.sysRstN := rfl
@[simp] theorem Glexon.memPut_corePwrOk (a : Nat) (l : List Byte) : (g.memPut a l).corePwrOk = g.corePwrOk := rfl
@[simp] theorem Glexon.memPut_mgRstN (a : Nat) (l : List Byte) : (g.memPut a l).mgRstN = g.mgRstN := rfl
@[simp] theorem Glexon.memPut_coreLost (a : Nat) (l : List Byte) : (g.memPut a l).coreLost = g.coreLost := rfl
@[simp] theorem Glexon.memPut_regs (a : Nat) (l : List Byte) : (g.memPut a l).regs = g.regs := rfl
@[simp] theorem Glexon.memPut_rwt (a : Nat) (l : List Byte) : (g.memPut a l).rwt = g.rwt := rfl
@[simp] theorem Glexon.memPut_poison (a : Nat) (l : List Byte) : (g.memPut a l).poison = g.poison := rfl
@[simp] theorem Glexon.memPut_eccCorr (a : Nat) (l : List Byte) : (g.memPut a l).eccCorr = g.eccCorr := rfl
@[simp] theorem Glexon.memPut_eccUncorr (a : Nat) (l : List Byte) : (g.memPut a l).eccUncorr = g.eccUncorr := rfl
@[simp] theorem Glexon.memPut_portLanes (a : Nat) (l : List Byte) : (g.memPut a l).portLanes = g.portLanes := rfl
@[simp] theorem Glexon.memPut_rdData (a : Nat) (l : List Byte) : (g.memPut a l).rdData = g.rdData := rfl
@[simp] theorem Glexon.memPut_tk (a : Nat) (l : List Byte) : (g.memPut a l).tk = g.tk := rfl
@[simp] theorem Glexon.memPut_ports (a : Nat) (l : List Byte) : (g.memPut a l).ports = g.ports := rfl
@[simp] theorem Glexon.memPut_probe (a : Nat) (l : List Byte) : (g.memPut a l).probe = g.probe := rfl
@[simp] theorem Glexon.memPut_probeTag (a : Nat) (l : List Byte) : (g.memPut a l).probeTag = g.probeTag := rfl
@[simp] theorem Glexon.memPut_events (a : Nat) (l : List Byte) : (g.memPut a l).events = g.events := rfl
@[simp] theorem Glexon.memPut_cores (a : Nat) (l : List Byte) : (g.memPut a l).cores = g.cores := rfl
@[simp] theorem Glexon.memPut_abortMask (a : Nat) (l : List Byte) : (g.memPut a l).abortMask = g.abortMask := rfl
@[simp] theorem Glexon.memPut_code (a : Nat) (l : List Byte) : (g.memPut a l).code = g.code := rfl
@[simp] theorem Glexon.memPut_image (a : Nat) (l : List Byte) : (g.memPut a l).image = g.image := rfl
@[simp] theorem Glexon.memPut_coreClk (a : Nat) (l : List Byte) : (g.memPut a l).coreClk = g.coreClk := rfl
@[simp] theorem Glexon.memPut_pulse (a : Nat) (l : List Byte) : (g.memPut a l).pulse = g.pulse := rfl
@[simp] theorem Glexon.memPut_freeN (a : Nat) (l : List Byte) : (g.memPut a l).freeN = g.freeN := rfl
@[simp] theorem Glexon.memPut_obs (a : Nat) (l : List Byte) : (g.memPut a l).obs = g.obs := rfl
@[simp] theorem Glexon.memPut_trc (a : Nat) (l : List Byte) : (g.memPut a l).trc = g.trc := rfl
@[simp] theorem Glexon.memPut_staged (a : Nat) (l : List Byte) : (g.memPut a l).staged = g.staged := rfl
@[simp] theorem Glexon.memPut_au (a : Nat) (l : List Byte) : (g.memPut a l).au = g.au := rfl
@[simp] theorem Glexon.memPut_fl (a : Nat) (l : List Byte) : (g.memPut a l).fl = g.fl := rfl
@[simp] theorem Glexon.memPut_es (a : Nat) (l : List Byte) : (g.memPut a l).es = g.es := rfl
@[simp] theorem Glexon.memPut_ep (a : Nat) (l : List Byte) : (g.memPut a l).ep = g.ep := rfl
@[simp] theorem Glexon.memPut_ts (a : Nat) (l : List Byte) : (g.memPut a l).ts = g.ts := rfl
@[simp] theorem Glexon.memPut_rm (a : Nat) (l : List Byte) : (g.memPut a l).rm = g.rm := rfl
@[simp] theorem Glexon.memPut_ce (a : Nat) (l : List Byte) : (g.memPut a l).ce = g.ce := rfl
@[simp] theorem Glexon.memPut_ceTick (a : Nat) (l : List Byte) : (g.memPut a l).ceTick = g.ceTick := rfl
@[simp] theorem Glexon.memPut_mg (a : Nat) (l : List Byte) : (g.memPut a l).mg = g.mg := rfl
@[simp] theorem Glexon.memPut_ob (a : Nat) (l : List Byte) : (g.memPut a l).ob = g.ob := rfl

@[simp] theorem Glexon.setPoison_sysRstN (a n : Nat) (p : Bool) : (g.setPoison a n p).sysRstN = g.sysRstN := rfl
@[simp] theorem Glexon.setPoison_corePwrOk (a n : Nat) (p : Bool) : (g.setPoison a n p).corePwrOk = g.corePwrOk := rfl
@[simp] theorem Glexon.setPoison_mgRstN (a n : Nat) (p : Bool) : (g.setPoison a n p).mgRstN = g.mgRstN := rfl
@[simp] theorem Glexon.setPoison_coreLost (a n : Nat) (p : Bool) : (g.setPoison a n p).coreLost = g.coreLost := rfl
@[simp] theorem Glexon.setPoison_regs (a n : Nat) (p : Bool) : (g.setPoison a n p).regs = g.regs := rfl
@[simp] theorem Glexon.setPoison_rwt (a n : Nat) (p : Bool) : (g.setPoison a n p).rwt = g.rwt := rfl
@[simp] theorem Glexon.setPoison_mem (a n : Nat) (p : Bool) : (g.setPoison a n p).mem = g.mem := rfl
@[simp] theorem Glexon.setPoison_eccCorr (a n : Nat) (p : Bool) : (g.setPoison a n p).eccCorr = g.eccCorr := rfl
@[simp] theorem Glexon.setPoison_eccUncorr (a n : Nat) (p : Bool) : (g.setPoison a n p).eccUncorr = g.eccUncorr := rfl
@[simp] theorem Glexon.setPoison_portLanes (a n : Nat) (p : Bool) : (g.setPoison a n p).portLanes = g.portLanes := rfl
@[simp] theorem Glexon.setPoison_rdData (a n : Nat) (p : Bool) : (g.setPoison a n p).rdData = g.rdData := rfl
@[simp] theorem Glexon.setPoison_tk (a n : Nat) (p : Bool) : (g.setPoison a n p).tk = g.tk := rfl
@[simp] theorem Glexon.setPoison_ports (a n : Nat) (p : Bool) : (g.setPoison a n p).ports = g.ports := rfl
@[simp] theorem Glexon.setPoison_probe (a n : Nat) (p : Bool) : (g.setPoison a n p).probe = g.probe := rfl
@[simp] theorem Glexon.setPoison_probeTag (a n : Nat) (p : Bool) : (g.setPoison a n p).probeTag = g.probeTag := rfl
@[simp] theorem Glexon.setPoison_events (a n : Nat) (p : Bool) : (g.setPoison a n p).events = g.events := rfl
@[simp] theorem Glexon.setPoison_cores (a n : Nat) (p : Bool) : (g.setPoison a n p).cores = g.cores := rfl
@[simp] theorem Glexon.setPoison_abortMask (a n : Nat) (p : Bool) : (g.setPoison a n p).abortMask = g.abortMask := rfl
@[simp] theorem Glexon.setPoison_code (a n : Nat) (p : Bool) : (g.setPoison a n p).code = g.code := rfl
@[simp] theorem Glexon.setPoison_image (a n : Nat) (p : Bool) : (g.setPoison a n p).image = g.image := rfl
@[simp] theorem Glexon.setPoison_coreClk (a n : Nat) (p : Bool) : (g.setPoison a n p).coreClk = g.coreClk := rfl
@[simp] theorem Glexon.setPoison_pulse (a n : Nat) (p : Bool) : (g.setPoison a n p).pulse = g.pulse := rfl
@[simp] theorem Glexon.setPoison_freeN (a n : Nat) (p : Bool) : (g.setPoison a n p).freeN = g.freeN := rfl
@[simp] theorem Glexon.setPoison_obs (a n : Nat) (p : Bool) : (g.setPoison a n p).obs = g.obs := rfl
@[simp] theorem Glexon.setPoison_trc (a n : Nat) (p : Bool) : (g.setPoison a n p).trc = g.trc := rfl
@[simp] theorem Glexon.setPoison_staged (a n : Nat) (p : Bool) : (g.setPoison a n p).staged = g.staged := rfl
@[simp] theorem Glexon.setPoison_au (a n : Nat) (p : Bool) : (g.setPoison a n p).au = g.au := rfl
@[simp] theorem Glexon.setPoison_fl (a n : Nat) (p : Bool) : (g.setPoison a n p).fl = g.fl := rfl
@[simp] theorem Glexon.setPoison_es (a n : Nat) (p : Bool) : (g.setPoison a n p).es = g.es := rfl
@[simp] theorem Glexon.setPoison_ep (a n : Nat) (p : Bool) : (g.setPoison a n p).ep = g.ep := rfl
@[simp] theorem Glexon.setPoison_ts (a n : Nat) (p : Bool) : (g.setPoison a n p).ts = g.ts := rfl
@[simp] theorem Glexon.setPoison_rm (a n : Nat) (p : Bool) : (g.setPoison a n p).rm = g.rm := rfl
@[simp] theorem Glexon.setPoison_ce (a n : Nat) (p : Bool) : (g.setPoison a n p).ce = g.ce := rfl
@[simp] theorem Glexon.setPoison_ceTick (a n : Nat) (p : Bool) : (g.setPoison a n p).ceTick = g.ceTick := rfl
@[simp] theorem Glexon.setPoison_mg (a n : Nat) (p : Bool) : (g.setPoison a n p).mg = g.mg := rfl
@[simp] theorem Glexon.setPoison_ob (a n : Nat) (p : Bool) : (g.setPoison a n p).ob = g.ob := rfl

@[simp] theorem Glexon.setCore_sysRstN (n : Nat) (k : Core) : (g.setCore n k).sysRstN = g.sysRstN := rfl
@[simp] theorem Glexon.setCore_corePwrOk (n : Nat) (k : Core) : (g.setCore n k).corePwrOk = g.corePwrOk := rfl
@[simp] theorem Glexon.setCore_mgRstN (n : Nat) (k : Core) : (g.setCore n k).mgRstN = g.mgRstN := rfl
@[simp] theorem Glexon.setCore_coreLost (n : Nat) (k : Core) : (g.setCore n k).coreLost = g.coreLost := rfl
@[simp] theorem Glexon.setCore_regs (n : Nat) (k : Core) : (g.setCore n k).regs = g.regs := rfl
@[simp] theorem Glexon.setCore_rwt (n : Nat) (k : Core) : (g.setCore n k).rwt = g.rwt := rfl
@[simp] theorem Glexon.setCore_mem (n : Nat) (k : Core) : (g.setCore n k).mem = g.mem := rfl
@[simp] theorem Glexon.setCore_poison (n : Nat) (k : Core) : (g.setCore n k).poison = g.poison := rfl
@[simp] theorem Glexon.setCore_eccCorr (n : Nat) (k : Core) : (g.setCore n k).eccCorr = g.eccCorr := rfl
@[simp] theorem Glexon.setCore_eccUncorr (n : Nat) (k : Core) : (g.setCore n k).eccUncorr = g.eccUncorr := rfl
@[simp] theorem Glexon.setCore_portLanes (n : Nat) (k : Core) : (g.setCore n k).portLanes = g.portLanes := rfl
@[simp] theorem Glexon.setCore_rdData (n : Nat) (k : Core) : (g.setCore n k).rdData = g.rdData := rfl
@[simp] theorem Glexon.setCore_tk (n : Nat) (k : Core) : (g.setCore n k).tk = g.tk := rfl
@[simp] theorem Glexon.setCore_ports (n : Nat) (k : Core) : (g.setCore n k).ports = g.ports := rfl
@[simp] theorem Glexon.setCore_probe (n : Nat) (k : Core) : (g.setCore n k).probe = g.probe := rfl
@[simp] theorem Glexon.setCore_probeTag (n : Nat) (k : Core) : (g.setCore n k).probeTag = g.probeTag := rfl
@[simp] theorem Glexon.setCore_events (n : Nat) (k : Core) : (g.setCore n k).events = g.events := rfl
@[simp] theorem Glexon.setCore_abortMask (n : Nat) (k : Core) : (g.setCore n k).abortMask = g.abortMask := rfl
@[simp] theorem Glexon.setCore_code (n : Nat) (k : Core) : (g.setCore n k).code = g.code := rfl
@[simp] theorem Glexon.setCore_image (n : Nat) (k : Core) : (g.setCore n k).image = g.image := rfl
@[simp] theorem Glexon.setCore_coreClk (n : Nat) (k : Core) : (g.setCore n k).coreClk = g.coreClk := rfl
@[simp] theorem Glexon.setCore_pulse (n : Nat) (k : Core) : (g.setCore n k).pulse = g.pulse := rfl
@[simp] theorem Glexon.setCore_freeN (n : Nat) (k : Core) : (g.setCore n k).freeN = g.freeN := rfl
@[simp] theorem Glexon.setCore_obs (n : Nat) (k : Core) : (g.setCore n k).obs = g.obs := rfl
@[simp] theorem Glexon.setCore_trc (n : Nat) (k : Core) : (g.setCore n k).trc = g.trc := rfl
@[simp] theorem Glexon.setCore_staged (n : Nat) (k : Core) : (g.setCore n k).staged = g.staged := rfl
@[simp] theorem Glexon.setCore_au (n : Nat) (k : Core) : (g.setCore n k).au = g.au := rfl
@[simp] theorem Glexon.setCore_fl (n : Nat) (k : Core) : (g.setCore n k).fl = g.fl := rfl
@[simp] theorem Glexon.setCore_es (n : Nat) (k : Core) : (g.setCore n k).es = g.es := rfl
@[simp] theorem Glexon.setCore_ep (n : Nat) (k : Core) : (g.setCore n k).ep = g.ep := rfl
@[simp] theorem Glexon.setCore_ts (n : Nat) (k : Core) : (g.setCore n k).ts = g.ts := rfl
@[simp] theorem Glexon.setCore_rm (n : Nat) (k : Core) : (g.setCore n k).rm = g.rm := rfl
@[simp] theorem Glexon.setCore_ce (n : Nat) (k : Core) : (g.setCore n k).ce = g.ce := rfl
@[simp] theorem Glexon.setCore_ceTick (n : Nat) (k : Core) : (g.setCore n k).ceTick = g.ceTick := rfl
@[simp] theorem Glexon.setCore_mg (n : Nat) (k : Core) : (g.setCore n k).mg = g.mg := rfl
@[simp] theorem Glexon.setCore_ob (n : Nat) (k : Core) : (g.setCore n k).ob = g.ob := rfl

@[simp] theorem Glexon.modCore_sysRstN (n : Nat) (f : Core → Core) : (g.modCore n f).sysRstN = g.sysRstN := rfl
@[simp] theorem Glexon.modCore_corePwrOk (n : Nat) (f : Core → Core) : (g.modCore n f).corePwrOk = g.corePwrOk := rfl
@[simp] theorem Glexon.modCore_mgRstN (n : Nat) (f : Core → Core) : (g.modCore n f).mgRstN = g.mgRstN := rfl
@[simp] theorem Glexon.modCore_coreLost (n : Nat) (f : Core → Core) : (g.modCore n f).coreLost = g.coreLost := rfl
@[simp] theorem Glexon.modCore_regs (n : Nat) (f : Core → Core) : (g.modCore n f).regs = g.regs := rfl
@[simp] theorem Glexon.modCore_rwt (n : Nat) (f : Core → Core) : (g.modCore n f).rwt = g.rwt := rfl
@[simp] theorem Glexon.modCore_mem (n : Nat) (f : Core → Core) : (g.modCore n f).mem = g.mem := rfl
@[simp] theorem Glexon.modCore_poison (n : Nat) (f : Core → Core) : (g.modCore n f).poison = g.poison := rfl
@[simp] theorem Glexon.modCore_eccCorr (n : Nat) (f : Core → Core) : (g.modCore n f).eccCorr = g.eccCorr := rfl
@[simp] theorem Glexon.modCore_eccUncorr (n : Nat) (f : Core → Core) : (g.modCore n f).eccUncorr = g.eccUncorr := rfl
@[simp] theorem Glexon.modCore_portLanes (n : Nat) (f : Core → Core) : (g.modCore n f).portLanes = g.portLanes := rfl
@[simp] theorem Glexon.modCore_rdData (n : Nat) (f : Core → Core) : (g.modCore n f).rdData = g.rdData := rfl
@[simp] theorem Glexon.modCore_tk (n : Nat) (f : Core → Core) : (g.modCore n f).tk = g.tk := rfl
@[simp] theorem Glexon.modCore_ports (n : Nat) (f : Core → Core) : (g.modCore n f).ports = g.ports := rfl
@[simp] theorem Glexon.modCore_probe (n : Nat) (f : Core → Core) : (g.modCore n f).probe = g.probe := rfl
@[simp] theorem Glexon.modCore_probeTag (n : Nat) (f : Core → Core) : (g.modCore n f).probeTag = g.probeTag := rfl
@[simp] theorem Glexon.modCore_events (n : Nat) (f : Core → Core) : (g.modCore n f).events = g.events := rfl
@[simp] theorem Glexon.modCore_abortMask (n : Nat) (f : Core → Core) : (g.modCore n f).abortMask = g.abortMask := rfl
@[simp] theorem Glexon.modCore_code (n : Nat) (f : Core → Core) : (g.modCore n f).code = g.code := rfl
@[simp] theorem Glexon.modCore_image (n : Nat) (f : Core → Core) : (g.modCore n f).image = g.image := rfl
@[simp] theorem Glexon.modCore_coreClk (n : Nat) (f : Core → Core) : (g.modCore n f).coreClk = g.coreClk := rfl
@[simp] theorem Glexon.modCore_pulse (n : Nat) (f : Core → Core) : (g.modCore n f).pulse = g.pulse := rfl
@[simp] theorem Glexon.modCore_freeN (n : Nat) (f : Core → Core) : (g.modCore n f).freeN = g.freeN := rfl
@[simp] theorem Glexon.modCore_obs (n : Nat) (f : Core → Core) : (g.modCore n f).obs = g.obs := rfl
@[simp] theorem Glexon.modCore_trc (n : Nat) (f : Core → Core) : (g.modCore n f).trc = g.trc := rfl
@[simp] theorem Glexon.modCore_staged (n : Nat) (f : Core → Core) : (g.modCore n f).staged = g.staged := rfl
@[simp] theorem Glexon.modCore_au (n : Nat) (f : Core → Core) : (g.modCore n f).au = g.au := rfl
@[simp] theorem Glexon.modCore_fl (n : Nat) (f : Core → Core) : (g.modCore n f).fl = g.fl := rfl
@[simp] theorem Glexon.modCore_es (n : Nat) (f : Core → Core) : (g.modCore n f).es = g.es := rfl
@[simp] theorem Glexon.modCore_ep (n : Nat) (f : Core → Core) : (g.modCore n f).ep = g.ep := rfl
@[simp] theorem Glexon.modCore_ts (n : Nat) (f : Core → Core) : (g.modCore n f).ts = g.ts := rfl
@[simp] theorem Glexon.modCore_rm (n : Nat) (f : Core → Core) : (g.modCore n f).rm = g.rm := rfl
@[simp] theorem Glexon.modCore_ce (n : Nat) (f : Core → Core) : (g.modCore n f).ce = g.ce := rfl
@[simp] theorem Glexon.modCore_ceTick (n : Nat) (f : Core → Core) : (g.modCore n f).ceTick = g.ceTick := rfl
@[simp] theorem Glexon.modCore_mg (n : Nat) (f : Core → Core) : (g.modCore n f).mg = g.mg := rfl
@[simp] theorem Glexon.modCore_ob (n : Nat) (f : Core → Core) : (g.modCore n f).ob = g.ob := rfl

@[simp] theorem Glexon.setPort_sysRstN (p : Nat) (t : TapPort) : (g.setPort p t).sysRstN = g.sysRstN := rfl
@[simp] theorem Glexon.setPort_corePwrOk (p : Nat) (t : TapPort) : (g.setPort p t).corePwrOk = g.corePwrOk := rfl
@[simp] theorem Glexon.setPort_mgRstN (p : Nat) (t : TapPort) : (g.setPort p t).mgRstN = g.mgRstN := rfl
@[simp] theorem Glexon.setPort_coreLost (p : Nat) (t : TapPort) : (g.setPort p t).coreLost = g.coreLost := rfl
@[simp] theorem Glexon.setPort_regs (p : Nat) (t : TapPort) : (g.setPort p t).regs = g.regs := rfl
@[simp] theorem Glexon.setPort_rwt (p : Nat) (t : TapPort) : (g.setPort p t).rwt = g.rwt := rfl
@[simp] theorem Glexon.setPort_mem (p : Nat) (t : TapPort) : (g.setPort p t).mem = g.mem := rfl
@[simp] theorem Glexon.setPort_poison (p : Nat) (t : TapPort) : (g.setPort p t).poison = g.poison := rfl
@[simp] theorem Glexon.setPort_eccCorr (p : Nat) (t : TapPort) : (g.setPort p t).eccCorr = g.eccCorr := rfl
@[simp] theorem Glexon.setPort_eccUncorr (p : Nat) (t : TapPort) : (g.setPort p t).eccUncorr = g.eccUncorr := rfl
@[simp] theorem Glexon.setPort_portLanes (p : Nat) (t : TapPort) : (g.setPort p t).portLanes = g.portLanes := rfl
@[simp] theorem Glexon.setPort_rdData (p : Nat) (t : TapPort) : (g.setPort p t).rdData = g.rdData := rfl
@[simp] theorem Glexon.setPort_tk (p : Nat) (t : TapPort) : (g.setPort p t).tk = g.tk := rfl
@[simp] theorem Glexon.setPort_probe (p : Nat) (t : TapPort) : (g.setPort p t).probe = g.probe := rfl
@[simp] theorem Glexon.setPort_probeTag (p : Nat) (t : TapPort) : (g.setPort p t).probeTag = g.probeTag := rfl
@[simp] theorem Glexon.setPort_events (p : Nat) (t : TapPort) : (g.setPort p t).events = g.events := rfl
@[simp] theorem Glexon.setPort_cores (p : Nat) (t : TapPort) : (g.setPort p t).cores = g.cores := rfl
@[simp] theorem Glexon.setPort_abortMask (p : Nat) (t : TapPort) : (g.setPort p t).abortMask = g.abortMask := rfl
@[simp] theorem Glexon.setPort_code (p : Nat) (t : TapPort) : (g.setPort p t).code = g.code := rfl
@[simp] theorem Glexon.setPort_image (p : Nat) (t : TapPort) : (g.setPort p t).image = g.image := rfl
@[simp] theorem Glexon.setPort_coreClk (p : Nat) (t : TapPort) : (g.setPort p t).coreClk = g.coreClk := rfl
@[simp] theorem Glexon.setPort_pulse (p : Nat) (t : TapPort) : (g.setPort p t).pulse = g.pulse := rfl
@[simp] theorem Glexon.setPort_freeN (p : Nat) (t : TapPort) : (g.setPort p t).freeN = g.freeN := rfl
@[simp] theorem Glexon.setPort_obs (p : Nat) (t : TapPort) : (g.setPort p t).obs = g.obs := rfl
@[simp] theorem Glexon.setPort_trc (p : Nat) (t : TapPort) : (g.setPort p t).trc = g.trc := rfl
@[simp] theorem Glexon.setPort_staged (p : Nat) (t : TapPort) : (g.setPort p t).staged = g.staged := rfl
@[simp] theorem Glexon.setPort_au (p : Nat) (t : TapPort) : (g.setPort p t).au = g.au := rfl
@[simp] theorem Glexon.setPort_fl (p : Nat) (t : TapPort) : (g.setPort p t).fl = g.fl := rfl
@[simp] theorem Glexon.setPort_es (p : Nat) (t : TapPort) : (g.setPort p t).es = g.es := rfl
@[simp] theorem Glexon.setPort_ep (p : Nat) (t : TapPort) : (g.setPort p t).ep = g.ep := rfl
@[simp] theorem Glexon.setPort_ts (p : Nat) (t : TapPort) : (g.setPort p t).ts = g.ts := rfl
@[simp] theorem Glexon.setPort_rm (p : Nat) (t : TapPort) : (g.setPort p t).rm = g.rm := rfl
@[simp] theorem Glexon.setPort_ce (p : Nat) (t : TapPort) : (g.setPort p t).ce = g.ce := rfl
@[simp] theorem Glexon.setPort_ceTick (p : Nat) (t : TapPort) : (g.setPort p t).ceTick = g.ceTick := rfl
@[simp] theorem Glexon.setPort_mg (p : Nat) (t : TapPort) : (g.setPort p t).mg = g.mg := rfl
@[simp] theorem Glexon.setPort_ob (p : Nat) (t : TapPort) : (g.setPort p t).ob = g.ob := rfl

@[simp] theorem Glexon.modPort_sysRstN (p : Nat) (f : TapPort → TapPort) : (g.modPort p f).sysRstN = g.sysRstN := rfl
@[simp] theorem Glexon.modPort_corePwrOk (p : Nat) (f : TapPort → TapPort) : (g.modPort p f).corePwrOk = g.corePwrOk := rfl
@[simp] theorem Glexon.modPort_mgRstN (p : Nat) (f : TapPort → TapPort) : (g.modPort p f).mgRstN = g.mgRstN := rfl
@[simp] theorem Glexon.modPort_coreLost (p : Nat) (f : TapPort → TapPort) : (g.modPort p f).coreLost = g.coreLost := rfl
@[simp] theorem Glexon.modPort_regs (p : Nat) (f : TapPort → TapPort) : (g.modPort p f).regs = g.regs := rfl
@[simp] theorem Glexon.modPort_rwt (p : Nat) (f : TapPort → TapPort) : (g.modPort p f).rwt = g.rwt := rfl
@[simp] theorem Glexon.modPort_mem (p : Nat) (f : TapPort → TapPort) : (g.modPort p f).mem = g.mem := rfl
@[simp] theorem Glexon.modPort_poison (p : Nat) (f : TapPort → TapPort) : (g.modPort p f).poison = g.poison := rfl
@[simp] theorem Glexon.modPort_eccCorr (p : Nat) (f : TapPort → TapPort) : (g.modPort p f).eccCorr = g.eccCorr := rfl
@[simp] theorem Glexon.modPort_eccUncorr (p : Nat) (f : TapPort → TapPort) : (g.modPort p f).eccUncorr = g.eccUncorr := rfl
@[simp] theorem Glexon.modPort_portLanes (p : Nat) (f : TapPort → TapPort) : (g.modPort p f).portLanes = g.portLanes := rfl
@[simp] theorem Glexon.modPort_rdData (p : Nat) (f : TapPort → TapPort) : (g.modPort p f).rdData = g.rdData := rfl
@[simp] theorem Glexon.modPort_tk (p : Nat) (f : TapPort → TapPort) : (g.modPort p f).tk = g.tk := rfl
@[simp] theorem Glexon.modPort_probe (p : Nat) (f : TapPort → TapPort) : (g.modPort p f).probe = g.probe := rfl
@[simp] theorem Glexon.modPort_probeTag (p : Nat) (f : TapPort → TapPort) : (g.modPort p f).probeTag = g.probeTag := rfl
@[simp] theorem Glexon.modPort_events (p : Nat) (f : TapPort → TapPort) : (g.modPort p f).events = g.events := rfl
@[simp] theorem Glexon.modPort_cores (p : Nat) (f : TapPort → TapPort) : (g.modPort p f).cores = g.cores := rfl
@[simp] theorem Glexon.modPort_abortMask (p : Nat) (f : TapPort → TapPort) : (g.modPort p f).abortMask = g.abortMask := rfl
@[simp] theorem Glexon.modPort_code (p : Nat) (f : TapPort → TapPort) : (g.modPort p f).code = g.code := rfl
@[simp] theorem Glexon.modPort_image (p : Nat) (f : TapPort → TapPort) : (g.modPort p f).image = g.image := rfl
@[simp] theorem Glexon.modPort_coreClk (p : Nat) (f : TapPort → TapPort) : (g.modPort p f).coreClk = g.coreClk := rfl
@[simp] theorem Glexon.modPort_pulse (p : Nat) (f : TapPort → TapPort) : (g.modPort p f).pulse = g.pulse := rfl
@[simp] theorem Glexon.modPort_freeN (p : Nat) (f : TapPort → TapPort) : (g.modPort p f).freeN = g.freeN := rfl
@[simp] theorem Glexon.modPort_obs (p : Nat) (f : TapPort → TapPort) : (g.modPort p f).obs = g.obs := rfl
@[simp] theorem Glexon.modPort_trc (p : Nat) (f : TapPort → TapPort) : (g.modPort p f).trc = g.trc := rfl
@[simp] theorem Glexon.modPort_staged (p : Nat) (f : TapPort → TapPort) : (g.modPort p f).staged = g.staged := rfl
@[simp] theorem Glexon.modPort_au (p : Nat) (f : TapPort → TapPort) : (g.modPort p f).au = g.au := rfl
@[simp] theorem Glexon.modPort_fl (p : Nat) (f : TapPort → TapPort) : (g.modPort p f).fl = g.fl := rfl
@[simp] theorem Glexon.modPort_es (p : Nat) (f : TapPort → TapPort) : (g.modPort p f).es = g.es := rfl
@[simp] theorem Glexon.modPort_ep (p : Nat) (f : TapPort → TapPort) : (g.modPort p f).ep = g.ep := rfl
@[simp] theorem Glexon.modPort_ts (p : Nat) (f : TapPort → TapPort) : (g.modPort p f).ts = g.ts := rfl
@[simp] theorem Glexon.modPort_rm (p : Nat) (f : TapPort → TapPort) : (g.modPort p f).rm = g.rm := rfl
@[simp] theorem Glexon.modPort_ce (p : Nat) (f : TapPort → TapPort) : (g.modPort p f).ce = g.ce := rfl
@[simp] theorem Glexon.modPort_ceTick (p : Nat) (f : TapPort → TapPort) : (g.modPort p f).ceTick = g.ceTick := rfl
@[simp] theorem Glexon.modPort_mg (p : Nat) (f : TapPort → TapPort) : (g.modPort p f).mg = g.mg := rfl
@[simp] theorem Glexon.modPort_ob (p : Nat) (f : TapPort → TapPort) : (g.modPort p f).ob = g.ob := rfl

@[simp] theorem Glexon.setSrc_sysRstN (a : Nat) (t : TrcSrc) : (g.setSrc a t).sysRstN = g.sysRstN := rfl
@[simp] theorem Glexon.setSrc_corePwrOk (a : Nat) (t : TrcSrc) : (g.setSrc a t).corePwrOk = g.corePwrOk := rfl
@[simp] theorem Glexon.setSrc_mgRstN (a : Nat) (t : TrcSrc) : (g.setSrc a t).mgRstN = g.mgRstN := rfl
@[simp] theorem Glexon.setSrc_coreLost (a : Nat) (t : TrcSrc) : (g.setSrc a t).coreLost = g.coreLost := rfl
@[simp] theorem Glexon.setSrc_regs (a : Nat) (t : TrcSrc) : (g.setSrc a t).regs = g.regs := rfl
@[simp] theorem Glexon.setSrc_rwt (a : Nat) (t : TrcSrc) : (g.setSrc a t).rwt = g.rwt := rfl
@[simp] theorem Glexon.setSrc_mem (a : Nat) (t : TrcSrc) : (g.setSrc a t).mem = g.mem := rfl
@[simp] theorem Glexon.setSrc_poison (a : Nat) (t : TrcSrc) : (g.setSrc a t).poison = g.poison := rfl
@[simp] theorem Glexon.setSrc_eccCorr (a : Nat) (t : TrcSrc) : (g.setSrc a t).eccCorr = g.eccCorr := rfl
@[simp] theorem Glexon.setSrc_eccUncorr (a : Nat) (t : TrcSrc) : (g.setSrc a t).eccUncorr = g.eccUncorr := rfl
@[simp] theorem Glexon.setSrc_portLanes (a : Nat) (t : TrcSrc) : (g.setSrc a t).portLanes = g.portLanes := rfl
@[simp] theorem Glexon.setSrc_rdData (a : Nat) (t : TrcSrc) : (g.setSrc a t).rdData = g.rdData := rfl
@[simp] theorem Glexon.setSrc_tk (a : Nat) (t : TrcSrc) : (g.setSrc a t).tk = g.tk := rfl
@[simp] theorem Glexon.setSrc_ports (a : Nat) (t : TrcSrc) : (g.setSrc a t).ports = g.ports := rfl
@[simp] theorem Glexon.setSrc_probe (a : Nat) (t : TrcSrc) : (g.setSrc a t).probe = g.probe := rfl
@[simp] theorem Glexon.setSrc_probeTag (a : Nat) (t : TrcSrc) : (g.setSrc a t).probeTag = g.probeTag := rfl
@[simp] theorem Glexon.setSrc_events (a : Nat) (t : TrcSrc) : (g.setSrc a t).events = g.events := rfl
@[simp] theorem Glexon.setSrc_cores (a : Nat) (t : TrcSrc) : (g.setSrc a t).cores = g.cores := rfl
@[simp] theorem Glexon.setSrc_abortMask (a : Nat) (t : TrcSrc) : (g.setSrc a t).abortMask = g.abortMask := rfl
@[simp] theorem Glexon.setSrc_code (a : Nat) (t : TrcSrc) : (g.setSrc a t).code = g.code := rfl
@[simp] theorem Glexon.setSrc_image (a : Nat) (t : TrcSrc) : (g.setSrc a t).image = g.image := rfl
@[simp] theorem Glexon.setSrc_coreClk (a : Nat) (t : TrcSrc) : (g.setSrc a t).coreClk = g.coreClk := rfl
@[simp] theorem Glexon.setSrc_pulse (a : Nat) (t : TrcSrc) : (g.setSrc a t).pulse = g.pulse := rfl
@[simp] theorem Glexon.setSrc_freeN (a : Nat) (t : TrcSrc) : (g.setSrc a t).freeN = g.freeN := rfl
@[simp] theorem Glexon.setSrc_obs (a : Nat) (t : TrcSrc) : (g.setSrc a t).obs = g.obs := rfl
@[simp] theorem Glexon.setSrc_staged (a : Nat) (t : TrcSrc) : (g.setSrc a t).staged = g.staged := rfl
@[simp] theorem Glexon.setSrc_au (a : Nat) (t : TrcSrc) : (g.setSrc a t).au = g.au := rfl
@[simp] theorem Glexon.setSrc_fl (a : Nat) (t : TrcSrc) : (g.setSrc a t).fl = g.fl := rfl
@[simp] theorem Glexon.setSrc_es (a : Nat) (t : TrcSrc) : (g.setSrc a t).es = g.es := rfl
@[simp] theorem Glexon.setSrc_ep (a : Nat) (t : TrcSrc) : (g.setSrc a t).ep = g.ep := rfl
@[simp] theorem Glexon.setSrc_ts (a : Nat) (t : TrcSrc) : (g.setSrc a t).ts = g.ts := rfl
@[simp] theorem Glexon.setSrc_rm (a : Nat) (t : TrcSrc) : (g.setSrc a t).rm = g.rm := rfl
@[simp] theorem Glexon.setSrc_ce (a : Nat) (t : TrcSrc) : (g.setSrc a t).ce = g.ce := rfl
@[simp] theorem Glexon.setSrc_ceTick (a : Nat) (t : TrcSrc) : (g.setSrc a t).ceTick = g.ceTick := rfl
@[simp] theorem Glexon.setSrc_mg (a : Nat) (t : TrcSrc) : (g.setSrc a t).mg = g.mg := rfl
@[simp] theorem Glexon.setSrc_ob (a : Nat) (t : TrcSrc) : (g.setSrc a t).ob = g.ob := rfl

@[simp] theorem Glexon.modQp_sysRstN (q : Nat) (f : Qp → Qp) : (g.modQp q f).sysRstN = g.sysRstN := rfl
@[simp] theorem Glexon.modQp_corePwrOk (q : Nat) (f : Qp → Qp) : (g.modQp q f).corePwrOk = g.corePwrOk := rfl
@[simp] theorem Glexon.modQp_mgRstN (q : Nat) (f : Qp → Qp) : (g.modQp q f).mgRstN = g.mgRstN := rfl
@[simp] theorem Glexon.modQp_coreLost (q : Nat) (f : Qp → Qp) : (g.modQp q f).coreLost = g.coreLost := rfl
@[simp] theorem Glexon.modQp_regs (q : Nat) (f : Qp → Qp) : (g.modQp q f).regs = g.regs := rfl
@[simp] theorem Glexon.modQp_rwt (q : Nat) (f : Qp → Qp) : (g.modQp q f).rwt = g.rwt := rfl
@[simp] theorem Glexon.modQp_mem (q : Nat) (f : Qp → Qp) : (g.modQp q f).mem = g.mem := rfl
@[simp] theorem Glexon.modQp_poison (q : Nat) (f : Qp → Qp) : (g.modQp q f).poison = g.poison := rfl
@[simp] theorem Glexon.modQp_eccCorr (q : Nat) (f : Qp → Qp) : (g.modQp q f).eccCorr = g.eccCorr := rfl
@[simp] theorem Glexon.modQp_eccUncorr (q : Nat) (f : Qp → Qp) : (g.modQp q f).eccUncorr = g.eccUncorr := rfl
@[simp] theorem Glexon.modQp_portLanes (q : Nat) (f : Qp → Qp) : (g.modQp q f).portLanes = g.portLanes := rfl
@[simp] theorem Glexon.modQp_rdData (q : Nat) (f : Qp → Qp) : (g.modQp q f).rdData = g.rdData := rfl
@[simp] theorem Glexon.modQp_tk (q : Nat) (f : Qp → Qp) : (g.modQp q f).tk = g.tk := rfl
@[simp] theorem Glexon.modQp_ports (q : Nat) (f : Qp → Qp) : (g.modQp q f).ports = g.ports := rfl
@[simp] theorem Glexon.modQp_probe (q : Nat) (f : Qp → Qp) : (g.modQp q f).probe = g.probe := rfl
@[simp] theorem Glexon.modQp_probeTag (q : Nat) (f : Qp → Qp) : (g.modQp q f).probeTag = g.probeTag := rfl
@[simp] theorem Glexon.modQp_events (q : Nat) (f : Qp → Qp) : (g.modQp q f).events = g.events := rfl
@[simp] theorem Glexon.modQp_cores (q : Nat) (f : Qp → Qp) : (g.modQp q f).cores = g.cores := rfl
@[simp] theorem Glexon.modQp_abortMask (q : Nat) (f : Qp → Qp) : (g.modQp q f).abortMask = g.abortMask := rfl
@[simp] theorem Glexon.modQp_code (q : Nat) (f : Qp → Qp) : (g.modQp q f).code = g.code := rfl
@[simp] theorem Glexon.modQp_image (q : Nat) (f : Qp → Qp) : (g.modQp q f).image = g.image := rfl
@[simp] theorem Glexon.modQp_coreClk (q : Nat) (f : Qp → Qp) : (g.modQp q f).coreClk = g.coreClk := rfl
@[simp] theorem Glexon.modQp_pulse (q : Nat) (f : Qp → Qp) : (g.modQp q f).pulse = g.pulse := rfl
@[simp] theorem Glexon.modQp_freeN (q : Nat) (f : Qp → Qp) : (g.modQp q f).freeN = g.freeN := rfl
@[simp] theorem Glexon.modQp_obs (q : Nat) (f : Qp → Qp) : (g.modQp q f).obs = g.obs := rfl
@[simp] theorem Glexon.modQp_trc (q : Nat) (f : Qp → Qp) : (g.modQp q f).trc = g.trc := rfl
@[simp] theorem Glexon.modQp_staged (q : Nat) (f : Qp → Qp) : (g.modQp q f).staged = g.staged := rfl
@[simp] theorem Glexon.modQp_au (q : Nat) (f : Qp → Qp) : (g.modQp q f).au = g.au := rfl
@[simp] theorem Glexon.modQp_fl (q : Nat) (f : Qp → Qp) : (g.modQp q f).fl = g.fl := rfl
@[simp] theorem Glexon.modQp_es (q : Nat) (f : Qp → Qp) : (g.modQp q f).es = g.es := rfl
@[simp] theorem Glexon.modQp_ep (q : Nat) (f : Qp → Qp) : (g.modQp q f).ep = g.ep := rfl
@[simp] theorem Glexon.modQp_ts (q : Nat) (f : Qp → Qp) : (g.modQp q f).ts = g.ts := rfl
@[simp] theorem Glexon.modQp_ce (q : Nat) (f : Qp → Qp) : (g.modQp q f).ce = g.ce := rfl
@[simp] theorem Glexon.modQp_ceTick (q : Nat) (f : Qp → Qp) : (g.modQp q f).ceTick = g.ceTick := rfl
@[simp] theorem Glexon.modQp_mg (q : Nat) (f : Qp → Qp) : (g.modQp q f).mg = g.mg := rfl
@[simp] theorem Glexon.modQp_ob (q : Nat) (f : Qp → Qp) : (g.modQp q f).ob = g.ob := rfl

@[simp] theorem Glexon.modRole_sysRstN (k : Nat) (f : RoleTick → RoleTick) : (g.modRole k f).sysRstN = g.sysRstN := rfl
@[simp] theorem Glexon.modRole_corePwrOk (k : Nat) (f : RoleTick → RoleTick) : (g.modRole k f).corePwrOk = g.corePwrOk := rfl
@[simp] theorem Glexon.modRole_mgRstN (k : Nat) (f : RoleTick → RoleTick) : (g.modRole k f).mgRstN = g.mgRstN := rfl
@[simp] theorem Glexon.modRole_coreLost (k : Nat) (f : RoleTick → RoleTick) : (g.modRole k f).coreLost = g.coreLost := rfl
@[simp] theorem Glexon.modRole_regs (k : Nat) (f : RoleTick → RoleTick) : (g.modRole k f).regs = g.regs := rfl
@[simp] theorem Glexon.modRole_rwt (k : Nat) (f : RoleTick → RoleTick) : (g.modRole k f).rwt = g.rwt := rfl
@[simp] theorem Glexon.modRole_mem (k : Nat) (f : RoleTick → RoleTick) : (g.modRole k f).mem = g.mem := rfl
@[simp] theorem Glexon.modRole_poison (k : Nat) (f : RoleTick → RoleTick) : (g.modRole k f).poison = g.poison := rfl
@[simp] theorem Glexon.modRole_eccCorr (k : Nat) (f : RoleTick → RoleTick) : (g.modRole k f).eccCorr = g.eccCorr := rfl
@[simp] theorem Glexon.modRole_eccUncorr (k : Nat) (f : RoleTick → RoleTick) : (g.modRole k f).eccUncorr = g.eccUncorr := rfl
@[simp] theorem Glexon.modRole_portLanes (k : Nat) (f : RoleTick → RoleTick) : (g.modRole k f).portLanes = g.portLanes := rfl
@[simp] theorem Glexon.modRole_rdData (k : Nat) (f : RoleTick → RoleTick) : (g.modRole k f).rdData = g.rdData := rfl
@[simp] theorem Glexon.modRole_tk (k : Nat) (f : RoleTick → RoleTick) : (g.modRole k f).tk = g.tk := rfl
@[simp] theorem Glexon.modRole_ports (k : Nat) (f : RoleTick → RoleTick) : (g.modRole k f).ports = g.ports := rfl
@[simp] theorem Glexon.modRole_probe (k : Nat) (f : RoleTick → RoleTick) : (g.modRole k f).probe = g.probe := rfl
@[simp] theorem Glexon.modRole_probeTag (k : Nat) (f : RoleTick → RoleTick) : (g.modRole k f).probeTag = g.probeTag := rfl
@[simp] theorem Glexon.modRole_events (k : Nat) (f : RoleTick → RoleTick) : (g.modRole k f).events = g.events := rfl
@[simp] theorem Glexon.modRole_cores (k : Nat) (f : RoleTick → RoleTick) : (g.modRole k f).cores = g.cores := rfl
@[simp] theorem Glexon.modRole_abortMask (k : Nat) (f : RoleTick → RoleTick) : (g.modRole k f).abortMask = g.abortMask := rfl
@[simp] theorem Glexon.modRole_code (k : Nat) (f : RoleTick → RoleTick) : (g.modRole k f).code = g.code := rfl
@[simp] theorem Glexon.modRole_image (k : Nat) (f : RoleTick → RoleTick) : (g.modRole k f).image = g.image := rfl
@[simp] theorem Glexon.modRole_coreClk (k : Nat) (f : RoleTick → RoleTick) : (g.modRole k f).coreClk = g.coreClk := rfl
@[simp] theorem Glexon.modRole_pulse (k : Nat) (f : RoleTick → RoleTick) : (g.modRole k f).pulse = g.pulse := rfl
@[simp] theorem Glexon.modRole_freeN (k : Nat) (f : RoleTick → RoleTick) : (g.modRole k f).freeN = g.freeN := rfl
@[simp] theorem Glexon.modRole_obs (k : Nat) (f : RoleTick → RoleTick) : (g.modRole k f).obs = g.obs := rfl
@[simp] theorem Glexon.modRole_trc (k : Nat) (f : RoleTick → RoleTick) : (g.modRole k f).trc = g.trc := rfl
@[simp] theorem Glexon.modRole_staged (k : Nat) (f : RoleTick → RoleTick) : (g.modRole k f).staged = g.staged := rfl
@[simp] theorem Glexon.modRole_au (k : Nat) (f : RoleTick → RoleTick) : (g.modRole k f).au = g.au := rfl
@[simp] theorem Glexon.modRole_es (k : Nat) (f : RoleTick → RoleTick) : (g.modRole k f).es = g.es := rfl
@[simp] theorem Glexon.modRole_ep (k : Nat) (f : RoleTick → RoleTick) : (g.modRole k f).ep = g.ep := rfl
@[simp] theorem Glexon.modRole_ts (k : Nat) (f : RoleTick → RoleTick) : (g.modRole k f).ts = g.ts := rfl
@[simp] theorem Glexon.modRole_rm (k : Nat) (f : RoleTick → RoleTick) : (g.modRole k f).rm = g.rm := rfl
@[simp] theorem Glexon.modRole_ce (k : Nat) (f : RoleTick → RoleTick) : (g.modRole k f).ce = g.ce := rfl
@[simp] theorem Glexon.modRole_ceTick (k : Nat) (f : RoleTick → RoleTick) : (g.modRole k f).ceTick = g.ceTick := rfl
@[simp] theorem Glexon.modRole_mg (k : Nat) (f : RoleTick → RoleTick) : (g.modRole k f).mg = g.mg := rfl
@[simp] theorem Glexon.modRole_ob (k : Nat) (f : RoleTick → RoleTick) : (g.modRole k f).ob = g.ob := rfl

@[simp] theorem Glexon.modFl_sysRstN (f : Fleet → Fleet) : (g.modFl f).sysRstN = g.sysRstN := rfl
@[simp] theorem Glexon.modFl_corePwrOk (f : Fleet → Fleet) : (g.modFl f).corePwrOk = g.corePwrOk := rfl
@[simp] theorem Glexon.modFl_mgRstN (f : Fleet → Fleet) : (g.modFl f).mgRstN = g.mgRstN := rfl
@[simp] theorem Glexon.modFl_coreLost (f : Fleet → Fleet) : (g.modFl f).coreLost = g.coreLost := rfl
@[simp] theorem Glexon.modFl_regs (f : Fleet → Fleet) : (g.modFl f).regs = g.regs := rfl
@[simp] theorem Glexon.modFl_rwt (f : Fleet → Fleet) : (g.modFl f).rwt = g.rwt := rfl
@[simp] theorem Glexon.modFl_mem (f : Fleet → Fleet) : (g.modFl f).mem = g.mem := rfl
@[simp] theorem Glexon.modFl_poison (f : Fleet → Fleet) : (g.modFl f).poison = g.poison := rfl
@[simp] theorem Glexon.modFl_eccCorr (f : Fleet → Fleet) : (g.modFl f).eccCorr = g.eccCorr := rfl
@[simp] theorem Glexon.modFl_eccUncorr (f : Fleet → Fleet) : (g.modFl f).eccUncorr = g.eccUncorr := rfl
@[simp] theorem Glexon.modFl_portLanes (f : Fleet → Fleet) : (g.modFl f).portLanes = g.portLanes := rfl
@[simp] theorem Glexon.modFl_rdData (f : Fleet → Fleet) : (g.modFl f).rdData = g.rdData := rfl
@[simp] theorem Glexon.modFl_tk (f : Fleet → Fleet) : (g.modFl f).tk = g.tk := rfl
@[simp] theorem Glexon.modFl_ports (f : Fleet → Fleet) : (g.modFl f).ports = g.ports := rfl
@[simp] theorem Glexon.modFl_probe (f : Fleet → Fleet) : (g.modFl f).probe = g.probe := rfl
@[simp] theorem Glexon.modFl_probeTag (f : Fleet → Fleet) : (g.modFl f).probeTag = g.probeTag := rfl
@[simp] theorem Glexon.modFl_events (f : Fleet → Fleet) : (g.modFl f).events = g.events := rfl
@[simp] theorem Glexon.modFl_cores (f : Fleet → Fleet) : (g.modFl f).cores = g.cores := rfl
@[simp] theorem Glexon.modFl_abortMask (f : Fleet → Fleet) : (g.modFl f).abortMask = g.abortMask := rfl
@[simp] theorem Glexon.modFl_code (f : Fleet → Fleet) : (g.modFl f).code = g.code := rfl
@[simp] theorem Glexon.modFl_image (f : Fleet → Fleet) : (g.modFl f).image = g.image := rfl
@[simp] theorem Glexon.modFl_coreClk (f : Fleet → Fleet) : (g.modFl f).coreClk = g.coreClk := rfl
@[simp] theorem Glexon.modFl_pulse (f : Fleet → Fleet) : (g.modFl f).pulse = g.pulse := rfl
@[simp] theorem Glexon.modFl_freeN (f : Fleet → Fleet) : (g.modFl f).freeN = g.freeN := rfl
@[simp] theorem Glexon.modFl_obs (f : Fleet → Fleet) : (g.modFl f).obs = g.obs := rfl
@[simp] theorem Glexon.modFl_trc (f : Fleet → Fleet) : (g.modFl f).trc = g.trc := rfl
@[simp] theorem Glexon.modFl_staged (f : Fleet → Fleet) : (g.modFl f).staged = g.staged := rfl
@[simp] theorem Glexon.modFl_au (f : Fleet → Fleet) : (g.modFl f).au = g.au := rfl
@[simp] theorem Glexon.modFl_es (f : Fleet → Fleet) : (g.modFl f).es = g.es := rfl
@[simp] theorem Glexon.modFl_ep (f : Fleet → Fleet) : (g.modFl f).ep = g.ep := rfl
@[simp] theorem Glexon.modFl_ts (f : Fleet → Fleet) : (g.modFl f).ts = g.ts := rfl
@[simp] theorem Glexon.modFl_rm (f : Fleet → Fleet) : (g.modFl f).rm = g.rm := rfl
@[simp] theorem Glexon.modFl_ce (f : Fleet → Fleet) : (g.modFl f).ce = g.ce := rfl
@[simp] theorem Glexon.modFl_ceTick (f : Fleet → Fleet) : (g.modFl f).ceTick = g.ceTick := rfl
@[simp] theorem Glexon.modFl_mg (f : Fleet → Fleet) : (g.modFl f).mg = g.mg := rfl
@[simp] theorem Glexon.modFl_ob (f : Fleet → Fleet) : (g.modFl f).ob = g.ob := rfl

@[simp] theorem Glexon.modMg_sysRstN (f : Mgmt → Mgmt) : (g.modMg f).sysRstN = g.sysRstN := rfl
@[simp] theorem Glexon.modMg_corePwrOk (f : Mgmt → Mgmt) : (g.modMg f).corePwrOk = g.corePwrOk := rfl
@[simp] theorem Glexon.modMg_mgRstN (f : Mgmt → Mgmt) : (g.modMg f).mgRstN = g.mgRstN := rfl
@[simp] theorem Glexon.modMg_coreLost (f : Mgmt → Mgmt) : (g.modMg f).coreLost = g.coreLost := rfl
@[simp] theorem Glexon.modMg_regs (f : Mgmt → Mgmt) : (g.modMg f).regs = g.regs := rfl
@[simp] theorem Glexon.modMg_rwt (f : Mgmt → Mgmt) : (g.modMg f).rwt = g.rwt := rfl
@[simp] theorem Glexon.modMg_mem (f : Mgmt → Mgmt) : (g.modMg f).mem = g.mem := rfl
@[simp] theorem Glexon.modMg_poison (f : Mgmt → Mgmt) : (g.modMg f).poison = g.poison := rfl
@[simp] theorem Glexon.modMg_eccCorr (f : Mgmt → Mgmt) : (g.modMg f).eccCorr = g.eccCorr := rfl
@[simp] theorem Glexon.modMg_eccUncorr (f : Mgmt → Mgmt) : (g.modMg f).eccUncorr = g.eccUncorr := rfl
@[simp] theorem Glexon.modMg_portLanes (f : Mgmt → Mgmt) : (g.modMg f).portLanes = g.portLanes := rfl
@[simp] theorem Glexon.modMg_rdData (f : Mgmt → Mgmt) : (g.modMg f).rdData = g.rdData := rfl
@[simp] theorem Glexon.modMg_tk (f : Mgmt → Mgmt) : (g.modMg f).tk = g.tk := rfl
@[simp] theorem Glexon.modMg_ports (f : Mgmt → Mgmt) : (g.modMg f).ports = g.ports := rfl
@[simp] theorem Glexon.modMg_probe (f : Mgmt → Mgmt) : (g.modMg f).probe = g.probe := rfl
@[simp] theorem Glexon.modMg_probeTag (f : Mgmt → Mgmt) : (g.modMg f).probeTag = g.probeTag := rfl
@[simp] theorem Glexon.modMg_events (f : Mgmt → Mgmt) : (g.modMg f).events = g.events := rfl
@[simp] theorem Glexon.modMg_cores (f : Mgmt → Mgmt) : (g.modMg f).cores = g.cores := rfl
@[simp] theorem Glexon.modMg_abortMask (f : Mgmt → Mgmt) : (g.modMg f).abortMask = g.abortMask := rfl
@[simp] theorem Glexon.modMg_code (f : Mgmt → Mgmt) : (g.modMg f).code = g.code := rfl
@[simp] theorem Glexon.modMg_image (f : Mgmt → Mgmt) : (g.modMg f).image = g.image := rfl
@[simp] theorem Glexon.modMg_coreClk (f : Mgmt → Mgmt) : (g.modMg f).coreClk = g.coreClk := rfl
@[simp] theorem Glexon.modMg_pulse (f : Mgmt → Mgmt) : (g.modMg f).pulse = g.pulse := rfl
@[simp] theorem Glexon.modMg_freeN (f : Mgmt → Mgmt) : (g.modMg f).freeN = g.freeN := rfl
@[simp] theorem Glexon.modMg_obs (f : Mgmt → Mgmt) : (g.modMg f).obs = g.obs := rfl
@[simp] theorem Glexon.modMg_trc (f : Mgmt → Mgmt) : (g.modMg f).trc = g.trc := rfl
@[simp] theorem Glexon.modMg_staged (f : Mgmt → Mgmt) : (g.modMg f).staged = g.staged := rfl
@[simp] theorem Glexon.modMg_au (f : Mgmt → Mgmt) : (g.modMg f).au = g.au := rfl
@[simp] theorem Glexon.modMg_fl (f : Mgmt → Mgmt) : (g.modMg f).fl = g.fl := rfl
@[simp] theorem Glexon.modMg_es (f : Mgmt → Mgmt) : (g.modMg f).es = g.es := rfl
@[simp] theorem Glexon.modMg_ep (f : Mgmt → Mgmt) : (g.modMg f).ep = g.ep := rfl
@[simp] theorem Glexon.modMg_ts (f : Mgmt → Mgmt) : (g.modMg f).ts = g.ts := rfl
@[simp] theorem Glexon.modMg_rm (f : Mgmt → Mgmt) : (g.modMg f).rm = g.rm := rfl
@[simp] theorem Glexon.modMg_ce (f : Mgmt → Mgmt) : (g.modMg f).ce = g.ce := rfl
@[simp] theorem Glexon.modMg_ceTick (f : Mgmt → Mgmt) : (g.modMg f).ceTick = g.ceTick := rfl
@[simp] theorem Glexon.modMg_ob (f : Mgmt → Mgmt) : (g.modMg f).ob = g.ob := rfl

@[simp] theorem Glexon.modEs_sysRstN (f : Scoring → Scoring) : (g.modEs f).sysRstN = g.sysRstN := rfl
@[simp] theorem Glexon.modEs_corePwrOk (f : Scoring → Scoring) : (g.modEs f).corePwrOk = g.corePwrOk := rfl
@[simp] theorem Glexon.modEs_mgRstN (f : Scoring → Scoring) : (g.modEs f).mgRstN = g.mgRstN := rfl
@[simp] theorem Glexon.modEs_coreLost (f : Scoring → Scoring) : (g.modEs f).coreLost = g.coreLost := rfl
@[simp] theorem Glexon.modEs_regs (f : Scoring → Scoring) : (g.modEs f).regs = g.regs := rfl
@[simp] theorem Glexon.modEs_rwt (f : Scoring → Scoring) : (g.modEs f).rwt = g.rwt := rfl
@[simp] theorem Glexon.modEs_mem (f : Scoring → Scoring) : (g.modEs f).mem = g.mem := rfl
@[simp] theorem Glexon.modEs_poison (f : Scoring → Scoring) : (g.modEs f).poison = g.poison := rfl
@[simp] theorem Glexon.modEs_eccCorr (f : Scoring → Scoring) : (g.modEs f).eccCorr = g.eccCorr := rfl
@[simp] theorem Glexon.modEs_eccUncorr (f : Scoring → Scoring) : (g.modEs f).eccUncorr = g.eccUncorr := rfl
@[simp] theorem Glexon.modEs_portLanes (f : Scoring → Scoring) : (g.modEs f).portLanes = g.portLanes := rfl
@[simp] theorem Glexon.modEs_rdData (f : Scoring → Scoring) : (g.modEs f).rdData = g.rdData := rfl
@[simp] theorem Glexon.modEs_tk (f : Scoring → Scoring) : (g.modEs f).tk = g.tk := rfl
@[simp] theorem Glexon.modEs_ports (f : Scoring → Scoring) : (g.modEs f).ports = g.ports := rfl
@[simp] theorem Glexon.modEs_probe (f : Scoring → Scoring) : (g.modEs f).probe = g.probe := rfl
@[simp] theorem Glexon.modEs_probeTag (f : Scoring → Scoring) : (g.modEs f).probeTag = g.probeTag := rfl
@[simp] theorem Glexon.modEs_events (f : Scoring → Scoring) : (g.modEs f).events = g.events := rfl
@[simp] theorem Glexon.modEs_cores (f : Scoring → Scoring) : (g.modEs f).cores = g.cores := rfl
@[simp] theorem Glexon.modEs_abortMask (f : Scoring → Scoring) : (g.modEs f).abortMask = g.abortMask := rfl
@[simp] theorem Glexon.modEs_code (f : Scoring → Scoring) : (g.modEs f).code = g.code := rfl
@[simp] theorem Glexon.modEs_image (f : Scoring → Scoring) : (g.modEs f).image = g.image := rfl
@[simp] theorem Glexon.modEs_coreClk (f : Scoring → Scoring) : (g.modEs f).coreClk = g.coreClk := rfl
@[simp] theorem Glexon.modEs_pulse (f : Scoring → Scoring) : (g.modEs f).pulse = g.pulse := rfl
@[simp] theorem Glexon.modEs_freeN (f : Scoring → Scoring) : (g.modEs f).freeN = g.freeN := rfl
@[simp] theorem Glexon.modEs_obs (f : Scoring → Scoring) : (g.modEs f).obs = g.obs := rfl
@[simp] theorem Glexon.modEs_trc (f : Scoring → Scoring) : (g.modEs f).trc = g.trc := rfl
@[simp] theorem Glexon.modEs_staged (f : Scoring → Scoring) : (g.modEs f).staged = g.staged := rfl
@[simp] theorem Glexon.modEs_au (f : Scoring → Scoring) : (g.modEs f).au = g.au := rfl
@[simp] theorem Glexon.modEs_fl (f : Scoring → Scoring) : (g.modEs f).fl = g.fl := rfl
@[simp] theorem Glexon.modEs_ep (f : Scoring → Scoring) : (g.modEs f).ep = g.ep := rfl
@[simp] theorem Glexon.modEs_ts (f : Scoring → Scoring) : (g.modEs f).ts = g.ts := rfl
@[simp] theorem Glexon.modEs_rm (f : Scoring → Scoring) : (g.modEs f).rm = g.rm := rfl
@[simp] theorem Glexon.modEs_ce (f : Scoring → Scoring) : (g.modEs f).ce = g.ce := rfl
@[simp] theorem Glexon.modEs_ceTick (f : Scoring → Scoring) : (g.modEs f).ceTick = g.ceTick := rfl
@[simp] theorem Glexon.modEs_mg (f : Scoring → Scoring) : (g.modEs f).mg = g.mg := rfl
@[simp] theorem Glexon.modEs_ob (f : Scoring → Scoring) : (g.modEs f).ob = g.ob := rfl

@[simp] theorem Glexon.modEp_sysRstN (f : Planner → Planner) : (g.modEp f).sysRstN = g.sysRstN := rfl
@[simp] theorem Glexon.modEp_corePwrOk (f : Planner → Planner) : (g.modEp f).corePwrOk = g.corePwrOk := rfl
@[simp] theorem Glexon.modEp_mgRstN (f : Planner → Planner) : (g.modEp f).mgRstN = g.mgRstN := rfl
@[simp] theorem Glexon.modEp_coreLost (f : Planner → Planner) : (g.modEp f).coreLost = g.coreLost := rfl
@[simp] theorem Glexon.modEp_regs (f : Planner → Planner) : (g.modEp f).regs = g.regs := rfl
@[simp] theorem Glexon.modEp_rwt (f : Planner → Planner) : (g.modEp f).rwt = g.rwt := rfl
@[simp] theorem Glexon.modEp_mem (f : Planner → Planner) : (g.modEp f).mem = g.mem := rfl
@[simp] theorem Glexon.modEp_poison (f : Planner → Planner) : (g.modEp f).poison = g.poison := rfl
@[simp] theorem Glexon.modEp_eccCorr (f : Planner → Planner) : (g.modEp f).eccCorr = g.eccCorr := rfl
@[simp] theorem Glexon.modEp_eccUncorr (f : Planner → Planner) : (g.modEp f).eccUncorr = g.eccUncorr := rfl
@[simp] theorem Glexon.modEp_portLanes (f : Planner → Planner) : (g.modEp f).portLanes = g.portLanes := rfl
@[simp] theorem Glexon.modEp_rdData (f : Planner → Planner) : (g.modEp f).rdData = g.rdData := rfl
@[simp] theorem Glexon.modEp_tk (f : Planner → Planner) : (g.modEp f).tk = g.tk := rfl
@[simp] theorem Glexon.modEp_ports (f : Planner → Planner) : (g.modEp f).ports = g.ports := rfl
@[simp] theorem Glexon.modEp_probe (f : Planner → Planner) : (g.modEp f).probe = g.probe := rfl
@[simp] theorem Glexon.modEp_probeTag (f : Planner → Planner) : (g.modEp f).probeTag = g.probeTag := rfl
@[simp] theorem Glexon.modEp_events (f : Planner → Planner) : (g.modEp f).events = g.events := rfl
@[simp] theorem Glexon.modEp_cores (f : Planner → Planner) : (g.modEp f).cores = g.cores := rfl
@[simp] theorem Glexon.modEp_abortMask (f : Planner → Planner) : (g.modEp f).abortMask = g.abortMask := rfl
@[simp] theorem Glexon.modEp_code (f : Planner → Planner) : (g.modEp f).code = g.code := rfl
@[simp] theorem Glexon.modEp_image (f : Planner → Planner) : (g.modEp f).image = g.image := rfl
@[simp] theorem Glexon.modEp_coreClk (f : Planner → Planner) : (g.modEp f).coreClk = g.coreClk := rfl
@[simp] theorem Glexon.modEp_pulse (f : Planner → Planner) : (g.modEp f).pulse = g.pulse := rfl
@[simp] theorem Glexon.modEp_freeN (f : Planner → Planner) : (g.modEp f).freeN = g.freeN := rfl
@[simp] theorem Glexon.modEp_obs (f : Planner → Planner) : (g.modEp f).obs = g.obs := rfl
@[simp] theorem Glexon.modEp_trc (f : Planner → Planner) : (g.modEp f).trc = g.trc := rfl
@[simp] theorem Glexon.modEp_staged (f : Planner → Planner) : (g.modEp f).staged = g.staged := rfl
@[simp] theorem Glexon.modEp_au (f : Planner → Planner) : (g.modEp f).au = g.au := rfl
@[simp] theorem Glexon.modEp_fl (f : Planner → Planner) : (g.modEp f).fl = g.fl := rfl
@[simp] theorem Glexon.modEp_es (f : Planner → Planner) : (g.modEp f).es = g.es := rfl
@[simp] theorem Glexon.modEp_ts (f : Planner → Planner) : (g.modEp f).ts = g.ts := rfl
@[simp] theorem Glexon.modEp_rm (f : Planner → Planner) : (g.modEp f).rm = g.rm := rfl
@[simp] theorem Glexon.modEp_ce (f : Planner → Planner) : (g.modEp f).ce = g.ce := rfl
@[simp] theorem Glexon.modEp_ceTick (f : Planner → Planner) : (g.modEp f).ceTick = g.ceTick := rfl
@[simp] theorem Glexon.modEp_mg (f : Planner → Planner) : (g.modEp f).mg = g.mg := rfl
@[simp] theorem Glexon.modEp_ob (f : Planner → Planner) : (g.modEp f).ob = g.ob := rfl

@[simp] theorem Glexon.modAu_sysRstN (f : Audit → Audit) : (g.modAu f).sysRstN = g.sysRstN := rfl
@[simp] theorem Glexon.modAu_corePwrOk (f : Audit → Audit) : (g.modAu f).corePwrOk = g.corePwrOk := rfl
@[simp] theorem Glexon.modAu_mgRstN (f : Audit → Audit) : (g.modAu f).mgRstN = g.mgRstN := rfl
@[simp] theorem Glexon.modAu_coreLost (f : Audit → Audit) : (g.modAu f).coreLost = g.coreLost := rfl
@[simp] theorem Glexon.modAu_regs (f : Audit → Audit) : (g.modAu f).regs = g.regs := rfl
@[simp] theorem Glexon.modAu_rwt (f : Audit → Audit) : (g.modAu f).rwt = g.rwt := rfl
@[simp] theorem Glexon.modAu_mem (f : Audit → Audit) : (g.modAu f).mem = g.mem := rfl
@[simp] theorem Glexon.modAu_poison (f : Audit → Audit) : (g.modAu f).poison = g.poison := rfl
@[simp] theorem Glexon.modAu_eccCorr (f : Audit → Audit) : (g.modAu f).eccCorr = g.eccCorr := rfl
@[simp] theorem Glexon.modAu_eccUncorr (f : Audit → Audit) : (g.modAu f).eccUncorr = g.eccUncorr := rfl
@[simp] theorem Glexon.modAu_portLanes (f : Audit → Audit) : (g.modAu f).portLanes = g.portLanes := rfl
@[simp] theorem Glexon.modAu_rdData (f : Audit → Audit) : (g.modAu f).rdData = g.rdData := rfl
@[simp] theorem Glexon.modAu_tk (f : Audit → Audit) : (g.modAu f).tk = g.tk := rfl
@[simp] theorem Glexon.modAu_ports (f : Audit → Audit) : (g.modAu f).ports = g.ports := rfl
@[simp] theorem Glexon.modAu_probe (f : Audit → Audit) : (g.modAu f).probe = g.probe := rfl
@[simp] theorem Glexon.modAu_probeTag (f : Audit → Audit) : (g.modAu f).probeTag = g.probeTag := rfl
@[simp] theorem Glexon.modAu_events (f : Audit → Audit) : (g.modAu f).events = g.events := rfl
@[simp] theorem Glexon.modAu_cores (f : Audit → Audit) : (g.modAu f).cores = g.cores := rfl
@[simp] theorem Glexon.modAu_abortMask (f : Audit → Audit) : (g.modAu f).abortMask = g.abortMask := rfl
@[simp] theorem Glexon.modAu_code (f : Audit → Audit) : (g.modAu f).code = g.code := rfl
@[simp] theorem Glexon.modAu_image (f : Audit → Audit) : (g.modAu f).image = g.image := rfl
@[simp] theorem Glexon.modAu_coreClk (f : Audit → Audit) : (g.modAu f).coreClk = g.coreClk := rfl
@[simp] theorem Glexon.modAu_pulse (f : Audit → Audit) : (g.modAu f).pulse = g.pulse := rfl
@[simp] theorem Glexon.modAu_freeN (f : Audit → Audit) : (g.modAu f).freeN = g.freeN := rfl
@[simp] theorem Glexon.modAu_obs (f : Audit → Audit) : (g.modAu f).obs = g.obs := rfl
@[simp] theorem Glexon.modAu_trc (f : Audit → Audit) : (g.modAu f).trc = g.trc := rfl
@[simp] theorem Glexon.modAu_staged (f : Audit → Audit) : (g.modAu f).staged = g.staged := rfl
@[simp] theorem Glexon.modAu_fl (f : Audit → Audit) : (g.modAu f).fl = g.fl := rfl
@[simp] theorem Glexon.modAu_es (f : Audit → Audit) : (g.modAu f).es = g.es := rfl
@[simp] theorem Glexon.modAu_ep (f : Audit → Audit) : (g.modAu f).ep = g.ep := rfl
@[simp] theorem Glexon.modAu_ts (f : Audit → Audit) : (g.modAu f).ts = g.ts := rfl
@[simp] theorem Glexon.modAu_rm (f : Audit → Audit) : (g.modAu f).rm = g.rm := rfl
@[simp] theorem Glexon.modAu_ce (f : Audit → Audit) : (g.modAu f).ce = g.ce := rfl
@[simp] theorem Glexon.modAu_ceTick (f : Audit → Audit) : (g.modAu f).ceTick = g.ceTick := rfl
@[simp] theorem Glexon.modAu_mg (f : Audit → Audit) : (g.modAu f).mg = g.mg := rfl
@[simp] theorem Glexon.modAu_ob (f : Audit → Audit) : (g.modAu f).ob = g.ob := rfl

@[simp] theorem Glexon.setLanes_sysRstN (p n : Nat) : (g.setLanes p n).sysRstN = g.sysRstN := rfl
@[simp] theorem Glexon.setLanes_corePwrOk (p n : Nat) : (g.setLanes p n).corePwrOk = g.corePwrOk := rfl
@[simp] theorem Glexon.setLanes_mgRstN (p n : Nat) : (g.setLanes p n).mgRstN = g.mgRstN := rfl
@[simp] theorem Glexon.setLanes_coreLost (p n : Nat) : (g.setLanes p n).coreLost = g.coreLost := rfl
@[simp] theorem Glexon.setLanes_regs (p n : Nat) : (g.setLanes p n).regs = g.regs := rfl
@[simp] theorem Glexon.setLanes_rwt (p n : Nat) : (g.setLanes p n).rwt = g.rwt := rfl
@[simp] theorem Glexon.setLanes_mem (p n : Nat) : (g.setLanes p n).mem = g.mem := rfl
@[simp] theorem Glexon.setLanes_poison (p n : Nat) : (g.setLanes p n).poison = g.poison := rfl
@[simp] theorem Glexon.setLanes_eccCorr (p n : Nat) : (g.setLanes p n).eccCorr = g.eccCorr := rfl
@[simp] theorem Glexon.setLanes_eccUncorr (p n : Nat) : (g.setLanes p n).eccUncorr = g.eccUncorr := rfl
@[simp] theorem Glexon.setLanes_rdData (p n : Nat) : (g.setLanes p n).rdData = g.rdData := rfl
@[simp] theorem Glexon.setLanes_tk (p n : Nat) : (g.setLanes p n).tk = g.tk := rfl
@[simp] theorem Glexon.setLanes_ports (p n : Nat) : (g.setLanes p n).ports = g.ports := rfl
@[simp] theorem Glexon.setLanes_probe (p n : Nat) : (g.setLanes p n).probe = g.probe := rfl
@[simp] theorem Glexon.setLanes_probeTag (p n : Nat) : (g.setLanes p n).probeTag = g.probeTag := rfl
@[simp] theorem Glexon.setLanes_events (p n : Nat) : (g.setLanes p n).events = g.events := rfl
@[simp] theorem Glexon.setLanes_cores (p n : Nat) : (g.setLanes p n).cores = g.cores := rfl
@[simp] theorem Glexon.setLanes_abortMask (p n : Nat) : (g.setLanes p n).abortMask = g.abortMask := rfl
@[simp] theorem Glexon.setLanes_code (p n : Nat) : (g.setLanes p n).code = g.code := rfl
@[simp] theorem Glexon.setLanes_image (p n : Nat) : (g.setLanes p n).image = g.image := rfl
@[simp] theorem Glexon.setLanes_coreClk (p n : Nat) : (g.setLanes p n).coreClk = g.coreClk := rfl
@[simp] theorem Glexon.setLanes_pulse (p n : Nat) : (g.setLanes p n).pulse = g.pulse := rfl
@[simp] theorem Glexon.setLanes_freeN (p n : Nat) : (g.setLanes p n).freeN = g.freeN := rfl
@[simp] theorem Glexon.setLanes_obs (p n : Nat) : (g.setLanes p n).obs = g.obs := rfl
@[simp] theorem Glexon.setLanes_trc (p n : Nat) : (g.setLanes p n).trc = g.trc := rfl
@[simp] theorem Glexon.setLanes_staged (p n : Nat) : (g.setLanes p n).staged = g.staged := rfl
@[simp] theorem Glexon.setLanes_au (p n : Nat) : (g.setLanes p n).au = g.au := rfl
@[simp] theorem Glexon.setLanes_fl (p n : Nat) : (g.setLanes p n).fl = g.fl := rfl
@[simp] theorem Glexon.setLanes_es (p n : Nat) : (g.setLanes p n).es = g.es := rfl
@[simp] theorem Glexon.setLanes_ep (p n : Nat) : (g.setLanes p n).ep = g.ep := rfl
@[simp] theorem Glexon.setLanes_ts (p n : Nat) : (g.setLanes p n).ts = g.ts := rfl
@[simp] theorem Glexon.setLanes_rm (p n : Nat) : (g.setLanes p n).rm = g.rm := rfl
@[simp] theorem Glexon.setLanes_ce (p n : Nat) : (g.setLanes p n).ce = g.ce := rfl
@[simp] theorem Glexon.setLanes_ceTick (p n : Nat) : (g.setLanes p n).ceTick = g.ceTick := rfl
@[simp] theorem Glexon.setLanes_mg (p n : Nat) : (g.setLanes p n).mg = g.mg := rfl
@[simp] theorem Glexon.setLanes_ob (p n : Nat) : (g.setLanes p n).ob = g.ob := rfl

@[simp] theorem Bumas.wr_pwrOk (a : Nat) (v : Word) : (b.wr a v).pwrOk = b.pwrOk := rfl
@[simp] theorem Bumas.wr_rstN (a : Nat) (v : Word) : (b.wr a v).rstN = b.rstN := rfl
@[simp] theorem Bumas.wr_cause (a : Nat) (v : Word) : (b.wr a v).cause = b.cause := rfl
@[simp] theorem Bumas.wr_rwt (a : Nat) (v : Word) : (b.wr a v).rwt = b.rwt := rfl
@[simp] theorem Bumas.wr_cnt (a : Nat) (v : Word) : (b.wr a v).cnt = b.cnt := rfl
@[simp] theorem Bumas.wr_snapN (a : Nat) (v : Word) : (b.wr a v).snapN = b.snapN := rfl
@[simp] theorem Bumas.wr_snapP (a : Nat) (v : Word) : (b.wr a v).snapP = b.snapP := rfl
@[simp] theorem Bumas.wr_energy (a : Nat) (v : Word) : (b.wr a v).energy = b.energy := rfl
@[simp] theorem Bumas.wr_energyN (a : Nat) (v : Word) : (b.wr a v).energyN = b.energyN := rfl
@[simp] theorem Bumas.wr_energyP (a : Nat) (v : Word) : (b.wr a v).energyP = b.energyP := rfl
@[simp] theorem Bumas.wr_incs (a : Nat) (v : Word) : (b.wr a v).incs = b.incs := rfl
@[simp] theorem Bumas.wr_incsP (a : Nat) (v : Word) : (b.wr a v).incsP = b.incsP := rfl
@[simp] theorem Bumas.wr_markC (a : Nat) (v : Word) : (b.wr a v).markC = b.markC := rfl
@[simp] theorem Bumas.wr_markP (a : Nat) (v : Word) : (b.wr a v).markP = b.markP := rfl
@[simp] theorem Bumas.wr_pcs (a : Nat) (v : Word) : (b.wr a v).pcs = b.pcs := rfl
@[simp] theorem Bumas.wr_snoop (a : Nat) (v : Word) : (b.wr a v).snoop = b.snoop := rfl
@[simp] theorem Bumas.wr_audit (a : Nat) (v : Word) : (b.wr a v).audit = b.audit := rfl
@[simp] theorem Bumas.wr_therm (a : Nat) (v : Word) : (b.wr a v).therm = b.therm := rfl
@[simp] theorem Bumas.wr_volt (a : Nat) (v : Word) : (b.wr a v).volt = b.volt := rfl
@[simp] theorem Bumas.wr_droop (a : Nat) (v : Word) : (b.wr a v).droop = b.droop := rfl
@[simp] theorem Bumas.wr_probe (a : Nat) (v : Word) : (b.wr a v).probe = b.probe := rfl
@[simp] theorem Bumas.wr_time (a : Nat) (v : Word) : (b.wr a v).time = b.time := rfl
@[simp] theorem Bumas.wr_tap (a : Nat) (v : Word) : (b.wr a v).tap = b.tap := rfl
@[simp] theorem Bumas.wr_csrErr (a : Nat) (v : Word) : (b.wr a v).csrErr = b.csrErr := rfl
@[simp] theorem Bumas.wr_csrData (a : Nat) (v : Word) : (b.wr a v).csrData = b.csrData := rfl
@[simp] theorem Bumas.wr_pcsReq (a : Nat) (v : Word) : (b.wr a v).pcsReq = b.pcsReq := rfl
@[simp] theorem Bumas.wr_thrPrev (a : Nat) (v : Word) : (b.wr a v).thrPrev = b.thrPrev := rfl
@[simp] theorem Bumas.wr_clkKhz (a : Nat) (v : Word) : (b.wr a v).clkKhz = b.clkKhz := rfl
@[simp] theorem Bumas.wr_free (a : Nat) (v : Word) : (b.wr a v).free = b.free := rfl

@[simp] theorem Bumas.count_pwrOk (c n : Nat) : (b.count c n).pwrOk = b.pwrOk := rfl
@[simp] theorem Bumas.count_rstN (c n : Nat) : (b.count c n).rstN = b.rstN := rfl
@[simp] theorem Bumas.count_cause (c n : Nat) : (b.count c n).cause = b.cause := rfl
@[simp] theorem Bumas.count_regs (c n : Nat) : (b.count c n).regs = b.regs := rfl
@[simp] theorem Bumas.count_rwt (c n : Nat) : (b.count c n).rwt = b.rwt := rfl
@[simp] theorem Bumas.count_snapN (c n : Nat) : (b.count c n).snapN = b.snapN := rfl
@[simp] theorem Bumas.count_snapP (c n : Nat) : (b.count c n).snapP = b.snapP := rfl
@[simp] theorem Bumas.count_energy (c n : Nat) : (b.count c n).energy = b.energy := rfl
@[simp] theorem Bumas.count_energyN (c n : Nat) : (b.count c n).energyN = b.energyN := rfl
@[simp] theorem Bumas.count_energyP (c n : Nat) : (b.count c n).energyP = b.energyP := rfl
@[simp] theorem Bumas.count_incs (c n : Nat) : (b.count c n).incs = b.incs := rfl
@[simp] theorem Bumas.count_incsP (c n : Nat) : (b.count c n).incsP = b.incsP := rfl
@[simp] theorem Bumas.count_markC (c n : Nat) : (b.count c n).markC = b.markC := rfl
@[simp] theorem Bumas.count_markP (c n : Nat) : (b.count c n).markP = b.markP := rfl
@[simp] theorem Bumas.count_pcs (c n : Nat) : (b.count c n).pcs = b.pcs := rfl
@[simp] theorem Bumas.count_snoop (c n : Nat) : (b.count c n).snoop = b.snoop := rfl
@[simp] theorem Bumas.count_audit (c n : Nat) : (b.count c n).audit = b.audit := rfl
@[simp] theorem Bumas.count_therm (c n : Nat) : (b.count c n).therm = b.therm := rfl
@[simp] theorem Bumas.count_volt (c n : Nat) : (b.count c n).volt = b.volt := rfl
@[simp] theorem Bumas.count_droop (c n : Nat) : (b.count c n).droop = b.droop := rfl
@[simp] theorem Bumas.count_probe (c n : Nat) : (b.count c n).probe = b.probe := rfl
@[simp] theorem Bumas.count_time (c n : Nat) : (b.count c n).time = b.time := rfl
@[simp] theorem Bumas.count_tap (c n : Nat) : (b.count c n).tap = b.tap := rfl
@[simp] theorem Bumas.count_csrErr (c n : Nat) : (b.count c n).csrErr = b.csrErr := rfl
@[simp] theorem Bumas.count_csrData (c n : Nat) : (b.count c n).csrData = b.csrData := rfl
@[simp] theorem Bumas.count_pcsReq (c n : Nat) : (b.count c n).pcsReq = b.pcsReq := rfl
@[simp] theorem Bumas.count_thrPrev (c n : Nat) : (b.count c n).thrPrev = b.thrPrev := rfl
@[simp] theorem Bumas.count_clkKhz (c n : Nat) : (b.count c n).clkKhz = b.clkKhz := rfl
@[simp] theorem Bumas.count_free (c n : Nat) : (b.count c n).free = b.free := rfl

@[simp] theorem Bumas.setSreg_pwrOk (i : BitVec 4) (v : Word) : (b.setSreg i v).pwrOk = b.pwrOk := rfl
@[simp] theorem Bumas.setSreg_rstN (i : BitVec 4) (v : Word) : (b.setSreg i v).rstN = b.rstN := rfl
@[simp] theorem Bumas.setSreg_cause (i : BitVec 4) (v : Word) : (b.setSreg i v).cause = b.cause := rfl
@[simp] theorem Bumas.setSreg_regs (i : BitVec 4) (v : Word) : (b.setSreg i v).regs = b.regs := rfl
@[simp] theorem Bumas.setSreg_rwt (i : BitVec 4) (v : Word) : (b.setSreg i v).rwt = b.rwt := rfl
@[simp] theorem Bumas.setSreg_cnt (i : BitVec 4) (v : Word) : (b.setSreg i v).cnt = b.cnt := rfl
@[simp] theorem Bumas.setSreg_snapN (i : BitVec 4) (v : Word) : (b.setSreg i v).snapN = b.snapN := rfl
@[simp] theorem Bumas.setSreg_snapP (i : BitVec 4) (v : Word) : (b.setSreg i v).snapP = b.snapP := rfl
@[simp] theorem Bumas.setSreg_energy (i : BitVec 4) (v : Word) : (b.setSreg i v).energy = b.energy := rfl
@[simp] theorem Bumas.setSreg_energyN (i : BitVec 4) (v : Word) : (b.setSreg i v).energyN = b.energyN := rfl
@[simp] theorem Bumas.setSreg_energyP (i : BitVec 4) (v : Word) : (b.setSreg i v).energyP = b.energyP := rfl
@[simp] theorem Bumas.setSreg_incs (i : BitVec 4) (v : Word) : (b.setSreg i v).incs = b.incs := rfl
@[simp] theorem Bumas.setSreg_incsP (i : BitVec 4) (v : Word) : (b.setSreg i v).incsP = b.incsP := rfl
@[simp] theorem Bumas.setSreg_markC (i : BitVec 4) (v : Word) : (b.setSreg i v).markC = b.markC := rfl
@[simp] theorem Bumas.setSreg_markP (i : BitVec 4) (v : Word) : (b.setSreg i v).markP = b.markP := rfl
@[simp] theorem Bumas.setSreg_pcs (i : BitVec 4) (v : Word) : (b.setSreg i v).pcs = b.pcs := rfl
@[simp] theorem Bumas.setSreg_snoop (i : BitVec 4) (v : Word) : (b.setSreg i v).snoop = b.snoop := rfl
@[simp] theorem Bumas.setSreg_audit (i : BitVec 4) (v : Word) : (b.setSreg i v).audit = b.audit := rfl
@[simp] theorem Bumas.setSreg_therm (i : BitVec 4) (v : Word) : (b.setSreg i v).therm = b.therm := rfl
@[simp] theorem Bumas.setSreg_volt (i : BitVec 4) (v : Word) : (b.setSreg i v).volt = b.volt := rfl
@[simp] theorem Bumas.setSreg_droop (i : BitVec 4) (v : Word) : (b.setSreg i v).droop = b.droop := rfl
@[simp] theorem Bumas.setSreg_time (i : BitVec 4) (v : Word) : (b.setSreg i v).time = b.time := rfl
@[simp] theorem Bumas.setSreg_tap (i : BitVec 4) (v : Word) : (b.setSreg i v).tap = b.tap := rfl
@[simp] theorem Bumas.setSreg_csrErr (i : BitVec 4) (v : Word) : (b.setSreg i v).csrErr = b.csrErr := rfl
@[simp] theorem Bumas.setSreg_csrData (i : BitVec 4) (v : Word) : (b.setSreg i v).csrData = b.csrData := rfl
@[simp] theorem Bumas.setSreg_pcsReq (i : BitVec 4) (v : Word) : (b.setSreg i v).pcsReq = b.pcsReq := rfl
@[simp] theorem Bumas.setSreg_thrPrev (i : BitVec 4) (v : Word) : (b.setSreg i v).thrPrev = b.thrPrev := rfl
@[simp] theorem Bumas.setSreg_clkKhz (i : BitVec 4) (v : Word) : (b.setSreg i v).clkKhz = b.clkKhz := rfl
@[simp] theorem Bumas.setSreg_free (i : BitVec 4) (v : Word) : (b.setSreg i v).free = b.free := rfl

/-! ### Registers -/

/-- A register reads what was last put in force there. -/
@[simp] theorem Glexon.rd_wr_same (a : Nat) (v : Word) : (g.wr a v).rd a = v := SMap.get_put_same _ _ _ _

/-- Putting a register in force leaves every other register alone. -/
theorem Glexon.rd_wr_other (a c : Nat) (v : Word) (h : c ≠ a) : (g.wr a v).rd c = g.rd c := by
  have hne : ∀ (d : Word) (m : SMap Word), SMap.get d (SMap.put (regReset gxRegFams a) m a v) c = SMap.get d m c := by
    intro d m
    induction m with
    | nil => by_cases hv : v = regReset gxRegFams a <;> simp [SMap.put, SMap.get, hv, h]
    | cons e r ih =>
      obtain ⟨j, w⟩ := e
      by_cases hk : a = j
      · subst hk
        by_cases hv : v = regReset gxRegFams a
        · simp only [SMap.put, hv, if_true, SMap.get, h, if_false]; rw [← hv] at ih ⊢; exact ih
        · simp [SMap.put, SMap.get, h, hv]
      · by_cases hl : a < j ∧ v ≠ regReset gxRegFams a
        · simp [SMap.put, SMap.get, hk, hl, h]
        · simp only [SMap.put, hk, hl, if_false, SMap.get, ih]
  exact hne _ _

@[simp] theorem Bumas.rd_wr_same (a : Nat) (v : Word) : (b.wr a v).rd a = v := SMap.get_put_same _ _ _ _

/-! ### Cores -/

@[simp] theorem Glexon.core_setCore_same (n : Nat) (k : Core) : (g.setCore n k).core n = k := SMap.get_put_same _ _ _ _

theorem Glexon.core_setCore_other (n m : Nat) (k : Core) (h : m ≠ n) : (g.setCore n k).core m = g.core m :=
  SMap.get_put_other _ _ _ _ _ h

@[simp] theorem Glexon.port_setPort_same (p : Nat) (t : TapPort) : (g.setPort p t).port p = t := SMap.get_put_same _ _ _ _

theorem Glexon.port_setPort_other (p q : Nat) (t : TapPort) (h : q ≠ p) : (g.setPort p t).port q = g.port q :=
  SMap.get_put_other _ _ _ _ _ h

end Sys2Proof.Machine
end

