-- ==== Sys2Proof/Laws/Frames.lean ====
section
/-! SUPPORT. What the operations that every part of the Glexon shares leave alone: events, counts, free values, bring-up times, the
mailbox's answer. -/

namespace Sys2Proof.Machine

variable (g : Glexon)

@[simp] theorem Glexon.event_sysRstN (code agent : Nat) (args : List Word) : (g.event code agent args).sysRstN = g.sysRstN := by
  unfold Glexon.event; dsimp only; split <;> rfl
@[simp] theorem Glexon.event_corePwrOk (code agent : Nat) (args : List Word) : (g.event code agent args).corePwrOk = g.corePwrOk := by
  unfold Glexon.event; dsimp only; split <;> rfl
@[simp] theorem Glexon.event_mgRstN (code agent : Nat) (args : List Word) : (g.event code agent args).mgRstN = g.mgRstN := by
  unfold Glexon.event; dsimp only; split <;> rfl
@[simp] theorem Glexon.event_coreLost (code agent : Nat) (args : List Word) : (g.event code agent args).coreLost = g.coreLost := by
  unfold Glexon.event; dsimp only; split <;> rfl
@[simp] theorem Glexon.event_rwt (code agent : Nat) (args : List Word) : (g.event code agent args).rwt = g.rwt := by
  unfold Glexon.event; dsimp only; split <;> rfl
@[simp] theorem Glexon.event_mem (code agent : Nat) (args : List Word) : (g.event code agent args).mem = g.mem := by
  unfold Glexon.event; dsimp only; split <;> rfl
@[simp] theorem Glexon.event_poison (code agent : Nat) (args : List Word) : (g.event code agent args).poison = g.poison := by
  unfold Glexon.event; dsimp only; split <;> rfl
@[simp] theorem Glexon.event_eccCorr (code agent : Nat) (args : List Word) : (g.event code agent args).eccCorr = g.eccCorr := by
  unfold Glexon.event; dsimp only; split <;> rfl
@[simp] theorem Glexon.event_eccUncorr (code agent : Nat) (args : List Word) : (g.event code agent args).eccUncorr = g.eccUncorr := by
  unfold Glexon.event; dsimp only; split <;> rfl
@[simp] theorem Glexon.event_portLanes (code agent : Nat) (args : List Word) : (g.event code agent args).portLanes = g.portLanes := by
  unfold Glexon.event; dsimp only; split <;> rfl
@[simp] theorem Glexon.event_rdData (code agent : Nat) (args : List Word) : (g.event code agent args).rdData = g.rdData := by
  unfold Glexon.event; dsimp only; split <;> rfl
@[simp] theorem Glexon.event_tk (code agent : Nat) (args : List Word) : (g.event code agent args).tk = g.tk := by
  unfold Glexon.event; dsimp only; split <;> rfl
@[simp] theorem Glexon.event_ports (code agent : Nat) (args : List Word) : (g.event code agent args).ports = g.ports := by
  unfold Glexon.event; dsimp only; split <;> rfl
@[simp] theorem Glexon.event_probe (code agent : Nat) (args : List Word) : (g.event code agent args).probe = g.probe := by
  unfold Glexon.event; dsimp only; split <;> rfl
@[simp] theorem Glexon.event_probeTag (code agent : Nat) (args : List Word) : (g.event code agent args).probeTag = g.probeTag := by
  unfold Glexon.event; dsimp only; split <;> rfl
@[simp] theorem Glexon.event_cores (code agent : Nat) (args : List Word) : (g.event code agent args).cores = g.cores := by
  unfold Glexon.event; dsimp only; split <;> rfl
@[simp] theorem Glexon.event_abortMask (code agent : Nat) (args : List Word) : (g.event code agent args).abortMask = g.abortMask := by
  unfold Glexon.event; dsimp only; split <;> rfl
@[simp] theorem Glexon.event_code (code agent : Nat) (args : List Word) : (g.event code agent args).code = g.code := by
  unfold Glexon.event; dsimp only; split <;> rfl
@[simp] theorem Glexon.event_image (code agent : Nat) (args : List Word) : (g.event code agent args).image = g.image := by
  unfold Glexon.event; dsimp only; split <;> rfl
@[simp] theorem Glexon.event_coreClk (code agent : Nat) (args : List Word) : (g.event code agent args).coreClk = g.coreClk := by
  unfold Glexon.event; dsimp only; split <;> rfl
@[simp] theorem Glexon.event_pulse (code agent : Nat) (args : List Word) : (g.event code agent args).pulse = g.pulse := by
  unfold Glexon.event; dsimp only; split <;> rfl
@[simp] theorem Glexon.event_freeN (code agent : Nat) (args : List Word) : (g.event code agent args).freeN = g.freeN := by
  unfold Glexon.event; dsimp only; split <;> rfl
@[simp] theorem Glexon.event_obs (code agent : Nat) (args : List Word) : (g.event code agent args).obs = g.obs := by
  unfold Glexon.event; dsimp only; split <;> rfl
@[simp] theorem Glexon.event_trc (code agent : Nat) (args : List Word) : (g.event code agent args).trc = g.trc := by
  unfold Glexon.event; dsimp only; split <;> rfl
@[simp] theorem Glexon.event_staged (code agent : Nat) (args : List Word) : (g.event code agent args).staged = g.staged := by
  unfold Glexon.event; dsimp only; split <;> rfl
@[simp] theorem Glexon.event_au (code agent : Nat) (args : List Word) : (g.event code agent args).au = g.au := by
  unfold Glexon.event; dsimp only; split <;> rfl
@[simp] theorem Glexon.event_fl (code agent : Nat) (args : List Word) : (g.event code agent args).fl = g.fl := by
  unfold Glexon.event; dsimp only; split <;> rfl
@[simp] theorem Glexon.event_es (code agent : Nat) (args : List Word) : (g.event code agent args).es = g.es := by
  unfold Glexon.event; dsimp only; split <;> rfl
@[simp] theorem Glexon.event_ep (code agent : Nat) (args : List Word) : (g.event code agent args).ep = g.ep := by
  unfold Glexon.event; dsimp only; split <;> rfl
@[simp] theorem Glexon.event_ts (code agent : Nat) (args : List Word) : (g.event code agent args).ts = g.ts := by
  unfold Glexon.event; dsimp only; split <;> rfl
@[simp] theorem Glexon.event_rm (code agent : Nat) (args : List Word) : (g.event code agent args).rm = g.rm := by
  unfold Glexon.event; dsimp only; split <;> rfl
@[simp] theorem Glexon.event_ce (code agent : Nat) (args : List Word) : (g.event code agent args).ce = g.ce := by
  unfold Glexon.event; dsimp only; split <;> rfl
@[simp] theorem Glexon.event_ceTick (code agent : Nat) (args : List Word) : (g.event code agent args).ceTick = g.ceTick := by
  unfold Glexon.event; dsimp only; split <;> rfl
@[simp] theorem Glexon.event_ob (code agent : Nat) (args : List Word) : (g.event code agent args).ob = g.ob := by
  unfold Glexon.event; dsimp only; split <;> rfl

@[simp] theorem Glexon.count_sysRstN (cls unit ev n : Nat) : (g.count cls unit ev n).sysRstN = g.sysRstN := by
  unfold Glexon.count; split <;> rfl
@[simp] theorem Glexon.count_corePwrOk (cls unit ev n : Nat) : (g.count cls unit ev n).corePwrOk = g.corePwrOk := by
  unfold Glexon.count; split <;> rfl
@[simp] theorem Glexon.count_mgRstN (cls unit ev n : Nat) : (g.count cls unit ev n).mgRstN = g.mgRstN := by
  unfold Glexon.count; split <;> rfl
@[simp] theorem Glexon.count_coreLost (cls unit ev n : Nat) : (g.count cls unit ev n).coreLost = g.coreLost := by
  unfold Glexon.count; split <;> rfl
@[simp] theorem Glexon.count_regs (cls unit ev n : Nat) : (g.count cls unit ev n).regs = g.regs := by
  unfold Glexon.count; split <;> rfl
@[simp] theorem Glexon.count_rwt (cls unit ev n : Nat) : (g.count cls unit ev n).rwt = g.rwt := by
  unfold Glexon.count; split <;> rfl
@[simp] theorem Glexon.count_mem (cls unit ev n : Nat) : (g.count cls unit ev n).mem = g.mem := by
  unfold Glexon.count; split <;> rfl
@[simp] theorem Glexon.count_poison (cls unit ev n : Nat) : (g.count cls unit ev n).poison = g.poison := by
  unfold Glexon.count; split <;> rfl
@[simp] theorem Glexon.count_eccCorr (cls unit ev n : Nat) : (g.count cls unit ev n).eccCorr = g.eccCorr := by
  unfold Glexon.count; split <;> rfl
@[simp] theorem Glexon.count_eccUncorr (cls unit ev n : Nat) : (g.count cls unit ev n).eccUncorr = g.eccUncorr := by
  unfold Glexon.count; split <;> rfl
@[simp] theorem Glexon.count_portLanes (cls unit ev n : Nat) : (g.count cls unit ev n).portLanes = g.portLanes := by
  unfold Glexon.count; split <;> rfl
@[simp] theorem Glexon.count_rdData (cls unit ev n : Nat) : (g.count cls unit ev n).rdData = g.rdData := by
  unfold Glexon.count; split <;> rfl
@[simp] theorem Glexon.count_tk (cls unit ev n : Nat) : (g.count cls unit ev n).tk = g.tk := by
  unfold Glexon.count; split <;> rfl
@[simp] theorem Glexon.count_ports (cls unit ev n : Nat) : (g.count cls unit ev n).ports = g.ports := by
  unfold Glexon.count; split <;> rfl
@[simp] theorem Glexon.count_probe (cls unit ev n : Nat) : (g.count cls unit ev n).probe = g.probe := by
  unfold Glexon.count; split <;> rfl
@[simp] theorem Glexon.count_probeTag (cls unit ev n : Nat) : (g.count cls unit ev n).probeTag = g.probeTag := by
  unfold Glexon.count; split <;> rfl
@[simp] theorem Glexon.count_events (cls unit ev n : Nat) : (g.count cls unit ev n).events = g.events := by
  unfold Glexon.count; split <;> rfl
@[simp] theorem Glexon.count_cores (cls unit ev n : Nat) : (g.count cls unit ev n).cores = g.cores := by
  unfold Glexon.count; split <;> rfl
@[simp] theorem Glexon.count_abortMask (cls unit ev n : Nat) : (g.count cls unit ev n).abortMask = g.abortMask := by
  unfold Glexon.count; split <;> rfl
@[simp] theorem Glexon.count_code (cls unit ev n : Nat) : (g.count cls unit ev n).code = g.code := by
  unfold Glexon.count; split <;> rfl
@[simp] theorem Glexon.count_image (cls unit ev n : Nat) : (g.count cls unit ev n).image = g.image := by
  unfold Glexon.count; split <;> rfl
@[simp] theorem Glexon.count_coreClk (cls unit ev n : Nat) : (g.count cls unit ev n).coreClk = g.coreClk := by
  unfold Glexon.count; split <;> rfl
@[simp] theorem Glexon.count_pulse (cls unit ev n : Nat) : (g.count cls unit ev n).pulse = g.pulse := by
  unfold Glexon.count; split <;> rfl
@[simp] theorem Glexon.count_freeN (cls unit ev n : Nat) : (g.count cls unit ev n).freeN = g.freeN := by
  unfold Glexon.count; split <;> rfl
@[simp] theorem Glexon.count_trc (cls unit ev n : Nat) : (g.count cls unit ev n).trc = g.trc := by
  unfold Glexon.count; split <;> rfl
@[simp] theorem Glexon.count_staged (cls unit ev n : Nat) : (g.count cls unit ev n).staged = g.staged := by
  unfold Glexon.count; split <;> rfl
@[simp] theorem Glexon.count_au (cls unit ev n : Nat) : (g.count cls unit ev n).au = g.au := by
  unfold Glexon.count; split <;> rfl
@[simp] theorem Glexon.count_fl (cls unit ev n : Nat) : (g.count cls unit ev n).fl = g.fl := by
  unfold Glexon.count; split <;> rfl
@[simp] theorem Glexon.count_es (cls unit ev n : Nat) : (g.count cls unit ev n).es = g.es := by
  unfold Glexon.count; split <;> rfl
@[simp] theorem Glexon.count_ep (cls unit ev n : Nat) : (g.count cls unit ev n).ep = g.ep := by
  unfold Glexon.count; split <;> rfl
@[simp] theorem Glexon.count_ts (cls unit ev n : Nat) : (g.count cls unit ev n).ts = g.ts := by
  unfold Glexon.count; split <;> rfl
@[simp] theorem Glexon.count_rm (cls unit ev n : Nat) : (g.count cls unit ev n).rm = g.rm := by
  unfold Glexon.count; split <;> rfl
@[simp] theorem Glexon.count_ce (cls unit ev n : Nat) : (g.count cls unit ev n).ce = g.ce := by
  unfold Glexon.count; split <;> rfl
@[simp] theorem Glexon.count_ceTick (cls unit ev n : Nat) : (g.count cls unit ev n).ceTick = g.ceTick := by
  unfold Glexon.count; split <;> rfl
@[simp] theorem Glexon.count_mg (cls unit ev n : Nat) : (g.count cls unit ev n).mg = g.mg := by
  unfold Glexon.count; split <;> rfl
@[simp] theorem Glexon.count_ob (cls unit ev n : Nat) : (g.count cls unit ev n).ob = g.ob := by
  unfold Glexon.count; split <;> rfl

@[simp] theorem Glexon.buDone_sysRstN (s : Nat) : (g.buDone s).sysRstN = g.sysRstN := by
  unfold Glexon.buDone; split <;> rfl
@[simp] theorem Glexon.buDone_corePwrOk (s : Nat) : (g.buDone s).corePwrOk = g.corePwrOk := by
  unfold Glexon.buDone; split <;> rfl
@[simp] theorem Glexon.buDone_mgRstN (s : Nat) : (g.buDone s).mgRstN = g.mgRstN := by
  unfold Glexon.buDone; split <;> rfl
@[simp] theorem Glexon.buDone_coreLost (s : Nat) : (g.buDone s).coreLost = g.coreLost := by
  unfold Glexon.buDone; split <;> rfl
@[simp] theorem Glexon.buDone_rwt (s : Nat) : (g.buDone s).rwt = g.rwt := by
  unfold Glexon.buDone; split <;> rfl
@[simp] theorem Glexon.buDone_mem (s : Nat) : (g.buDone s).mem = g.mem := by
  unfold Glexon.buDone; split <;> rfl
@[simp] theorem Glexon.buDone_poison (s : Nat) : (g.buDone s).poison = g.poison := by
  unfold Glexon.buDone; split <;> rfl
@[simp] theorem Glexon.buDone_eccCorr (s : Nat) : (g.buDone s).eccCorr = g.eccCorr := by
  unfold Glexon.buDone; split <;> rfl
@[simp] theorem Glexon.buDone_eccUncorr (s : Nat) : (g.buDone s).eccUncorr = g.eccUncorr := by
  unfold Glexon.buDone; split <;> rfl
@[simp] theorem Glexon.buDone_portLanes (s : Nat) : (g.buDone s).portLanes = g.portLanes := by
  unfold Glexon.buDone; split <;> rfl
@[simp] theorem Glexon.buDone_rdData (s : Nat) : (g.buDone s).rdData = g.rdData := by
  unfold Glexon.buDone; split <;> rfl
@[simp] theorem Glexon.buDone_tk (s : Nat) : (g.buDone s).tk = g.tk := by
  unfold Glexon.buDone; split <;> rfl
@[simp] theorem Glexon.buDone_ports (s : Nat) : (g.buDone s).ports = g.ports := by
  unfold Glexon.buDone; split <;> rfl
@[simp] theorem Glexon.buDone_probe (s : Nat) : (g.buDone s).probe = g.probe := by
  unfold Glexon.buDone; split <;> rfl
@[simp] theorem Glexon.buDone_probeTag (s : Nat) : (g.buDone s).probeTag = g.probeTag := by
  unfold Glexon.buDone; split <;> rfl
@[simp] theorem Glexon.buDone_events (s : Nat) : (g.buDone s).events = g.events := by
  unfold Glexon.buDone; split <;> rfl
@[simp] theorem Glexon.buDone_cores (s : Nat) : (g.buDone s).cores = g.cores := by
  unfold Glexon.buDone; split <;> rfl
@[simp] theorem Glexon.buDone_abortMask (s : Nat) : (g.buDone s).abortMask = g.abortMask := by
  unfold Glexon.buDone; split <;> rfl
@[simp] theorem Glexon.buDone_code (s : Nat) : (g.buDone s).code = g.code := by
  unfold Glexon.buDone; split <;> rfl
@[simp] theorem Glexon.buDone_image (s : Nat) : (g.buDone s).image = g.image := by
  unfold Glexon.buDone; split <;> rfl
@[simp] theorem Glexon.buDone_coreClk (s : Nat) : (g.buDone s).coreClk = g.coreClk := by
  unfold Glexon.buDone; split <;> rfl
@[simp] theorem Glexon.buDone_pulse (s : Nat) : (g.buDone s).pulse = g.pulse := by
  unfold Glexon.buDone; split <;> rfl
@[simp] theorem Glexon.buDone_freeN (s : Nat) : (g.buDone s).freeN = g.freeN := by
  unfold Glexon.buDone; split <;> rfl
@[simp] theorem Glexon.buDone_obs (s : Nat) : (g.buDone s).obs = g.obs := by
  unfold Glexon.buDone; split <;> rfl
@[simp] theorem Glexon.buDone_trc (s : Nat) : (g.buDone s).trc = g.trc := by
  unfold Glexon.buDone; split <;> rfl
@[simp] theorem Glexon.buDone_staged (s : Nat) : (g.buDone s).staged = g.staged := by
  unfold Glexon.buDone; split <;> rfl
@[simp] theorem Glexon.buDone_au (s : Nat) : (g.buDone s).au = g.au := by
  unfold Glexon.buDone; split <;> rfl
@[simp] theorem Glexon.buDone_fl (s : Nat) : (g.buDone s).fl = g.fl := by
  unfold Glexon.buDone; split <;> rfl
@[simp] theorem Glexon.buDone_es (s : Nat) : (g.buDone s).es = g.es := by
  unfold Glexon.buDone; split <;> rfl
@[simp] theorem Glexon.buDone_ep (s : Nat) : (g.buDone s).ep = g.ep := by
  unfold Glexon.buDone; split <;> rfl
@[simp] theorem Glexon.buDone_ts (s : Nat) : (g.buDone s).ts = g.ts := by
  unfold Glexon.buDone; split <;> rfl
@[simp] theorem Glexon.buDone_rm (s : Nat) : (g.buDone s).rm = g.rm := by
  unfold Glexon.buDone; split <;> rfl
@[simp] theorem Glexon.buDone_ce (s : Nat) : (g.buDone s).ce = g.ce := by
  unfold Glexon.buDone; split <;> rfl
@[simp] theorem Glexon.buDone_ceTick (s : Nat) : (g.buDone s).ceTick = g.ceTick := by
  unfold Glexon.buDone; split <;> rfl
@[simp] theorem Glexon.buDone_mg (s : Nat) : (g.buDone s).mg = g.mg := by
  unfold Glexon.buDone; split <;> rfl
@[simp] theorem Glexon.buDone_ob (s : Nat) : (g.buDone s).ob = g.ob := by
  unfold Glexon.buDone; split <;> rfl

@[simp] theorem Glexon.buEnter_sysRstN (phase failed : Nat) : (g.buEnter phase failed).sysRstN = g.sysRstN := by
  unfold Glexon.buEnter; split <;> rfl
@[simp] theorem Glexon.buEnter_corePwrOk (phase failed : Nat) : (g.buEnter phase failed).corePwrOk = g.corePwrOk := by
  unfold Glexon.buEnter; split <;> rfl
@[simp] theorem Glexon.buEnter_mgRstN (phase failed : Nat) : (g.buEnter phase failed).mgRstN = g.mgRstN := by
  unfold Glexon.buEnter; split <;> rfl
@[simp] theorem Glexon.buEnter_coreLost (phase failed : Nat) : (g.buEnter phase failed).coreLost = g.coreLost := by
  unfold Glexon.buEnter; split <;> rfl
@[simp] theorem Glexon.buEnter_rwt (phase failed : Nat) : (g.buEnter phase failed).rwt = g.rwt := by
  unfold Glexon.buEnter; split <;> rfl
@[simp] theorem Glexon.buEnter_mem (phase failed : Nat) : (g.buEnter phase failed).mem = g.mem := by
  unfold Glexon.buEnter; split <;> rfl
@[simp] theorem Glexon.buEnter_poison (phase failed : Nat) : (g.buEnter phase failed).poison = g.poison := by
  unfold Glexon.buEnter; split <;> rfl
@[simp] theorem Glexon.buEnter_eccCorr (phase failed : Nat) : (g.buEnter phase failed).eccCorr = g.eccCorr := by
  unfold Glexon.buEnter; split <;> rfl
@[simp] theorem Glexon.buEnter_eccUncorr (phase failed : Nat) : (g.buEnter phase failed).eccUncorr = g.eccUncorr := by
  unfold Glexon.buEnter; split <;> rfl
@[simp] theorem Glexon.buEnter_portLanes (phase failed : Nat) : (g.buEnter phase failed).portLanes = g.portLanes := by
  unfold Glexon.buEnter; split <;> rfl
@[simp] theorem Glexon.buEnter_rdData (phase failed : Nat) : (g.buEnter phase failed).rdData = g.rdData := by
  unfold Glexon.buEnter; split <;> rfl
@[simp] theorem Glexon.buEnter_tk (phase failed : Nat) : (g.buEnter phase failed).tk = g.tk := by
  unfold Glexon.buEnter; split <;> rfl
@[simp] theorem Glexon.buEnter_ports (phase failed : Nat) : (g.buEnter phase failed).ports = g.ports := by
  unfold Glexon.buEnter; split <;> rfl
@[simp] theorem Glexon.buEnter_probe (phase failed : Nat) : (g.buEnter phase failed).probe = g.probe := by
  unfold Glexon.buEnter; split <;> rfl
@[simp] theorem Glexon.buEnter_probeTag (phase failed : Nat) : (g.buEnter phase failed).probeTag = g.probeTag := by
  unfold Glexon.buEnter; split <;> rfl
@[simp] theorem Glexon.buEnter_events (phase failed : Nat) : (g.buEnter phase failed).events = g.events := by
  unfold Glexon.buEnter; split <;> rfl
@[simp] theorem Glexon.buEnter_cores (phase failed : Nat) : (g.buEnter phase failed).cores = g.cores := by
  unfold Glexon.buEnter; split <;> rfl
@[simp] theorem Glexon.buEnter_abortMask (phase failed : Nat) : (g.buEnter phase failed).abortMask = g.abortMask := by
  unfold Glexon.buEnter; split <;> rfl
@[simp] theorem Glexon.buEnter_code (phase failed : Nat) : (g.buEnter phase failed).code = g.code := by
  unfold Glexon.buEnter; split <;> rfl
@[simp] theorem Glexon.buEnter_image (phase failed : Nat) : (g.buEnter phase failed).image = g.image := by
  unfold Glexon.buEnter; split <;> rfl
@[simp] theorem Glexon.buEnter_coreClk (phase failed : Nat) : (g.buEnter phase failed).coreClk = g.coreClk := by
  unfold Glexon.buEnter; split <;> rfl
@[simp] theorem Glexon.buEnter_pulse (phase failed : Nat) : (g.buEnter phase failed).pulse = g.pulse := by
  unfold Glexon.buEnter; split <;> rfl
@[simp] theorem Glexon.buEnter_freeN (phase failed : Nat) : (g.buEnter phase failed).freeN = g.freeN := by
  unfold Glexon.buEnter; split <;> rfl
@[simp] theorem Glexon.buEnter_obs (phase failed : Nat) : (g.buEnter phase failed).obs = g.obs := by
  unfold Glexon.buEnter; split <;> rfl
@[simp] theorem Glexon.buEnter_trc (phase failed : Nat) : (g.buEnter phase failed).trc = g.trc := by
  unfold Glexon.buEnter; split <;> rfl
@[simp] theorem Glexon.buEnter_staged (phase failed : Nat) : (g.buEnter phase failed).staged = g.staged := by
  unfold Glexon.buEnter; split <;> rfl
@[simp] theorem Glexon.buEnter_au (phase failed : Nat) : (g.buEnter phase failed).au = g.au := by
  unfold Glexon.buEnter; split <;> rfl
@[simp] theorem Glexon.buEnter_fl (phase failed : Nat) : (g.buEnter phase failed).fl = g.fl := by
  unfold Glexon.buEnter; split <;> rfl
@[simp] theorem Glexon.buEnter_es (phase failed : Nat) : (g.buEnter phase failed).es = g.es := by
  unfold Glexon.buEnter; split <;> rfl
@[simp] theorem Glexon.buEnter_ep (phase failed : Nat) : (g.buEnter phase failed).ep = g.ep := by
  unfold Glexon.buEnter; split <;> rfl
@[simp] theorem Glexon.buEnter_ts (phase failed : Nat) : (g.buEnter phase failed).ts = g.ts := by
  unfold Glexon.buEnter; split <;> rfl
@[simp] theorem Glexon.buEnter_rm (phase failed : Nat) : (g.buEnter phase failed).rm = g.rm := by
  unfold Glexon.buEnter; split <;> rfl
@[simp] theorem Glexon.buEnter_ce (phase failed : Nat) : (g.buEnter phase failed).ce = g.ce := by
  unfold Glexon.buEnter; split <;> rfl
@[simp] theorem Glexon.buEnter_ceTick (phase failed : Nat) : (g.buEnter phase failed).ceTick = g.ceTick := by
  unfold Glexon.buEnter; split <;> rfl
@[simp] theorem Glexon.buEnter_mg (phase failed : Nat) : (g.buEnter phase failed).mg = g.mg := by
  unfold Glexon.buEnter; split <;> rfl
@[simp] theorem Glexon.buEnter_ob (phase failed : Nat) : (g.buEnter phase failed).ob = g.ob := by
  unfold Glexon.buEnter; split <;> rfl

/-- An event that finds room in the FIFO is the newest there, and touches no register. -/
theorem Glexon.event_room (code agent : Nat) (args : List Word) (h : g.events.length < 256) :
    (g.event code agent args).regs = g.regs ∧ (g.event code agent args).mg = g.mg ∧ ∃ e : EvItem,
      (g.event code agent args).events = g.events ++ [e] ∧ e.code = code ∧ e.agent = agent ∧ e.args = args := by
  unfold Glexon.event
  rw [if_pos h]
  exact ⟨rfl, rfl, _, rfl, rfl, rfl, rfl⟩

/-- An event touches no register but MG_EVR_STAT. -/
theorem Glexon.rd_event (code agent a : Nat) (args : List Word) (h : a ≠ Reg.MG_EVR_STAT) :
    (g.event code agent args).rd a = g.rd a := by
  unfold Glexon.event
  dsimp only
  split
  · rfl
  · exact Glexon.rd_wr_other _ _ _ _ h

/-- An event keeps everything of the management state but the record of what was lost. -/
theorem Glexon.event_mg (code agent : Nat) (args : List Word) :
    (g.event code agent args).mg = g.mg ∨ ∃ x, (g.event code agent args).mg = { g.mg with lost := some x } := by
  unfold Glexon.event
  dsimp only
  split
  · exact .inl rfl
  · exact .inr ⟨_, rfl⟩

/-- A count touches no register. -/
@[simp] theorem Glexon.rd_count (cls unit ev n a : Nat) : (g.count cls unit ev n).rd a = g.rd a := by
  unfold Glexon.count; split <;> rfl

/-- Bring-up times and phases touch no other register. -/
theorem Glexon.rd_buDone (s a : Nat) (h : a ≠ Reg.MG_BU_TIME s) : (g.buDone s).rd a = g.rd a := by
  unfold Glexon.buDone
  split
  · exact Glexon.rd_wr_other _ _ _ _ h
  · rfl

/-- The same for the phase. -/
theorem Glexon.rd_buEnter (phase failed a : Nat) (h : a ≠ Reg.MG_BU_STATE) : (g.buEnter phase failed).rd a = g.rd a := by
  unfold Glexon.buEnter
  split
  · exact Glexon.rd_wr_other _ _ _ _ h
  · rfl

/-- A field of a register that is added to saturates; other registers stay. -/
theorem Glexon.rd_bumpFld (a lo len n c : Nat) (h : c ≠ a) : (g.bumpFld a lo len n).rd c = g.rd c :=
  Glexon.rd_wr_other _ _ _ _ h

/-- A counter that is added to saturates; other registers stay. -/
theorem Glexon.rd_bump (a n c : Nat) (h : c ≠ a) : (g.bump a n).rd c = g.rd c := Glexon.rd_wr_other _ _ _ _ h

/-- A fold of updates that keep a part of the Glexon keeps it. -/
theorem foldl_keep {α β : Type} (p : Glexon → β) (f : Glexon → α → Glexon) (h : ∀ x a, p (f x a) = p x) (l : List α) (g : Glexon) :
    p (l.foldl f g) = p g := by
  induction l generalizing g with
  | nil => rfl
  | cons a r ih => rw [List.foldl_cons, ih, h]

/-- A bus write that overlaps no engine operation writes its bytes. -/
theorem Glexon.busWrite_mem (self : Option (Nat × Nat)) (a : Nat) (l : List Byte) (h : g.clash self true a l.length = false) :
    (g.busWrite self a l).mem = memWrite g.mem a l := by
  unfold Glexon.busWrite
  rw [h]
  rfl

/-- Such a write changes memory and its poison alone. -/
theorem Glexon.busWrite_eq (self : Option (Nat × Nat)) (a : Nat) (l : List Byte) (h : g.clash self true a l.length = false) :
    g.busWrite self a l = (g.memPut a l).heal a l.length := by
  unfold Glexon.busWrite
  rw [h]
  rfl

/-- A role's tick that is changed is read as changed. -/
@[simp] theorem Glexon.role_modRole (k : Nat) (f : RoleTick → RoleTick) : (g.modRole k f).role k = f (g.role k) :=
  SMap.get_put_same _ _ _ _

end Sys2Proof.Machine
end

