-- ==== Sys2Proof/Laws/Memory.lean ====
section
/-! SUPPORT. Laws of the Glexon's memory: canonical form, read after write, and the bytes that a write leaves alone. -/

namespace Sys2Proof.Machine

/-- A byte outside the bytes written reads as before. -/
theorem memByte_memWrite_other (l : List Byte) (m : SMap Byte) (a i : Nat) (h : i < a ∨ a + l.length ≤ i) :
    memByte (memWrite m a l) i = memByte m i := by
  induction l generalizing m a with
  | nil => rfl
  | cons b r ih =>
    simp only [List.length_cons] at h
    simp only [memWrite]
    rw [ih _ _ (by omega)]
    exact SMap.get_put_other _ _ _ _ _ (by omega)

/-- A byte that was written reads as written. -/
theorem memByte_memWrite_in (l : List Byte) (m : SMap Byte) (a i : Nat) (h : i < l.length) :
    memByte (memWrite m a l) (a + i) = l[i] := by
  induction l generalizing m a i with
  | nil => simp at h
  | cons b r ih =>
    simp only [memWrite]
    cases i with
    | zero =>
      rw [memByte_memWrite_other _ _ _ _ (Or.inl (by omega))]
      exact SMap.get_put_same _ _ _ _
    | succ i =>
      have h' : i < r.length := by simpa using h
      have := ih (SMap.put 0 m a b) (a + 1) i h'
      simpa [Nat.add_assoc, Nat.add_comm 1 i] using this

/-- What was written is read back. -/
theorem memBytes_memWrite (l : List Byte) (m : SMap Byte) (a : Nat) :
    memBytes (memWrite m a l) a l.length = l := by
  apply List.ext_getElem
  · simp [memBytes]
  · intro i h1 h2
    simp only [memBytes, List.getElem_map, List.getElem_range]
    exact memByte_memWrite_in l m a i h2

/-- A write keeps the canonical form. -/
theorem wf_memWrite (l : List Byte) (m : SMap Byte) (a : Nat) (h : Memory.wf m = true) :
    Memory.wf (memWrite m a l) = true := by
  induction l generalizing m a with
  | nil => exact h
  | cons b r ih => exact ih _ _ (SMap.wf_put _ _ _ _ h)

/-- Writing bytes into the Glexon's memory keeps its canonical form. -/
theorem Glexon.wf_memPut (g : Glexon) (a : Nat) (l : List Byte) (h : Memory.wf g.mem = true) :
    Memory.wf (g.memPut a l).mem = true := wf_memWrite l g.mem a h

/-- The bytes written into the Glexon's memory are read back. -/
theorem Glexon.memBytes_memPut (g : Glexon) (a : Nat) (l : List Byte) : memBytes (g.memPut a l).mem a l.length = l :=
  memBytes_memWrite l g.mem a

/-- Every byte outside the bytes written reads as before. -/
theorem Glexon.memByte_memPut_other (g : Glexon) (a i : Nat) (l : List Byte) (h : i < a ∨ a + l.length ≤ i) :
    memByte (g.memPut a l).mem i = memByte g.mem i := memByte_memWrite_other l g.mem a i h

/-- The memory at reset lists nothing. -/
theorem wf_reset : Memory.wf Glexon.reset.mem = true := rfl

end Sys2Proof.Machine
end

