-- ==== Sys2Proof/Laws/Slots.lean ====
section
/-! SUPPORT. A slot that issues and executes does what its opcode's meaning says, once and for all forms. -/

namespace Sys2Proof.Machine

/-- The slot as its meaning sees it. -/
def State.slotView (s : State) (f : Form) (o : SlotOp) : Slot :=
  { gx := s.gx.entered o, n := o.core.toNat, k := s.slotCore o, o := o,
    mask := match f.c with
      | .pred => (s.slotCore o).mask o.c
      | .sel => (s.slotCore o).mask o.c
      | _ => BitVec.allOnes 32 }

theorem slotReady_iff (s : State) (f : Form) (o : SlotOp) :
    s.slotReady f o = true ↔ s.gx.coreUp = true ∧ s.gx.fetches f o = true ∧ (s.slotCore o).isOpen = true ∧
      (f.blocked (s.slotCore o) o).isEmpty = true ∧ f.slots.testBit o.slot.toNat = true ∧ f.legal o = true ∧
      f.runs (s.slotCore o) o = true := by
  simp only [State.slotReady, Bool.and_eq_true, and_assoc]

/-- What a ready slot does is its meaning, applied to the slot's view. -/
theorem slotCmd_ready {s : State} {f : Form} {o : SlotOp} (sem : Slot → SlotRes) (h : s.slotReady f o = true) :
    slotCmd f sem o s = .next { s with gx := (s.gx.entered o).finish o.core.toNat o (sem (s.slotView f o)) } := by
  obtain ⟨h1, h2, h3, h4, h5, h6, h7⟩ := (slotReady_iff s f o).1 h
  have hc : f.c.legal o.c = true := by
    simp only [Form.legal, Bool.and_eq_true] at h6
    exact h6.1.2
  have hb : f.blocked (s.slotCore o) o = [] := List.isEmpty_iff.1 h4
  have ho : ((if o.first = true then s.gx.openBundle o.core.toNat else s.gx).core o.core.toNat).isOpen = true := h3
  have hb' : f.blocked ((s.gx.entered o).core o.core.toNat) o = [] := hb
  simp only [slotCmd, onCore, h1, if_true, Glexon.slotOp, h2, Bool.true_eq_false, if_false]
  rw [if_pos ho]
  simp only [Glexon.issueSlot]
  have he : (if o.first = true then s.gx.openBundle o.core.toNat else s.gx) = s.gx.entered o := rfl
  rw [he, if_neg (by simp [hb']), if_neg (by simp [h5]), if_neg (by simp [hc])]
  have hk : (s.gx.entered o).core o.core.toNat = s.slotCore o := rfl
  rw [hk]
  cases hf : f.c <;> simp only [Form.runs, hf] at h7 <;> simp only [State.slotView, hf]
  case pred =>
    rw [if_neg (by cases hl : f.lanes <;> simp_all), if_neg (by simp [h6])]
  all_goals rw [if_neg (by simp), if_neg (by simp [h6])]

end Sys2Proof.Machine
end

