-- ==== Sys2Proof/Laws/Tick.lean ====
section
/-! SUPPORT. A boundary's effects on the rest of the chip leave the Time Keeper alone (R190). -/

set_option linter.unusedTactic false
set_option linter.unreachableTactic false
set_option linter.unusedSimpArgs false

namespace Sys2Proof.Machine

/-- A fold of updates that leave the Time Keeper alone does so. -/
theorem foldl_tk {α : Type} (f : Glexon → α → Glexon) (h : ∀ x a, (f x a).tk = x.tk) (l : List α) (g : Glexon) :
    (l.foldl f g).tk = g.tk := by
  induction l generalizing g with
  | nil => rfl
  | cons a r ih => rw [List.foldl_cons, ih, h]

/-- The same for a fold that carries a number along. -/
theorem foldl_fst_tk {α : Type} (f : Glexon × Nat → α → Glexon × Nat) (h : ∀ x a, (f x a).1.tk = x.1.tk) (l : List α)
    (p : Glexon × Nat) : (l.foldl f p).1.tk = p.1.tk := by
  induction l generalizing p with
  | nil => rfl
  | cons a r ih => rw [List.foldl_cons, ih, h]

@[simp] theorem Glexon.rwtPut_tk (g : Glexon) (a : Nat) (v : Word) : (Glexon.rwtPut g a v).tk = g.tk := by
  unfold Glexon.rwtPut
  try dsimp only
  repeat' (first | with_reducible rfl | intro _ | split | with_reducible refine foldl_tk _ ?_ _ _
                  | with_reducible refine Eq.trans (foldl_tk _ ?_ _ _) ?_ | simp only [Glexon.put_tk] | simp)

@[simp] theorem Glexon.put_tk (g : Glexon) (a : Nat) (v : Word) : (Glexon.put g a v).tk = g.tk := by
  unfold Glexon.put
  try dsimp only
  repeat' (first | with_reducible rfl | intro _ | split | with_reducible refine foldl_tk _ ?_ _ _
                  | with_reducible refine Eq.trans (foldl_tk _ ?_ _ _) ?_ | simp only [Glexon.rwtPut_tk, Glexon.wr_tk] | simp)

@[simp] theorem Glexon.bumpFld_tk (g : Glexon) (a lo len n : Nat) : (Glexon.bumpFld g a lo len n).tk = g.tk := by
  unfold Glexon.bumpFld
  try dsimp only
  repeat' (first | with_reducible rfl | intro _ | split | with_reducible refine foldl_tk _ ?_ _ _
                  | with_reducible refine Eq.trans (foldl_tk _ ?_ _ _) ?_ | simp only [Glexon.wr_tk] | simp)

@[simp] theorem Glexon.bump_tk (g : Glexon) (a n : Nat) : (Glexon.bump g a n).tk = g.tk := by
  unfold Glexon.bump
  try dsimp only
  repeat' (first | with_reducible rfl | intro _ | split | with_reducible refine foldl_tk _ ?_ _ _
                  | with_reducible refine Eq.trans (foldl_tk _ ?_ _ _) ?_ | simp only [Glexon.wr_tk] | simp)

@[simp] theorem Glexon.correct_tk (g : Glexon) (x : LineIn) : (Glexon.correct g x).tk = g.tk := by
  unfold Glexon.correct
  try dsimp only
  repeat' (first | with_reducible rfl | intro _ | split | with_reducible refine foldl_tk _ ?_ _ _
                  | with_reducible refine Eq.trans (foldl_tk _ ?_ _ _) ?_ | simp only [Glexon.event_tk, Glexon.modEp_tk, Glexon.put_tk, Glexon.wr_tk] | simp)

@[simp] theorem Glexon.epClose_tk (g : Glexon) (b : BoundaryIn) : (Glexon.epClose g b).tk = g.tk := by
  unfold Glexon.epClose
  try dsimp only
  repeat' (first | with_reducible rfl | intro _ | split | with_reducible refine foldl_tk _ ?_ _ _
                  | with_reducible refine Eq.trans (foldl_tk _ ?_ _ _) ?_ | simp only [Glexon.bump_tk, Glexon.correct_tk, Glexon.event_tk, Glexon.modEp_tk, Glexon.wr_tk] | simp)

@[simp] theorem Glexon.esTickEnd_tk (g : Glexon) : (Glexon.esTickEnd g).tk = g.tk := by
  unfold Glexon.esTickEnd
  try dsimp only
  repeat' (first | with_reducible rfl | intro _ | split | with_reducible refine foldl_tk _ ?_ _ _
                  | with_reducible refine Eq.trans (foldl_tk _ ?_ _ _) ?_ | simp only [Glexon.event_tk, Glexon.modEs_tk, Glexon.wr_tk] | simp)

@[simp] theorem Glexon.lossTick_tk (g : Glexon) : (Glexon.lossTick g).tk = g.tk := by
  unfold Glexon.lossTick
  rw [Glexon.modFl_tk]

@[simp] theorem Glexon.tellApplied_tk (g : Glexon) : (Glexon.tellApplied g).tk = g.tk := by
  unfold Glexon.tellApplied
  try dsimp only
  repeat' (first | with_reducible rfl | intro _ | split | with_reducible refine foldl_tk _ ?_ _ _
                  | with_reducible refine Eq.trans (foldl_tk _ ?_ _ _) ?_ | simp only [Glexon.event_tk] | simp)

@[simp] theorem Glexon.tellAuth_tk (g : Glexon) : (Glexon.tellAuth g).tk = g.tk := by
  unfold Glexon.tellAuth
  try dsimp only
  repeat' (first | with_reducible rfl | intro _ | split | with_reducible refine foldl_tk _ ?_ _ _
                  | with_reducible refine Eq.trans (foldl_tk _ ?_ _ _) ?_ | simp only [Glexon.event_tk] | simp)

/-- OB_SNAP_k are written one after another. -/
theorem obsSnap_aux (v : Nat → Word) (g g1 : Glexon) (a : Nat) (w : Word) (o : SMap Nat) (b : Observe)
    (h : g1 = (List.range 256).foldl (fun (h : Glexon) k => h.wr (Reg.OB_SNAP k) (v k)) g) :
    ({ (g1.wr a w) with obs := o, ob := b } : Glexon).tk = g.tk := by
  rw [show g.tk = g1.tk from by rw [h, foldl_tk]; intros; rfl]
  rfl

@[simp] theorem Glexon.obsSnap_tk (g : Glexon) (n : Word) (l : List ObsIn) : (Glexon.obsSnap g n l).tk = g.tk := by
  unfold Glexon.obsSnap
  exact obsSnap_aux _ _ _ _ _ _ _ rfl

@[simp] theorem Glexon.begun_tk (g : Glexon) (n : Word) : (Glexon.begun g n).tk = g.tk := by
  unfold Glexon.begun
  try dsimp only
  repeat' (first | with_reducible rfl | intro _ | split | with_reducible refine foldl_tk _ ?_ _ _
                  | with_reducible refine Eq.trans (foldl_tk _ ?_ _ _) ?_ | simp only [Glexon.buDone_tk, Glexon.buEnter_tk, Glexon.event_tk] | simp)

@[simp] theorem Glexon.gatesDue_tk (g : Glexon) (n : Word) : (Glexon.gatesDue g n).tk = g.tk := by
  unfold Glexon.gatesDue
  try dsimp only
  repeat' (first | with_reducible rfl | intro _ | split | with_reducible refine foldl_tk _ ?_ _ _
                  | with_reducible refine Eq.trans (foldl_tk _ ?_ _ _) ?_ | simp only [Glexon.rwtPut_tk] | simp)

@[simp] theorem Glexon.rwtBoundary_tk (g : Glexon) (n : Word) : (Glexon.rwtBoundary g n).tk = g.tk := by
  unfold Glexon.rwtBoundary
  try dsimp only
  repeat' (first | with_reducible rfl | intro _ | split | with_reducible refine foldl_tk _ ?_ _ _
                  | with_reducible refine Eq.trans (foldl_tk _ ?_ _ _) ?_ | simp only [Glexon.event_tk, Glexon.wr_tk] | simp)

@[simp] theorem Glexon.applySusp_tk (g : Glexon) : (Glexon.applySusp g).tk = g.tk := by
  unfold Glexon.applySusp
  try dsimp only
  repeat' (first | with_reducible rfl | intro _ | split | with_reducible refine foldl_tk _ ?_ _ _
                  | with_reducible refine Eq.trans (foldl_tk _ ?_ _ _) ?_ | simp only [Glexon.event_tk, Glexon.wr_tk] | simp)

@[simp] theorem Glexon.newCmd_tk (g : Glexon) (typ target : Nat) (eff : Word) (args : List Byte) : (Glexon.newCmd g typ target eff args).2.tk = g.tk := by
  unfold Glexon.newCmd
  try dsimp only
  repeat' (first | with_reducible rfl | intro _ | split | with_reducible refine foldl_tk _ ?_ _ _
                  | with_reducible refine Eq.trans (foldl_tk _ ?_ _ _) ?_ | simp only [Glexon.wr_tk] | simp)

@[simp] theorem Glexon.sendCopy_tk (g : Glexon) (c : CmdCopy) : (Glexon.sendCopy g c).tk = g.tk := by
  unfold Glexon.sendCopy
  try dsimp only
  repeat' (first | with_reducible rfl | intro _ | split | with_reducible refine foldl_tk _ ?_ _ _
                  | with_reducible refine Eq.trans (foldl_tk _ ?_ _ _) ?_ | simp)

@[simp] theorem Glexon.fifoPut_tk (g : Glexon) (r : Rec) : (Glexon.fifoPut g r).tk = g.tk := by
  unfold Glexon.fifoPut
  try dsimp only
  repeat' (first | with_reducible rfl | intro _ | split | with_reducible refine foldl_tk _ ?_ _ _
                  | with_reducible refine Eq.trans (foldl_tk _ ?_ _ _) ?_ | simp only [Glexon.bumpFld_tk, Glexon.event_tk] | simp)

@[simp] theorem Glexon.originate_tk (g : Glexon) (typ target : Nat) (eff : Word) (args : List Byte) (dst : Nat) : (Glexon.originate g typ target eff args dst).tk = g.tk := by
  unfold Glexon.originate
  try dsimp only
  repeat' (first | with_reducible rfl | intro _ | split | with_reducible refine foldl_tk _ ?_ _ _
                  | with_reducible refine Eq.trans (foldl_tk _ ?_ _ _) ?_ | simp only [Glexon.fifoPut_tk, Glexon.newCmd_tk, Glexon.sendCopy_tk] | simp)

@[simp] theorem Glexon.announce_tk (g : Glexon) (k : Nat) : (Glexon.announce g k).tk = g.tk := by
  unfold Glexon.announce
  try dsimp only
  repeat' (first | with_reducible rfl | intro _ | split | with_reducible refine foldl_tk _ ?_ _ _
                  | with_reducible refine Eq.trans (foldl_tk _ ?_ _ _) ?_ | simp only [Glexon.buEnter_tk, Glexon.originate_tk, Glexon.put_tk, Glexon.wr_tk] | simp)

@[simp] theorem Glexon.readyCheck_tk (g : Glexon) : (Glexon.readyCheck g).tk = g.tk := by
  unfold Glexon.readyCheck
  try dsimp only
  repeat' (first | with_reducible rfl | intro _ | split | with_reducible refine foldl_tk _ ?_ _ _
                  | with_reducible refine Eq.trans (foldl_tk _ ?_ _ _) ?_ | simp only [Glexon.announce_tk, Glexon.buDone_tk] | simp)

@[simp] theorem Glexon.layPairs_tk (g : Glexon) : (Glexon.layPairs g).tk = g.tk := by
  unfold Glexon.layPairs
  try dsimp only
  repeat' (first | with_reducible rfl | intro _ | split | with_reducible refine foldl_tk _ ?_ _ _
                  | with_reducible refine Eq.trans (foldl_tk _ ?_ _ _) ?_ | simp only [Glexon.memPut_tk] | simp)

@[simp] theorem Glexon.imageSwap_tk (g : Glexon) (b : Word) : (Glexon.imageSwap g b).tk = g.tk := by
  unfold Glexon.imageSwap
  try dsimp only
  repeat' (first | with_reducible rfl | intro _ | split | with_reducible refine foldl_tk _ ?_ _ _
                  | with_reducible refine Eq.trans (foldl_tk _ ?_ _ _) ?_ | simp only [Glexon.applySusp_tk, Glexon.buDone_tk, Glexon.buEnter_tk, Glexon.event_tk, Glexon.layPairs_tk, Glexon.readyCheck_tk, Glexon.wr_tk] | simp)

@[simp] theorem Glexon.badSel_tk (g : Glexon) : (Glexon.badSel g).tk = g.tk := by
  unfold Glexon.badSel
  try dsimp only
  repeat' (first | with_reducible rfl | intro _ | split | with_reducible refine foldl_tk _ ?_ _ _
                  | with_reducible refine Eq.trans (foldl_tk _ ?_ _ _) ?_ | simp only [Glexon.wr_tk] | simp)

@[simp] theorem Glexon.obsSources_tk (g : Glexon) (changed : Bool) : (Glexon.obsSources g changed).tk = g.tk := by
  unfold Glexon.obsSources
  try dsimp only
  repeat' (first | with_reducible rfl | intro _ | split | with_reducible refine foldl_tk _ ?_ _ _
                  | with_reducible refine Eq.trans (foldl_tk _ ?_ _ _) ?_ | simp only [Glexon.badSel_tk, Glexon.setSrc_tk] | simp)

@[simp] theorem Glexon.setSlot_tk (g : Glexon) (k : Nat) (s : ModelSlot) (code : Nat) : (Glexon.setSlot g k s code).tk = g.tk := by
  unfold Glexon.setSlot
  try dsimp only
  repeat' (first | with_reducible rfl | intro _ | split | with_reducible refine foldl_tk _ ?_ _ _
                  | with_reducible refine Eq.trans (foldl_tk _ ?_ _ _) ?_ | simp only [Glexon.modEs_tk, Glexon.put_tk, Glexon.wr_tk] | simp)

@[simp] theorem Glexon.esActivate_tk (g : Glexon) (n : Word) : (Glexon.esActivate g n).tk = g.tk := by
  unfold Glexon.esActivate
  try dsimp only
  repeat' (first | with_reducible rfl | intro _ | split | with_reducible refine foldl_tk _ ?_ _ _
                  | with_reducible refine Eq.trans (foldl_tk _ ?_ _ _) ?_ | simp only [Glexon.event_tk, Glexon.setSlot_tk] | simp)

@[simp] theorem Glexon.aliveBoundary_tk (g : Glexon) (was : List Nat) (d : Word) : (Glexon.aliveBoundary g was d).tk = g.tk := by
  unfold Glexon.aliveBoundary
  try dsimp only
  repeat' (first | with_reducible rfl | intro _ | split | with_reducible refine foldl_tk _ ?_ _ _
                  | with_reducible refine Eq.trans (foldl_tk _ ?_ _ _) ?_ | simp only [Glexon.modFl_tk, Glexon.put_tk] | simp)

@[simp] theorem Glexon.rolesBegin_tk (g : Glexon) (n : Word) : (Glexon.rolesBegin g n).tk = g.tk := by
  unfold Glexon.rolesBegin
  try dsimp only
  repeat' (first | with_reducible rfl | intro _ | split | with_reducible refine foldl_tk _ ?_ _ _
                  | with_reducible refine Eq.trans (foldl_tk _ ?_ _ _) ?_ | simp only [Glexon.modFl_tk, Glexon.put_tk] | simp)

@[simp] theorem Glexon.newRec_tk (g : Glexon) (k typ cls : Nat) (n : Word) (ws gen flags : Nat) (payload : List Byte) : (Glexon.newRec g k typ cls n ws gen flags payload).2.tk = g.tk := by
  unfold Glexon.newRec
  try dsimp only
  repeat' (first | with_reducible rfl | intro _ | split | with_reducible refine foldl_tk _ ?_ _ _
                  | with_reducible refine Eq.trans (foldl_tk _ ?_ _ _) ?_ | simp)

@[simp] theorem Glexon.putIngest_tk (g : Glexon) (k : Nat) (i : Ing) : (Glexon.putIngest g k i).tk = g.tk := by
  unfold Glexon.putIngest
  try dsimp only
  repeat' (first | with_reducible rfl | intro _ | split | with_reducible refine foldl_tk _ ?_ _ _
                  | with_reducible refine Eq.trans (foldl_tk _ ?_ _ _) ?_ | simp only [Glexon.put_tk] | simp)

@[simp] theorem Glexon.setEgress_tk (g : Glexon) (p : Nat) (e : Egress) : (Glexon.setEgress g p e).tk = g.tk := by
  unfold Glexon.setEgress
  try dsimp only
  repeat' (first | with_reducible rfl | intro _ | split | with_reducible refine foldl_tk _ ?_ _ _
                  | with_reducible refine Eq.trans (foldl_tk _ ?_ _ _) ?_ | simp only [Glexon.put_tk] | simp)

@[simp] theorem Glexon.enqueue_tk (g : Glexon) (p q : Nat) (f : Frame) : (Glexon.enqueue g p q f).tk = g.tk := by
  unfold Glexon.enqueue
  try dsimp only
  repeat' (first | with_reducible rfl | intro _ | split | with_reducible refine foldl_tk _ ?_ _ _
                  | with_reducible refine Eq.trans (foldl_tk _ ?_ _ _) ?_ | simp only [Glexon.bump_tk, Glexon.put_tk, Glexon.setEgress_tk] | simp)

@[simp] theorem Glexon.upward_tk (g : Glexon) (k : Nat) (r : Rec) : (Glexon.upward g k r).tk = g.tk := by
  unfold Glexon.upward
  try dsimp only
  repeat' (first | with_reducible rfl | intro _ | split | with_reducible refine foldl_tk _ ?_ _ _
                  | with_reducible refine Eq.trans (foldl_tk _ ?_ _ _) ?_ | simp only [Glexon.enqueue_tk, Glexon.putIngest_tk] | simp)

@[simp] theorem Glexon.amber_tk (g : Glexon) (k typ : Nat) (n : Word) (ws gen flags : Nat) (payload : List Byte) : (Glexon.amber g k typ n ws gen flags payload).tk = g.tk := by
  unfold Glexon.amber
  try dsimp only
  repeat' (first | with_reducible rfl | intro _ | split | with_reducible refine foldl_tk _ ?_ _ _
                  | with_reducible refine Eq.trans (foldl_tk _ ?_ _ _) ?_ | simp only [Glexon.newRec_tk, Glexon.upward_tk] | simp)

@[simp] theorem Glexon.auBoundary_tk (g : Glexon) (n : Word) : (Glexon.auBoundary g n).tk = g.tk := by
  unfold Glexon.auBoundary
  try dsimp only
  repeat' (first | with_reducible rfl | intro _ | split | with_reducible refine foldl_tk _ ?_ _ _
                  | with_reducible refine Eq.trans (foldl_tk _ ?_ _ _) ?_ | simp only [Glexon.amber_tk, Glexon.event_tk, Glexon.modAu_tk, Glexon.wr_tk] | simp)

@[simp] theorem Glexon.wsFree_tk (g : Glexon) (n : Word) : (Glexon.wsFree g n).tk = g.tk := by
  unfold Glexon.wsFree
  try dsimp only
  repeat' (first | with_reducible rfl | intro _ | split | with_reducible refine foldl_tk _ ?_ _ _
                  | with_reducible refine Eq.trans (foldl_tk _ ?_ _ _) ?_ | simp)

@[simp] theorem Glexon.stamp9_tk (g : Glexon) (p : Nat) (n : Word) (id gen : Nat) : (Glexon.stamp9 g p n id gen).tk = g.tk := by
  unfold Glexon.stamp9
  try dsimp only
  repeat' (first | with_reducible rfl | intro _ | split | with_reducible refine foldl_tk _ ?_ _ _
                  | with_reducible refine Eq.trans (foldl_tk _ ?_ _ _) ?_ | simp only [Glexon.put_tk] | simp)

@[simp] theorem Glexon.leafTeardown_tk (g : Glexon) (n : Word) (id gen : Nat) : (Glexon.leafTeardown g n id gen).tk = g.tk := by
  unfold Glexon.leafTeardown
  try dsimp only
  repeat' (first | with_reducible rfl | intro _ | split | with_reducible refine foldl_tk _ ?_ _ _
                  | with_reducible refine Eq.trans (foldl_tk _ ?_ _ _) ?_ | simp only [Glexon.stamp9_tk] | simp)

@[simp] theorem Glexon.setWs_tk (g : Glexon) (k id : Nat) (e : WsEntry) : (Glexon.setWs g k id e).tk = g.tk := by
  unfold Glexon.setWs
  try dsimp only
  repeat' (first | with_reducible rfl | intro _ | split | with_reducible refine foldl_tk _ ?_ _ _
                  | with_reducible refine Eq.trans (foldl_tk _ ?_ _ _) ?_ | simp only [Glexon.put_tk] | simp)

@[simp] theorem Glexon.dropHeld_tk (g : Glexon) (id : Nat) : (Glexon.dropHeld g id).tk = g.tk := by
  unfold Glexon.dropHeld
  try dsimp only
  repeat' (first | with_reducible rfl | intro _ | split | with_reducible refine foldl_tk _ ?_ _ _
                  | with_reducible refine Eq.trans (foldl_tk _ ?_ _ _) ?_ | simp)

@[simp] theorem Glexon.leafCreate_tk (g : Glexon) (n : Word) (id gen : Nat) : (Glexon.leafCreate g n id gen).tk = g.tk := by
  unfold Glexon.leafCreate
  try dsimp only
  repeat' (first | with_reducible rfl | intro _ | split | with_reducible refine foldl_tk _ ?_ _ _
                  | with_reducible refine Eq.trans (foldl_tk _ ?_ _ _) ?_ | simp only [Glexon.event_tk, Glexon.stamp9_tk] | simp)

@[simp] theorem Glexon.sendDown_tk (g : Glexon) (r : Rec) (k : Nat) : (Glexon.sendDown g r k).tk = g.tk := by
  unfold Glexon.sendDown
  try dsimp only
  repeat' (first | with_reducible rfl | intro _ | split | with_reducible refine foldl_tk _ ?_ _ _
                  | with_reducible refine Eq.trans (foldl_tk _ ?_ _ _) ?_ | simp only [Glexon.sendCopy_tk] | simp)

@[simp] theorem Glexon.wsApply_tk (g : Glexon) (n : Word) (w : WsPend) : (Glexon.wsApply g n w).tk = g.tk := by
  unfold Glexon.wsApply
  try dsimp only
  repeat' (first | with_reducible rfl | intro _ | split | with_reducible refine foldl_tk _ ?_ _ _
                  | with_reducible refine Eq.trans (foldl_tk _ ?_ _ _) ?_ | simp only [Glexon.dropHeld_tk, Glexon.leafCreate_tk, Glexon.leafTeardown_tk, Glexon.sendDown_tk, Glexon.setWs_tk] | simp)

@[simp] theorem Glexon.writeStamps_tk (g : Glexon) (before : SMap (List (Word × Nat × Nat))) : (Glexon.writeStamps g before).tk = g.tk := by
  unfold Glexon.writeStamps
  try dsimp only
  repeat' (first | with_reducible rfl | intro _ | split | with_reducible refine foldl_tk _ ?_ _ _
                  | with_reducible refine Eq.trans (foldl_tk _ ?_ _ _) ?_ | simp only [Glexon.modPort_tk] | simp)

@[simp] theorem Glexon.wsBoundary_tk (g : Glexon) (n : Word) : (Glexon.wsBoundary g n).tk = g.tk := by
  unfold Glexon.wsBoundary
  try dsimp only
  repeat' (first | with_reducible rfl | intro _ | split | with_reducible refine foldl_tk _ ?_ _ _
                  | with_reducible refine Eq.trans (foldl_tk _ ?_ _ _) ?_ | simp only [Glexon.writeStamps_tk, Glexon.wsApply_tk] | simp)

@[simp] theorem Glexon.wsTake_tk (g : Glexon) (r : Rec) : (Glexon.wsTake g r).tk = g.tk := by
  unfold Glexon.wsTake
  try dsimp only
  repeat' (first | with_reducible rfl | intro _ | split | with_reducible refine foldl_tk _ ?_ _ _
                  | with_reducible refine Eq.trans (foldl_tk _ ?_ _ _) ?_ | simp)

@[simp] theorem Glexon.mbxReply_tk (g : Glexon) (id : BitVec 32) (status : Nat) (data : List Byte) : (Glexon.mbxReply g id status data).tk = g.tk := by
  unfold Glexon.mbxReply
  dsimp only
  rw [Glexon.wr_tk]
  generalize wordsOf _ = ws
  rw [foldl_tk]
  intros
  rw [Glexon.wr_tk]

@[simp] theorem Glexon.wsDecideOne_tk (g : Glexon) (a : Word) (n : Nat) (q : MbxSub) : (Glexon.wsDecideOne g a n q).1.tk = g.tk := by
  unfold Glexon.wsDecideOne
  try dsimp only
  repeat' (first | with_reducible rfl | intro _ | split | with_reducible refine foldl_tk _ ?_ _ _
                  | with_reducible refine Eq.trans (foldl_tk _ ?_ _ _) ?_ | simp only [Glexon.event_tk, Glexon.mbxReply_tk, Glexon.newCmd_tk, Glexon.put_tk, Glexon.sendDown_tk, Glexon.setWs_tk, Glexon.wsTake_tk] | simp)

@[simp] theorem Glexon.wsDecide_tk (g : Glexon) (a : Word) : (Glexon.wsDecide g a).tk = g.tk := by
  unfold Glexon.wsDecide
  dsimp only
  rw [foldl_fst_tk]
  exact fun x q => Glexon.wsDecideOne_tk _ _ _ _

@[simp] theorem Glexon.keyBoundary_tk (g : Glexon) (n : Word) : (Glexon.keyBoundary g n).tk = g.tk := by
  unfold Glexon.keyBoundary
  try dsimp only
  repeat' (first | with_reducible rfl | intro _ | split | with_reducible refine foldl_tk _ ?_ _ _
                  | with_reducible refine Eq.trans (foldl_tk _ ?_ _ _) ?_ | simp only [Glexon.modPort_tk, Glexon.wr_tk] | simp)

@[simp] theorem Glexon.selectVariant_tk (g : Glexon) : (Glexon.selectVariant g).tk = g.tk := by
  unfold Glexon.selectVariant
  try dsimp only
  repeat' (first | with_reducible rfl | intro _ | split | with_reducible refine foldl_tk _ ?_ _ _
                  | with_reducible refine Eq.trans (foldl_tk _ ?_ _ _) ?_ | simp only [Glexon.applySusp_tk, Glexon.event_tk, Glexon.wr_tk] | simp)

@[simp] theorem Glexon.rolesPart_tk (g : Glexon) (mask : Nat) : (Glexon.rolesPart g mask).tk = g.tk := by
  unfold Glexon.rolesPart
  try dsimp only
  repeat' (first | with_reducible rfl | intro _ | split | with_reducible refine foldl_tk _ ?_ _ _
                  | with_reducible refine Eq.trans (foldl_tk _ ?_ _ _) ?_ | simp only [Glexon.modRole_tk] | simp)

@[simp] theorem Glexon.coreAtBoundary_tk (g : Glexon) (n : Nat) : (Glexon.coreAtBoundary g n).tk = g.tk := by
  unfold Glexon.coreAtBoundary
  try dsimp only
  repeat' (first | with_reducible rfl | intro _ | split | with_reducible refine foldl_tk _ ?_ _ _
                  | with_reducible refine Eq.trans (foldl_tk _ ?_ _ _) ?_ | simp only [Glexon.setCore_tk, Glexon.wr_tk] | simp)

@[simp] theorem Glexon.coresAtBoundary_tk (g : Glexon) : (Glexon.coresAtBoundary g).tk = g.tk := by
  unfold Glexon.coresAtBoundary
  try dsimp only
  repeat' (first | with_reducible rfl | intro _ | split | with_reducible refine foldl_tk _ ?_ _ _
                  | with_reducible refine Eq.trans (foldl_tk _ ?_ _ _) ?_ | simp only [Glexon.coreAtBoundary_tk, Glexon.rolesPart_tk, Glexon.wr_tk] | simp)

@[simp] theorem Glexon.gateEntry_tk (g : Glexon) (e : Nat) : (Glexon.gateEntry g e).tk = g.tk := by
  unfold Glexon.gateEntry
  try dsimp only
  repeat' (first | with_reducible rfl | intro _ | split | with_reducible refine foldl_tk _ ?_ _ _
                  | with_reducible refine Eq.trans (foldl_tk _ ?_ _ _) ?_ | simp)

@[simp] theorem Glexon.tickBlocks_tk (g : Glexon) : (Glexon.tickBlocks g).tk = g.tk := by
  unfold Glexon.tickBlocks
  try dsimp only
  repeat' (first | with_reducible rfl | intro _ | split | with_reducible refine foldl_tk _ ?_ _ _
                  | with_reducible refine Eq.trans (foldl_tk _ ?_ _ _) ?_ | simp)

@[simp] theorem Glexon.qpsBoundary_tk (g : Glexon) : (Glexon.qpsBoundary g).tk = g.tk := by
  unfold Glexon.qpsBoundary
  try dsimp only
  repeat' (first | with_reducible rfl | intro _ | split | with_reducible refine foldl_tk _ ?_ _ _
                  | with_reducible refine Eq.trans (foldl_tk _ ?_ _ _) ?_ | simp)

@[simp] theorem Glexon.sendAllDown_tk (g : Glexon) (r : Rec) : (Glexon.sendAllDown g r).tk = g.tk := by
  unfold Glexon.sendAllDown
  try dsimp only
  repeat' (first | with_reducible rfl | intro _ | split | with_reducible refine foldl_tk _ ?_ _ _
                  | with_reducible refine Eq.trans (foldl_tk _ ?_ _ _) ?_ | simp only [Glexon.sendDown_tk] | simp)

@[simp] theorem Glexon.sendBeacon_tk (g : Glexon) : (Glexon.sendBeacon g).tk = g.tk := by
  unfold Glexon.sendBeacon
  try dsimp only
  repeat' (first | with_reducible rfl | intro _ | split | with_reducible refine foldl_tk _ ?_ _ _
                  | with_reducible refine Eq.trans (foldl_tk _ ?_ _ _) ?_ | simp only [Glexon.newCmd_tk, Glexon.sendAllDown_tk] | simp)

@[simp] theorem Glexon.rwIndex_tk (g : Glexon) : (Glexon.rwIndex g).tk = g.tk := by
  unfold Glexon.rwIndex
  try dsimp only
  repeat' (first | with_reducible rfl | intro _ | split | with_reducible refine foldl_tk _ ?_ _ _
                  | with_reducible refine Eq.trans (foldl_tk _ ?_ _ _) ?_ | simp only [Glexon.memPut_tk] | simp)

@[simp] theorem Glexon.epBegin_tk (g : Glexon) : (Glexon.epBegin g).tk = g.tk := by
  unfold Glexon.epBegin
  try dsimp only
  repeat' (first | with_reducible rfl | intro _ | split | with_reducible refine foldl_tk _ ?_ _ _
                  | with_reducible refine Eq.trans (foldl_tk _ ?_ _ _) ?_ | simp only [Glexon.modEp_tk, Glexon.wr_tk] | simp)

@[simp] theorem Glexon.collTick_tk (g : Glexon) : (Glexon.collTick g).tk = g.tk := by
  unfold Glexon.collTick
  try dsimp only
  repeat' (first | with_reducible rfl | intro _ | split | with_reducible refine foldl_tk _ ?_ _ _
                  | with_reducible refine Eq.trans (foldl_tk _ ?_ _ _) ?_ | simp only [Glexon.modFl_tk, Glexon.put_tk] | simp)

end Sys2Proof.Machine
end

