-- ==== Sys2Proof/Laws/Vector.lean ====
section
/-! SUPPORT. The elements of a vector that is put together from elements, and the lanes of a mask. -/

namespace Sys2Proof.Machine

/-- The number that elements of `w` bits make. -/
def packNat (w : Nat) (l : List Nat) : Nat := l.foldr (fun e acc => e % 2 ^ w + 2 ^ w * acc) 0

theorem packNat_lt (w : Nat) : ∀ l : List Nat, packNat w l < 2 ^ (w * l.length)
  | [] => by simp [packNat]
  | e :: r => by
    have ih := packNat_lt w r
    have h1 : e % 2 ^ w < 2 ^ w := Nat.mod_lt _ (Nat.two_pow_pos w)
    have h2 : packNat w (e :: r) = e % 2 ^ w + 2 ^ w * packNat w r := rfl
    rw [h2, List.length_cons, Nat.mul_succ, Nat.add_comm, Nat.pow_add, Nat.mul_comm (2 ^ (w * r.length))]
    calc 2 ^ w * packNat w r + e % 2 ^ w < 2 ^ w * packNat w r + 2 ^ w := by omega
      _ = 2 ^ w * (packNat w r + 1) := by rw [Nat.mul_add, Nat.mul_one]
      _ ≤ 2 ^ w * 2 ^ (w * r.length) := Nat.mul_le_mul_left _ ih

theorem packNat_elem (w : Nat) : ∀ (l : List Nat) (j : Nat), fldN (packNat w l) (w * j) w = (l.getD j 0) % 2 ^ w
  | [], j => by simp [packNat, fldN]
  | e :: r, 0 => by
    have h2 : packNat w (e :: r) = e % 2 ^ w + 2 ^ w * packNat w r := rfl
    simp [fldN, h2]
  | e :: r, j + 1 => by
    have ih := packNat_elem w r j
    have h2 : packNat w (e :: r) = e % 2 ^ w + 2 ^ w * packNat w r := rfl
    have h1 : e % 2 ^ w < 2 ^ w := Nat.mod_lt _ (Nat.two_pow_pos w)
    simp only [fldN, List.getD_cons_succ] at ih ⊢
    rw [← ih, h2, Nat.mul_succ, Nat.add_comm (w * j) w, Nat.shiftRight_add]
    congr 2
    rw [Nat.shiftRight_eq_div_pow, Nat.add_mul_div_left _ _ (Nat.two_pow_pos w), Nat.div_eq_of_lt h1, Nat.zero_add]

/-- An element of a packed vector is the element given for it, in its width. -/
theorem fld_packV (w : Nat) (l : List Nat) (j : Nat) (h : w * l.length ≤ 1024) :
    fld (packV w l) (w * j) w = (l.getD j 0) % 2 ^ w := by
  have hlt : packNat w l < 2 ^ 1024 :=
    Nat.lt_of_lt_of_le (packNat_lt w l) (Nat.pow_le_pow_right (by decide) h)
  have : (packV w l).toNat = packNat w l := by
    change (BitVec.ofNat 1024 (packNat w l)).toNat = _
    rw [BitVec.toNat_ofNat, Nat.mod_eq_of_lt hlt]
  rw [fld, this, packNat_elem]

theorem elems_length (w : Nat) (v : VReg) : (elems w v).length = 1024 / w := by simp [elems]

theorem elems_getD (w : Nat) (v : VReg) (j : Nat) (h : j < 1024 / w) : (elems w v).getD j 0 = fld v (w * j) w := by
  simp [elems, List.getD, h]

theorem elems_getElem? (w : Nat) (v : VReg) (j : Nat) (h : j < 1024 / w) : (elems w v)[j]? = some (fld v (w * j) w) := by
  simp [elems, h]

/-- Bit `i` of a number below a field's width is a bit of the field. -/
theorem testBit_fldN (n lo len i : Nat) (h : i < len) : (fldN n lo len).testBit i = n.testBit (lo + i) := by
  simp [fldN, Nat.testBit_mod_two_pow, h, Nat.testBit_shiftRight]

/-- A mask governs the 32 bits of each lane. -/
theorem laneMask_getLsbD (m : BitVec 32) (i : Nat) (h : i < 1024) : (laneMask m).getLsbD i = m.getLsbD (i / 32) := by
  have hf := fld_packV 32 ((List.range 32).map fun i => if bit m i then 2 ^ 32 - 1 else 0) (i / 32) (by simp)
  have hi : i / 32 < 32 := by omega
  have hb := testBit_fldN (laneMask m).toNat (32 * (i / 32)) 32 (i % 32) (by omega)
  have he : 32 * (i / 32) + i % 32 = i := by omega
  rw [he] at hb
  change _ = (laneMask m).getLsbD i at hb
  rw [← hb]
  change (fld (laneMask m) (32 * (i / 32)) 32).testBit (i % 32) = _
  rw [show laneMask m = packV 32 ((List.range 32).map fun i => if bit m i then 2 ^ 32 - 1 else 0) from rfl, hf]
  simp only [List.getD, List.getElem?_map, List.getElem?_range hi, Option.map_some, Option.getD_some]
  by_cases hm : bit m (i / 32) = true
  · rw [if_pos hm]
    have h2 : m.getLsbD (i / 32) = true := hm
    rw [h2]
    have : (2 ^ 32 - 1) % 2 ^ 32 = 2 ^ 32 - 1 := by decide
    rw [this, Nat.testBit_two_pow_sub_one]
    simp; omega
  · rw [if_neg hm]
    have h2 : m.getLsbD (i / 32) = false := by simpa [bit] using hm
    rw [h2]; simp

theorem laneMask_allOnes : laneMask (BitVec.allOnes 32) = BitVec.allOnes 1024 := by
  apply BitVec.eq_of_getLsbD_eq
  intro i hi
  have h2 : i / 32 < 32 := by omega
  rw [laneMask_getLsbD _ _ hi, BitVec.getLsbD_allOnes, BitVec.getLsbD_allOnes]
  simp [hi, h2]

/-- Element results come out of `putElems` as given. -/
theorem putElems_ready (x : Slot) (w lat : Nat) (r : List FRes) (h : w * r.length ≤ 1024) :
    ∃ v fl, x.putElems w lat r = .core (x.k.sendF x.o.slot.toNat lat (.v x.o.d.toNat v (laneMask x.mask)) fl) ∧
      (∀ j, fld v (w * j) w = ((r.map (·.bits)).getD j 0) % 2 ^ w) ∧
      ((∀ e ∈ r, e.flags = 0) → fl = 0) := by
  refine ⟨packV w (r.map (·.bits)), _, rfl, fun j => fld_packV _ _ _ (by simpa using h), ?_⟩
  intro hz
  have : ∀ (l : List (FRes × Nat)), (∀ e ∈ l, e.1.flags = 0) → l.foldl (fun a p => a ||| p.1.flags) 0 = 0 := by
    intro l
    induction l with
    | nil => intro _; rfl
    | cons e t ih =>
      intro h0
      simp only [List.foldl_cons, h0 e (by simp), Nat.or_zero]
      exact ih fun e he => h0 e (by simp [he])
  apply this
  intro e he
  obtain ⟨-, h1, h2⟩ := List.mem_zipIdx (List.mem_of_mem_filter he)
  exact hz _ (h2 ▸ List.getElem_mem _)

end Sys2Proof.Machine
end

