-- ==== Sys2Proof/WellFormed.lean ====
section
/-! DEFINITION. Which commands are well formed: the lengths that the spec gives their lists, and the ranges of the numbers that
name a part. A meaning is total; the check says which operands the hardware can present. -/

namespace Sys2Proof

/-- A Tap command's arguments (R151): 48 bytes, ARGLEN of them used. -/
def TapCmd.wf (c : TapCmd) : Bool := decide (c.args.length = 48) && decide (c.argLen.toNat ≤ 48)

/-- One of the 24 cores (R167). -/
def isCore (n : BitVec 5) : Bool := decide (n.toNat < 24)

/-- One of the 36 agents (R171, Table 6.3). -/
def isAgent (n : BitVec 6) : Bool := decide (n.toNat < 36)

/-- A slot's core is one of the 24. -/
def SlotOp.wf (o : SlotOp) : Bool := isCore o.core

/-- A mailbox request carries 56 argument bytes (R468). -/
def MbxReq.wf (q : MbxReq) : Bool := decide (q.args.length = 56)

/-- Vector engine 0 of a model core is the core's own V slot and has no queue (R233, R246). -/
def EngQueue.wf : EngQueue → Bool
  | .vector e => decide (e ≠ 0)
  | _ => true

/-- The meters hand over the accounts 0 to 36 (R382). -/
def BoundaryIn.wf (b : BoundaryIn) : Bool := decide (b.accts.length = 37)

/-- A scan's counts lie within the marker latch of 256 (R84). -/
def cutWf : Option ProbeCut → Bool
  | some c => decide (c.reached ≤ 256) && decide (c.opened ≤ 256)
  | none => true

/-- The operands of a command are ones that the hardware can present. -/
def Instr.wf : Instr → Bool
  | .bmPwrOkFall => true
  | .bmPwrOkRise => true
  | .bmRstNAssert => true
  | .bmRstNRelease => true
  | .clkGap => true
  | .eventCount _ incs => decide (incs.length ≤ 16)
  | .markerCapture _ _ => true
  | .pcSample _ _ _ => true
  | .pcWindowClose => true
  | .snoopBeat _ => true
  | .auditQuery _ => true
  | .auditAnswer => true
  | .auditWindowWrite _ _ _ => true
  | .auditSlotExpire _ => true
  | .auditSlotClearDone _ => true
  | .energyIncrement _ => true
  | .droopEvent _ _ => true
  | .hostCsrWrite _ _ => true
  | .bmTimeSecRead => true
  | .programSwap _ _ => true
  | .programValidationDone => true
  | .bumasBoundary _ => true
  | .thermalRoundDone reads => decide (reads.length = 32)
  | .voltageRoundDone reads => decide (reads.length = 16)
  | .probeOverrun cut => cutWf cut
  | .probeWaitDone _ => true
  | .snapC _ => true
  | .snapP _ => true
  | .snapE _ => true
  | .snapS _ => true
  | .deltaC _ => true
  | .deltaE _ => true
  | .probeSel _ => true
  | .probeAdd _ => true
  | .probeAddI _ => true
  | .probeSub _ => true
  | .probeSubI _ => true
  | .probeAnd _ => true
  | .probeAndI _ => true
  | .probeOr _ => true
  | .probeOrI _ => true
  | .orK _ => true
  | .shfL _ => true
  | .shfR _ => true
  | .shfA _ => true
  | .shfO _ => true
  | .probeCmpEq _ => true
  | .probeCmpNe _ => true
  | .probeCmpLtu _ => true
  | .probeCmpGeu _ => true
  | .probeCmpLt _ => true
  | .probeCmpGe _ => true
  | .probeBr _ => true
  | .probeBrZ _ => true
  | .probeBrNz _ => true
  | .histV _ => true
  | .histW _ => true
  | .threshMi _ => true
  | .threshC _ => true
  | .emitW _ => true
  | .emitK _ => true
  | .emitH _ => true
  | .emitRMarker _ => true
  | .emitRPcSamples _ => true
  | .emitRDigest _ => true
  | .emitRSensor _ => true
  | .emitREnergy _ => true
  | .pcsampF _ => true
  | .pcsampS _ => true
  | .pcsampH _ => true
  | .digsetS _ => true
  | .digsetE _ => true
  | .adcstartT _ => true
  | .adcstartV _ => true
  | .waittT _ => true
  | .waittA _ => true
  | .waittP _ => true
  | .probeEnd _ => true
  | .tapQueueAgeOut => true
  | .bumasBlockSlot => true
  | .creditReceive _ => true
  | .tapNop c => c.wf
  | .csrWrite c => c.wf
  | .csrRead c => c.wf
  | .progLoad c => c.wf
  | .tapGreyout c => c.wf
  | .tapBlackout c => c.wf
  | .auditThresh c => c.wf
  | .tapReset c => c.wf
  | .linkRetrain c => c.wf
  | .timeReceive _ => true
  | .bumasServoUpdate => true
  | .tickReceive _ => true
  | .signalDetect _ _ => true
  | .trainDone _ _ => true
  | .codewordLock _ _ => true
  | .deskewDone _ => true
  | .linkInit _ _ _ => true
  | .trainingTimeout _ => true
  | .laneFail _ _ => true
  | .tpPortCfgWrite _ _ => true
  | .glexonBlockSlot _ => true
  | .tapDataBlock _ _ bytes => decide (bytes.length = 60)
  | .recordIngest _ _ => true
  | .auditTileAccept _ => true
  | .cmdAckReceive _ _ => true
  | .cmdResend _ _ => true
  | .creditSend _ => true
  | .timeSend _ => true
  | .timeEchoReceive _ _ => true
  | .glexonBoundary b => b.wf
  | .provisionalBoundary => true
  | .admission => true
  | .mauveGreyout => true
  | .selfCheck core _ => isCore core
  | .coreEntry core => isCore core
  | .coreWithdrawn core => isCore core
  | .workDeadline => true
  | .auditWorkList => true
  | .resultRead _ => true
  | .replayAgeOut => true
  | .profileCheck _ => true
  | .profileCheckDone => true
  | .nop o => o.wf
  | .add o => o.wf
  | .sub o => o.wf
  | .addI o => o.wf
  | .and o => o.wf
  | .or o => o.wf
  | .xor o => o.wf
  | .andI o => o.wf
  | .orI o => o.wf
  | .xorI o => o.wf
  | .shl o => o.wf
  | .shr o => o.wf
  | .sra o => o.wf
  | .ror o => o.wf
  | .shlI o => o.wf
  | .shrI o => o.wf
  | .sraI o => o.wf
  | .mul o => o.wf
  | .mulhU o => o.wf
  | .mulhS o => o.wf
  | .minS o => o.wf
  | .minU o => o.wf
  | .maxS o => o.wf
  | .maxU o => o.wf
  | .clz o => o.wf
  | .ctz o => o.wf
  | .popc o => o.wf
  | .movI o => o.wf
  | .movh o => o.wf
  | .sel o => o.wf
  | .add3 o => o.wf
  | .madd o => o.wf
  | .cmpEq o => o.wf
  | .cmpNe o => o.wf
  | .cmpLtS o => o.wf
  | .cmpLtU o => o.wf
  | .cmpGeS o => o.wf
  | .cmpGeU o => o.wf
  | .cmpEqI o => o.wf
  | .cmpNeI o => o.wf
  | .cmpLtSI o => o.wf
  | .cmpLtUI o => o.wf
  | .cmpGeSI o => o.wf
  | .cmpGeUI o => o.wf
  | .btst o => o.wf
  | .pand o => o.wf
  | .por o => o.wf
  | .pxor o => o.wf
  | .pandn o => o.wf
  | .pnot o => o.wf
  | .pmovG o => o.wf
  | .pmovP o => o.wf
  | .br o => o.wf
  | .brZ o => o.wf
  | .brNz o => o.wf
  | .dbnz o => o.wf
  | .call o => o.wf
  | .ret o => o.wf
  | .ldB o => o.wf
  | .ldH o => o.wf
  | .ldW o => o.wf
  | .ldD o => o.wf
  | .ldBS o => o.wf
  | .ldHS o => o.wf
  | .ldWS o => o.wf
  | .stB o => o.wf
  | .stH o => o.wf
  | .stW o => o.wf
  | .stD o => o.wf
  | .amoAdd o => o.wf
  | .amoCas o => o.wf
  | .mfs o => o.wf
  | .mts o => o.wf
  | .farAccessReturn core _ _ => isCore core
  | .coreWaitEnd core _ => isCore core
  | .vadd o => o.wf
  | .vsub o => o.wf
  | .vmul o => o.wf
  | .vfma o => o.wf
  | .vmin o => o.wf
  | .vmax o => o.wf
  | .vabs o => o.wf
  | .vneg o => o.wf
  | .vand o => o.wf
  | .vor o => o.wf
  | .vxor o => o.wf
  | .vshfLeft o => o.wf
  | .vshfLogicalRight o => o.wf
  | .vshfArithRight o => o.wf
  | .vcmpEq o => o.wf
  | .vcmpNe o => o.wf
  | .vcmpLt o => o.wf
  | .vcmpLe o => o.wf
  | .vcmpGt o => o.wf
  | .vcmpGe o => o.wf
  | .vsel o => o.wf
  | .vcvt o => o.wf
  | .vbcast o => o.wf
  | .vext o => o.wf
  | .vins o => o.wf
  | .vperm o => o.wf
  | .vredAdd o => o.wf
  | .vredMin o => o.wf
  | .vredMax o => o.wf
  | .vexp2 o => o.wf
  | .vlog2 o => o.wf
  | .vrcp o => o.wf
  | .vrsqrt o => o.wf
  | .vld o => o.wf
  | .vst o => o.wf
  | .vmov o => o.wf
  | .mma o => o.wf
  | .tld o => o.wf
  | .tst o => o.wf
  | .accnetCfg o => o.wf
  | .dmaFarToLocal o => o.wf
  | .dmaLocalToFar o => o.wf
  | .vprog o => o.wf
  | .waitE o => o.wf
  | .fenceM o => o.wf
  | .fenceE o => o.wf
  | .fenceX o => o.wf
  | .fenceF o => o.wf
  | .ticksync o => o.wf
  | .engineOpBegin core q => isCore core && q.wf
  | .mmaComplete core _ _ => isCore core
  | .tileOpComplete core _ => isCore core
  | .dmaComplete core _ => isCore core
  | .xopComplete core _ _ => isCore core
  | .vprogComplete core _ => isCore core
  | .mcWithdrawReq agent _ => isAgent agent
  | .mcRestoreReq agent _ => isAgent agent
  | .reduceCore o => o.wf
  | .reduceDetail o => o.wf
  | .reduceArrivals o => o.wf
  | .coarsen o => o.wf
  | .publish o => o.wf
  | .score o => o.wf
  | .featUpdate o => o.wf
  | .crc64 o => o.wf
  | .crc32c o => o.wf
  | .m61Digest o => o.wf
  | .crc64Verify o => o.wf
  | .crc32cVerify o => o.wf
  | .m61Verify o => o.wf
  | .deflate o => o.wf
  | .inflate o => o.wf
  | .rmWrite o => o.wf
  | .rmRead o => o.wf
  | .rmFetchAdd o => o.wf
  | .rmCmpSwap o => o.wf
  | .write _ => true
  | .readReq _ => true
  | .readResp _ => true
  | .fetchAdd _ => true
  | .cmpSwap _ => true
  | .atomicResp _ => true
  | .ack _ => true
  | .nak _ => true
  | .messageDeliver _ => true
  | .retransmitTimeout _ _ => true
  | .pathResume _ _ => true
  | .qpInit _ _ => true
  | .qpRts _ _ => true
  | .qpDrain _ _ => true
  | .qpReset _ _ => true
  | .mrRegister _ _ => true
  | .mrDeregister _ _ => true
  | .rekey _ => true
  | .amberStaleDiscard => true
  | .pullStart => true
  | .pullTick => true
  | .bootLoadStart => true
  | .bootImageRead => true
  | .portServe _ => true
  | .gateEntry _ => true
  | .shaperRefill => true
  | .cmdInbandSend => true
  | .commandReceive _ => true
  | .submitCmd q => q.wf
  | .greyout => true
  | .blackout => true
  | .wsCreate => true
  | .wsTeardown => true
  | .epoch => true
  | .epochAdopt => true
  | .periodChange => true
  | .pChange => true
  | .beacon => true
  | .collKey => true
  | .gateList => true
  | .announce => true
  | .listHeld => true
  | .listHeldResend _ => true
  | .tallyExpire _ _ => true
  | .announceResend _ => true
  | .announceTimeout _ => true
  | .epochIssue => true
  | .mapReread => true
  | .instanceTimeout => true
  | .itemExpire => true
  | .decodePairExpire => true
  | .modelCheck _ _ => true
  | .modelCheckDone _ => true
  | .inv => true
  | .sampleBufferWrite => true
  | .traceFrame => true
  | .traceResync agent => isAgent agent
  | .syncReceive _ => true
  | .followUpReceive _ => true
  | .delayReqSend => true
  | .delayReqReceive _ => true
  | .delayRespReceive _ => true
  | .syncSend => true
  | .announceSend => true
  | .ptpAnnounceReceive _ => true
  | .syncTimeout => true
  | .announceReceiptTimeout => true
  | .tickStopped => true
  | .tkStep agent _ => isAgent agent
  | .tkSlew _ => true
  | .tkNowSecRead => true
  | .tkAddendWrite _ => true
  | .tkRefSelWrite _ => true
  | .ppsInEdge => true
  | .ppsInLost => true
  | .ref10mLost => true
  | .ppsOutRise => true
  | .ppsOutFall => true
  | .comparatorArm _ _ => true
  | .cmpFire _ => true
  | .trigPulseEnd _ => true
  | .captEdge _ _ => true
  | .captRead _ => true
  | .registerWrite agent _ _ => isAgent agent
  | .fabricLaneFail _ _ => true
  | .fabricPortUp _ _ => true
  | .hbmTempRead _ _ => true
  | .sensorSample reads => decide (reads.length = 24)
  | .thermalTrip => true
  | .railSample rails => decide (rails.length = 16)
  | .eventRecordWrite => true
  | .evrCursor _ => true
  | .mirrorAppend _ => true
  | .brownout => true
  | .heartbeat => true
  | .watchdogExpire => true
  | .mgWdogKick _ => true
  | .mgRestart _ => true
  | .coldBoot _ => true
  | .slotAck q => q.wf
  | .imgLoad q => q.wf
  | .imgActivate q => q.wf
  | .imageSwap => true
  | .fwStage q _ => q.wf
  | .fwActivate q => q.wf
  | .fwActivationRestart => true
  | .fwCommit q => q.wf
  | .fwRevert q => q.wf
  | .coreWithdraw q => q.wf
  | .coreRestore q => q.wf
  | .sdcClear q => q.wf
  | .memberList q => q.wf
  | .setEndpointId _ => true
  | .getEndpointId _ => true
  | .getMctpVersionSupport _ => true
  | .getMessageTypeSupport _ => true
  | .getEndpointUuid _ => true
  | .gettid _ => true
  | .settid _ => true
  | .getpldmversion _ => true
  | .getpldmtypes _ => true
  | .getpldmcommands _ => true
  | .getsensorreading _ => true
  | .getstatesensorreadings _ => true
  | .getpdrrepositoryinfo _ => true
  | .getpdr _ => true
  | .seteventreceiver _ => true
  | .bypass => true
  | .samplePreload => true
  | .extest => true
  | .clamp => true
  | .highz => true
  | .extestPulse => true
  | .extestTrain => true
  | .sysRstNRelease => true
  | .sysRstNAssert => true
  | .corePwrokFall => true
  | .droopRecovery _ => true
  | .hbmTrainingDone => true
  | .corePwrokRise => true
  | .mgRstNAssert => true
  | .illegal core _ _ => isCore core
  | .badOpcode _ c => c.wf
  | .badReq _ q => q.wf

end Sys2Proof
end

