-- ==== Sys2Proof/Tests/Slice0.lean ====
section
/-! SUPPORT. The model's own tests: ill-formed operands that the checks refuse, states that meet the hypotheses of the statements
(one theorem for each statement that has hypotheses, its clauses in the statement's order), and single steps whose results come from
the spec's tables and examples. -/

namespace Sys2Proof.Tests

set_option maxRecDepth 20000

open Sys2Proof Sys2Proof.Machine

/-! ### Ill-formed operands -/

/-- A slot of core `n`. -/
def slotOn (n : BitVec 5) : SlotOp := { core := n, slot := 0, first := true, d := 0, a := 0, b := 0, c := 0, imm := 0 }

/-- Both of a block's checks passed. -/
def good : BlkCheck := { fecOk := true, crcOk := true }

theorem test_wf_refuses_tap_arguments :
    Instr.wf (.tapNop { chk := good, seq := 1, argLen := 0, args := [] }) = false ∧
    Instr.wf (.tapNop { chk := good, seq := 1, argLen := 49, args := List.replicate 48 0 }) = false ∧
    Instr.wf (.tapNop { chk := good, seq := 1, argLen := 48, args := List.replicate 48 0 }) = true := by decide

theorem test_wf_refuses_core_24 :
    Instr.wf (.add (slotOn 24)) = false ∧ Instr.wf (.add (slotOn 23)) = true ∧ Instr.wf (.coreEntry 24) = false := by decide

theorem test_wf_refuses_agent_36 :
    Instr.wf (.tkStep 36 0) = false ∧ Instr.wf (.tkStep 35 0) = true := by decide

theorem test_wf_refuses_request_length : Instr.wf (.slotAck { id := 0, args := List.replicate 55 0 }) = false := by decide

theorem test_wf_refuses_vector_engine_0 :
    Instr.wf (.engineOpBegin 8 (.vector 0)) = false ∧ Instr.wf (.engineOpBegin 8 (.vector 3)) = true := by decide

theorem test_wf_refuses_lengths :
    Instr.wf (.glexonBoundary { accts := [], lines := [], obs := [] }) = false ∧
    Instr.wf (.eventCount 0 (List.replicate 17 { id := 0, inc := 0 })) = false ∧
    Instr.wf (.tapDataBlock 0 good (List.replicate 61 0)) = false ∧ Instr.wf (.thermalRoundDone []) = false ∧
    Instr.wf (.voltageRoundDone []) = false ∧ Instr.wf (.sensorSample []) = false ∧ Instr.wf (.railSample []) = false ∧
    Instr.wf (.probeOverrun (some { ra := 0, rb := 0, reached := 257, opened := 0 })) = false := by decide

/-! ### States -/

/-- The Glexon with both domains out of reset. -/
def gUp : Glexon := { Glexon.reset with sysRstN := true, corePwrOk := true, mgRstN := true }

/-- The Bumas with EN, AW_EN, PCS_EN and SNP_EN, out of reset. -/
def bUp : Bumas := { (Bumas.reset.wr Reg.BM_CTRL 15) with pwrOk := true, rstN := true }

/-- A machine of these two. -/
def st (b : Bumas) (g : Glexon) : State := { bm := b, gx := g, pending := [] }

/-- The state that a command leads to; the state itself if it stops. -/
def after (r : Answer) (s : State) : State :=
  match r with
  | .next t => t
  | _ => s

/-- Both parts out of reset. -/
def sUp : State := st bUp gUp

/-! ### Hypotheses met: the machine -/

theorem witness_StepRunsTheFrontCommand :
    ({ sUp with pending := [.clkGap] } : State).pending = .clkGap :: [] ∧ sUp.pending = [] ∧ State.reset.gx.tkUp = false ∧
    State.reset.bm.alive = false := by decide +kernel

theorem witness_CommandsKeepToTheirPart :
    exec .clkGap State.reset = .next State.reset ∧ State.reset.bm.alive = false ∧ State.reset.gx.tkUp = false ∧
    State.reset.gx.mgRstN = false ∧ State.reset.gx.coreUp = false := ⟨rfl, by decide⟩

theorem witness_EveryStepKeepsTheBumasSound : sUp.bm.Sound ∧ ∃ t, step sUp = .next t := by
  refine ⟨⟨by decide, by decide, by decide, by decide, ?_, by decide, by decide, by decide⟩, _, rfl⟩
  intro p h
  cases h

/-! ### Hypotheses met: the Bumas -/

theorem witness_PowerAndResetPinsMoveTheBumas :
    (st { Bumas.reset with pwrOk := false } gUp).bm.pwrOk = false ∧ State.reset.bm.rstN = false := by decide +kernel

/-- A snoop message in progress. -/
def snpMsg : SnoopMsg := { fmt := 8, seed := 0, stats := false, m61 := false }

/-- A query that waits, selected. -/
def query : AuditPend := { site := 3, tick := 0, hash := 0, thr := 1, sel := true, aw := true, lk := true }

/-- A running Bumas with its link up. -/
def bLink : Bumas := { bUp with tap := { bUp.tap with tr := { bUp.tap.tr with st := .up } } }

theorem witness_CountersMarkersAndSamplesAreTaken :
    bUp.running = true ∧ (1 : BitVec 16) ≠ 0 ∧ bUp.markC.marks.length < 256 ∧
    256 ≤ ({ bUp with markC := { marks := List.replicate 256 ⟨1, 0, 0⟩ } } : Bumas).markC.marks.length ∧
    (∀ b ∈ [({ (bUp.wr Reg.BM_PCS_CFG 2) with pcs := { isOpen := true } } : Bumas)],
      b.running = true ∧ b.pcs.isOpen = true ∧ 1 < fld (b.rd Reg.BM_PCS_CFG) 0 10 ∧ b.pcs.mode ≠ .stride ∧
      SMap.get none b.pcs.samples 1 = none) ∧
    SMap.get none ({ bUp.pcs with samples := [(1, some ⟨0, 0, false⟩)] } : PcSampler).samples 1 ≠ none ∧
    bUp.pcs.isOpen = false ∧ bUp.alive = true := by decide +kernel

theorem witness_SnoopMessagesAndAuditSitesAreTaken :
    (∀ b ∈ [({ bUp with snoop := [(2, { msg := some snpMsg })] } : Bumas)],
      b.running = true ∧ b.snpEn = true ∧ SMap.get {} b.snoop 2 = { msg := some snpMsg } ∧ snpMsg.fmt.toNat < 9) ∧
    (∀ b ∈ [({ bLink with audit := { bLink.audit with pend := [query] } } : Bumas)],
      b.running = true ∧ b.audit.pend = query :: [] ∧ query.sel = true ∧ query.aw = true ∧ query.lk = true ∧ b.linkUp = true ∧
      b.sizePending = false ∧ query.tick = b.time.tickNo ∧ (query.tick, query.site) ∉ b.audit.sites ∧
      b.audit.freeSlot? = some 0) ∧
    (∀ b ∈ [({ bUp with
        audit := { bUp.audit with slots := [(0, { st := .granted }), (1, { st := .clearing })] }
        time := { bUp.time with tickNo := 1 } } : Bumas)],
      b.awReady = true ∧ (SMap.get {} b.audit.slots (64 / 64 * 64 / b.audit.slotSize.getD 2097152)).st = .granted ∧
      64 % b.audit.slotSize.getD 2097152 ≠ 0 ∧ (SMap.get {} b.audit.slots 0).grantTick.toNat + 1 ≤ b.time.tickNo.toNat ∧
      (SMap.get {} b.audit.slots 1).st = .clearing) ∧
    (SMap.get {} bUp.audit.slots (0 / 64 * 64 / bUp.audit.slotSize.getD 2097152)).st ≠ .granted := by decide +kernel

theorem witness_SensorRoundsAndDroopsReplaceReadings :
    (∀ b ∈ [bUp.wr Reg.BM_SNS_EN 0xFF00FFFFFFFFFF],
      b.running = true ∧ bit (b.rd Reg.BM_SNS_EN) (48 + 7) = true ∧ (SMap.get {} b.droop 7).below = false) ∧
    (∀ b ∈ [(bUp.wr Reg.BM_SNS_EN 0x1000000000000).wr Reg.BM_DROOP_THR_0 0x1000],
      bit (b.rd Reg.BM_SNS_EN) (48 + 0) = true ∧ 0 < b.droopThr 0) ∧
    (∀ b ∈ [({ bUp with therm := { running := some 1 }, volt := { running := some 0x8000 } } : Bumas)],
      b.alive = true ∧ b.therm.running = some 1 ∧ b.therm.waiting = none ∧ b.volt.running = some 0x8000 ∧ b.volt.waiting = none ∧
      (List.replicate 16 (VmonIn.volt 0))[15]? = some (.volt 0) ∧ Nat.testBit 0x8000 15 = true) := by decide +kernel

theorem witness_HostPortWritesWhatItOwns :
    bUp.alive = true ∧
    (∃ f, regFind bmRegFams Reg.BM_HOST_SCRATCH = some f ∧ f.acc = .rw ∧ f.own = .host ∧ progBufOf Reg.BM_HOST_SCRATCH = none ∧
      Reg.BM_HOST_SCRATCH ≠ Reg.BM_CTRL) ∧
    bUp.csrMayWrite .host Reg.BM_STATUS = false := by
  refine ⟨by decide, ⟨_, rfl, ?_⟩, by decide⟩
  decide +kernel

/-! ### Hypotheses met: the probe sequencer -/

/-- Fields of a probe instruction: s1 := s2, s3 with `imm`. -/
def pOp (imm : BitVec 12) : ProbeOp := { rd := 1, ra := 2, rb := 3, imm := imm }

/-- A Bumas in a run of two words, the first of them this one, with these registers. -/
def bProbe (op v : Nat) (o : ProbeOp) (s : SMap Word) : Bumas :=
  { (bUp.wr (Reg.BM_PROG_0 0) (word (probeWord op v o))) with
    probe := { running := true, len := 2, progValid := true, s := s } }

theorem witness_ProbeArithmeticComparesAndSnapshots :
    (∀ r ∈ [(0x01, 3), (0x02, 1), (0x03, 0), (0x04, 0), (0x04, 1), (0x05, 0), (0x05, 1), (0x06, 0), (0x06, 1), (0x07, 0), (0x07, 1),
        (0x08, 0), (0x08, 1), (0x08, 2), (0x08, 3)],
      (bProbe r.1 r.2 (pOp 0) []).issues r.1 r.2 (pOp 0) = true ∧
      (bProbe r.1 r.2 (pOp 0) []).probe.pc + 1 < (bProbe r.1 r.2 (pOp 0) []).probe.len) ∧
    (∀ i ∈ [0, 1, 2, 3, 4, 5], (bProbe 0x09 0 (pOp (.ofNat 12 i)) []).issues 0x09 0 (pOp (.ofNat 12 i)) = true) ∧
    (∀ n ∈ [5, 6], (bProbe 0x07 2 { pOp 0 with rb := .ofNat 4 n } []).issues 0x07 2 { pOp 0 with rb := .ofNat 4 n } = true) ∧
    (∀ r ∈ [(0x01, 0), (0x01, 1), (0x02, 0)], ∀ x ∈ [4095, 4096],
      (bProbe r.1 r.2 (pOp 0) [(2, word x)]).issues r.1 r.2 (pOp 0) = true ∧
      ((bProbe r.1 r.2 (pOp 0) [(2, word x)]).sreg 2 + (0 : BitVec 12).zeroExtend 64).toNat = x) ∧
    (∀ i ∈ [0, 1, 2], (bProbe 0x01 2 (pOp (.ofNat 12 i)) []).issues 0x01 2 (pOp (.ofNat 12 i)) = true) := by decide +kernel

theorem witness_ProbeBranchesAndFaults :
    (∀ v ∈ [0, 1, 2], (bProbe 0x0A v (pOp 1) []).issues 0x0A v (pOp 1) = true ∧ (0 : Int) + (1 : BitVec 12).toInt = (1 : Nat)) ∧
    (bProbe 0x0A 1 (pOp 1) []).sreg 2 = 0 ∧ (bProbe 0x0A 1 (pOp 1) [(2, 1)]).sreg 2 ≠ 0 := by decide +kernel

theorem witness_HistogramsAlertsAndTheIntervalScan :
    (∀ v ∈ [0, 1], (bProbe 0x0B v (pOp 0) []).issues 0x0B v (pOp 0) = true) ∧
    (∀ x ∈ [0, 1], (bProbe 0x0C 1 (pOp 0) [(2, word x), (3, 1)]).issues 0x0C 1 (pOp 0) = true ∧
      (bProbe 0x0C 1 (pOp 0) [(2, word x), (3, 1)]).sreg 2 = word x ∧ (bProbe 0x0C 1 (pOp 0) [(2, word x), (3, 1)]).sreg 3 = 1) ∧
    (∀ x ∈ [(0x00FF, false), (0x0100, true), (0xFFE0, true), (0xFFE1, false)],
      (bProbe 0x0C 0 (pOp 0) [(2, word x.1)]).issues 0x0C 0 (pOp 0) = true ∧
      miBaseOk (fld ((bProbe 0x0C 0 (pOp 0) [(2, word x.1)]).sreg 2) 0 16) = x.2) ∧
    ({ (bProbe 0x0C 0 (pOp 0) []).probe with scanned := true } : BmProbe).scanned = true ∧
    (bProbe 0x0C 0 (pOp 0) []).probe.scanned = false ∧ bUp.markP.marks = [] ∧ (bProbe 0x0C 0 (pOp 0) []).probe.opens = [] := by
  decide +kernel

/-- The same run with `n` bytes of the buffer used. -/
def bEmit (v : Nat) (o : ProbeOp) (s : SMap Word) (n : Nat) : Bumas :=
  { (bProbe 0x0D v o s) with probe := { (bProbe 0x0D v o s).probe with emitUsed := n } }

theorem witness_EmitsFillTheBufferInOrder :
    (∀ n ∈ [65520, 65521], (bEmit 0 (pOp 0) [] n).issues 0x0D 0 (pOp 0) = true) ∧
    (cbEntry 0 1 1 (leBytes 8 0)).length = 16 ∧ 65520 + 16 ≤ 65536 ∧ 65536 < 65521 + 16 ∧
    (∀ n ∈ [65272, 65273], (bEmit 2 (pOp 0) [] n).issues 0x0D 2 (pOp 0) = true) ∧
    (cbEntry 0 3 32 ((List.range 64).map fun _ => leBytes 4 0).flatten).length = 264 ∧
    (bEmit 1 (pOp 0) [(2, 4095), (3, 1)] 65520).issues 0x0D 1 (pOp 0) = true ∧ 4095 + 1 ≤ 4096 ∧
    (bEmit 1 (pOp 0) [(2, 4095), (3, 1)] 65520).probe.block = none ∧
    (∀ i ∈ [3, 4, 5, 6, 7], (bEmit 3 (pOp (.ofNat 12 i)) [] 0).issues 0x0D 3 (pOp (.ofNat 12 i)) = true) ∧
    (bEmit 3 (pOp 3) [] 0).markerPayload.length ≤ 65536 ∧ (bEmit 3 (pOp 4) [] 0).closeWindow.pcPayload.length ≤ 65536 ∧
    (bEmit 3 (pOp 6) [] 0).sensorPayload.length ≤ 65536 ∧ (bEmit 3 (pOp 7) [] 0).energyPayload.length ≤ 65536 := by decide +kernel

theorem witness_ProbeRequestsAndWaits :
    (∀ v ∈ [0, 1, 2], (bProbe 0x0E v (pOp 0) []).issues 0x0E v (pOp 0) = true) ∧ bUp.pcs.acted = false ∧ bUp.pcsEn = true ∧
    (∀ v ∈ [0, 1], (bProbe 0x0F v (pOp 0) []).issues 0x0F v (pOp 0) = true ∧ (bProbe 0x10 v (pOp 0) []).issues 0x10 v (pOp 0) = true) ∧
    (∀ v ∈ [0, 1, 2], (bProbe 0x11 v (pOp 1) []).issues 0x11 v (pOp 1) = true) ∧
    bUp.waitHolds (.time 0) = true ∧ bUp.waitHolds (.time 1) = false ∧ bUp.waitHolds .adc = true ∧
    ({ bUp with therm := { running := some 1 } } : Bumas).waitHolds .adc = false ∧ bUp.waitHolds .pcs = true ∧
    ({ bUp with pcs := { isOpen := true } } : Bumas).waitHolds .pcs = false ∧
    (∀ b ∈ [({ bUp with probe := { running := true, wait := some .pcs } } : Bumas)],
      b.running = true ∧ b.probe.running = true ∧ b.probe.wait = some .pcs ∧ b.pcs.isOpen = false) := by decide +kernel

theorem witness_ProbeProgramsAndTheBoundary :
    (bProbe 0x3F 0 (pOp 0) []).issues 0x3F 0 (pOp 0) = true ∧ (bProbe 0x3F 0 (pOp 0) []).probe.block = none ∧ bUp.alive = true ∧
    ({ bUp.probe with val := .running } : BmProbe).val = .running ∧
    (∀ b ∈ [({ bUp with time := { bUp.time with ticking := true } } : Bumas)], b.alive = true ∧ b.time.ticking = true ∧
      b.time.adopt = none) := by decide +kernel

/-! ### Hypotheses met: the Tap links -/

/-- The Bumas's end and port 0 in a training state. -/
def sTrain (x : Train) : State := st { bUp with tap := { bUp.tap with tr := x } } { gUp with ports := [(0, { tr := x })] }

theorem witness_LinksTrainAndComeUp :
    (∀ e ∈ [LinkEnd.bumas, .port 0],
      (sTrain {}).endRuns e = true ∧ ((sTrain { st := .detect }).train e).st = .detect ∧
      (∀ lane ∈ [false, true], ((sTrain { st := .train, sig0 := !lane, sig1 := lane }).train e).st = .train ∧
        ((sTrain { st := .train, sig0 := !lane, sig1 := lane }).train e).sig0 = !lane ∧
        ((sTrain { st := .fecAlign, trn0 := !lane, trn1 := lane }).train e).trn1 = lane) ∧
      (∀ x ∈ [({ st := .fecAlign, trn0 := true, trn1 := true, lane0 := true, lane1 := true } : Train)],
        ((sTrain x).train e).want ≠ 1 ∧ ((sTrain x).train e).lane0 = true ∧ ((sTrain x).train e).lane1 = true) ∧
      ((sTrain { st := .deskew }).train e).st = .deskew ∧ ((sTrain { st := .init }).train e).st = .init ∧
      ((sTrain { st := .up, width := 2 }).train e).width = 2) ∧
    (sTrain {}).paired .bumas = true ∧ (st bUp (gUp.wr (Reg.TP_PORT_CFG 0) (word (2 ^ 63 + 2 ^ 62 + 2 ^ 61)))).paired (.port 0) = true ∧
    (∀ g ∈ [{ (gUp.wr (Reg.TP_PORT_CFG 0) (word (2 ^ 63 + 2 ^ 62))) with ports := [(0, { tr := { st := .init } })] }],
      g.coreUp = true ∧ (g.port 0).tr.st = .init ∧ g.tpExpected 0 = true) ∧
    (∀ g ∈ [{ gUp with ports := [(0, { tr := { st := .init } })] }],
      g.tpExpected 0 = false ∧ (g.port 0).held = false ∧ g.events.length < 256 ∧ (g.port 0).up = false ∧ g.tpEn 0 = false) := by decide +kernel

/-- A record of class `c` in the transmit queue. -/
def txRec (c : BitVec 4) : TxRec :=
  { r := { typ := 1, cls := c, colour := 0, flags := 0, src := 0, tick := 0, shortTime := 0, seq := 0, wsId := 0, wsGen := 0,
           alive := 0, payload := [] } }

theorem witness_TheBumasSendsAndReceivesBlocks :
    bLink.alive = true ∧ bLink.linkUp = true ∧ bLink.tap.after = none ∧ bLink.tap.acks = [] ∧ bLink.time.echo = none ∧
    bLink.sendClass = none ∧
    (∀ b ∈ [{ bLink with tap := { bLink.tap with q := [txRec 0], limit := [(0, 1)], shapers := [(0, { tok := 2 ^ 60 })] } }],
      b.sendClass = some 0 ∧ b.tap.head 0 = some (txRec 0)) ∧
    (∀ b ∈ [{ bUp with time := { bUp.time with offsets := List.replicate 16 65536000, state := .acquiring, lossSince := true } }],
      b.time.lossSince = true ∧
      16 ≤ b.time.offsets.length ∧ b.time.state ≠ .holdover ∧ b.time.state ≠ .none ∧ (b.time.offsets.take 16).sum / 16 = 65536000) ∧
    ((List.replicate 16 (65536001 : Int)).take 16).sum / 16 = 65536001 ∧ bUp.time.lossSince = false ∧
    (∀ b ∈ [{ bLink with time := { bLink.time with state := .locked } }], b.time.ticking = false ∧ b.time.state = .locked) ∧
    stateHold 2 = false ∧ stateHold 3 = true := by decide +kernel

/-- A Tap command with this number and these argument bytes. -/
def tapCmd (seq : BitVec 32) (args : List Byte) : TapCmd :=
  { chk := good, seq := seq, argLen := BitVec.ofNat 16 args.length, args := args }

theorem witness_TapCommandsExecuteOnce :
    bLink.alive = true ∧ bLink.linkUp = true ∧ (tapCmd 0 []).seq = bLink.tap.next ∧ (tapCmd 0 []).argLen = 0 ∧
    (tapCmd 0 [0, 4]).argLen = 2 ∧ leAt (tapCmd 0 [0, 4]).args 0 2 ≠ Reg.BM_TIME_SEC ∧
    bLink.csrMayWrite .tap Reg.BM_SNS_EN = true ∧ bLink.csrMayWrite .tap Reg.BM_STATUS = false ∧
    (∀ a ∈ [leBytes 2 1023 ++ [(1 : Byte), 0] ++ leBytes 4 7], leAt a 0 2 = 1023 ∧ leAt a 2 1 = 1 ∧ leAt a 3 1 = 0 ∧ leAt a 4 4 = 7) ∧
    bLink.bufWritable (!bLink.probe.progBuf) = true ∧ tapMaskOk 0x0E = true ∧ tapMaskOk 1 = false ∧
    leAt (tapCmd 0 (leBytes 2 0x5A5A)).args 0 2 = 0x5A5A ∧
    (∀ b ∈ [{ bLink with tap := { bLink.tap with next := 16, hist := [⟨0, 0, 0⟩] } }], (b.tap.next - (tapCmd 0 []).seq).toNat = 16 ∧
      (b.tap.hist.find? fun y => y.seq == (tapCmd 0 []).seq) = some ⟨0, 0, 0⟩) ∧
    ((tapCmd 1 []).seq - bLink.tap.next).toNat = 1 := by decide +kernel

/-- Port 0 up, as `f` makes it. -/
def gPort (f : TapPort → TapPort) : Glexon := { gUp with ports := [(0, f { tr := { st := .up, width := 1 } })] }

theorem witness_PortSendsAndIsAnswered :
    (gPort id).coreUp = true ∧ ((gPort id).port 0).up = true ∧ ((gPort fun p => { p with tickDue := true }).port 0).tickDue = true ∧
    (∀ g ∈ [gPort fun p => { p with cmdQ := [{ op := 0, args := [] }], unacked := List.replicate 15 { seq := 9, op := 0, args := [] } }],
      (g.port 0).cmdQ ≠ [] ∧ (g.port 0).resend = [] ∧ (g.port 0).unacked.length < 16) ∧
    (∀ g ∈ [gPort fun p => { p with t1 := some (7, 0), unacked := [{ seq := 9, op := 0, args := [], resent := 15 }] }],
      (g.port 0).t1 = some (7, 0) ∧ (∃ x ∈ (g.port 0).unacked, x.seq = 9) ∧
      (g.port 0).unacked.find? (fun x => x.seq == 9) = some { seq := 9, op := 0, args := [], resent := 15 }) := by decide +kernel

/-! ### Hypotheses met: the Time Keeper -/

/-- The Glexon with its Time Keeper in mode `m`. -/
def gMode (m : TkMode) : Glexon := { gUp with tk := { gUp.tk with mode := m } }

theorem witness_AddendAndTimeReads :
    gUp.coreUp = true ∧ gUp.servoEn = false ∧ (gUp.wr Reg.TK_CFG 1).servoEn = true ∧
    fld (5366024766 : Word) 0 40 = 5366024766 ∧ fld (5371393474 : Word) 0 40 = 5371393474 ∧
    fld (5366024765 : Word) 0 40 < 5366024766 ∧ 5371393474 < fld (5371393475 : Word) 0 40 := by decide +kernel

theorem witness_StepsComparatorsAndCaptures :
    gUp.tk.ticking = false ∧ ({ gUp.tk with ticking := true } : TimeKeeper).ticking = true ∧ (30 : BitVec 6) ≠ 31 ∧
    bit (3 : Word) 0 = true ∧ bit (2 : Word) 0 = false ∧ SMap.get false gUp.tk.armed 15 = false ∧
    (∀ g ∈ [(gUp.wr (Reg.TK_CMP_CFG 15) (word (2 ^ 62))).wr (Reg.TK_CMP_TIME 15) (word (1000000 * 16))],
      g.cmpMode 15 = 2 ∧ g.pNs ≤ fld (g.rd (Reg.TK_CMP_TIME 15)) 4 30) ∧
    (∀ g ∈ [{ gUp with tk := { gUp.tk with armed := [(0, true)] } }], SMap.get false g.tk.armed 0 = true ∧ g.cmpMode 0 = 0) ∧
    bit (word (2 ^ 63 + 2 ^ 62)) 63 = true ∧ fld (word (2 ^ 63 + 2 ^ 62)) 61 2 = 2 ∧
    (∀ g ∈ [gUp.wr (Reg.TK_CAPT_CFG 3) (word (2 ^ 63))], (SMap.get {} g.tk.capt 3).edge = none ∧
      (SMap.get {} g.tk.capt 3).words.length < 16 ∧ bit (g.rd (Reg.TK_CAPT_CFG 3)) 63 = true ∧
      fld (g.rd (Reg.TK_CAPT_CFG 3)) 61 2 = 0) ∧
    (SMap.get {} ([(1, { words := [5, 6] })] : SMap CaptFifo) 1).words = 5 :: [6] ∧ (SMap.get {} gUp.tk.capt 1).words = [] := by
  decide +kernel

/-- An Announce of clock 9. -/
def ann9 : PtpAnn := { clock := 9, domain := 0, prio1 := 0, cls := 6, acc := 0x21, var := 0, prio2 := 0, steps := 0 }

/-- A PTP slave of clock 9 that has seen sequence number 4 and sent a Delay_Req, number 2. -/
def gSlave : Glexon :=
  { (gUp.wr Reg.TK_PTP_CFG 1) with tk := { gUp.tk with
      master := some ann9, lastSeq := some 4, twoStep := some (5, 0, 0), dreq := some (2, 0), down := some 0 } }

/-- A Sync with this sequence number. -/
def syncMsg (seq : BitVec 16) (two : Bool) : PtpSync :=
  { master := 9, domain := 0, seq := seq, twoStep := two, t1 := ⟨0, 0, 0⟩, corr := 0 }

theorem witness_PtpMessages :
    gSlave.coreUp = true ∧ gSlave.tk.mode ≠ .locked ∧ gSlave.syncOk (syncMsg 5 true) = true ∧
    gSlave.syncOk (syncMsg (4 + 0x7FFF) false) = true ∧ gSlave.servoEn = false ∧
    gUp.tk.master.map (fun x => x.clock) ≠ some 9 ∧
    ((syncMsg 4 true).seq - 4).toNat = 0 ∧ 2 ^ 15 ≤ ((syncMsg 0x8004 true).seq - 4).toNat ∧
    gSlave.tk.twoStep = some ((syncMsg 5 true).seq, 0, 0) ∧
    gSlave.tk.master.map (fun x => x.clock) = some (syncMsg 5 true).master ∧ gSlave.ptpEn = true ∧
    gSlave.tk.master.isSome = true ∧ gSlave.tk.isMaster = false ∧
    ({ gSlave.tk with isMaster := true } : TimeKeeper).isMaster = true ∧ gSlave.tk.dreq = some (2, 0) ∧ gSlave.tk.down = some 0 ∧
    ann9.domain.toNat = fld (gSlave.rd Reg.TK_PTP_CFG) 16 8 := by decide +kernel

theorem witness_TimeReferencesAndThePulse :
    gUp.tkUp = true ∧ (gMode .locked).tk.mode = .locked ∧ (gMode .locked).events.length < 256 ∧
    (∀ g ∈ [(gMode .locked).wr Reg.TK_PTP_CFG 0x40], g.gmMode = true ∧ g.tk.mode = .locked) ∧
    (∀ g ∈ [{ (gUp.wr Reg.TK_CFG 2) with tk := { gUp.tk with refOk := true } }],
      bit (g.rd Reg.TK_CFG) 1 = true ∧ g.tk.refOk = true) ∧
    (∀ t ∈ [({ lost := true, ticking := true } : TimeKeeper)], t.lost = true ∧ t.ticking = true) ∧
    (∀ n ∈ [100001, 499999998], ∀ g ∈ [{ (gUp.wr Reg.TK_PTP_CFG 0x40) with tk := { gUp.tk with everLocked := true, clk := n * 2 ^ 32 } }],
      g.gmMode = true ∧ g.tk.everLocked = true ∧ g.tk.mode ≠ .locked ∧ nsOf g.tk.clk % 1000000000 = n) ∧
    (∀ g ∈ [gUp.wr Reg.TK_PTP_CFG 0x40], g.gmMode = true ∧ g.servoEn = false ∧ g.tk.mode ≠ .locked ∧
      nsOf g.tk.clk % 1000000000 < 100000) := by decide +kernel

/-! ### Hypotheses met: the cores -/

/-- A field's least register but 0, where the form uses the field. -/
def useOf (f : Fld) (r : BitVec 6) : BitVec 6 := if f = .unused then 0 else r

/-- The fields of a slot of this form on core `n`, in the lowest slot that its opcode may stand in, first of its bundle. -/
def opOf (f : Form) (n : BitVec 5) (imm : Nat) : SlotOp :=
  { core := n, slot := if f.slots.testBit 0 then 0 else if f.slots.testBit 1 then 1 else if f.slots.testBit 2 then 2 else 3
    first := true, d := useOf f.d 1, a := useOf f.a 2, b := useOf f.b 3, c := if f.c = .g ∨ f.c = .v then 4 else 0
    imm := .ofNat 32 (imm ||| f.keyV) }

/-- Core `n` issues a program of four bundles, the first of which holds this slot alone; the core is otherwise as given. -/
def stSlot (f : Form) (o : SlotOp) (k : Core) : State :=
  st bUp { (gUp.wr (Reg.MC_PROG_LEN o.core.toNat) 4) with
    code := SMap.put 0 [] (65536 * o.core.toNat + o.slot.toNat) (slotBits o f.op)
    cores := [(o.core.toNat, { k with phase := .issuing, ncyc := 3600 })] }

/-- A slot of this form runs on core `n`. -/
def readyOn (f : Form) (n : BitVec 5) (imm : Nat) (k : Core) : Bool :=
  (stSlot f (opOf f n imm) k).slotReady f (opOf f n imm)

theorem witness_ScalarInstructionsSendTheirResult :
    ([fG3 0x01, fG3 0x02, fGI 0x03 immAll, fG3 0x04, fG3 0x05, fG3 0x06, fGI 0x07 immAll, fGI 0x08 immAll, fGI 0x09 immAll, fG3 0x0A,
      fG3 0x0B, fG3 0x0C, fG3 0x0D, fGI 0x0E 63, fGI 0x0F 63, fGI 0x10 63, fG3 0x11, fG3 0x12, fG3 0x13, fG3 0x14, fG3 0x15, fG3 0x16,
      fG3 0x17, fG2 0x18, fG2 0x19, fG2 0x1A, { op := 0x1B, slots := 3, d := .g, imm := immAll }, fGI 0x1C immAll,
      { op := 0x1D, slots := 3, d := .g, a := .g, b := .g, c := .sel }, fG4 0x1E, fG4 0x1F,
      { op := 0x36, slots := 3, d := .g, a := .p }].all fun f => readyOn f 0 (min f.imm 63) {}) = true := by decide +kernel

theorem witness_ComparesPredicatesAndUnfitSlots :
    ([fCmp 0x20, fCmp 0x21, fCmp 0x22, fCmp 0x23, fCmp 0x24, fCmp 0x25, fCmpI 0x28 immAll, fCmpI 0x29 immAll, fCmpI 0x2A immAll,
      fCmpI 0x2B immAll, fCmpI 0x2C immAll, fCmpI 0x2D immAll, fCmpI 0x2E 63, fP3 0x30, fP3 0x31, fP3 0x32, fP3 0x33,
      { op := 0x34, slots := 3, d := .p, a := .p }, { op := 0x35, slots := 3, d := .p, a := .g },
      { op := 0, slots := 15, c := .unused }].all fun f => readyOn f 23 (min f.imm 63) {}) = true ∧
    ([{ opOf (fG3 0x01) 0 0 with c := 1 }, { opOf (fG3 0x01) 0 0 with slot := 2 }, { opOf (fG3 0x01) 0 0 with a := 32 }].all fun o =>
      (stSlot (fG3 0x01) o {}).gx.fetches (fG3 0x01) o && ((stSlot (fG3 0x01) o {}).slotCore o).isOpen &&
        ((fG3 0x01).blocked ((stSlot (fG3 0x01) o {}).slotCore o) o).isEmpty) = true ∧
    bit (((stSlot (fG3 0x01) (opOf (fG3 0x01) 0 0) {}).slotCore (opOf (fG3 0x01) 0 0)).mask 1) 0 = false ∧
    (fG3 0x01).legal { opOf (fG3 0x01) 0 0 with a := 32 } = false := by decide +kernel

/-- RET. -/
def fRet : Form := { op := 0x45, slots := 1 }

theorem witness_BranchesIssueTheirTargetThreeCyclesLater :
    ([({ op := 0x40, slots := 1, imm := immAll } : Form), { op := 0x41, slots := 1, a := .g, imm := immAll },
      { op := 0x42, slots := 1, a := .g, imm := immAll }, { op := 0x43, slots := 1, a := .g, imm := immAll },
      { op := 0x44, slots := 1, imm := immAll }].all fun f =>
        readyOn f 0 3 {} && readyOn f 0 3 { g := [(2, 1)] } &&
        decide (((stSlot f (opOf f 0 3) {}).gx.entered (opOf f 0 3)).progLen 0 = 4) &&
        decide ((((stSlot f (opOf f 0 3) {}).slotCore (opOf f 0 3)).pc : Int) + (opOf f 0 3).imm.toInt = 3) &&
        decide (((stSlot f (opOf f 0 3) {}).slotCore (opOf f 0 3)).rg (opOf f 0 3).a.toNat = 0) &&
        decide ((opOf f 0 3).a = 0 ∨ ((stSlot f (opOf f 0 3) { g := [(2, 1)] }).slotCore (opOf f 0 3)).rg 2 = 1)) = true ∧
    ([3, 4].all fun t => readyOn fRet 0 0 { g := [(31, word t)] } &&
        decide ((((stSlot fRet (opOf fRet 0 0) { g := [(31, word t)] }).slotCore (opOf fRet 0 0)).rg 31).toNat = t)) = true := by
  decide +kernel

/-- The core as the slot finds it, and its address ga + imm. -/
def eaOf (f : Form) (n : BitVec 5) (imm : Nat) (k : Core) : Nat :=
  (((stSlot f (opOf f n imm) k).slotCore (opOf f n imm)).rg (opOf f n imm).a.toNat + (opOf f n imm).imm.signExtend 64).toNat

/-- Core 0's register g2 (the address base), at the last 8 bytes of its SRAM, at its first hole, in record memory, in a CSR block,
in the MG block, and nowhere. -/
def kAt (a : Nat) : Core := { g := [(2, word a)] }

theorem witness_LoadsStoresAndAtomics :
    ([(0x50, 1), (0x51, 2), (0x52, 4), (0x53, 8), (0x54, 1), (0x55, 2), (0x56, 4)].all fun r =>
      [0x107FFFF8, 0x10800000, 0x1000000000].all fun a => readyOn (fLoad r.1) 0 0 (kAt a) &&
        decide (eaOf (fLoad r.1) 0 0 (kAt a) = a) && decide (a % r.2 = 0)) = true ∧
    ownWindow 0 0x107FFFF8 = true ∧ isMem 0x107FFFF8 = true ∧ ownWindow 0 0x10800000 = true ∧ isMem 0x10800000 = false ∧
    ownWindow 0 0x1000000000 = false ∧ (eaOf (fLoad 0x53) 0 4 (kAt 0x10000000)) % 8 ≠ 0 ∧
    ((stSlot (fLoad 0x53) (opOf (fLoad 0x53) 0 0) (kAt 0x10000000)).gx.entered (opOf (fLoad 0x53) 0 0)).poisoned 0x10000000 8 = false ∧
    (({ gUp with poison := [(0x10000000 / 32, true)] } : Glexon).poisoned 0x10000000 8) = true ∧
    ((stSlot (fLoad 0x53) (opOf (fLoad 0x53) 0 0) {}).slotCore (opOf (fLoad 0x53) 0 0)).far.length < 8 ∧
    ([(0x58, 1), (0x59, 2), (0x5A, 4), (0x5B, 8)].all fun r =>
      [0x107FFFF8, 0x1000000000, 0x80000000, 0x80E00000, 0].all fun a => readyOn (fStore r.1) 0 0 (kAt a) &&
        decide (eaOf (fStore r.1) 0 0 (kAt a) = a) && decide (a % r.2 = 0)) = true ∧
    addrKind 0 = .none ∧ addrKind 0x80000000 = .csr ∧ addrKind 0x80E00000 = .csr ∧
    readyOn { op := 0x60, slots := 2, d := .g, a := .g, b := .g, imm := immAll } 0 0 (kAt 0x107FFFF8) = true ∧
    readyOn { op := 0x61, slots := 2, d := .g, a := .g, b := .g, c := .g } 0 0 (kAt 0x107FFFF8) = true := by decide +kernel

/-- A far load of 8 bytes from record memory into g5, the oldest of two. -/
def farK : Core :=
  { far := [{ reg := 5, addr := 0x1000000000, kind := .load 8 false, pc := 0 },
      { reg := 6, addr := 0x1000000008, kind := .load 8 false, pc := 0 }] }

theorem witness_SpecialRegistersAndFarLoads :
    ([0x000, 0x001, 0x002, 0x003, 0x004, 0x007, 0x009, 0x00A, 0x00B, 0x00C, 0x00D, 0x00E, 0x00F, 0xFFF].all fun i =>
      readyOn { op := 0x70, slots := 3, d := .g, imm := 0xFFF } 0 i {}) = true ∧
    ([0x00E, 0x00F].all fun i => readyOn { op := 0x71, slots := 3, a := .g, imm := 0xFFF } 0 i {}) = true ∧
    (∀ g ∈ [{ gUp with cores := [(3, farK)] }], g.coreUp = true ∧ (g.core 3).far = farK.far ∧
      isMem 0x1000000000 = true ∧ g.poisoned 0x1000000000 8 = false) := by decide +kernel

/-- A result of this slot for `e`, due in cycle 10. -/
def flight (slot : Nat) (e : Effect) : Flight := { due := 10, sent := 9, slot := slot, eff := e }

theorem witness_ResultsTakeEffectInOrder :
    (∀ g ∈ [{ gUp with cores := [(0, { flight := [flight 0 (.g 1 7)] })] }], (g.core 0).flight = [flight 0 (.g 1 7)] ∧
      9 < (flight 0 (.g 1 7)).due ∧ (flight 0 (.g 1 7)).due ≤ 10) ∧
    (∀ a ∈ [flight 0 (.g 1 7)], ∀ b ∈ [flight 1 (.g 1 8)], a.due = b.due ∧ a.due ≤ 10 ∧ a.sent = b.sent ∧ a.slot < b.slot ∧
      (({ gUp with cores := [(0, { flight := insFlight a [b] })] } : Glexon).core 0).flight = insFlight a [b]) ∧
    (flight 0 (.v 1 0 (BitVec.allOnes 1024))).slot < (flight 2 (.v 1 1 (BitVec.allOnes 1024))).slot ∧
    (flight 0 (.p 1 0 (BitVec.allOnes 32))).slot < (flight 1 (.p 1 1 (BitVec.allOnes 32))).slot := by decide +kernel

theorem witness_VectorArithmeticActsOnEachElement :
    ([0x80, 0x81, 0x82, 0x84, 0x85].all fun op => [0, 1, 2, 3, 4, 5].all fun t => readyOn (fV3 op) 8 t {}) = true ∧
    ([0x86, 0x87].all fun op => [0, 1, 2, 3, 4, 5].all fun t => readyOn (fV2 op 7) 8 t {}) = true ∧
    (∃ f, ETy.ofCode 0 = some (.fp f)) ∧ (∃ w, ETy.ofCode 3 = some (.int w)) := by
  exact ⟨by decide +kernel, by decide +kernel, ⟨_, rfl⟩, ⟨_, rfl⟩⟩

theorem witness_VectorFusedApproximateAndConvert :
    readyOn fVfma 8 0 {} = true ∧ readyOn fVfma 8 3 {} = true ∧ (∃ f, ETy.ofCode 0 = some (.fp f)) ∧
    (∀ f, ETy.ofCode 3 ≠ some (.fp f)) ∧ ([0x98, 0x99, 0x9A, 0x9B].all fun op => readyOn (fV2 op 0) 8 0 {}) = true ∧
    ([3, 24, 8, 72, 1, 65].all fun i => readyOn (fV2 0x90 0x7F) 8 i {}) = true ∧
    fld (72 : Word) 0 6 = 8 ∧ fld (65 : Word) 0 6 = 1 := by
  refine ⟨by decide +kernel, by decide +kernel, ⟨_, rfl⟩, ?_, by decide +kernel, by decide +kernel, by decide, by decide⟩
  intro f h
  cases h

theorem witness_VectorComparesBitsAndMoves :
    ([0, 1, 2, 3, 4, 5].all fun r => readyOn (fVcmp r) 8 3 {}) = true ∧
    ([0x95, 0x96, 0x97].all fun op => readyOn (fVred op) 8 3 {}) = true ∧
    (∀ o ∈ [{ opOf (fVred 0x95) 8 3 with c := 2 }], (stSlot (fVred 0x95) o { p := [(2, .ofNat 32 (2 ^ 31))] }).slotReady (fVred 0x95) o = true ∧
      ((stSlot (fVred 0x95) o { p := [(2, .ofNat 32 (2 ^ 31))] }).slotCore o).mask o.c = .ofNat 32 (2 ^ 31)) ∧
    (∀ i ∈ [0, 1, 2, 3], ∀ o ∈ [{ opOf (fVred 0x95) 8 i with c := 8 }], (stSlot (fVred 0x95) o {}).slotReady (fVred 0x95) o = true ∧
      ((stSlot (fVred 0x95) o {}).slotCore o).mask o.c = 0) ∧
    ([fV3 0x88, fV3 0x89, fV3 0x8A, fV2 0xA8 0, fVsel, fVperm].all fun f => readyOn f 8 0 {}) = true ∧
    ([0, 1, 2].all fun m => readyOn (fVshf m) 8 (3 + 31 * 32) {}) = true ∧ readyOn fVbcast 8 3 {} = true ∧
    (∃ t, ETy.ofCode 3 = some t ∧ 31 < 1024 / t.width ∧ live t.width (BitVec.allOnes 32) 31 = true) ∧
    readyOn fVext 8 (3 + 31 * 128) {} = true ∧ readyOn fVins 8 (3 + 31 * 128) {} = true := by
  refine ⟨by decide +kernel, by decide +kernel, by decide +kernel, by decide +kernel, by decide +kernel, by decide +kernel,
    by decide +kernel, ⟨_, rfl, ?_⟩, by decide +kernel, by decide +kernel⟩
  decide +kernel

theorem witness_VectorLoadsAndStores :
    ([0x183FFF80, 0x183FFF84, 0x19000000, 0x1000000000].all fun a => readyOn fVld 8 0 (kAt a) && readyOn fVst 8 0 (kAt a) &&
      decide (eaOf fVld 8 0 (kAt a) = a) && decide (eaOf fVst 8 0 (kAt a) = a)) = true ∧
    0x183FFF84 % 128 ≠ 0 ∧ 0x183FFF80 % 128 = 0 ∧ addrKind 0x183FFF80 = .sram 8 ∧ addrKind 0x19000000 = .sram 9 ∧
    addrKind 0x1000000000 = .hbm ∧
    (∀ s ∈ [(stSlot fVld (opOf fVld 8 0) (kAt 0x183FFF80)).gx.entered (opOf fVld 8 0)],
      s.poisoned 0x183FFF80 128 = false ∧ s.clash none false 0x183FFF80 128 = false) := by decide +kernel

/-! ### Hypotheses met: the cores' engines -/

/-- Registers g2 and g3, and the outstanding operations. -/
def kAB (a b : Nat) (ops : List EngOp) : Core := { g := [(2, word a), (3, word b)], ops := ops }

/-- An operation with this tag in a queue. -/
def opIn (q : EngQueue) (tag : Nat) : EngOp := { q := q, tag := tag, kind := .xop 0 1 }

/-- Outstanding operations: none, one with tag 0, and eight of queue `q` with tag 1. -/
def opsFor (q : EngQueue) : List (List EngOp) := [[], [opIn q 0], List.replicate 8 (opIn q 1)]

/-- MMA of 16 × 1 BF16 vectors at the foot of core 7's SRAM, for tag 0 of engine 0. -/
def mmaImm : Nat := 1 * 2 ^ 20 + 6 * 2 ^ 16 + 6 * 2 ^ 12

theorem witness_EngineOperationsEnterTheirQueue :
    ((opsFor (.matrix 0)).all fun l => readyOn (fE 0xC0 immAll 0 0 .tile .g .g) 7 mmaImm (kAB 0x17000000 0x17010000 l)
      && readyOn (fE 0xC1 0x3FF 0 0 .tile .g .unused) 7 0 (kAB 0x177F8000 0 l)
      && readyOn (fE 0xC2 0xFFF 0 0 .tile .g .unused) 7 (3 * 2 ^ 9) (kAB 0x17000000 0 l)
      && readyOn (fE 0xC3 0x7FF 0 0 .unused .g .unused) 7 0 (kAB 0x177FFFC0 0 l)) = true ∧
    inOwnSram 7 0x17000000 (mmaBytes 6 16 32) = true ∧ inOwnSram 7 0x17010000 (mmaBytes 6 16 32) = true ∧ fmtPair 6 6 = true ∧
    inOwnSram 7 0x177F8000 32768 = true ∧ inOwnSram 7 0x17000000 (tstBytes 3) = true ∧ inOwnSram 7 0x177FFFC0 64 = true ∧
    ((opsFor .dma).all fun l => [0x20, 0].all fun d =>
      readyOn (fE 0xC4 0xFFFFFF3F 0x20 d .unused .g .g) 0 (131072 * 2 ^ 8) (kAB 0x10000000 0x1000000000 l)
      && dmaAllowed (kAB 0x10000000 0x1000000000 l) (opOf (fE 0xC4 0xFFFFFF3F 0x20 d .unused .g .g) 0 (131072 * 2 ^ 8))) = true ∧
    ((opsFor (.vector 1)).all fun l => readyOn (fE 0xC6 0xFFFF007F 0 0 .unused .g .unused) 8 (4096 * 2 ^ 16 + 1 * 2 ^ 5) (kAB 0x18000000 0 l)) = true ∧
    inOwnSram 8 0x18000000 (8 * 4096) = true ∧ (∀ q ∈ opsFor .dma, (∀ p ∈ q, p.tag ≠ 0) ∨ ∃ p ∈ q, p.tag = 0) ∧
    (((opsFor .dma).getD 2 []).filter fun p => p.q = .dma).length = 8 := by decide +kernel

theorem witness_SharedEngineOperationsNeedTheirWindow :
    ([(0, 1), (0, 2), (0, 3), (0, 4), (0, 5), (1, 1), (1, 2), (2, 1), (2, 2), (2, 3), (2, 0x11), (2, 0x12), (2, 0x13), (3, 1), (3, 2),
      (4, 1), (4, 2), (4, 3), (4, 4)].all fun r => (opsFor (.shared (.ofNat 3 r.1))).all fun l =>
        readyOn (fXop r.1 r.2) 8 0 (kAB 0x183FFFC0 0 l)) = true ∧
    inOwnSram 8 0x183FFFC0 64 = true ∧ gUp.inWindow 0 8 3600 = false ∧
    ({ gUp with image := { gUp.image with variants := [(0, { wins := [⟨0, 8, 3600, 3601⟩] })] } } : Glexon).inWindow 0 8 3600 = true := by
  decide +kernel

/-- An operation that has begun on these bytes. -/
def begunOp (q : EngQueue) (kind : EngKind) (data : List Byte) : EngOp := { q := q, tag := 3, kind := kind, begun := true, data := data }

/-- The Glexon with one operation outstanding on core `n`. -/
def gOp (n : Nat) (p : EngOp) : Glexon := { gUp with cores := [(n, { ops := [p] })] }

/-- A digest descriptor: CRC-64 of the 8 bytes at the foot of record memory. -/
def digDesc : List Byte := leBytes 8 0x1000000000 ++ leBytes 4 8 ++ List.replicate 52 0

/-- A digest descriptor of M61 over 32-bit elements. -/
def m61Desc : List Byte := leBytes 8 0x1000000000 ++ leBytes 4 8 ++ leBytes 4 5 ++ List.replicate 48 0

theorem witness_EngineOperationsComplete :
    (∀ b ∈ [false, true], ∀ g ∈ [gOp 8 { (begunOp .dma (.dma 0x18000000 0x1000000000 64 b) (List.replicate 64 1)) with begun := false }],
      g.coreUp = true ∧ (g.core 8).ops.length = 1 ∧ (g.core 8).isOpen = false ∧
      g.clash (some (8, 3)) false (if b then 0x18000000 else 0x1000000000) 64 = false ∧
      g.clash (some (8, 3)) true (if b then 0x1000000000 else 0x18000000) 64 = false) ∧
    (∀ g ∈ [gOp 0 (begunOp (.matrix 15) (.tst 7 0x10000000 3) (List.replicate 64 0))],
      (g.core 0).ops = [begunOp (.matrix 15) (.tst 7 0x10000000 3) (List.replicate 64 0)] ∧
      g.clash (some (0, 3)) true 0x10000000 64 = false) ∧
    (begunOp (.matrix 0) (.tld 0 0x10000000 true) []).begun = true ∧ (begunOp (.matrix 0) (.accnet 0x10000000 3) []).bad = false ∧
    (begunOp (.matrix 0) (.mma 0 0x10000000 0x10010000 1 6 6 true 0) []).spoilt = false ∧ gUp.events.length < 256 ∧
    (begunOp (.vector 1) (.vprog 0x18000000 1) (leBytes 8 (0xA8 * 2 ^ 56 + 31 * 2 ^ 50 + 30 * 2 ^ 44))).data.length = 8 ∧
    (∀ d ∈ [digDesc, m61Desc], ∀ g ∈ [{ (gOp 8 (begunOp (.shared 2) (.xop 0x18000000 1) d)).wr Reg.DG_CTRL (word (2 ^ 63)) with rdData := 0 }],
      (g.core 8).ops = [begunOp (.shared 2) (.xop 0x18000000 1) d] ∧ d.length = 64 ∧ bit (g.rd Reg.DG_CTRL) 63 = true ∧
      leAt d 8 4 = 8 ∧ zeros d 13 16 = true ∧ zeros d 52 64 = true ∧ leAt d 16 8 < 2 ^ 61 ∧ 8 % m61Width (leAt d 12 1) = 0 ∧
      memRange (leAt d 0 8) 8 = true ∧ g.poisoned (leAt d 0 8) 8 = false ∧ g.clash (some (8, 3)) false (leAt d 0 8) 8 = false ∧
      g.clash (some (8, 3)) true 0x18000000 64 = false) ∧
    5 ≤ leAt m61Desc 12 1 ∧ leAt m61Desc 12 1 ≤ 8 := by decide +kernel

/-- A fence of this form on core 8 with the given core, its bundle then complete. -/
def fencedOf (f : Form) (w : Wait) (k : Core) : Core :=
  ((((stSlot f (opOf f 8 1) k).gx.entered (opOf f 8 1)).setCore 8
    { ((stSlot f (opOf f 8 1) k).slotCore (opOf f 8 1)) with wait := w, next := 4 }).closeBundle 8).core 8

theorem witness_WaitsAndFences :
    readyOn (fE 0xC8 immAll 0 0 .g .unused .unused) 8 1 {} = true ∧
    ([0xD0, 0xD1, 0xD2, 0xD3, 0xDF].all fun op => readyOn (fE op 0 0 0 .unused .unused .unused) 8 0 {}) = true ∧
    (∀ k ∈ [fencedOf (fE 0xC8 immAll 0 0 .g .unused .unused) (.tags 1 1) {}],
      (k.ops.any fun p => bit (1 : BitVec 32) p.tag) = false ∧ k.ncyc < gUp.tdead ∧ k.cyc + 1 < gUp.tdead) ∧
    (∀ k ∈ [fencedOf (fE 0xC8 immAll 0 0 .g .unused .unused) (.tags 1 1) { ops := [opIn .dma 0] }],
      (k.ops.any fun p => bit (1 : BitVec 32) p.tag) = true) ∧
    (fencedOf (fE 0xD0 0 0 0 .unused .unused .unused) .fenceM { far := farK.far }).far ≠ [] ∧
    (fencedOf (fE 0xD3 0 0 0 .unused .unused .unused) .fenceF { posted := 1 }).posted ≠ 0 ∧
    (∀ g ∈ [{ gUp with cores := [(8, { phase := .issuing, wait := .fenceX, ncyc := 3601 })] }],
      (g.core 8).phase = .issuing ∧ (g.core 8).wait = .fenceX ∧ (g.core 8).ncyc + 0 < g.tdead) := by decide +kernel

/-- The Glexon in a tick, with core 23 as given. -/
def gTick (k : Core) : Glexon := { gUp with tk := { gUp.tk with ticking := true }, cores := [(23, k)] }

theorem witness_CoresEnterCheckAndWithdraw :
    (∀ g ∈ [gTick { inSet := true }], g.coreUp = true ∧ g.tk.ticking = true ∧ g.withdrawn 23 = false ∧ (g.core 23).check = false ∧
      (g.core 23).phase = .idle ∧ bit g.abortMask 23 = false ∧ (g.core 23).inSet = true) ∧
    (∀ g ∈ [gTick { check := true }], (g.core 23).check = true ∧ (g.core 23).restore = false) ∧
    (∀ g ∈ [gTick { wdraw := some (0, 1) }], (g.core 23).wdraw = some (0, 1) ∧ (0 : Word).toNat ≤ g.tk.tickNo.toNat ∧
      ∀ c < 23, (g.core c).wdraw = none) ∧
    (∀ g ∈ [{ gUp with code := [(65536 * 23, 0xFF00000000000000)], cores := [(23, { phase := .issuing, isOpen := true })] }],
      g.slotWord 23 (g.core 23).pc 0 = 0xFF00000000000000 ∧ (g.core 23).isOpen = true ∧
      g.fetches { op := 0xFF, slots := 15, c := .unused, imm := immAll }
        { core := 23, slot := 0, first := false, d := 0, a := 0, b := 0, c := 0, imm := 0 } = true) := by decide +kernel

/-! ### Hypotheses met: audit, scoring, energy, traffic -/

/-- A record with this type, class and payload. -/
def recOf (typ : BitVec 16) (cls : BitVec 4) (payload : List Byte) : Rec :=
  { typ := typ, cls := cls, colour := 0, flags := 0, src := 0x80000005, tick := 0, shortTime := 0, seq := 1, wsId := 0, wsGen := 0,
    alive := 0, payload := payload }

/-- A tile of 1 × 1 × 16 in BF16 with its output of four zero bytes, with this profile and digest. -/
def tileWith (profile digest : Nat) : List Byte :=
  List.replicate 32 0 ++ (leBytes 2 1 ++ leBytes 2 0 ++ leBytes 4 256 ++ leBytes 2 1 ++ leBytes 2 1 ++ leBytes 4 16 ++ [6, 6, 0, 1, 0, 0, 0, 0]
    ++ leBytes 4 profile ++ leBytes 4 64 ++ leBytes 4 32 ++ leBytes 4 128 ++ leBytes 4 32 ++ leBytes 4 192 ++ leBytes 4 4
    ++ leBytes 8 digest ++ leBytes 4 0) ++ List.replicate 192 0

/-- The tile without profile. -/
def tileBytes (digest : Nat) : List Byte := tileWith 0 digest

/-- A ticking leaf that stages tiles, with one replay line and this tile in port 63's FIFO. -/
def gAudit (digest : Nat) : Glexon :=
  { ((gUp.wr Reg.AU_CTRL (word (2 ^ 63 + 2 ^ 62))).wr Reg.AU_STAGE_BASE 0x1400000000).wr Reg.AU_STAGE_END 0x14FFFFFFFF with
    tk := { gUp.tk with ticking := true }
    image := { gUp.image with replay := [⟨0, 7, none, 100, 1000⟩] }
    ports := [(63, { fifo := [(recOf 7 2 (tileBytes digest), 6)] })] }

/-- A tile in staging. -/
def tileX (kind : ItemKind) (on : Option (Nat × Nat)) : Tile9 :=
  { id := 4, port := 63, r := recOf 7 2 (tileBytes 5), arrived := 0, kind := kind, tries := 1, cores := [], w1 := none, on := on }

theorem witness_AuditTilesAreStagedReplayedAndJudged :
    gUp.coreUp = true ∧ ({ gUp.au with check := some 255 } : Audit).check = some 255 ∧
    (∀ d ∈ [crc64 [0, 0, 0, 0], 5], (gAudit d).siennaRelease.stageFull = false ∧
      ((gAudit d).siennaRelease.popFifo 63 2).map (fun x => x.1) = some (recOf 7 2 (tileBytes d), 6) ∧
      (((gAudit d).siennaRelease.popFifo 63 2).bind fun x => (x.2.tapMeter 63 x.1.1).1) = some (recOf 7 2 (tileBytes d)) ∧
      (gAudit d).tk.ticking = true ∧ ((gAudit d).wsEntry 0 0).takes 0 0 = true) ∧
    (gAudit (crc64 [0, 0, 0, 0])).arrivalFail (tileBytes (crc64 [0, 0, 0, 0])) = 0 ∧ (gAudit 5).arrivalFail (tileBytes 5) ≠ 0 ∧
    (∀ g ∈ [gAudit 5], g.au.work = [] ∧ g.image.replay.filter g.lineOn = [⟨0, 7, none, 100, 1000⟩]) ∧
    (∀ a ∈ [{ gUp.au with tiles := [tileX .again (some (0, 7))], work := [4] }], a.tiles = [tileX .again (some (0, 7))] ∧
      a.work = [(tileX .again (some (0, 7))).id] ∧ (tileX .again (some (0, 7))).tries < 2 ∧
      (tileX .again (some (0, 7))).w1 = none) ∧
    (tileX .first none).hdr.digest = 5 ∧ (TileHdr.ofBytes ((tileWith 9 5).drop 32)).profile ≠ 0 := by decide +kernel

theorem witness_InstancesModelsAndItemsExpire :
    (SMap.get {} ([(15, { check := some 0x1000000000 })] : SMap ModelSlot) 15).check = some 0x1000000000 ∧
    gUp.modelCheckCode 0 ≠ 0 := by decide +kernel

/-- A ticking leaf with its planner on, two lines and this estimate of Ivory. -/
def gPlan (ivory : Nat) : Glexon :=
  { (((gUp.wr Reg.EP_CTRL (word (2 ^ 63 + 2 ^ 61))).wr Reg.EP_SEPIA_MASK 3).wr Reg.ID_GLEXON_INDEX (word (2 ^ 63))).wr (Reg.RE_ROLE_CFG 0) (word (2 ^ 63 + 64)) with
    tk := { gUp.tk with ticking := true }, ep := { gUp.ep with due := true }
    image := { gUp.image with
      ivoryEst := ivory, sepia := [⟨0, 0, 100, 0⟩, ⟨1, 1, 100, 0⟩], variants := [(0, { lines := [⟨0, 0, 0, 9⟩, ⟨1, 0, 9, 18⟩] })] } }

theorem witness_AdmissionStaysWithinTheBudget :
    (∀ g ∈ [gPlan 0], g.coreUp = true ∧ g.tk.ticking = true ∧ g.ep.due = true ∧ bit (g.rd Reg.EP_CTRL) 63 = true ∧
      g.ep.missing = none ∧ g.ep.stale = false ∧ g.mg.hbmHot = 0 ∧ g.tj < ((16 * g.therm.1 : Nat) : Int) ∧
      g.openLines.length = 2 ∧ g.roleOn 0 = true ∧ bit (g.rd Reg.EP_CTRL) 61 = true ∧ g.ep.grey = false ∧ g.ep.overB < 16) ∧
    (gPlan 0).overBudget 100 (gPlan 0).budget = false ∧ (gPlan 10000000).overBudget 100 (gPlan 10000000).budget = true ∧
    bit (gUp.rd Reg.EP_CTRL) 63 = false ∧
    (∀ p ∈ [{ gUp.ep with overB := 16 }], p.grey = false ∧ 16 ≤ p.overB) ∧
    (∀ p ∈ [{ gUp.ep with grey := true, inB := 256 }], p.grey = true ∧ 256 ≤ p.inB) ∧
    gUp.events.length < 256 := by decide +kernel

/-- Port 7 up with one frame in each of these queues. -/
def gServe (qs : List Nat) : Glexon :=
  { gUp.wr Reg.TS_CTRL (word (2 ^ 63 + 2 ^ 62)) with
    portLanes := [(7, 4)]
    ts := { gUp.ts with ports := [(7, { qs := qs.map fun q => (q, { frames := [⟨100, 0, .packet 0 0 []⟩] }) })] } }

theorem witness_TrafficIsGatedShapedAndServed :
    (∀ g ∈ [{ (gUp.wr (Reg.TS_GATE 0) 20000) with tk := { gUp.tk with mode := .locked } }], g.gateBase ≠ none ∧ 0 < gateN g.gateList) ∧
    (∀ g ∈ [gServe [0, 1]], bit (g.rd Reg.TS_CTRL) 63 = true ∧ SMap.get 0 g.portLanes 7 ≠ 0 ∧ g.eligible 7 0 = true ∧
      g.serveQ 7 = some 0 ∧ bit (g.rd Reg.TS_CTRL) 62 = true) ∧
    (gServe [1, 2]).eligible 7 0 = false ∧ (gServe [1, 2]).eligible 7 1 = true ∧ (gServe [7]).serveQ 7 = some 7 ∧
    (gServe []).serveQ 7 = none := by decide +kernel

/-! ### Hypotheses met: fabric commands and the mailbox -/

/-- A command from Glexon 5 with this type, target, effective boundary and arguments. -/
def cmdOf (typ : Nat) (target eff : Nat) (args : List Byte) : Rec :=
  recOf (.ofNat 16 typ) 8 (leBytes 4 0 ++ leBytes 4 target ++ leBytes 8 eff ++ args)

/-- The executor runs, this Glexon has index 6, and this command is the FIFO's only one. -/
def gCmd (r : Rec) : Glexon :=
  { (gUp.wr Reg.TS_CTRL (word (2 ^ 62))).wr Reg.ID_GLEXON_INDEX (word (2 ^ 63 + 6)) with ts := { gUp.ts with fifo := [r] } }

theorem witness_CommandsEnterOnce :
    gUp.coreUp = true ∧ cmdFormOk [] = false ∧
    (∀ r ∈ [cmdOf 0x0406 toFleet 8 (leBytes 8 2)], cmdFormOk (Rec.bytes r) = true ∧ r = Rec.ofBytes (Rec.bytes r) ∧
      (SMap.get {} gUp.ts.dedup (Rec.origin r)).look (Rec.cycles r) r.seq.toNat = ({}, false, false)) ∧
    gUp.ts.fifo.length < 256 ∧
    (∀ t ∈ [0x0401, 0x0402, 0x0403, 0x0404, 0x0405, 0x0406, 0x0407, 0x0408, 0x0409, 0x040A, 0x040B],
      (st bUp (gCmd (cmdOf t toFleet 0 []))).gx.coreUp = true ∧ bit ((gCmd (cmdOf t toFleet 0 [])).rd Reg.TS_CTRL) 62 = true ∧
      (cmdOf t toFleet 0 []).typ.toNat = t ∧ cmdArgsOk (cmdOf t toFleet 0 []) = false) := by decide +kernel

/-- A greyout of every class of a target. -/
def greyFor (target : Nat) : Rec := cmdOf 0x0401 target 0 (leBytes 8 (if target < 2 ^ 31 then 14 else 12) ++ leBytes 8 0x100001000)
/-- A blackout. -/
def blackFor (target : Nat) : Rec := cmdOf 0x0402 target 0 (leBytes 8 (if target < 2 ^ 31 then 14 else 12))
/-- A watch-set command. -/
def wsFor (typ eff n : Nat) : Rec := cmdOf typ toFleet eff (leBytes 2 4095 ++ leBytes 2 1 ++ leBytes 4 0 ++ leBytes 8 n)
/-- EPOCH: T_s 2 s, P code 2, n_s 1. -/
def epochRec : Rec := cmdOf 0x0405 toFleet 0 (leBytes 6 2 ++ leBytes 6 0 ++ [2, 0, 0, 0] ++ leBytes 8 1)
/-- ANNOUNCE of a leaf. -/
def annRec : Rec := cmdOf 0x040A (toGlexon 6) 0 (leBytes 8 0 ++ leBytes 8 0 ++ leBytes 4 0 ++ leBytes 4 1 ++ leBytes 4 0 ++ leBytes 4 0)

theorem witness_FabricCommandsTakeEffect :
    (∀ r ∈ [greyFor (toGlexon 6), blackFor (toGlexon 6), annRec, cmdOf 0x040B (toGlexon 6) 0 (List.replicate 24 0)],
      cmdArgsOk r = true ∧ (gCmd r).targetOf r = some none) ∧
    (∀ r ∈ [greyFor 9, blackFor 9], cmdArgsOk r = true ∧
      ({ gCmd r with ports := [(63, { want := [(Reg.BM_DIE_INDEX, some (word (2 ^ 63 + 9)))] })] } : Glexon).targetOf r = some (some 63)) ∧
    (∀ r ∈ [wsFor 0x0403 9 0, wsFor 0x0404 9 12, epochRec, cmdOf 0x0406 toFleet 8 (leBytes 8 2),
        cmdOf 0x0407 toFleet 0 (leBytes 8 0 ++ leBytes 8 2 ++ leBytes 6 0 ++ leBytes 2 0 ++ leBytes 8 0 ++ leBytes 8 0),
        cmdOf 0x0408 toFleet 8 (leBytes 8 1), cmdOf 0x0409 toFleet 8 (leBytes 8 2 ++ leBytes 8 20000 ++ leBytes 8 20000)],
      cmdArgsOk r = true ∧ (gCmd r).tk.ticking = false) ∧
    Rec.eff (wsFor 0x0403 9 0) ≠ 0 ∧ leAt (wsFor 0x0404 9 12).payload 24 8 = Rec.eff (wsFor 0x0404 9 12) + 3 ∧
    (∀ g ∈ [{ gCmd annRec with
        tk := { gUp.tk with ticking := true }, image := { gUp.image with roles := [(1, { children := [(31, 5)] })] } }],
      g.tk.ticking = true ∧ (SMap.get ({} : RoleImg) g.image.roles (leAt annRec.payload 32 1 + 1)).children.find? (fun c => c.2 == Rec.origin annRec)
        = some (31, Rec.origin annRec) ∧ word (leAt annRec.payload 16 8) = g.rd Reg.MG_BU_MAP) ∧
    (gUp.wr (Reg.RE_ROLE_CFG 3) (word (2 ^ 63 + 32))).roleSet 3 = true := by decide +kernel

/-- LOCKED, with this slot's role set, an index and a good image. -/
def gReady (k : Nat) : Glexon :=
  { (gUp.wr (Reg.RE_ROLE_CFG k) (word (2 ^ 63 + 1))).wr Reg.ID_GLEXON_INDEX (word (2 ^ 63)) with
    tk := { gUp.tk with mode := .locked }, image := { gUp.image with ok := true } }

theorem witness_EpochsPeriodsAndAnnouncements :
    (∀ g ∈ [{ gUp with tk := { gUp.tk with clk := 60000000000 * 2 ^ 32 }, fl := { gUp.fl with held := [(4095, ⟨1, 0, 0⟩)] } }],
      (g.fl.held.find? fun e => e.1 = 4095) = some (4095, ⟨1, 0, 0⟩) ∧ 0 + 60000000000 ≤ g.nowNs) ∧
    (∀ t ∈ [({ ticking := true, pend := some ⟨5, 1, 0, 2, 0, false⟩ } : TimeKeeper)], t.ticking = true ∧ t.pend ≠ none) ∧
    (∀ g ∈ [{ gUp with tk := { gUp.tk with ticking := true, pchg := word (1 * 8 + 1) } }], g.changeDue = true ∧
      g.changeAt * (250000 * 2 ^ fld g.tk.pchg 0 3) ≤ g.tk.epoch + g.changeAt * g.pNs) ∧
    (∀ k ∈ [0, 1, 2, 3], (gReady k).ready k = true ∧ (gReady k).tk.ticking = false ∧ (gReady k).tk.hasEpoch = false ∧
      (gReady k).ts.fifo.length < 256 ∧ SMap.get false (gReady k).mg.annDone k = false ∧
      SMap.get false ({ (gReady k).mg with annDone := [(k, true)] } : Mgmt).annDone k = true) ∧
    (∀ g ∈ [{ gReady 3 with tk := { (gReady 3).tk with clk := 4193000000000 * 2 ^ 32 } }], g.ready 3 = true ∧
      max (g.mapNat 16 8) ((g.annSelf 3).h.toNat + 16777216) * (250000 * 2 ^ g.mapNat 6 1)
        ≤ (g.nowNs + 2000000000 + 999999999) / 1000000000 * 1000000000) := by decide +kernel

/-- Firmware runs. -/
def gFw : Glexon := { gUp with mg := { gUp.mg with run := .running } }

/-- A request with these arguments. -/
def reqOf (l : List Byte) : MbxReq := { id := 77, args := padTo 56 l }

theorem witness_MailboxRequestsAreAnswered :
    gUp.fwOn = false ∧ gFw.fwOn = true ∧ gFw.coreUp = true ∧ ({ gFw with sysRstN := false } : Glexon).coreUp = false ∧
    ({ gFw with sysRstN := false } : Glexon).fwOn = true ∧ 12 < (13 : BitVec 16).toNat ∧
    (∀ q ∈ [reqOf (leBytes 12 0x0406 ++ leBytes 4 toFleet ++ leBytes 8 8 ++ leBytes 8 2)],
      ∀ g ∈ [gFw.wr Reg.ID_GLEXON_INDEX (word (2 ^ 63 + 6))],
      leAt q.args 0 2 = 0x0406 ∧ leAt q.args 12 4 = toFleet ∧ g.indexValid = true ∧ g.ts.fifo.length < 256 ∧
      cmdArgsOk (g.newCmd 0x0406 toFleet (word (leAt q.args 16 8)) (q.args.drop 24)).1 = true) ∧
    leAt (reqOf []).args 0 2 < 0x0401 ∧
    (∀ q ∈ [reqOf (leBytes 2 4095 ++ leBytes 2 464 ++ leBytes 2 48)], leAt q.args 0 2 < 4096 ∧ leAt q.args 2 2 % 8 = 0 ∧
      leAt q.args 4 2 = 48 ∧ leAt q.args 2 2 + leAt q.args 4 2 ≤ 512 ∧ gFw.clash none true (listAt 4095 + 464) 48 = false) ∧
    (∀ g ∈ [{ gFw with image := { gUp.image with pairs := [⟨64, 0, 0, 0⟩] } }], leAt (reqOf []).args 0 4 < g.image.pairs.length ∧
      g.clash none true ((g.rd Reg.RE_SLOT_BASE).toNat + pairOff g.image.pairs 0 + 8) 8 = false) ∧
    leAt (reqOf [63]).args 0 1 < 64 ∧ 64 ≤ leAt (reqOf [64]).args 0 1 ∧
    ({ gFw.rm.boot with busy := true } : Boot).busy = true ∧ gFw.rm.boot.busy = false ∧ gFw.mg.mapOk = false ∧ gFw.imageUnmet ≠ 0 ∧
    (∀ g ∈ [{ gFw with staged := some { ok := true }, mg := { gFw.mg with imgOk := true } }], g.imageUnmet = 0 ∧
      g.tk.tickNo.toNat + 5 ≤ leAt (reqOf [5]).args 0 8 ∧ leAt (reqOf [5]).args 0 8 < 2 ^ 63) := by decide +kernel

/-! ### Hypotheses met: remote memory -/

/-- A whole packet for queue pair 9 from queue pair 8 of endpoint 3: PSN and MSN 0. -/
def pktOf (op flags rkey raddr total : Nat) (pay : List Byte) : RmFrame :=
  let h := leBytes 1 op ++ leBytes 1 flags ++ leBytes 2 pay.length ++ leBytes 2 9 ++ leBytes 2 8 ++ leBytes 4 0 ++ leBytes 4 0
    ++ leBytes 4 rkey ++ leBytes 4 0 ++ leBytes 8 raddr ++ leBytes 4 0 ++ leBytes 4 total ++ leBytes 4 0
  { src := 3, bytes := h ++ leBytes 4 (crc32c h) ++ pay ++ leBytes 4 (crc32c pay) }

/-- What it spells. -/
def pktIn (k : RmFrame) : RmPkt := RmPkt.ofBytes k.bytes

/-- Queue pair 9 in RTS with its peer, and region 5 of 1 MiB valid for every access at the foot of record memory. -/
def gRm : Glexon :=
  ((((gUp.wr Reg.RM_CTRL (word (2 ^ 63))).wr (Reg.RM_QP_CFG 9) (word (2 * 2 ^ 61 + 8 * 2 ^ 24 + 3))).wr (Reg.RM_MR_BASE 5) 0x1000000000).wr
    (Reg.RM_MR_ATTR 5) (word (2 ^ 63 + 2 ^ 61 + 2 ^ 60 + 2 ^ 59 + 16384)))

theorem witness_QueuePairsAndRegions :
    gUp.coreUp = true ∧ fld (word (2 ^ 61)) 61 3 = 1 ∧ gUp.qpState 4095 = 0 ∧ fld (word (2 * 2 ^ 61)) 61 3 = 2 ∧
    (gUp.wr (Reg.RM_QP_CFG 4095) (word (2 ^ 61))).qpState 4095 = 1 ∧ fld (word (3 * 2 ^ 61)) 61 3 = 3 ∧ gRm.qpState 9 = 2 ∧
    bit (word (2 ^ 63 + 1)) 63 = true ∧
    (∀ g ∈ [gUp.wr (Reg.RM_MR_BASE 16383) 0x21FFFFFFC0], inRecordMem (g.rd (Reg.RM_MR_BASE 16383)).toNat (64 * 1) = true ∧
      (g.rd (Reg.RM_MR_BASE 16383)).toNat % 64 = 0 ∧ inRecordMem (g.rd (Reg.RM_MR_BASE 16383)).toNat (64 * 2) = false) ∧
    SMap.get none gUp.rm.keyAt 16383 = none ∧ SMap.get none ([(16383, some 0)] : SMap (Option Nat)) 16383 = some 0 ∧
    ({ gUp with tk := { gUp.tk with clk := 999999 * 2 ^ 32 } } : Glexon).nowNs < 0 + 1000000 := by decide +kernel

/-- What `State.takesPacket` asks of a packet and the machine, as a check. -/
def takes (g : Glexon) (k : RmFrame) : Bool :=
  g.coreUp && bit (g.rd Reg.RM_CTRL) 63 && rmFormOk k.bytes && decide (g.qpState 9 = 2) &&
    decide (fld (g.qpCfg 9) 24 12 = (pktIn k).srcq) && decide (fld (g.qpCfg 9) 0 8 = k.src.toNat) && decide ((pktIn k).dst = 9) &&
    !(g.qp 9).gap && decide (seqDist (g.qp 9).base (pktIn k).psn < 1024) && !(g.qp 9).got.contains (pktIn k).psn

theorem witness_RequestsArePerformedOnMemory :
    (∀ k ∈ [pktOf 1 3 5 1048572 4 [1, 2, 3, 4]], takes gRm k = true ∧ gRm.keyCheck 9 (pktIn k).rkey = 0 ∧ (pktIn k).op = 1 ∧
      (pktIn k).dataOk none = true ∧ bit (gRm.attr (pktIn k).rkey) 60 = true ∧
      (pktIn k).raddr + (pktIn k).moff + (pktIn k).plen ≤ gRm.regLen (pktIn k).rkey ∧ seqBefore (pktIn k).msn (gRm.qp 9).deliver = false ∧
      (gRm.qp 9).asm = [] ∧ gRm.clash none true (gRm.regBase 5 + 1048572) 4 = false) ∧
    (∀ k ∈ [pktOf 2 3 5 0 1048576 []], takes gRm k = true ∧ (pktIn k).op = 2 ∧ (pktIn k).flags % 4 = 3 ∧ (pktIn k).moff = 0 ∧
      (pktIn k).total = 1048576 ∧ bit (gRm.attr (pktIn k).rkey) 59 = true ∧ (pktIn k).raddr + (pktIn k).total ≤ gRm.regLen 5) ∧
    gRm.poison = [] ∧ gRm.cores = [] ∧
    (∀ k ∈ [pktOf 4 3 5 1048568 8 (leBytes 8 1), pktOf 5 3 5 1048568 16 (leBytes 16 1)], takes gRm k = true ∧
      (pktIn k).flags % 4 = 3 ∧ (pktIn k).total = (pktIn k).plen ∧ bit (gRm.attr (pktIn k).rkey) 61 = true ∧ (pktIn k).raddr % 8 = 0 ∧
      (pktIn k).raddr + 8 ≤ gRm.regLen 5 ∧ gRm.poisoned (gRm.regBase 5 + 1048568) 8 = false) := by decide +kernel

/-- A posted operation with this opcode and descriptor. -/
def rmOp (code : Nat) (desc : Option Nat) : RmOp :=
  { owner := .post, code := code, desc := desc, loc := 0x1000000000, len := 8, key := 5, off := 0, msn := 0, psn := 0, pkts := 1 }

/-- Queue pair 9 as `x`. -/
def gQp (x : Qp) : Glexon := { gRm with rm := { gRm.rm with qps := [(9, x)] } }

/-- A complete message of 8 bytes into region 5. -/
def asm5 : RmAsm := { msn := 0, reg := 5, off := 0, total := some 8, got := [0], fail := false, key := 5 }

theorem witness_ResponsesAcknowledgementsAndDelivery :
    (∀ k ∈ [pktOf 3 3 0 0 8 (leBytes 8 7)], ∀ g ∈ [gQp { ops := [rmOp 2 none] }], takes g k = true ∧ (g.qp 9).ops = [rmOp 2 none] ∧
      (rmOp 2 none).msn = (pktIn k).msn ∧ (pktIn k).op = 3 ∧ (pktIn k).dataOk none = true ∧
      (pktIn k).raddr + (pktIn k).moff + (pktIn k).plen ≤ 8 ∧ g.clash none true 0x1000000000 8 = false) ∧
    (∀ k ∈ [pktOf 6 3 0 0 8 (leBytes 8 7)], ∀ g ∈ [gQp { ops := [rmOp 3 (some 0x1000001000)] }], takes g k = true ∧
      (pktIn k).op = 6 ∧ (pktIn k).flags % 4 = 3 ∧ g.clash none true (0x1000001000 + 56) 8 = false) ∧
    (∀ k ∈ [pktOf 0x10 0 0 0 0 (leBytes 32 1), pktOf 0x11 0 0 0 4 []], rmFormOk k.bytes = true ∧ (pktIn k).dst = 9 ∧
      leAt k.bytes 0 1 = (pktIn k).op ∧ ((pktIn k).op = 0x11 → (pktIn k).total = 4)) ∧
    (gRm.qp 9).ops = [] ∧ (gRm.qp 9).wait = [] ∧
    (∀ n ∈ [16, 17], ∀ g ∈ [gQp { sent := [⟨3, [], n, 0⟩] }], g.qpState 9 = 2 ∧ (g.qp 9).ops = [] ∧ (g.qp 9).sent = [⟨3, [], n, 0⟩]) ∧
    (∀ g ∈ [(gQp { asm := [asm5] }).wr (Reg.RM_MR_ATTR 5) (word (2 ^ 63 + 2 ^ 62 + 16384))], (g.qp 9).asm = [asm5] ∧ (g.qp 9).skip = [] ∧
      asm5.msn = (g.qp 9).deliver ∧ asm5.got.length = (8 + 8191) / 8192 ∧ g.qpAmber 9 = false ∧
      bit (g.rd (Reg.RM_MR_ATTR asm5.reg)) 62 = true) := by decide +kernel

/-- A leaf whose pull queue's last entry asks for one tick. -/
def gPull : Glexon :=
  { ((gRm.wr Reg.ID_GLEXON_INDEX (word (2 ^ 63))).wr (Reg.RE_ROLE_CFG 0) (word (2 ^ 63 + 64))).wr (Reg.RM_QP_CFG 9) (word (2 * 2 ^ 61 + 7 * 2 ^ 58)) with
    mem := memWrite (memWrite [] (gRm.pullAt 7 + 8) (leBytes 4 262144)) (gRm.pullAt 7 + 60) (leBytes 4 1) }

/-- Firmware runs, with this much of the map and an image to read. -/
def gBoot (ok : Bool) : Glexon :=
  { ((gFw.wr Reg.RM_BOOT_LEN 64).wr Reg.RM_BOOT_IMGLEN 64).wr Reg.RM_BOOT_CTRL 2 with mg := { gFw.mg with mapOk := ok } }

theorem witness_PullsBootLoadAndImages :
    (∀ e ∈ gRm.rm.qps, e.2.ops = []) ∧
    (∀ g ∈ [gPull], ∀ d ∈ [memBytes g.mem (g.pullAt 7) 64], g.roleOn 0 = true ∧ g.fl.pull = none ∧
      ((List.range 8).find? fun i => memNat g.mem (g.pullAt i + 60) 4 = 1) = some 7 ∧ 1 ≤ leAt d 8 4 ∧ leAt d 8 4 ≤ 262144 ∧
      (leAt d 24 1).testBit 2 = false ∧ leAt d 24 1 < 16 ∧ zeros d 12 16 = true ∧ zeros d 25 28 = true ∧ g.pullQpn 7 = some 9) ∧
    (∀ p ∈ [({ slot := 7, tick := 5, left := 2, bytes := 0, miss := 0, full := false, qpn := 9 } : Pull)],
      p.ended = false ∧ p.err = 0 ∧ 2 ≤ p.left ∧
      memNat gRm.mem ((gRm.rd Reg.HM_RW_INDEX_BASE).toNat + 32 * (p.tick.toNat % 262144)) 8 ≠ p.tick.toNat) ∧
    (∀ b ∈ [false, true], ∀ g ∈ [gBoot b], g.fwOn = true ∧ g.qpState 0 ≠ 2 ∧ 0 < fld (g.rd Reg.RM_BOOT_LEN) 0 29 ∧
      g.rm.boot.busy = false ∧ (g.qp 0).ops = [] ∧ g.mg.mapOk = b ∧ bit (g.rd Reg.RM_BOOT_CTRL) 1 = true ∧
      0 < fld (g.rd Reg.RM_BOOT_IMGLEN) 0 29) ∧
    (∀ g ∈ [{ (gUp.wr Reg.MG_IMG_ACT (word (2 ^ 63 + 1))) with tk := { gUp.tk with ticking := true }, staged := some { ok := true } }],
      g.tk.ticking = true ∧ g.imageDue (g.tk.tickNo + 1) = true ∧ g.staged = some { ok := true }) := by decide +kernel

/-! ### Hypotheses met: management, observation, resets -/

theorem witness_SensorsRailsAndThermalTrip :
    gUp.mgRstN = true ∧ gUp.mg.tripped = false ∧
    ((List.range 24).find? fun i => 8 ≤ SMap.get 0 ([(23, 8)] : SMap Nat) i) = some 23 ∧
    ((List.range 24).find? fun i => 8 ≤ SMap.get 0 gUp.mg.hot i) = none ∧
    (List.replicate 16 ({ v := 0, i := 0 } : RailIn)).length = 16 ∧ gUp.coreUp = true := by decide +kernel

/-- An event on its way. -/
def evX : EvItem := { code := 1, agent := 31, sev := 0, args := [], time := 0, tick := 0 }

theorem witness_EventsAreRecordedAndMirrored :
    gUp.mgRstN = true ∧ gUp.mg.lost = none ∧ ({ gUp with events := [evX] } : Glexon).events = evX :: [] ∧
    ({ n := 1, time := 0, tick := 0, left := 0 } : EvLost).left = 0 ∧
    (∀ g ∈ [{ gUp.wr Reg.MG_EVR_HEAD 2 with mg := { gUp.mg with recs := [(1, gUp.evRecord evX)] } }],
      g.recsFrom ((g.rd Reg.MG_EVR_MIRRORED).toNat + 1) = [] ++ [gUp.evRecord evX]) ∧
    ({ gUp.mg with ready := true } : Mgmt).ready = true := by decide +kernel

theorem witness_FirmwareBootsRestartsAndUpdates :
    State.reset.gx.mgRstN = false ∧ gUp.mgRstN = true ∧ fld (0x5A5A5A5A : Word) 0 32 = 0x5A5A5A5A ∧
    fld (0x5A5A5A5B : Word) 0 32 ≠ 0x5A5A5A5A ∧
    (∀ m ∈ [{ gUp.mg with wdogAt := some 0, actAt := some 1 }], m.wdogAt = some 0 ∧ 0 ≤ m.us ∧ m.actAt = some 1 ∧
      (1 : Word).toNat ≤ gUp.tk.tickNo.toNat + 1) ∧
    gFw.fwOn = true ∧ gFw.mg.committed gFw.mg.slotB = true ∧ gFw.mg.committed (!gFw.mg.slotB) = false ∧
    ({ gFw.mg with slotB := true } : Mgmt).committed true = false ∧
    ({ gFw.mg with bootRec := { gFw.mg.bootRec with commB := true } } : Mgmt).committed true = true ∧ gFw.mg.staged = false ∧
    slotRule 0 [] ≠ 0 ∧ leAt (reqOf []).args 0 8 = 0 ∧ gFw.tk.tickNo.toNat < leAt (reqOf [1]).args 0 8 := by decide +kernel

theorem witness_ManagementMessagesAreAnswered :
    gUp.fwOn = false ∧ gFw.fwOn = true ∧ (∀ c ∈ [1, 2, 3, 4, 5], mctpFits c [] = false ∧ mctpFits c [0, 128, .ofNat 8 c, 0, 8] = true) ∧
    (∀ x ∈ [(0, 1), (0, 2), (0, 3), (0, 4), (0, 5), (2, 4), (2, 0x11), (2, 0x21), (2, 0x50), (2, 0x51)],
      pldmFits x.1 x.2 [] = false ∧ pldmFits x.1 x.2 ([1, 128, .ofNat 8 x.1, .ofNat 8 x.2] ++ leBytes 14 1) = true ∧
      17 ≤ (([1, 128, .ofNat 8 x.1, .ofNat 8 x.2] : List Byte) ++ leBytes 14 1).length) ∧
    leAt [1, 128, 2, 0x11, 24, 0, (0 : Byte)] 4 2 = 23 + 1 ∧ gUp.sensor 23 = 0x8000 ∧
    (after (exec (.sensorSample (List.replicate 24 0)) sUp) sUp).gx.sensor 23 ≠ 0x8000 ∧
    leAt [1, 128, 2, 0x11, 65, 0, (0 : Byte)] 4 2 = 65 ∧ leAt [1, 128, 2, 0x21, 80, 0, 0, (0 : Byte)] 4 2 = 80 := by decide +kernel

theorem witness_ObservationSamplesAndTraces :
    (∀ g ∈ [{ ((gUp.wr Reg.OB_CTRL (word (2 ^ 62 + 2 ^ 61 + 1))).wr Reg.OB_BUF_BASE 0x1C00000000).wr Reg.OB_BUF_ENTRIES 1 with
        ob := { gUp.ob with due := true, part := [1] } }],
      g.coreUp = true ∧ g.ob.due = true ∧ bit (g.rd Reg.OB_CTRL) 62 = true ∧ 1 ≤ fld (g.rd Reg.OB_BUF_ENTRIES) 0 17 ∧
      fld (g.rd Reg.OB_BUF_BASE) 0 48 % 64 = 0 ∧ 0x1C00000000 ≤ fld (g.rd Reg.OB_BUF_BASE) 0 48 ∧
      fld (g.rd Reg.OB_BUF_BASE) 0 48 + 2112 * 1 ≤ 0x2200000000 ∧ g.clash none true 0x1C00000000 2112 = false ∧
      bit (g.rd Reg.OB_CTRL) 61 = true ∧ fld (g.rd Reg.OB_CTRL) 0 2 ≠ 0 ∧ g.ob.part ≠ []) ∧
    fld ((gUp.wr Reg.OB_BUF_BASE 0x1BFFFFFFC0).rd Reg.OB_BUF_BASE) 0 48 < 0x1C00000000 ∧ gUp.ob.due = false ∧ gUp.ob.part = [] ∧ gUp.ob.out = [] ∧
    (∀ g ∈ [{ gUp with trc := [(35, { on := true, lost := 3 })] }], (g.trcDrain.src 35).on = true ∧ 0 < (g.trcDrain.src 35).lost ∧
      (g.trcDrain.src 35).used + 46 ≤ 2048) := by decide +kernel

theorem witness_ResetsSuppliesAndJtag :
    gUp.sysRstN = true ∧ gUp.corePwrOk = true ∧ gUp.mgRstN = true ∧ gUp.coreUp = true ∧ gUp.mg.trained = false ∧
    State.reset.gx.sysRstN = false ∧ ({ Glexon.reset with corePwrOk := false } : Glexon).corePwrOk = false ∧
    gUp.rd (Reg.MG_BU_TIME 1) = 0 := by decide +kernel

/-! ### Hypotheses met: register writes, ingest, boundaries, ports -/

theorem witness_RegisterWritesFollowTheirAccess :
    gUp.coreUp = true ∧ (∃ f, regFind gxRegFams Reg.EP_SEPIA_MASK = some f ∧ f.acc = .rwt) ∧
    (∃ f, regFind gxRegFams Reg.OB_BUF_BASE = some f ∧ f.acc = .rw) ∧ (∃ f, regFind gxRegFams Reg.OB_STAT = some f ∧ f.acc = .row1c) ∧
    (∃ f, regFind gxRegFams Reg.EP_ADMIT = some f ∧ f.acc = .ro) ∧ 0x80C00000 ≤ Reg.EP_SEPIA_MASK ∧ Reg.OB_STAT < 0x80E00000 ∧
    addrKind 0x1000000000 = .hbm ∧ memRange 0x1000000000 8 = true ∧ gUp.clash none true 0x1000000000 8 = false ∧
    addrKind 0 = .none ∧ isFused Reg.ID_CHIP = true ∧ Reg.ID_CHIP % 8 = 0 ∧ addrKind Reg.ID_CHIP = .csr ∧ 0x80F00000 ≤ Reg.ID_CHIP ∧ Reg.EP_SEPIA_MASK % 8 = 0 := by
  refine ⟨by decide, ⟨_, rfl, ?_⟩, ⟨_, rfl, ?_⟩, ⟨_, rfl, ?_⟩, ⟨_, rfl, ?_⟩, ?_⟩ <;> decide +kernel

/-- A record for the leaf's ingest: TICK_SUMMARY's class, with this source. -/
def gIngest (r : Rec) (tick : Bool) : Glexon :=
  { gUp.wr (Reg.RE_ROLE_CFG 0) (word (2 ^ 63 + 64)) with
    tk := { gUp.tk with ticking := tick }, ports := [(63, { fifo := [(r, 2)] })] }

/-- The state in which the record of port 63's FIFO is judged. -/
def judged (g : Glexon) (c : Nat) : Option (Rec × Glexon) :=
  (g.popFifo 63 c).bind fun x =>
    let y := ((x.2.modPort 63 fun t => t.raise c x.1.2).count 5 63 2 x.1.2).tapMeter 63 x.1.1
    y.1.map fun r => (r, y.2)

theorem witness_TapRecordsAreReassembledAndIngested :
    (∀ g ∈ [gPort fun p => { p with reasm := [(1, .part [] 1)] }], (g.port 0).up = true ∧
      SMap.get .idle (g.port 0).reasm 1 = .part [] 1 ∧ SMap.get .idle (g.port 0).reasm 0 = .idle) ∧
    (∀ l ∈ [[(0x11 : Byte), 0x40, 1, 0] ++ List.replicate 56 0], l.length = 60 ∧ leAt l 1 1 / 64 = 1 ∧ (leAt l 1 1).testBit 4 = false ∧
      (leAt l 1 1).testBit 5 = false ∧ leAt l 2 2 = 1) ∧
    (∀ l ∈ [[(0x11 : Byte), 0x20, 0, 0] ++ List.replicate 56 0], l.length = 60 ∧ leAt l 1 1 / 64 = 0 ∧ (leAt l 1 1).testBit 4 = false ∧
      (leAt l 1 1).testBit 5 = true ∧ leAt l 2 2 = 0) ∧
    (judged (gIngest (recOf 1 0 []) false) 0).isSome = true ∧ (judged (gIngest (recOf 1 0 []) true) 0).isSome = true ∧
    (judged (gIngest (recOf 1 0 []) true) 0).any (fun x => x.2.ingestFail 63 x.1 ≠ 0) = true ∧
    gUp.popFifo 63 0 = none := by decide +kernel

/-- What a boundary is given: every account missing. -/
def noMeters : BoundaryIn := { accts := List.replicate 37 none, lines := [], obs := [] }

theorem witness_BoundariesAdvanceTheTick :
    (∀ g ∈ [{ gUp with tk := { gUp.tk with ticking := true } }], g.tkUp = true ∧ g.tk.ticking = true ∧ g.tk.lost = false ∧
      g.tk.pend = none ∧ g.tk.next = none ∧ g.changeDue = false ∧ (∀ n < 24, (g.core n).inSet = false) ∧
      g.mg.tripped = false ∧ ({ g with mg := { g.mg with tripped := true } } : Glexon).tkUp = true) ∧
    gUp.tk.ticking = false ∧ gUp.tk.hasEpoch = false ∧ gUp.tk.mode ≠ .locked ∧
    (∀ t ∈ [({ mode := .locked, hasEpoch := true } : TimeKeeper)], t.mode = .locked ∧ t.hasEpoch = true ∧ t.ticking = false) := by
  decide +kernel

theorem witness_DeadlinesAndFabricPorts :
    gUp.coreUp = true ∧ gUp.tk.ticking = false ∧
    (∀ g ∈ [gTick { phase := .issuing, inSet := true }], g.tk.ticking = true ∧ (∀ k < 4, g.roleOn k = false) ∧
      (∀ n < 24, (g.core n).isOpen = false ∧ (g.core n).flight = [])) ∧
    (∀ g ∈ [{ gFw with portLanes := [(0, 4), (7, 4)] }], SMap.get 0 g.portLanes 0 ≠ 0 ∧ g.fwOn = true ∧ SMap.get 0 g.portLanes 7 ≠ 0 ∧
      (∀ x < 7, x ≠ 0 → SMap.get 0 g.portLanes x = 0)) ∧
    (gUp.wr (Reg.RE_ROLE_CFG 3) (word (2 ^ 63 + 32))).roleSet 3 = true := by decide +kernel

/-! ### Results that the spec's tables and examples give -/

/-- Table 10.1: the check values over "123456789", and no bytes. -/
theorem test_crc_check_values :
    crc64 [0x31, 0x32, 0x33, 0x34, 0x35, 0x36, 0x37, 0x38, 0x39] = 0x995DC9BBDF1939FA ∧
    crc32c [0x31, 0x32, 0x33, 0x34, 0x35, 0x36, 0x37, 0x38, 0x39] = 0xE3069283 ∧ crc64 [] = 0 := by decide +kernel

/-- Chapter 10's example: elem(−3). -/
theorem test_m61_elem : m61elem (-3) = 0x1FFFFFFFFFFFFFFC := by decide +kernel

/-- Chapter 4's accelerator program: words 0, 1, 2, 5, 7 and 16. -/
theorem test_probe_words :
    probeWord 0x0E 1 { rd := 0, ra := 0, rb := 0, imm := 3 } = 0x38001003 ∧
    probeWord 0x04 1 { rd := 3, ra := 0, rb := 0, imm := 20 } = 0x10C01014 ∧
    probeWord 0x0D 1 { rd := 0, ra := 0, rb := 3, imm := 0 } = 0x3400D000 ∧
    probeWord 0x0C 1 { rd := 6, ra := 4, rb := 5, imm := 0 } = 0x31915000 ∧
    probeWord 0x0D 0 { rd := 0, ra := 7, rb := 0, imm := 0x800 } = 0x341C0800 ∧
    probeWord 0x3F 0 { rd := 0, ra := 0, rb := 0, imm := 0 } = 0xFC000000 := by decide +kernel

/-- Chapter 7's threshold check: MOV.I g2, 0; LD.D g4, [g1 + 0]; ST.D [g1 + 32], g2 predicated on p1. -/
theorem test_core_words :
    slotBits { core := 0, slot := 0, first := true, d := 2, a := 0, b := 0, c := 0, imm := 0 } 0x1B = 0x1B08000000000000 ∧
    slotBits { core := 0, slot := 1, first := true, d := 4, a := 1, b := 0, c := 0, imm := 0 } 0x53 = 0x5310100000000000 ∧
    slotBits { core := 0, slot := 1, first := true, d := 0, a := 1, b := 2, c := 1, imm := 32 } 0x5B = 0x5B00108100000020 := by
  decide +kernel

/-- Chapter 11's sketch example: 45,300,000 ns at R = 5 and at R = 4. -/
theorem test_sketch_index : sketchIdx 5 45300000 = 812 ∧ sketchIdx 4 45300000 = 406 := by decide +kernel

/-- A feature row with f3, f17 and f40 as given. -/
def rowWith (f3 f17 f40 : Nat) : List Byte :=
  List.replicate 12 0 ++ leBytes 4 f3 ++ List.replicate 52 0 ++ leBytes 4 f17 ++ List.replicate 88 0 ++ leBytes 4 f40

/-- Tree 0 of Table 12.5. -/
def tree0 : List Nat :=
  [0x0000011144FA0000, 0x000000033FC00000, 0x0000012841800000, 0x000000033F99999A, 0x0000020000000000, 0x0000011147435000,
    0x0000000340400000]

/-- Table 12.6: the decision bits and leaves of dies 6,700 and 6,701. -/
theorem test_tree_of_table_12_6 :
    tree0.map (nodeBit (rowWith 0x7F800000 0x44FA0000 0x7FC00000)) = [true, true, true, true, false, false, true] ∧
    leafNo tree0 (rowWith 0x7F800000 0x44FA0000 0x7FC00000) 3 0 0 = 7 ∧
    tree0.map (nodeBit (rowWith 0x3F99999A 0x44F9F000 0x40000000)) = [false, false, false, true, false, false, false] ∧
    leafNo tree0 (rowWith 0x3F99999A 0x44F9F000 0x40000000) 3 0 0 = 1 := by decide +kernel

/-- Table 13.2: b at 88 and 95 °C, and the thresholds for a cap of 1,200 and 400 at Q = 1,600,000. -/
theorem test_budget_of_table_13_2 :
    ([(88, 760000), (95, 380000)].all fun (e : Nat × Nat) =>
      ({ gUp.wr Reg.EP_TJ (word (16 * e.1)) with tk := { gUp.tk with period := 2 } } : Glexon).budget = e.2) = true ∧
    ([(1200, 0x003126E9), (400, 0x0010624D)].all fun (e : Nat × Nat) =>
      ({ gUp with ep := { gUp.ep with q := { num := 1600000 } } } : Glexon).threshold e.1 false = e.2) = true := by decide +kernel

/-- Table 14.2: the tags of Q2's first frame and of Q6's at v = 1,000,000. -/
theorem test_tags_of_table_14_2 :
    gUp.wfqTag 2 1000000 4160 = 6679787 ∧ gUp.wfqTag 2 6679787 4160 = 12359574 ∧ gUp.wfqTag 6 1000000 4160 = 18039360 := by
  decide +kernel

/-- Chapter 16's example: "abcabcabcabc" with FINISH and CHAIN_LIMIT 16. -/
theorem test_deflate_example :
    (deflateOp {} [97, 98, 99, 97, 98, 99, 97, 98, 99, 97, 98, 99] 3 0 16 64).out = [0x4B, 0x4C, 0x4A, 0x86, 0x23, 0x00] := by
  decide +kernel

/-- Port 7 up on a ×1 link, waiting for this echo. -/
def gEcho (clk t1 : Nat) : Glexon :=
  { gUp with
    tk := { gUp.tk with clk := clk }
    ports := [(7, { tr := { st := .up, width := 1 }, t1 := some (1, (t1 * 65536 : Nat)) })] }

/-- Chapter 5's exchange: from t1 1,000, t2 1,008 and t3 1,508 ns and a raw stamp of 1,556 ns, delay 5 ns and offset 3 ns. -/
theorem test_time_exchange :
    (after (execTimeEchoReceive 7 { chk := good, id := 1, t2 := ⟨0, 1008, 0⟩, t3 := ⟨0, 1508, 0⟩ } (st bUp (gEcho (1556 * 2 ^ 32) 1000)))
      sUp).gx.rd (Reg.TP_TIME 7) = word (5 * 256 * 2 ^ 32 + 3 * 256) := by decide +kernel
end Sys2Proof.Tests
end

section
/-! PROOFS. The machine right after reset. -/

namespace Sys2Proof.Machine

/-- At reset every buffer of the Bumas is empty, and no probe program is validated or runs (R102). -/
theorem Bumas.sound_reset : Bumas.reset.Sound where
  marks := by decide
  marksP := by decide
  opens := by decide
  emit := by decide
  block p h := by cases h
  passed h := by cases h
  valid h := by cases h
  running h := by cases h

/-- Settles O3: the reset state lists no register, no byte of memory, no core and no port, so that each reads as its reset value. -/
theorem resetLeavesTheResetState : Obligations.ResetLeavesTheResetState :=
  ⟨rfl, rfl, rfl, rfl, fun _ => rfl, fun _ => rfl, rfl, rfl, rfl, rfl, rfl, fun _ => rfl, rfl, rfl, rfl, fun _ => rfl,
    fun _ => rfl, rfl, fun _ => rfl, Bumas.sound_reset⟩

end Sys2Proof.Machine
end

section
/-! PROOFS. The host's register port of the Bumas (R14, R96). -/

namespace Sys2Proof.Machine

/-- A host write that the owner rules allow takes effect and is acknowledged without error (R96). -/
theorem Bumas.hostWrite_accepted (b : Bumas) (a : Nat) (v : Word) (h : b.csrMayWrite .host a = true) :
    b.hostWrite a v = { b.csrApply .host a v with csrErr := false, csrData := 0 } := by
  simp [Bumas.hostWrite, Bumas.csrWrite, h]

/-- A host write that they do not allow is counted and answered with an error (R96). -/
theorem Bumas.hostWrite_refused (b : Bumas) (a : Nat) (v : Word) (h : b.csrMayWrite .host a = false) :
    b.hostWrite a v = { b.wr Reg.BM_CSR_REFUSED (satAdd (b.rd Reg.BM_CSR_REFUSED) 1) with csrErr := true, csrData := 0 } := by
  simp [Bumas.hostWrite, Bumas.csrWrite, h]

/-- Outside the program buffers the host may write every RW register of its own (R96). -/
theorem Bumas.csrMayWrite_hostOwned (b : Bumas) {a : Nat} {f : RegFam} (ha : a < 0x8000) (hf : regFind bmRegFams a = some f)
    (hacc : f.acc = .rw) (hown : f.own = .host) (hbuf : progBufOf a = none) : b.csrMayWrite .host a = true := by
  simp [Bumas.csrMayWrite, Nat.not_le.2 ha, hf, hacc, hown, hbuf]

/-- An accepted host write of an RW register puts the data with reserved bits 0 in force at once (R14, R15); of BM_CTRL, the host
cannot set HOST_CFG_EN (R96). -/
theorem Bumas.csrApply_host_rw (b : Bumas) {a : Nat} {f : RegFam} (v : Word) (hf : regFind bmRegFams a = some f)
    (hacc : f.acc = .rw) (hctrl : a ≠ Reg.BM_CTRL) : b.csrApply .host a v = b.wr a (v &&& f.wmask) := by
  simp [Bumas.csrApply, hf, hacc, Bumas.csrValue, hctrl]

/-- A host write to a Bumas out of reset is the write of its window. -/
theorem exec_hostCsrWrite_alive (addr : BitVec 13) (data : Word) {s : State} (hs : s.bm.alive = true) :
    exec (.hostCsrWrite addr data) s = .next { s with bm := s.bm.hostWrite (addr.toNat * 8) data } := by
  change execHostCsrWrite addr data s = _
  simp [execHostCsrWrite, onBumasPins_next, hs]

/-- Settles O9: a write that the owner rules allow is applied by its access code, and one that they do not allow is only counted. -/
theorem hostPortWritesWhatItOwns : Obligations.HostPortWritesWhatItOwns := by
  intro s hs
  refine ⟨fun addr data f ha hf hacc hown hbuf hctrl => ?_, fun addr data hmay => ?_, ?_⟩
  · have hmay := s.bm.csrMayWrite_hostOwned ha hf hacc hown hbuf
    rw [exec_hostCsrWrite_alive addr data hs, Bumas.hostWrite_accepted _ _ _ hmay, Bumas.csrApply_host_rw _ data hf hacc hctrl]
  · rw [exec_hostCsrWrite_alive addr data hs, Bumas.hostWrite_refused _ _ _ hmay]
  · have htime : exec .bmTimeSecRead s = .next { s with bm :=
        { s.bm.wr Reg.BM_TIME_SUB (word (subOf s.bm.time.clk)) with
          csrErr := false, csrData := s.bm.csrRead .host Reg.BM_TIME_SEC } } := by
      change execBmTimeSecRead s = _
      simp [execBmTimeSecRead, onBumasPins_next, hs]
    exact ⟨_, htime, Bumas.rd_wr_same _ _ _, rfl, rfl, rfl, rfl⟩

end Sys2Proof.Machine
end

section
/-! PROOFS. Writes of the Glexon's registers by an agent (R14, R179 to R183, R216, R474). -/

namespace Sys2Proof.Machine

/-- The CSR region holds the register addresses and nothing else (Table 6.5). -/
theorem addrKind_eq_csr_iff (a : Nat) : addrKind a = .csr ↔ 0x80000000 ≤ a ∧ a < 0x81000000 := by
  unfold addrKind
  dsimp only
  split_ifs <;> simp only [true_iff, false_iff] <;> omega

/-- Record memory begins above the register addresses. -/
theorem le_of_addrKind_hbm {a : Nat} (h : addrKind a = .hbm) : 0x1000000000 ≤ a := by
  unfold addrKind at h
  dsimp only at h
  split_ifs at h
  omega

/-- No address from `lo` on is one of registers that end at or below `lo`. -/
theorem among_eq_false {base n st a lo : Nat} (hlo : lo ≤ a) (h : base + n * st ≤ lo) : among base n st a = false := by
  simp [among]
  omega

/-- In the blocks of the Energy Planner and the Observation Unit no register starts something when it is written: the access code
alone says what a write does. -/
theorem Glexon.csrWrite_eq_plainWrite (g : Glexon) (n : Nat) {a : Nat} (v : Word) (h1 : 0x80C00000 ≤ a) (h2 : a < 0x80E00000) :
    g.csrWrite n a v = g.plainWrite a v := by
  have below {r : Nat} (h : r < 0x80C00000) : a ≠ r := by omega
  have hid : a ≠ Reg.ID_GLEXON_INDEX := ne_of_lt (h2.trans (by decide))
  simp (disch := decide) only [Glexon.csrWrite, below, hid, among_eq_false h1, or_self, if_false, Bool.false_eq_true]

/-- A register write outside the MG block by an agent that is no core is that agent's bus write, if the core domain runs (R14). -/
theorem exec_registerWrite_agent {n : BitVec 6} {a : BitVec 48} (v : Word) {s : State} (hs : s.gx.coreUp = true)
    (ha : a.toNat % 8 = 0) (hmg : a.toNat < 0x80E00000 ∨ 0x80F00000 ≤ a.toNat) (hn : 24 ≤ n.toNat) :
    exec (.registerWrite n a v) s = .next { s with gx := s.gx.agentWrite n.toNat a.toNat v } := by
  change execRegisterWrite n a v s = _
  have hout : ¬(0x80E00000 ≤ a.toNat ∧ a.toNat < 0x80F00000) := by omega
  have hal : a.toNat / 8 * 8 = a.toNat := by omega
  simp only [execRegisterWrite, hout, if_false, onCore_runs _ _ hs, hn, if_true, hal]

/-- A core's write outside the MG block writes the register there, and reaches nothing beyond it (R216). -/
theorem exec_registerWrite_core {n : BitVec 6} {a : BitVec 48} (v : Word) {s : State} (hs : s.gx.coreUp = true)
    (ha : a.toNat % 8 = 0) (hmg : a.toNat < 0x80E00000 ∨ 0x80F00000 ≤ a.toNat) (hn : n.toNat < 24) :
    exec (.registerWrite n a v) s = .next { s with
      gx := if addrKind a.toNat = .csr ∧ a.toNat < 0x80F00000 then s.gx.csrWrite n.toNat a.toNat v else s.gx } := by
  change execRegisterWrite n a v s = _
  have hout : ¬(0x80E00000 ≤ a.toNat ∧ a.toNat < 0x80F00000) := by omega
  have hal : a.toNat / 8 * 8 = a.toNat := by omega
  simp only [execRegisterWrite, hout, if_false, onCore_runs _ _ hs, Nat.not_le.2 hn, hal]

/-- A core's write in the MG block changes nothing (R216). -/
theorem exec_registerWrite_core_mg {n : BitVec 6} {a : BitVec 48} (v : Word) (s : State)
    (h1 : 0x80E00000 ≤ a.toNat) (h2 : a.toNat < 0x80F00000) (hn : n.toNat < 24) : exec (.registerWrite n a v) s = .next s := by
  change execRegisterWrite n a v s = _
  simp [execRegisterWrite, h1, h2, hn, onMgmt]

/-- Whatever its address, a write over PCIe outside the MG block is dropped and counted (R181). -/
theorem Glexon.agentWrite_pcie (g : Glexon) {n : Nat} (a : Nat) (v : Word) (hn : n = 35) : g.agentWrite n a v = g.pcieDrop := by
  subst hn
  unfold Glexon.agentWrite
  split <;> rfl

/-- No other agent is held off from the registers below the ID block. -/
theorem Glexon.agentWrite_csr (g : Glexon) {n a : Nat} (v : Word) (hn : n ≠ 35) (hk : addrKind a = .csr) (hf : isFused a = false) :
    g.agentWrite n a v = g.csrWrite n a v := by
  simp [Glexon.agentWrite, hk, hn, hf]

/-- Firmware's write of a fuse is refused (R474). -/
theorem Glexon.agentWrite_fused (g : Glexon) {n a : Nat} (v : Word) (hn : n = 31) (hk : addrKind a = .csr)
    (hf : isFused a = true) : g.agentWrite n a v = g.authRefused a := by
  simp [Glexon.agentWrite, hn, hk, hf]

/-- A write of record memory that its agent may make is the bus write of its 8 bytes (R183). -/
theorem Glexon.agentWrite_hbm (g : Glexon) {n a : Nat} (v : Word) (hn : n ≠ 35) (hk : addrKind a = .hbm)
    (hmay : n = 31 → g.fwMay a = true) (hr : memRange a 8 = true) :
    g.agentWrite n a v = g.busWrite none a (leBytes 8 v.toNat) := by
  by_cases h : n = 31 <;> simp_all [Glexon.agentWrite]

/-- A write where nothing is shows in ID_BADADDR (R179). -/
theorem Glexon.agentWrite_none (g : Glexon) {n a : Nat} (v : Word) (hn : n ≠ 35) (hk : addrKind a = .none) :
    g.agentWrite n a v = g.badAddr n := by
  simp [Glexon.agentWrite, hk, hn]

/-- The registers that hold fuses are in the ID block. -/
theorem isFused_bounds {a : Nat} (h : isFused a = true) : 0x80F00000 ≤ a ∧ a < 0x81000000 := by
  simp only [isFused, Bool.or_eq_true, beq_iff_eq] at h
  obtain ((h | h) | h) | h := h <;> subst h <;> decide

/-- While ticking, a refused write is counted, and changes no other register and no memory (R474). -/
theorem Glexon.authRefused_ticking (g : Glexon) (a : Nat) (h : g.tk.ticking = true) :
    (g.authRefused a).regs = (g.bump Reg.MG_AUTH_REFUSED 1).regs ∧ (g.authRefused a).mem = g.mem := by
  simp [Glexon.authRefused, h, Glexon.bump]

/-- A register's value in force is looked up in the registers alone. -/
theorem Glexon.rd_congr {g h : Glexon} (e : g.regs = h.regs) (a : Nat) : g.rd a = h.rd a := by
  unfold Glexon.rd; rw [e]

/-- Every agent but PCIe writes the registers of the Energy Planner and the Observation Unit, by the access code (R14). -/
theorem exec_registerWrite_plain {n : BitVec 6} {a : BitVec 48} (v : Word) {s : State} (hs : s.gx.coreUp = true)
    (ha : a.toNat % 8 = 0) (hn : n ≠ 35) (h1 : 0x80C00000 ≤ a.toNat) (h2 : a.toNat < 0x80E00000) :
    exec (.registerWrite n a v) s = .next { s with gx := s.gx.plainWrite a.toNat v } := by
  have hk : addrKind a.toNat = .csr := (addrKind_eq_csr_iff _).2 (by omega)
  have hf : isFused a.toNat = false := by
    by_contra hf
    have := isFused_bounds (Bool.of_not_eq_false hf)
    omega
  have hn' : n.toNat ≠ 35 := fun h => hn (BitVec.eq_of_toNat_eq h)
  rcases Nat.lt_or_ge n.toNat 24 with hc | hc
  · rw [exec_registerWrite_core v hs ha (.inl h2) hc, if_pos ⟨hk, by omega⟩, Glexon.csrWrite_eq_plainWrite _ _ _ h1 h2]
  · rw [exec_registerWrite_agent v hs ha (.inl h2) hc, Glexon.agentWrite_csr _ _ hn' hk hf,
      Glexon.csrWrite_eq_plainWrite _ _ _ h1 h2]

/-! ### A write by the access code (R14) -/

theorem Glexon.plainWrite_rw (g : Glexon) {a : Nat} {f : RegFam} (v : Word) (hf : regFind gxRegFams a = some f) (h : f.acc = .rw) :
    g.plainWrite a v = g.wr a ((g.rd a &&& ~~~f.wmask) ||| (v &&& f.wmask)) := by
  simp [Glexon.plainWrite, hf, h, Glexon.maskW]

theorem Glexon.plainWrite_rwt (g : Glexon) {a : Nat} {f : RegFam} (v : Word) (hf : regFind gxRegFams a = some f) (h : f.acc = .rwt) :
    g.plainWrite a v =
      { g with rwt := SMap.put none g.rwt a (some ((g.rd a &&& ~~~f.wmask) ||| (v &&& f.wmask))) } := by
  simp [Glexon.plainWrite, hf, h, Glexon.rwtPut, Glexon.maskW]

theorem Glexon.plainWrite_row1c (g : Glexon) {a : Nat} {f : RegFam} (v : Word) (hf : regFind gxRegFams a = some f)
    (h : f.acc = .row1c) : g.plainWrite a v = g.wr a (g.rd a &&& ~~~(v &&& f.cmask)) := by
  simp [Glexon.plainWrite, hf, h]

theorem Glexon.plainWrite_ro (g : Glexon) {a : Nat} {f : RegFam} (v : Word) (hf : regFind gxRegFams a = some f) (h : f.acc = .ro) :
    g.plainWrite a v = g := by
  simp [Glexon.plainWrite, hf, h]

theorem length_leBytes (n v : Nat) : (leBytes n v).length = n := by
  induction n generalizing v with
  | zero => rfl
  | succ n ih => simp [leBytes, ih]

/-! ### What a write outside those two blocks does -/

/-- An agent's write of record memory, where it may write and no engine operation is at work, stores its 8 bytes (R183). -/
theorem exec_registerWrite_hbm {n : BitVec 6} {a : BitVec 48} (v : Word) {s : State} (hs : s.gx.coreUp = true)
    (ha : a.toNat % 8 = 0) (h24 : 24 ≤ n.toNat) (hn : n.toNat ≠ 35) (hk : addrKind a.toNat = .hbm)
    (hmay : n.toNat = 31 → s.gx.fwMay a.toNat = true) (hr : memRange a.toNat 8 = true)
    (hcl : s.gx.clash none true a.toNat 8 = false) :
    exec (.registerWrite n a v) s = .next { s with gx := (s.gx.memPut a.toNat (leBytes 8 v.toNat)).heal a.toNat 8 } := by
  have hb := le_of_addrKind_hbm hk
  rw [exec_registerWrite_agent v hs ha (.inr (by omega)) h24, Glexon.agentWrite_hbm _ v hn hk hmay hr,
    Glexon.busWrite_eq _ _ _ _ (by rwa [length_leBytes]), length_leBytes]

/-- An agent's write where nothing is shows in ID_BADADDR alone (R179). -/
theorem exec_registerWrite_unmapped {n : BitVec 6} {a : BitVec 48} (v : Word) {s : State} (hs : s.gx.coreUp = true)
    (ha : a.toNat % 8 = 0) (h24 : 24 ≤ n.toNat) (hn : n.toNat ≠ 35) (hk : addrKind a.toNat = .none) :
    exec (.registerWrite n a v) s = .next { s with gx := s.gx.badAddr n.toNat } := by
  have hcsr : addrKind a.toNat ≠ .csr := by simp [hk]
  rw [Ne, addrKind_eq_csr_iff] at hcsr
  rw [exec_registerWrite_agent v hs ha (by omega) h24, Glexon.agentWrite_none _ v hn hk]

/-- Firmware's write of a fuse is refused (R474). -/
theorem exec_registerWrite_fused {n : BitVec 6} {a : BitVec 48} (v : Word) {s : State} (hs : s.gx.coreUp = true)
    (ha : a.toNat % 8 = 0) (hn : n.toNat = 31) (hf : isFused a.toNat = true) :
    exec (.registerWrite n a v) s = .next { s with gx := s.gx.authRefused a.toNat } := by
  have hb := isFused_bounds hf
  rw [exec_registerWrite_agent v hs ha (.inr hb.1) (by omega),
    Glexon.agentWrite_fused _ v hn ((addrKind_eq_csr_iff _).2 (by omega)) hf]

/-- A PCIe write outside the MG block is dropped and counted (R181). -/
theorem exec_registerWrite_pcie {n : BitVec 6} {a : BitVec 48} (v : Word) {s : State} (hs : s.gx.coreUp = true)
    (ha : a.toNat % 8 = 0) (hmg : a.toNat < 0x80E00000 ∨ 0x80F00000 ≤ a.toNat) (hn : n.toNat = 35) :
    exec (.registerWrite n a v) s = .next { s with gx := s.gx.pcieDrop } := by
  rw [exec_registerWrite_agent v hs ha hmg (by omega), Glexon.agentWrite_pcie _ _ v hn]

/-- A core's write changes nothing outside the register addresses below the ID block (R216). -/
theorem exec_registerWrite_core_beyond {n : BitVec 6} {a : BitVec 48} (v : Word) {s : State} (hs : s.gx.coreUp = true)
    (ha : a.toNat % 8 = 0) (hn : n.toNat < 24) (hout : addrKind a.toNat ≠ .csr ∨ 0x80F00000 ≤ a.toNat) :
    exec (.registerWrite n a v) s = .next s := by
  by_cases hmg : 0x80E00000 ≤ a.toNat ∧ a.toNat < 0x80F00000
  · exact exec_registerWrite_core_mg v s hmg.1 hmg.2 hn
  · rw [exec_registerWrite_core v hs ha (by omega) hn, if_neg (fun h => hout.elim (· h.1) (by omega))]

/-- Settles O57, clause by clause: the address and the agent say which of the rules above the write falls under. -/
theorem registerWritesFollowTheirAccess : Obligations.RegisterWritesFollowTheirAccess := by
  intro s n a v ha
  have toNat_ne (hn : n ≠ 35) : n.toNat ≠ 35 := fun h => hn (BitVec.eq_of_toNat_eq h)
  refine ⟨fun hs hn => ⟨fun f h1 h2 hf => ?_, fun h24 hk hfw hr hcl => ?_,
      fun h24 hk => exec_registerWrite_unmapped v hs ha h24 (toNat_ne hn) hk, fun h31 hfu htk => ?_,
      fun hc hout => exec_registerWrite_core_beyond v hs ha hc hout⟩,
    fun hs hmg => exec_registerWrite_pcie v hs ha hmg rfl, fun h1 h2 hc => exec_registerWrite_core_mg v s h1 h2 hc⟩
  · rw [exec_registerWrite_plain v hs ha hn h1 h2]
    refine ⟨fun h => ?_, fun h => ?_, fun h => ?_, fun h => ?_⟩
    · rw [Glexon.plainWrite_rw _ v hf h]
    · rw [Glexon.plainWrite_rwt _ v hf h]
      exact ⟨_, rfl, rfl, rfl, by simp [Glexon.rwtRd, SMap.get_put_same]⟩
    · rw [Glexon.plainWrite_row1c _ v hf h]
    · rw [Glexon.plainWrite_ro _ v hf h]
  · have hmay : n.toNat = 31 → s.gx.fwMay a.toNat = true := fun h => hfw (BitVec.eq_of_toNat_eq h)
    exact ⟨_, exec_registerWrite_hbm v hs ha h24 (toNat_ne hn) hk hmay hr hcl, rfl, rfl, rfl⟩
  · obtain ⟨hregs, hmem⟩ := s.gx.authRefused_ticking a.toNat htk
    refine ⟨_, exec_registerWrite_fused v hs ha (congrArg BitVec.toNat h31) hfu, ?_, ?_, hmem⟩
    · rw [Glexon.rd_congr hregs]
      exact Glexon.rd_wr_same _ _ _
    · rw [Glexon.rd_congr hregs]
      exact Glexon.rd_bump _ _ _ _ (ne_of_gt (lt_of_lt_of_le (by decide) (isFused_bounds hfu).1))

end Sys2Proof.Machine
end

section
/-! PROOFS. Which part a command acts on, and what it leaves alone of a part that does not run (R3, R100, R454, R523). -/

namespace Sys2Proof.Machine

/-! ### What leaves memory and the cores alone

The operations that a command of the Time Keeper, of the management domain or of the pins is made of. -/

section

variable (g : Glexon)

@[simp] theorem Glexon.bump_keeps (a n : Nat) : (g.bump a n).mem = g.mem ∧ (g.bump a n).cores = g.cores := ⟨rfl, rfl⟩

@[simp] theorem Glexon.bumpFld_keeps (a lo len n : Nat) :
    (g.bumpFld a lo len n).mem = g.mem ∧ (g.bumpFld a lo len n).cores = g.cores := ⟨rfl, rfl⟩

/-- A fold of updates that leave memory and the cores alone does so. -/
theorem foldl_keeps {α : Type} (f : Glexon → α → Glexon) (h : ∀ x a, (f x a).mem = x.mem ∧ (f x a).cores = x.cores)
    (l : List α) : (l.foldl f g).mem = g.mem ∧ (l.foldl f g).cores = g.cores :=
  ⟨foldl_keep Glexon.mem f (fun x a => (h x a).1) l g, foldl_keep Glexon.cores f (fun x a => (h x a).2) l g⟩

/-! The Time Keeper (R51, R54, R69, R73) -/

@[simp] theorem Glexon.setAddend_keeps (v : Nat) : (g.setAddend v).mem = g.mem ∧ (g.setAddend v).cores = g.cores := by
  unfold Glexon.setAddend; dsimp only; split_ifs <;> simp

@[simp] theorem Glexon.setMode_keeps (m : TkMode) : (g.setMode m).mem = g.mem ∧ (g.setMode m).cores = g.cores := ⟨rfl, rfl⟩

@[simp] theorem Glexon.enterHoldover_keeps (c : Nat) : (g.enterHoldover c).mem = g.mem ∧ (g.enterHoldover c).cores = g.cores := by
  unfold Glexon.enterHoldover; dsimp only; split_ifs <;> simp

@[simp] theorem Glexon.measure_keeps (off : Int) : (g.measure off).mem = g.mem ∧ (g.measure off).cores = g.cores := by
  simp [Glexon.measure, apply_ite Glexon.mem, apply_ite Glexon.cores]

@[simp] theorem Glexon.bmca_keeps : g.bmca.mem = g.mem ∧ g.bmca.cores = g.cores := by
  simp [Glexon.bmca, apply_ite Glexon.mem, apply_ite Glexon.cores]

@[simp] theorem Glexon.ppsIn_keeps : g.ppsIn.mem = g.mem ∧ g.ppsIn.cores = g.cores := by
  simp [Glexon.ppsIn, apply_ite Glexon.mem, apply_ite Glexon.cores]

@[simp] theorem Glexon.fire_keeps (k : Nat) : (g.fire k).mem = g.mem ∧ (g.fire k).cores = g.cores := by
  simp [Glexon.fire, apply_ite Glexon.mem, apply_ite Glexon.cores]

/-! Register writes and the mailbox's answer (R14, R468) -/

@[simp] theorem Glexon.mbxReply_keeps (id : BitVec 32) (st : Nat) (data : List Byte) :
    (g.mbxReply id st data).mem = g.mem ∧ (g.mbxReply id st data).cores = g.cores := by
  unfold Glexon.mbxReply
  extract_lets i ws g1
  have hg1 : g1.mem = g.mem ∧ g1.cores = g.cores :=
    foldl_keeps g (fun h w => h.wr (Reg.MG_MBX_RSP i w) (ws.getD w 0)) (fun _ _ => ⟨rfl, rfl⟩) (List.range 8)
  clear_value g1
  rwa [Glexon.wr_mem, Glexon.wr_cores]

@[simp] theorem Glexon.plainWrite_keeps (a : Nat) (v : Word) :
    (g.plainWrite a v).mem = g.mem ∧ (g.plainWrite a v).cores = g.cores := by
  unfold Glexon.plainWrite
  split
  · split <;> simp [Glexon.rwtPut]
  · simp

/-! Announcements (R499) -/

@[simp] theorem Glexon.fifoPut_keeps (r : Rec) : (g.fifoPut r).mem = g.mem ∧ (g.fifoPut r).cores = g.cores := by
  unfold Glexon.fifoPut; split <;> simp

@[simp] theorem Glexon.originate_keeps (typ target : Nat) (eff : Word) (args : List Byte) (dst : Nat) :
    (g.originate typ target eff args dst).mem = g.mem ∧ (g.originate typ target eff args dst).cores = g.cores := by
  simp [Glexon.originate, Glexon.newCmd, Glexon.sendCopy, apply_ite Glexon.mem, apply_ite Glexon.cores]

@[simp] theorem Glexon.announce_keeps (k : Nat) : (g.announce k).mem = g.mem ∧ (g.announce k).cores = g.cores := by
  simp [Glexon.announce, apply_ite Glexon.mem, apply_ite Glexon.cores]

@[simp] theorem Glexon.readyCheck_keeps : g.readyCheck.mem = g.mem ∧ g.readyCheck.cores = g.cores := by
  refine foldl_keeps g _ (fun x k => ?_) _
  split_ifs <;> simp

@[simp] theorem Glexon.lockedNow_keeps : g.lockedNow.mem = g.mem ∧ g.lockedNow.cores = g.cores := by
  unfold Glexon.lockedNow; split <;> simp

/-! Sensors, rails and alerts (R460, R461, R466, R467) -/

@[simp] theorem Glexon.thermalTell_keeps : g.thermalTell.mem = g.mem ∧ g.thermalTell.cores = g.cores := by
  unfold Glexon.thermalTell
  dsimp only
  split
  · simp
  · split <;> simp

@[simp] theorem Glexon.sensorIn_keeps (i : Nat) (v : BitVec 16) :
    (g.sensorIn i v).mem = g.mem ∧ (g.sensorIn i v).cores = g.cores := by
  simp [Glexon.sensorIn, apply_ite Glexon.mem, apply_ite Glexon.cores]

@[simp] theorem Glexon.railIn_keeps (j : Nat) (r : RailIn) : (g.railIn j r).mem = g.mem ∧ (g.railIn j r).cores = g.cores := by
  simp [Glexon.railIn, apply_ite Glexon.mem, apply_ite Glexon.cores]

@[simp] theorem Glexon.sendAlert_keeps (typ : Nat) (l : List Byte) :
    (g.sendAlert typ l).mem = g.mem ∧ (g.sendAlert typ l).cores = g.cores := by
  simp [Glexon.sendAlert, Glexon.alertOut, apply_ite Glexon.mem, apply_ite Glexon.cores]

@[simp] theorem Glexon.eventAlert_keeps (sev : Nat) (l : List Byte) :
    (g.eventAlert sev l).mem = g.mem ∧ (g.eventAlert sev l).cores = g.cores := by
  unfold Glexon.eventAlert; split_ifs <;> simp

@[simp] theorem Glexon.recordEvent_keeps (e : EvItem) : (g.recordEvent e).mem = g.mem ∧ (g.recordEvent e).cores = g.cores := by
  simp [Glexon.recordEvent, apply_ite Glexon.mem, apply_ite Glexon.cores]

/-! Firmware (R455 to R459) -/

@[simp] theorem Glexon.bootRom_keeps (cold : Bool) : (g.bootRom cold).mem = g.mem ∧ (g.bootRom cold).cores = g.cores := by
  unfold Glexon.bootRom
  dsimp only
  split <;> simp [apply_ite Glexon.mem, apply_ite Glexon.cores]

@[simp] theorem Glexon.restart_keeps (cause : Nat) : (g.restart cause).mem = g.mem ∧ (g.restart cause).cores = g.cores := by
  simp [Glexon.restart]

@[simp] theorem Glexon.activate_keeps : g.activate.mem = g.mem ∧ g.activate.cores = g.cores := by
  unfold Glexon.activate; dsimp only; split <;> simp

@[simp] theorem Glexon.kick_keeps : g.kick.mem = g.mem ∧ g.kick.cores = g.cores := by
  unfold Glexon.kick; split <;> simp

@[simp] theorem Glexon.restartWrite_keeps (v : Word) : (g.restartWrite v).mem = g.mem ∧ (g.restartWrite v).cores = g.cores := by
  unfold Glexon.restartWrite; split <;> simp

@[simp] theorem Glexon.mgWrite_keeps (a : Nat) (v : Word) : (g.mgWrite a v).mem = g.mem ∧ (g.mgWrite a v).cores = g.cores := by
  unfold Glexon.mgWrite; split_ifs <;> simp

@[simp] theorem Glexon.restore_keeps : g.restore.mem = g.mem ∧ g.restore.cores = g.cores := by
  unfold Glexon.restore; split <;> simp

@[simp] theorem Glexon.firstSteps_keeps : g.firstSteps.mem = g.mem ∧ g.firstSteps.cores = g.cores := by
  unfold Glexon.firstSteps
  extract_lets m new ring c g1
  have hg1 : g1.mem = g.mem ∧ g1.cores = g.cores := ⟨g.modMg_mem _, g.modMg_cores _⟩
  clear_value g1
  rw [Glexon.wr_mem, Glexon.wr_cores]
  split
  · rwa [Glexon.wr_mem, Glexon.wr_cores]
  · exact hg1

@[simp] theorem Glexon.bringUp_keeps : g.bringUp.mem = g.mem ∧ g.bringUp.cores = g.cores := by
  unfold Glexon.bringUp; split <;> simp

@[simp] theorem Glexon.tripClear_keeps : g.tripClear.mem = g.mem ∧ g.tripClear.cores = g.cores := by
  unfold Glexon.tripClear; split <;> simp

/-! The boundary in thermal halt (R462) -/

@[simp] theorem Glexon.adoptEpoch_keeps : g.adoptEpoch.mem = g.mem ∧ g.adoptEpoch.cores = g.cores := by
  unfold Glexon.adoptEpoch; split <;> simp [Glexon.keepPast]

@[simp] theorem Glexon.changePeriod_keeps : g.changePeriod.mem = g.mem ∧ g.changePeriod.cores = g.cores := by
  simp [Glexon.changePeriod, Glexon.keepPast]

@[simp] theorem Glexon.nextTick_keeps : g.nextTick.1.mem = g.mem ∧ g.nextTick.1.cores = g.cores := by
  unfold Glexon.nextTick
  dsimp only
  split_ifs <;> simp

@[simp] theorem Glexon.tickIs_keeps (n : Word) : (g.tickIs n).mem = g.mem ∧ (g.tickIs n).cores = g.cores := by
  simp [Glexon.tickIs, apply_ite Glexon.mem, apply_ite Glexon.cores]

@[simp] theorem Glexon.haltBoundary_keeps : g.haltBoundary.mem = g.mem ∧ g.haltBoundary.cores = g.cores := by
  unfold Glexon.haltBoundary
  split <;> simp [Glexon.toInstant]

end

/-! ### How each command acts -/

/-- The commands that act whatever power and reset are: pins, supplies, the JTAG port, a cold boot, and the Bumas's answer to its
host's register port (R3, R97, R100, R454, R523). -/
def ActsHeld (i : Instr) : Prop :=
  i ∈ ([.bmPwrOkRise, .bmPwrOkFall, .bmRstNAssert, .bmRstNRelease, .bmTimeSecRead, .sysRstNAssert, .sysRstNRelease, .corePwrokFall,
      .corePwrokRise, .bypass, .samplePreload, .extest, .clamp, .highz, .extestPulse, .extestTrain] : List Instr) ∨
    (∃ a d, i = .hostCsrWrite a d) ∨ (∃ b d, i = .programSwap b d) ∨ ∃ n, i = .coldBoot n

/-- An update that leaves memory and the cores alone while the core domain does not run. -/
def KeepsStore (f : Glexon → Glexon) : Prop := ∀ g : Glexon, g.coreUp = false → (f g).mem = g.mem ∧ (f g).cores = g.cores

/-- The answers of a command `i` in the state `s` that act on one part at most: nothing; an update of the Bumas, of the core domain, of
the Time Keeper or of the management domain while that runs; or one by the pins. -/
inductive Acts (i : Instr) (s : State) : Answer → Prop
  | none : Acts i s (.next s)
  | bumas (f : Bumas → Bumas) : Acts i s (onBumas f s)
  | bumasPins (f : Bumas → Bumas) (hi : ActsHeld i) : Acts i s (onBumasPins f s)
  | core (f : Glexon → Glexon) : Acts i s (onCore f s)
  | tk (f : Glexon → Glexon) (hf : KeepsStore f) : Acts i s (onTk f s)
  | mgmt (f : Glexon → Glexon) (hf : KeepsStore f) : Acts i s (onMgmt f s)
  | gxPins (f : Glexon → Glexon) (hi : ActsHeld i ∨ (s.gx.mgRstN = false → f s.gx = s.gx))
      (hf : ((f s.gx).mem = s.gx.mem ∧ (f s.gx).cores = s.gx.cores) ∨ ((f s.gx).mem = [] ∧ (f s.gx).cores = [])) :
      Acts i s (onGxPins f s)

/-- Such a command changes one part at most. -/
theorem Acts.one_part {i : Instr} {s t : State} {r : Answer} (a : Acts i s r) (ht : r = .next t) : t.bm = s.bm ∨ t.gx = s.gx := by
  cases a with
  | none => injection ht with h; exact .inl (by rw [h])
  | bumas f | bumasPins f hi => injection ht with h; exact .inr (by rw [← h])
  | core f | tk f hf | mgmt f hf | gxPins f hi hf => injection ht with h; exact .inl (by rw [← h])

/-- While both parts are held, such a command changes nothing, or acts all the same. -/
theorem Acts.held {i : Instr} {s : State} {r : Answer} (a : Acts i s r) (hb : s.bm.alive = false) (htk : s.gx.tkUp = false)
    (hmg : s.gx.mgRstN = false) : r = .next s ∨ ActsHeld i := by
  cases a with
  | none => exact .inl rfl
  | bumas f => exact .inl (onBumas_held f s hb)
  | bumasPins f hi => exact .inr hi
  | core f => exact .inl (onCore_held f s (by simp [Glexon.coreUp, htk]))
  | tk f hf => exact .inl (onTk_held f s htk)
  | mgmt f hf => exact .inl (onMgmt_held f s hmg)
  | gxPins f hi hf => exact hi.symm.imp_left fun hi => by rw [onGxPins_next, hi hmg]

/-- While the core domain does not run, such a command leaves memory and the cores alone, or clears them. -/
theorem Acts.store {i : Instr} {s t : State} {r : Answer} (a : Acts i s r) (ht : r = .next t) (hc : s.gx.coreUp = false) :
    (t.gx.mem = s.gx.mem ∧ t.gx.cores = s.gx.cores) ∨ (t.gx.mem = [] ∧ t.gx.cores = []) := by
  cases a with
  | none => injection ht with h; exact .inl (by simp [h])
  | bumas f | bumasPins f hi => injection ht with h; exact .inl (by simp [← h])
  | core f => injection (onCore_held f s hc).symm.trans ht with h; exact .inl (by simp [h])
  | tk f hf =>
    obtain ⟨-, rfl⟩ | ⟨-, rfl⟩ := onTk_cases f s t ht
    · exact .inl (hf s.gx hc)
    · exact .inl ⟨rfl, rfl⟩
  | mgmt f hf =>
    obtain ⟨-, rfl⟩ | ⟨-, rfl⟩ := onMgmt_cases f s t ht
    · exact .inl (hf s.gx hc)
    · exact .inl ⟨rfl, rfl⟩
  | gxPins f hi hf => injection ht with h; subst h; exact hf

/-! ### The ways of running a command that the mailbox and MCTP add -/

/-- An update that leaves memory and the cores alone in every state does so while the core domain does not run. -/
theorem KeepsStore.of_all {f : Glexon → Glexon} (h : ∀ g, (f g).mem = g.mem ∧ (f g).cores = g.cores) : KeepsStore f :=
  fun g _ => h g

/-- A mailbox request is a command of the management domain. -/
theorem onMbx_eq_onMgmt (f : Glexon → Glexon) (s : State) :
    onMbx f s = onMgmt (fun g => if g.mg.run = .running then
      f (g.wr Reg.MG_MBX_REQ_CI (word ((fld (g.rd Reg.MG_MBX_REQ_CI) 0 6 + 1) % 64))) else g) s := by
  by_cases h : s.gx.mgRstN = true <;> simp [onMbx, onMgmt, Glexon.fwOn, h]

theorem Acts.mbx {i : Instr} {s : State} (f : Glexon → Glexon) (hf : KeepsStore f) : Acts i s (onMbx f s) := by
  rw [onMbx_eq_onMgmt]
  refine .mgmt _ fun g hg => ?_
  split
  · exact hf _ hg
  · exact ⟨rfl, rfl⟩

/-- A mailbox request that needs the core domain is only answered while that does not run. -/
theorem Acts.mbxCore {i : Instr} {s : State} (q : MbxReq) (f : Glexon → Glexon) : Acts i s (onMbxCore q f s) :=
  .mbx _ fun g hg => by simp [hg]

theorem Acts.mctp {i : Instr} {s : State} (f : Glexon → Option (List Byte × Glexon))
    (hf : ∀ g x, f g = some x → x.2.mem = g.mem ∧ x.2.cores = g.cores) : Acts i s (onMctp f s) := by
  refine .mgmt _ (.of_all fun g => ?_)
  split
  · exact ⟨rfl, rfl⟩
  · cases hx : f g with
    | none => exact ⟨rfl, rfl⟩
    | some x => exact hf g x hx

theorem Acts.mctpControl {i : Instr} {s : State} (cmd : Nat) (msg : List Byte) (f : Glexon → List Byte → List Byte × Glexon)
    (hf : ∀ g d, (f g d).2.mem = g.mem ∧ (f g d).2.cores = g.cores) : Acts i s (mctpControl cmd f msg s) := by
  refine .mctp _ fun g x hx => ?_
  split at hx <;> cases hx
  exact hf g _

theorem Acts.pldm {i : Instr} {s : State} (typ cmd : Nat) (msg : List Byte) (f : Glexon → List Byte → List Byte × Glexon)
    (hf : ∀ g d, (f g d).2.mem = g.mem ∧ (f g d).2.cores = g.cores) : Acts i s (pldm typ cmd f msg s) := by
  refine .mctp _ fun g x hx => ?_
  split at hx <;> cases hx
  exact hf g _

/-! ### The other ways of running a command -/

theorem Acts.jtagPins {i : Instr} {s : State} (j : Jtag) (hi : ActsHeld i) : Acts i s (jtagPins j s) :=
  .gxPins _ (.inl hi) (.inl ⟨rfl, rfl⟩)

theorem Acts.trainAt {i : Instr} {s : State} (e : LinkEnd) (f : Train → Bool → Train) : Acts i s (trainAt e f s) := by
  unfold Machine.trainAt
  cases e with
  | bumas => exact .bumas _
  | port p => exact .core _

theorem Acts.waitCmd {i : Instr} {s : State} (f : Form) (w : Slot → Wait) (o : SlotOp) : Acts i s (waitCmd f w o s) := .core _

theorem Acts.onPacket {i : Instr} {s : State} (op : Nat) (f : Glexon → RmPkt → Glexon) (pk : RmFrame) :
    Acts i s (onPacket op f pk s) := .core _

theorem Acts.execHead {i : Instr} {s : State} (t : Nat) (f : Glexon → Rec → Glexon) : Acts i s (execHead t f s) := .core _

/-! ### Commands of more than one branch -/

theorem acts_linkInit {i : Instr} {s : State} (e : LinkEnd) (two fresh : Bool) : Acts i s (execLinkInit e two fresh s) := by
  unfold execLinkInit
  cases e with
  | bumas => exact .bumas _
  | port p => exact .core _

theorem acts_emitRMarker {i : Instr} {s : State} (o : ProbeOp) : Acts i s (execEmitRMarker o s) := by
  unfold execEmitRMarker
  split
  · exact .none
  · exact .bumas _

theorem acts_badReq {i : Instr} {s : State} (opcode : BitVec 16) (q : MbxReq) : Acts i s (execBadReq opcode q s) := by
  unfold execBadReq
  split
  · exact .none
  · exact .mbx _ (.of_all fun g => g.mbxReply_keeps _ _ _)

theorem acts_registerWrite {i : Instr} {s : State} (n : BitVec 6) (a : BitVec 48) (v : Word) :
    Acts i s (execRegisterWrite n a v s) := by
  unfold execRegisterWrite
  dsimp only
  split
  · refine .mgmt _ (.of_all fun g => ?_)
    split <;> simp
  · exact .core _

theorem acts_eventRecordWrite {i : Instr} {s : State} : Acts i s (execEventRecordWrite s) := by
  refine .mgmt _ (.of_all fun g => ?_)
  split
  · split
    · simp
    · split <;> simp
  · simp
  · simp

theorem acts_mirrorAppend {i : Instr} {s : State} (fail : Option MirrorFail) : Acts i s (execMirrorAppend fail s) := by
  refine .mgmt _ (.of_all fun g => ?_)
  extract_lets new g1
  have hg1 : g1.mem = g.mem ∧ g1.cores = g.cores := by
    unfold g1
    split
    · rw [Glexon.wr_mem, Glexon.wr_cores]
      exact ⟨g.modMg_mem _, g.modMg_cores _⟩
    · exact ⟨rfl, rfl⟩
  clear_value g1
  split <;> simp [hg1]

/-- A reset of the core domain clears memory and the cores (R454). -/
theorem Glexon.coreReset_clears (g : Glexon) : g.coreReset.mem = [] ∧ g.coreReset.cores = [] := ⟨rfl, rfl⟩

theorem acts_sysRstNAssert {s : State} : Acts .sysRstNAssert s (execSysRstNAssert s) := by
  refine .gxPins _ (.inl (by simp [ActsHeld])) ?_
  dsimp only
  split
  · exact .inl ⟨rfl, rfl⟩
  · refine .inr ?_
    split <;> simp [Glexon.coreReset_clears]

theorem acts_corePwrokFall {s : State} : Acts .corePwrokFall s (execCorePwrokFall s) := by
  refine .gxPins _ (.inl (by simp [ActsHeld])) ?_
  dsimp only
  split
  · exact .inl ⟨rfl, rfl⟩
  · exact .inr (Glexon.coreReset_clears _)

theorem acts_mgRstNAssert {i : Instr} {s : State} : Acts i s (execMgRstNAssert s) := by
  refine .gxPins _ (.inr fun h => if_pos h) (.inl ?_)
  dsimp only
  split <;> exact ⟨rfl, rfl⟩

/-! ### Every command acts on one part at most -/

/-- R3, R100, R454, R523: each command is one of these. The groups name the part that their commands act on. -/
theorem acts_exec (i : Instr) (s : State) : Acts i s (exec i s) := by
  cases i <;> dsimp only [exec]
  -- the Bumas: pins and the host's register port, then everything that needs it out of reset
  case bmPwrOkFall | bmPwrOkRise | bmRstNAssert | bmRstNRelease | hostCsrWrite | bmTimeSecRead | programSwap =>
    exact .bumasPins _ (by simp [ActsHeld])
  case emitRMarker o => exact acts_emitRMarker o
  case clkGap | eventCount | markerCapture | pcSample | pcWindowClose | snoopBeat | auditQuery | auditAnswer | auditWindowWrite |
      auditSlotExpire | auditSlotClearDone | energyIncrement | droopEvent | programValidationDone | bumasBoundary |
      thermalRoundDone | voltageRoundDone | probeOverrun | probeWaitDone | probeEnd | tapQueueAgeOut | bumasBlockSlot |
      creditReceive | tapNop | csrWrite | csrRead | progLoad | tapGreyout | tapBlackout | auditThresh | tapReset | linkRetrain |
      timeReceive | bumasServoUpdate | tickReceive | droopRecovery | badOpcode | snapC | snapP | snapE | snapS | deltaC | deltaE |
      probeSel | probeAdd | probeAddI | probeSub | probeSubI | probeAnd | probeAndI | probeOr | probeOrI | orK | shfL | shfR |
      shfA | shfO | probeBr | probeBrZ | probeBrNz | histV | histW | threshMi | threshC | emitW | emitK | emitH | emitRPcSamples |
      emitRDigest | emitRSensor | emitREnergy | pcsampF | pcsampS | pcsampH | digsetS | digsetE | adcstartT | adcstartV | waittT |
      waittA | waittP | probeCmpEq | probeCmpNe | probeCmpLtu | probeCmpGeu | probeCmpLt | probeCmpGe =>
    exact .bumas _
  -- either end of a Tap link
  case signalDetect | trainDone | codewordLock | deskewDone | trainingTimeout | laneFail => exact .trainAt _ _
  case linkInit e two fresh => exact acts_linkInit e two fresh
  -- the Time Keeper
  case glexonBoundary b => exact .tk _ fun g hg => by simp [hg]
  case syncTimeout | announceReceiptTimeout | tickStopped | ppsInEdge | ppsInLost | ref10mLost | ppsOutRise | ppsOutFall | cmpFire |
      trigPulseEnd | captEdge =>
    exact .tk _ (.of_all fun g => by simp [apply_ite Glexon.mem, apply_ite Glexon.cores])
  -- the management domain
  case thermalTrip | watchdogExpire | fwActivationRestart =>
    refine .mgmt _ (.of_all fun g => ?_)
    split
    · split <;> simp
    · simp
  case eventRecordWrite => exact acts_eventRecordWrite
  case mirrorAppend fail => exact acts_mirrorAppend fail
  case sensorSample | railSample => exact .mgmt _ (.of_all fun g => by simp [foldl_keeps])
  case evrCursor | brownout | mgWdogKick | mgRestart => exact .mgmt _ (.of_all fun g => by simp)
  case heartbeat => exact .mgmt _ (.of_all fun g => by simp [apply_ite Glexon.mem, apply_ite Glexon.cores])
  case registerWrite n a v => exact acts_registerWrite n a v
  -- the mailbox
  case submitCmd | slotAck | imgLoad | imgActivate | coreWithdraw | coreRestore | sdcClear | memberList => exact .mbxCore _ _
  case fwStage | fwActivate | fwCommit | fwRevert =>
    exact .mbx _ (.of_all fun g => by simp [apply_ite Glexon.mem, apply_ite Glexon.cores])
  case badReq opcode q => exact acts_badReq opcode q
  -- MCTP and PLDM
  case setEndpointId | getEndpointId | getMctpVersionSupport | getMessageTypeSupport | getEndpointUuid =>
    exact .mctpControl _ _ _ fun g d => by simp [apply_ite Prod.snd, apply_ite Glexon.mem, apply_ite Glexon.cores]
  case getsensorreading | getstatesensorreadings | getpdr =>
    refine .pldm _ _ _ _ fun g d => ?_
    split
    · exact ⟨rfl, rfl⟩
    · split <;> exact ⟨rfl, rfl⟩
  case gettid | settid | getpldmversion | getpldmtypes | getpldmcommands | getpdrrepositoryinfo | seteventreceiver =>
    exact .pldm _ _ _ _ fun g d => by simp [apply_ite Prod.snd, apply_ite Glexon.mem, apply_ite Glexon.cores]
  -- the Glexon's pins, supplies and JTAG port
  case coldBoot | sysRstNRelease =>
    exact .gxPins _ (.inl (by simp [ActsHeld])) (.inl (by simp [apply_ite Glexon.mem, apply_ite Glexon.cores]))
  case bypass | samplePreload | corePwrokRise => exact .gxPins _ (.inl (by simp [ActsHeld])) (.inl ⟨rfl, rfl⟩)
  case extest | clamp | highz | extestPulse | extestTrain => exact .jtagPins _ (by simp [ActsHeld])
  case sysRstNAssert => exact acts_sysRstNAssert
  case corePwrokFall => exact acts_corePwrokFall
  case mgRstNAssert => exact acts_mgRstNAssert
  -- the core domain: waits, packets, fabric commands, and every other command
  case waitE | fenceM | fenceE | fenceX | fenceF | ticksync => exact .waitCmd _ _ _
  case write | readReq | readResp | fetchAdd | cmpSwap | atomicResp | ack | nak => exact .onPacket _ _ _
  case greyout | blackout | wsCreate | wsTeardown | epoch | periodChange | beacon | collKey | gateList | announce | listHeld =>
    exact .execHead _ _
  all_goals exact .core _

/-- Settles O2: every command acts in one of the ways of `Acts`, and each of those keeps to its part. -/
theorem commandsKeepToTheirPart : Obligations.CommandsKeepToTheirPart :=
  ⟨fun i s _ => (acts_exec i s).one_part, fun i s => (acts_exec i s).held, fun i s _ => (acts_exec i s).store⟩

end Sys2Proof.Machine
end

section
/-! PROOFS. What the command executor does with each fabric command (R38 to R41, R47, R58, R61, R303, R407, R409, R413, R414,
R499). -/

namespace Sys2Proof.Machine

/-- The Glexon once the executor has read the head of its FIFO, of which `rest` is left. -/
def Glexon.headRead (g : Glexon) (rest : List Rec) : Glexon := { g with ts := { g.ts with fifo := rest } }

/-- A command at the head whose arguments fit is handled on the Glexon that has read it (R412). -/
theorem execHead_of_heads {s : State} {t : Nat} {r : Rec} {rest : List Rec} (f : Glexon → Rec → Glexon) (h : s.heads t r rest)
    (hr : cmdArgsOk r = true) : execHead t f s = .next { s with gx := f (s.gx.headRead rest) r } := by
  obtain ⟨hup, hen, hfifo, htyp⟩ := h
  simp [execHead, onCore_runs _ _ hup, hfifo, hen, htyp, hr, Glexon.headRead]

/-- The command at the head is of the type that its header names. -/
theorem State.heads.toNat_typ {s : State} {t : Nat} {r : Rec} {rest : List Rec} (h : s.heads t r rest) : r.typ.toNat = t := by
  obtain ⟨-, -, -, htyp⟩ := h
  exact htyp

/-! ### Writes of several registers -/

/-- A key that some write of a list names, each time with the same value, reads that value afterwards. -/
theorem SMap.get_foldl_put {α β : Type} [DecidableEq α] (d x : α) (key : β → Nat) (val : β → α) {k : Nat} :
    ∀ (l : List β) (m : SMap α), (∃ b ∈ l, key b = k) ∨ SMap.get d m k = x → (∀ b ∈ l, key b = k → val b = x) →
      SMap.get d (l.foldl (fun m b => SMap.put d m (key b) (val b)) m) k = x := by
  intro l
  induction l with
  | nil => simp
  | cons b l ih =>
    intro m hk hx
    refine ih _ ?_ fun c hc => hx c (List.mem_cons_of_mem _ hc)
    by_cases hb : key b = k
    · exact .inr (by rw [← hb, SMap.get_put_same, hx b List.mem_cons_self hb])
    · rw [SMap.get_put_other _ _ _ _ _ (Ne.symm hb)]
      simpa [hb] using hk

/-- Writes of RWT registers enter their values, masked by the registers in force, and nothing else (R14, R16). -/
theorem Glexon.foldl_rwtPut (reg : Nat → Nat) (w : Word) (l : List Nat) (g : Glexon) :
    l.foldl (fun h c => h.rwtPut (reg c) w) g =
      { g with rwt := l.foldl (fun m c => SMap.put none m (reg c) (some (g.maskW (reg c) w))) g.rwt } := by
  induction l generalizing g with
  | nil => rfl
  | cons c l ih => rw [List.foldl_cons, ih]; rfl

theorem leNat_lt (l : List Byte) : leNat l < 256 ^ l.length := by
  induction l with
  | nil => simp [leNat]
  | cons b l ih =>
    have hb := b.isLt
    rw [leNat, List.length_cons, pow_succ]
    omega

/-- One byte read from a payload is a byte. -/
theorem leAt_byte_lt (l : List Byte) (o : Nat) : leAt l o 1 < 256 := by
  have h := leNat_lt ((l.drop o).take 1)
  have hlen : ((l.drop o).take 1).length ≤ 1 := by simp
  exact h.trans_le (Nat.pow_le_pow_right (by omega) hlen)

/-- A class that a command's mask byte names is among the positions of the mask's 1 bits. -/
theorem mem_onesBelow_of_bit {n c : Nat} (hn : n < 256) (hc : c < 4) (h : bit (BitVec.ofNat 8 n) c = true) :
    c ∈ onesBelow 4 n := by
  have hmod : n % 2 ^ 8 = n := Nat.mod_eq_of_lt hn
  rw [bit, BitVec.getLsbD, BitVec.toNat_ofNat, hmod] at h
  exact List.mem_filter.2 ⟨List.mem_range.2 hc, h⟩

/-- What a leaf decides of several registers enters its record of the die (R162). -/
theorem TapPort.decideMany_want (t : TapPort) (l : List (Nat × Word)) (c : PortCmd) :
    (t.decideMany l c).want = l.foldl (fun m e => SMap.put none m e.1 (some e.2)) t.want := by
  unfold TapPort.decideMany
  dsimp only
  split <;> rfl

/-! ### Greyout and Blackout (R413, R414) -/

/-- A GREYOUT of this Glexon writes the shaper word of every class that its mask names. -/
theorem Glexon.greyout_self {g : Glexon} {r : Rec} (h : g.targetOf r = some none) :
    (g.greyout r).ts.fifo = g.ts.fifo ∧ ∀ c < 4, bit (BitVec.ofNat 8 (leAt r.payload 16 1)) c = true →
      SMap.get none (g.greyout r).rwt (Reg.TS_GREY c) = some (g.maskW (Reg.TS_GREY c) (word (leAt r.payload 24 8))) := by
  simp only [Glexon.greyout, h, Glexon.foldl_rwtPut]
  refine ⟨rfl, fun c hc hb => SMap.get_foldl_put _ _ _ _ _ _ (.inl ?_) fun b _ hbc => by rw [hbc]; rfl⟩
  exact ⟨c, mem_onesBelow_of_bit (leAt_byte_lt _ _) hc hb, rfl⟩

/-- A GREYOUT of a die enters the shaper word of every class that its mask names in the leaf's record of the die. -/
theorem Glexon.greyout_die {g : Glexon} {r : Rec} {p : Nat} (h : g.targetOf r = some (some p)) :
    (g.greyout r).ts.fifo = g.ts.fifo ∧ ∀ c < 4, bit (BitVec.ofNat 8 (leAt r.payload 16 1)) c = true →
      SMap.get none ((g.greyout r).port p).want (Reg.BM_TAP_SHAPE c) = some (word (leAt r.payload 24 8)) := by
  simp only [Glexon.greyout, h]
  refine ⟨rfl, fun c hc hb => ?_⟩
  rw [Glexon.modPort, Glexon.port_setPort_same, TapPort.decideMany_want, List.foldl_map]
  exact SMap.get_foldl_put _ _ _ _ _ _ (.inl ⟨c, mem_onesBelow_of_bit (leAt_byte_lt _ _) hc hb, rfl⟩) fun _ _ _ => rfl

/-- A BLACKOUT of this Glexon writes the mask. -/
theorem Glexon.blackout_self {g : Glexon} {r : Rec} (h : g.targetOf r = some none) :
    (g.blackout r).ts.fifo = g.ts.fifo ∧
      SMap.get none (g.blackout r).rwt Reg.TS_BLACKOUT = some (g.maskW Reg.TS_BLACKOUT (word (leAt r.payload 16 1))) := by
  simp only [Glexon.blackout, h]
  exact ⟨rfl, SMap.get_put_same _ _ _ _⟩

/-- A BLACKOUT of a die enters the mask in the leaf's record of the die. -/
theorem Glexon.blackout_die {g : Glexon} {r : Rec} {p : Nat} (h : g.targetOf r = some (some p)) :
    (g.blackout r).ts.fifo = g.ts.fifo ∧
      SMap.get none ((g.blackout r).port p).want Reg.BM_TAP_BLACKOUT = some (word (leAt r.payload 16 1)) := by
  simp only [Glexon.blackout, h]
  refine ⟨rfl, ?_⟩
  rw [Glexon.modPort, Glexon.port_setPort_same, TapPort.decideMany_want]
  exact SMap.get_put_same _ _ _ _

/-! ### Watch sets (R38 to R40) -/

/-- A watch-set command that names its boundary, and as a teardown the end tick 3 after it, waits for the boundaries of the roles. -/
theorem Glexon.wsCmd_accepted (g : Glexon) {r : Rec} (he : Rec.eff r ≠ 0)
    (ht : r.typ = 0x0404 → leAt r.payload 24 8 = Rec.eff r + 3) : g.wsCmd r = g.wsTake r :=
  if_neg fun h => h.elim he fun ⟨htyp, hne⟩ => hne (ht htyp)

/-! ### Commands that go on to the children (R58, R61, R303, R407, R409) -/

section
variable (g : Glexon) (r : Rec)

/-- What no copy of a command changes stays as the command goes on to every child. -/
theorem Glexon.sendAllDown_keep {β : Type} (p : Glexon → β) (h : ∀ x c, p (x.sendCopy c) = p x) : p (g.sendAllDown r) = p g := by
  refine foldl_keep p _ (fun x k => ?_) _ _
  unfold Glexon.sendDown
  split
  · exact h _ _
  · rfl

@[simp] theorem Glexon.sendAllDown_regs : (g.sendAllDown r).regs = g.regs := g.sendAllDown_keep r _ fun _ _ => rfl
@[simp] theorem Glexon.sendAllDown_fifo : (g.sendAllDown r).ts.fifo = g.ts.fifo :=
  g.sendAllDown_keep r (fun x => x.ts.fifo) fun _ _ => rfl
@[simp] theorem Glexon.sendAllDown_key : (g.sendAllDown r).ts.key = g.ts.key :=
  g.sendAllDown_keep r (fun x => x.ts.key) fun _ _ => rfl
@[simp] theorem Glexon.sendAllDown_gates : (g.sendAllDown r).ts.gates = g.ts.gates :=
  g.sendAllDown_keep r (fun x => x.ts.gates) fun _ _ => rfl

/-- An EPOCH whose arguments fit has at least the n_s periods before T_s (R58). -/
theorem epoch_fits {r : Rec} (h : cmdArgsOk r = true) (ht : r.typ.toNat = 0x0405) :
    leAt r.payload 32 8 * (250000 * 2 ^ leAt r.payload 28 1) ≤ leAt r.payload 16 6 * 1000000000 := by
  simp only [cmdArgsOk, ht] at h
  simp only [Nat.reduceEqDiff, if_false, if_true, Bool.and_eq_true, decide_eq_true_eq] at h
  exact h.2.2

/-- Before ticking, an EPOCH's values are in force at once, with the epoch n_s periods before T_s (R58). -/
theorem Glexon.epochCmd_tk {g : Glexon} (r : Rec) (h : g.tk.ticking = false) : (g.epochCmd r).tk = { g.tk with
    epoch := leAt r.payload 16 6 * 1000000000 - leAt r.payload 32 8 * (250000 * 2 ^ leAt r.payload 28 1),
    period := leAt r.payload 28 1, hasEpoch := true, startAt := max (leAt r.payload 16 6 * 1000000000) g.nowNs } := by
  simp [Glexon.epochCmd, h]

theorem Glexon.epochCmd_fifo {g : Glexon} (r : Rec) (h : g.tk.ticking = false) : (g.epochCmd r).ts.fifo = g.ts.fifo := by
  simp [Glexon.epochCmd, h]

/-- Before ticking, a beacon's values are in force at once (R61). -/
theorem Glexon.beaconCmd_tk {g : Glexon} (r : Rec) (h : g.tk.ticking = false) : (g.beaconCmd r).tk = { g.tk with
    pchg := word (leAt r.payload 48 8), epoch := leAt r.payload 32 6 * 1000000000 + leAt r.payload 40 4,
    period := leAt r.payload 24 1, hasEpoch := true, startAt := g.nowNs + 1 } := by
  simp [Glexon.beaconCmd, h, apply_ite Glexon.tk]

theorem Glexon.beaconCmd_fifo {g : Glexon} (r : Rec) (h : g.tk.ticking = false) : (g.beaconCmd r).ts.fifo = g.ts.fifo := by
  simp [Glexon.beaconCmd, h, apply_ite Glexon.ts]

end

/-! ### Announcements and reports (R47, R499) -/

/-- While ticking no role announces itself. -/
theorem Glexon.readyCheck_ticking {g : Glexon} (h : g.tk.ticking = true) : g.readyCheck = g :=
  List.foldl_fixed' (fun k => by simp [h]) _

/-- An announcement of a known child with this Glexon's map is recorded (R499). -/
theorem Glexon.announceCmd_recorded {g : Glexon} {r : Rec} {k pos : Nat} (ht : g.targetOf r = some none)
    (htick : g.tk.ticking = true) (hk : k = leAt r.payload 32 1 + 1)
    (hchild : ((SMap.get {} g.image.roles k).children).find? (fun c => c.2 == Rec.origin r) = some (pos, Rec.origin r))
    (hmap : word (leAt r.payload 16 8) = g.rd Reg.MG_BU_MAP) :
    g.announceCmd r = { g with mg := { g.mg with ann := SMap.put none g.mg.ann (64 * k + pos) (some {
      map := word (leAt r.payload 16 8), h := word (leAt r.payload 24 8), roles := leAt r.payload 36 4,
      up := leAt r.payload 40 4, dies := leAt r.payload 44 4 }) } } := by
  subst hk
  simp only [Glexon.announceCmd, ht, hchild, hmap, ne_eq, not_true_eq_false, if_false]
  exact Glexon.readyCheck_ticking (g := { g with mg := _ }) htick

/-- A leaf's report at an apex enters the tally of its set and generation, with the leaf among those that have reported (R47). -/
theorem Glexon.listHeld_tallied {g : Glexon} {r : Rec} (ht : g.targetOf r = some none) (hrole : g.roleSet 3 = true) :
    (g.listHeld r).ts.fifo = g.ts.fifo ∧ ∃ x ∈ (g.listHeld r).fl.tallies,
      x.id = leAt r.payload 16 2 ∧ x.gen = leAt r.payload 18 2 ∧ Rec.origin r ∈ x.from_ := by
  simp only [Glexon.listHeld, ht, hrole, Bool.true_eq_false, if_false]
  refine ⟨trivial, _, List.mem_append_right _ (List.mem_singleton_self _), ?_⟩
  cases hold : g.fl.tallies.find? (fun t => t.id == leAt r.payload 16 2 && t.gen == leAt r.payload 18 2) with
  | none => simp [noTally]
  | some t =>
    have hkey := List.find?_some hold
    simp only [Bool.and_eq_true, beq_iff_eq] at hkey
    refine ⟨hkey.1, hkey.2, ?_⟩
    by_cases hin : Rec.origin r ∈ t.from_ <;> simp [hin]

/-- Settles O44: each clause is the rule above for the command that stands at the head. -/
theorem fabricCommandsTakeEffect : Obligations.FabricCommandsTakeEffect := by
  intro s r rest hr
  refine ⟨fun h => ⟨fun ht => ?_, fun p ht => ?_⟩, fun h => ⟨fun ht => ?_, fun p ht => ?_⟩, fun row hrow h he htd => ?_,
    fun h htick => ?_, fun h => ?_, fun h htick => ?_, fun h => ?_, fun h => ?_, fun k pos h ht htick hk hchild hmap => ?_,
    fun h ht hrole => ?_⟩
  · exact ⟨_, execHead_of_heads Glexon.greyout h hr, Glexon.greyout_self (g := s.gx.headRead rest) ht⟩
  · exact ⟨_, execHead_of_heads Glexon.greyout h hr, Glexon.greyout_die (g := s.gx.headRead rest) ht⟩
  · exact ⟨_, execHead_of_heads Glexon.blackout h hr, Glexon.blackout_self (g := s.gx.headRead rest) ht⟩
  · exact ⟨_, execHead_of_heads Glexon.blackout h hr, Glexon.blackout_die (g := s.gx.headRead rest) ht⟩
  · have hws : exec row.1 s = .next { s with gx := (s.gx.headRead rest).wsTake r } := by
      rw [← Glexon.wsCmd_accepted (s.gx.headRead rest) he fun htyp => htd (by rw [← h.toNat_typ, htyp]; rfl)]
      simp only [List.mem_cons, List.not_mem_nil, or_false] at hrow
      obtain rfl | rfl := hrow <;> exact execHead_of_heads Glexon.wsCmd h hr
    exact ⟨_, hws, rfl, rfl⟩
  · refine ⟨_, execHead_of_heads Glexon.epochCmd h hr, Glexon.epochCmd_fifo r htick, ?_⟩
    have hfit := epoch_fits hr h.toNat_typ
    have htk := Glexon.epochCmd_tk (g := s.gx.headRead rest) r htick
    simp only [Glexon.pNs, htk, true_and]
    exact ⟨htick, Nat.sub_add_cancel hfit⟩
  · exact ⟨_, execHead_of_heads Glexon.periodCmd h hr, Glexon.sendAllDown_fifo _ _, Glexon.sendAllDown_tk _ _⟩
  · refine ⟨_, execHead_of_heads Glexon.beaconCmd h hr, Glexon.beaconCmd_fifo r htick, ?_⟩
    simp only [Glexon.beaconCmd_tk (g := s.gx.headRead rest) r htick, and_self]
  · exact ⟨_, execHead_of_heads Glexon.keyCmd h hr, Glexon.sendAllDown_fifo _ _, Glexon.sendAllDown_key _ _,
      Glexon.sendAllDown_regs _ _⟩
  · exact ⟨_, execHead_of_heads Glexon.gatesCmd h hr, Glexon.sendAllDown_fifo _ _, Glexon.sendAllDown_gates _ _,
      Glexon.sendAllDown_regs _ _⟩
  · refine ⟨_, execHead_of_heads Glexon.announceCmd h hr, ?_⟩
    rw [Glexon.announceCmd_recorded (g := s.gx.headRead rest) ht htick hk hchild hmap]
    exact ⟨rfl, SMap.get_put_same _ _ _ _⟩
  · obtain ⟨hfifo, x, hx⟩ := Glexon.listHeld_tallied (g := s.gx.headRead rest) ht hrole
    exact ⟨_, x, execHead_of_heads Glexon.listHeld h hr, hfifo, hx⟩

end Sys2Proof.Machine
end

section
/-! PROOFS. The work deadline (R22, R226, R228) and the fabric ports (R508, R509). -/

namespace Sys2Proof.Machine

/-! ### What the deadline of the cores leaves to the roles -/

/-- A core works at TDEAD: it is in the barrier set, and has neither joined nor aborted (R202, R253). -/
def Core.works (k : Core) : Bool := k.inSet && (decide (k.phase = .issuing) || decide (k.phase = .idle))

/-- The registers that no core's abort and no barrier writes, of which a role slot's activity is read. -/
def OffCores (a : Nat) : Prop := a < 0x80800000 ∨ a = Reg.ID_GLEXON_INDEX

/-- An update keeps the Time Keeper, ABORTMASK, and every register that the cores' registers do not reach. -/
structure Glexon.KeepsRoles (g h : Glexon) : Prop where
  tk : h.tk = g.tk
  mask : h.abortMask = g.abortMask
  rd : ∀ a, OffCores a → h.rd a = g.rd a

section
variable {g h i : Glexon}

theorem Glexon.KeepsRoles.refl (g : Glexon) : g.KeepsRoles g := ⟨rfl, rfl, fun _ _ => rfl⟩

theorem Glexon.KeepsRoles.trans (a : g.KeepsRoles h) (b : h.KeepsRoles i) : g.KeepsRoles i :=
  ⟨b.tk.trans a.tk, b.mask.trans a.mask, fun r hr => (b.rd r hr).trans (a.rd r hr)⟩

/-- An update of neither the Time Keeper, ABORTMASK nor a register is such an update. -/
theorem Glexon.KeepsRoles.of_eq (htk : h.tk = g.tk) (hm : h.abortMask = g.abortMask) (hr : h.regs = g.regs) : g.KeepsRoles h :=
  ⟨htk, hm, fun _ _ => Glexon.rd_congr hr _⟩

theorem Glexon.KeepsRoles.wr {a : Nat} (k : g.KeepsRoles h) (v : Word) (ha : ¬OffCores a) : g.KeepsRoles (h.wr a v) :=
  k.trans ⟨rfl, rfl, fun _ hc => Glexon.rd_wr_other _ _ _ _ fun e => ha (e ▸ hc)⟩

theorem Glexon.KeepsRoles.foldl {α : Type} {f : Glexon → α → Glexon} (hf : ∀ x a, Glexon.KeepsRoles x (f x a)) (l : List α)
    (g : Glexon) : g.KeepsRoles (l.foldl f g) := by
  induction l generalizing g with
  | nil => exact .refl g
  | cons a l ih => exact (hf g a).trans (ih _)

/-- The same change of ABORTMASK before and after such an update. -/
theorem Glexon.KeepsRoles.withMask (k : g.KeepsRoles h) (f : BitVec 24 → BitVec 24) :
    Glexon.KeepsRoles { g with abortMask := f g.abortMask } { h with abortMask := f h.abortMask } :=
  ⟨k.tk, congrArg f k.mask, k.rd⟩

/-- Role slots stay as active as they are. -/
theorem Glexon.KeepsRoles.roleOn (k : g.KeepsRoles h) {n : Nat} (hn : n < 4) : h.roleOn n = g.roleOn n := by
  have hcfg : OffCores (Reg.RE_ROLE_CFG n) := .inl (by unfold Reg.RE_ROLE_CFG; omega)
  rw [Glexon.roleOn, Glexon.roleOn, Glexon.indexValid, Glexon.indexValid, k.rd _ hcfg, k.rd _ (.inr rfl)]

end

/-- MC_CORE_STAT of no core is among those registers. -/
theorem not_offCores_coreStat (n : Nat) : ¬OffCores (Reg.MC_CORE_STAT n) := by
  simp only [OffCores, Reg.MC_CORE_STAT, Reg.ID_GLEXON_INDEX]
  omega

/-- A register of the cores' block is not among them. -/
theorem not_offCores_of_block {a : Nat} (h : 0x80800000 ≤ a) (h' : a < 0x80900000) : ¬OffCores a := by
  simp only [OffCores, Reg.ID_GLEXON_INDEX]
  omega

section
variable {g h : Glexon}

theorem Glexon.KeepsRoles.setSrc (k : g.KeepsRoles h) (n : Nat) (t : TrcSrc) : g.KeepsRoles (h.setSrc n t) :=
  k.trans (.of_eq rfl rfl rfl)

theorem Glexon.KeepsRoles.rolesPart (k : g.KeepsRoles h) (mask : Nat) : g.KeepsRoles (h.rolesPart mask) := by
  refine k.trans (.foldl (fun x j => ?_) _ _)
  split <;> exact .of_eq rfl rfl rfl

theorem Glexon.KeepsRoles.trcDoze (k : g.KeepsRoles h) (n cyc : Nat) : g.KeepsRoles (h.trcDoze n cyc) := by
  unfold Glexon.trcDoze
  dsimp only
  split
  · exact k.setSrc _ _
  · exact k

theorem Glexon.KeepsRoles.trcAbort (k : g.KeepsRoles h) (n cause pc cyc : Nat) : g.KeepsRoles (h.trcAbort n cause pc cyc) := by
  unfold Glexon.trcAbort
  dsimp only
  split
  · exact (k.setSrc _ _).trcDoze _ _
  · exact k

theorem Glexon.KeepsRoles.count (k : g.KeepsRoles h) (cls unit ev n : Nat) : g.KeepsRoles (h.count cls unit ev n) :=
  k.trans ⟨h.count_tk _ _ _ _, h.count_abortMask _ _ _ _, fun _ _ => h.rd_count _ _ _ _ _⟩

end

section
variable (g : Glexon)

@[simp] theorem Glexon.rolesPart_cores (mask : Nat) : (g.rolesPart mask).cores = g.cores :=
  foldl_keep Glexon.cores _ (fun x k => by split <;> rfl) _ _

@[simp] theorem Glexon.trcDoze_cores (n cyc : Nat) : (g.trcDoze n cyc).cores = g.cores := by
  unfold Glexon.trcDoze
  dsimp only
  split <;> rfl

@[simp] theorem Glexon.trcAbort_cores (n cause pc cyc : Nat) : (g.trcAbort n cause pc cyc).cores = g.cores := by
  unfold Glexon.trcAbort
  dsimp only
  split <;> simp

/-- A core is looked up in the cores alone. -/
theorem Glexon.core_congr {g h : Glexon} (e : g.cores = h.cores) (n : Nat) : g.core n = h.core n := by
  unfold Glexon.core; rw [e]

/-! ### The barrier (R253) -/

/-- What a sparse map reads, if not the default, is listed. -/
theorem SMap.mem_of_get_ne {α : Type} (d : α) (m : SMap α) (k : Nat) (h : SMap.get d m k ≠ d) : (k, SMap.get d m k) ∈ m := by
  induction m with
  | nil => exact absurd rfl h
  | cons e m ih =>
    obtain ⟨j, v⟩ := e
    by_cases hk : k = j
    · simp [SMap.get, hk]
    · simp only [SMap.get, hk, if_false] at h ⊢
      exact List.mem_cons_of_mem _ (ih h)

/-- A core of the barrier set is listed among the cores. -/
theorem Glexon.mem_cores_of_inSet {n : Nat} (h : (g.core n).inSet = true) : (n, g.core n) ∈ g.cores :=
  SMap.mem_of_get_ne _ _ _ fun e => by
    rw [Glexon.core, e] at h
    cases h

/-- A core of the barrier set dozes when the barrier is complete: it leaves the set, is counted, and its trace tells it. -/
def Glexon.doze (cyc : Nat) (h : Glexon) (e : Nat × Core) : Glexon :=
  let h1 := h.setCore e.1 { e.2 with phase := .dozing, inSet := false }
  let h2 := h1.bumpFld (Reg.MC_CORE_STAT e.1) 32 32 1
  h2.trcDoze e.1 (h2.pulse + cyc)

theorem Glexon.doze_keepsRoles (cyc : Nat) (e : Nat × Core) : g.KeepsRoles (g.doze cyc e) := by
  refine .trcDoze (.wr ?_ _ (not_offCores_coreStat _)) _ _
  exact .of_eq rfl rfl rfl

/-- After some cores doze, each core is as it was or out of the barrier set. -/
theorem Glexon.foldl_doze_core (cyc : Nat) (l : List (Nat × Core)) (n : Nat) :
    (l.foldl (Glexon.doze cyc) g).core n = g.core n ∨ ((l.foldl (Glexon.doze cyc) g).core n).inSet = false := by
  induction l generalizing g with
  | nil => exact .inl rfl
  | cons e l ih =>
    have hstep : (g.doze cyc e).core n = (g.setCore e.1 { e.2 with phase := .dozing, inSet := false }).core n :=
      Glexon.core_congr (by simp [Glexon.doze, Glexon.bumpFld]) n
    rw [List.foldl_cons]
    obtain h | h := ih (g.doze cyc e)
    · rw [h, hstep]
      by_cases hn : n = e.1
      · rw [hn, Glexon.core_setCore_same]
        exact .inr rfl
      · exact .inl (Glexon.core_setCore_other _ _ _ _ hn)
    · exact .inr h

/-- The barrier is not complete, and nothing changes, or no core works before it nor after it. -/
theorem Glexon.barrier_cases (cyc : Nat) :
    g.barrier cyc = g ∨ ∀ n, (g.core n).works = false ∧ ((g.barrier cyc).core n).works = false := by
  unfold Glexon.barrier
  extract_lets set g1
  split
  next hset =>
    refine .inr fun n => ?_
    have hidle : (g.core n).works = false := by
      by_contra hw
      simp only [Core.works, Bool.not_eq_false, Bool.and_eq_true, Bool.or_eq_true, decide_eq_true_eq] at hw
      obtain ⟨hin, hph⟩ := hw
      have hjoin := List.all_eq_true.1 hset.2 _ (List.mem_filter.2 ⟨g.mem_cores_of_inSet hin, hin⟩)
      simp only [decide_eq_true_eq] at hjoin
      simp [hjoin] at hph
    refine ⟨hidle, ?_⟩
    rw [Glexon.core_congr (Glexon.wr_cores _ _ _)]
    obtain h | h := g.foldl_doze_core cyc set n
    · exact (congrArg Core.works h).trans hidle
    · exact Bool.and_eq_false_iff.2 (.inl h)
  next => exact .inl rfl

/-- The barrier changes no core that works. -/
theorem Glexon.barrier_works (cyc n : Nat) : ((g.barrier cyc).core n).works = (g.core n).works := by
  obtain h | h := g.barrier_cases cyc
  · rw [h]
  · rw [(h n).1, (h n).2]

theorem Glexon.barrier_core_of_works {cyc n : Nat} (hw : ((g.barrier cyc).core n).works = true) :
    (g.barrier cyc).core n = g.core n := by
  obtain h | h := g.barrier_cases cyc
  · rw [h]
  · rw [(h n).2] at hw
    cases hw

theorem Glexon.barrier_keepsRoles (cyc : Nat) : g.KeepsRoles (g.barrier cyc) := by
  unfold Glexon.barrier
  extract_lets set g1
  split
  · exact (KeepsRoles.foldl (fun x e => x.doze_keepsRoles cyc e) set g).wr _
      (not_offCores_of_block (by decide) (by decide))
  · exact .refl g

/-! ### A core at TDEAD (R202, R226, R227) -/

theorem Glexon.core_setCore_self (n m : Nat) : (g.setCore n (g.core n)).core m = g.core m := by
  by_cases hm : m = n
  · rw [hm, Glexon.core_setCore_same]
  · exact Glexon.core_setCore_other _ _ _ _ hm

/-- With no result of a core on its way, its cycles pass and nothing lands. -/
theorem Glexon.advance_idle {n : Nat} (cyc : Nat) (h : (g.core n).flight = []) :
    g.KeepsRoles (g.advance n cyc) ∧ ∀ m, (g.advance n cyc).core m = g.core m := by
  have hk : ({ g.core n with flight := [] } : Core) = g.core n := by rw [← h]
  have hadv : g.advance n cyc = (g.setCore n (g.core n)).setCore n ((g.setCore n (g.core n)).core n) := by
    simp [Glexon.advance, h, hk]
  rw [hadv]
  exact ⟨.of_eq rfl rfl rfl, fun m => (Glexon.core_setCore_self _ n m).trans (g.core_setCore_self n m)⟩

/-- Cancelled operations lose their core's memory and tiles: nothing that the roles read, and no other core. -/
theorem Glexon.cancelOps_keeps (n : Nat) : g.KeepsRoles (g.cancelOps n) ∧ ∀ m, m ≠ n → (g.cancelOps n).core m = g.core m := by
  unfold Glexon.cancelOps
  extract_lets k lost g2
  have hroles : g.KeepsRoles g2 := by
    refine KeepsRoles.foldl (fun x r => ?_) lost g
    exact .of_eq rfl rfl rfl
  have hcores : g2.cores = g.cores := by
    refine foldl_keep Glexon.cores _ (fun x r => ?_) lost g
    rfl
  exact ⟨hroles.trans (.of_eq rfl rfl rfl), fun m hm =>
    (Glexon.core_setCore_other _ _ _ _ hm).trans (Glexon.core_congr hcores m)⟩

/-- The bit of a core in ABORTMASK. -/
def abortBit (n : Nat) : BitVec 24 := BitVec.ofNat 24 (2 ^ n)

theorem bit_or_abortBit (m : BitVec 24) {n i : Nat} (hi : i < 24) : bit (m ||| abortBit n) i = (bit m i || decide (i = n)) := by
  rw [bit, bit, BitVec.getLsbD_or, abortBit, BitVec.getLsbD_ofNat, Nat.testBit_two_pow]
  simp [hi, eq_comm]

/-- A core that aborts at the deadline enters ABORTMASK, and no other core changes; then the barrier may be complete. -/
theorem Glexon.abortCore_deadline {n : Nat} (hn : n < 24) (slot pc cyc : Nat) :
    ∃ h, g.abortCore n cDEADLINE slot pc cyc none 0 = h.barrier cyc ∧
      Glexon.KeepsRoles { g with abortMask := g.abortMask ||| abortBit n } h ∧
      ∀ m, m ≠ n → h.core m = g.core m := by
  unfold Glexon.abortCore
  extract_lets tick g1 g2 g3 g4 g5 g6 g7 g8 g9
  have h8 : g8 = g7 := if_neg (by decide)
  have h9 : g9 = g8 := if_pos rfl
  have hroles : Glexon.KeepsRoles { g with abortMask := g.abortMask ||| abortBit n } g9 := by
    rw [h9, h8]
    refine .wr (.wr (.wr (.wr (.rolesPart ?_ _) _ ?_) _ ?_) _ ?_) _ ?_
    · exact .of_eq rfl rfl rfl
    all_goals
      refine not_offCores_of_block ?_ ?_
      all_goals
        simp only [Reg.MC_CORE_STAT, Reg.MC_FAULT_INFO, Reg.MC_FAULT_TICK, Reg.MC_FAULT_CNT]
        omega
  have hcores : g9.cores = g1.cores := by
    rw [h9, h8]
    exact Glexon.rolesPart_cores _ _
  have hcore (m : Nat) : ((g9.count 1 n 6 1).trcAbort n cDEADLINE pc (g9.pulse + cyc)).core m = g1.core m :=
    Glexon.core_congr (by simp [hcores]) m
  refine ⟨_, rfl, (hroles.count _ _ _ _).trcAbort _ _ _ _, fun m hm => ?_⟩
  exact (hcore m).trans (Glexon.core_setCore_other _ _ _ _ hm)

end

/-! ### The cores at TDEAD, one after another -/

/-- What TDEAD brings to core `n`: a core that works aborts, and an aborted core's operations are cancelled. -/
def Glexon.passDeadline (g : Glexon) (n : Nat) : Glexon :=
  let k := g.core n
  if k.inSet ∧ (k.phase = .issuing ∨ k.phase = .idle) then g.deadlineAbort n
  else if k.phase = .aborted ∧ (k.ops ≠ [] ∨ k.far ≠ []) then g.cancelOps n else g

theorem Glexon.coresDeadline_eq (g : Glexon) : g.coresDeadline = (List.range 24).foldl Glexon.passDeadline g := rfl

/-- Core `n` has passed TDEAD: ABORTMASK takes it if it worked, and each other core works as before, untouched if it does. -/
structure Glexon.PassedDeadline (g h : Glexon) (n : Nat) : Prop where
  roles : Glexon.KeepsRoles { g with abortMask := if (g.core n).works then g.abortMask ||| abortBit n else g.abortMask } h
  works : ∀ m, m ≠ n → (h.core m).works = (g.core m).works
  core : ∀ m, m ≠ n → (h.core m).works = true → h.core m = g.core m

/-- A core that works with no open bundle and no result on its way aborts. -/
theorem Glexon.deadlineAbort_passed {g : Glexon} {n : Nat} (hn : n < 24) (hw : (g.core n).works = true)
    (hopen : (g.core n).isOpen = false) (hfl : (g.core n).flight = []) : g.PassedDeadline (g.deadlineAbort n) n := by
  have hclose : g.closeBundle n = g := by simp [Glexon.closeBundle, hopen]
  simp only [Glexon.deadlineAbort, hclose]
  obtain ⟨hadv, hadvCore⟩ := g.advance_idle g.tdead hfl
  obtain ⟨hcancel, hcancelCore⟩ := (g.advance n g.tdead).cancelOps_keeps n
  obtain ⟨h, habort, hroles, hcore⟩ := ((g.advance n g.tdead).cancelOps n).abortCore_deadline hn 0
    ((g.advance n g.tdead).core n).npc g.tdead
  have hother (m : Nat) (hm : m ≠ n) : h.core m = g.core m := (hcore m hm).trans ((hcancelCore m hm).trans (hadvCore m))
  rw [habort]
  refine ⟨?_, fun m hm => ?_, fun m hm hwm => ?_⟩
  · rw [if_pos hw]
    exact (((hadv.trans hcancel).withMask (· ||| abortBit n)).trans hroles).trans (h.barrier_keepsRoles _)
  · rw [h.barrier_works, hother m hm]
  · rw [h.barrier_core_of_works hwm, hother m hm]

/-- TDEAD comes to a core that has no open bundle and no result on its way, if it works. -/
theorem Glexon.passDeadline_passed {g : Glexon} {n : Nat} (hn : n < 24)
    (hrest : (g.core n).works = true → (g.core n).isOpen = false ∧ (g.core n).flight = []) :
    g.PassedDeadline (g.passDeadline n) n := by
  have hworks : (g.core n).works = true ↔ (g.core n).inSet ∧ ((g.core n).phase = .issuing ∨ (g.core n).phase = .idle) := by
    simp [Core.works]
  unfold Glexon.passDeadline
  dsimp only
  split_ifs with hw hab
  · obtain ⟨hopen, hfl⟩ := hrest (hworks.2 hw)
    exact Glexon.deadlineAbort_passed hn (hworks.2 hw) hopen hfl
  · obtain ⟨hroles, hcore⟩ := g.cancelOps_keeps n
    refine ⟨?_, fun m hm => by rw [hcore m hm], fun m hm _ => hcore m hm⟩
    rwa [if_neg (mt hworks.1 hw)]
  · refine ⟨?_, fun _ _ => rfl, fun _ _ _ => rfl⟩
    rw [if_neg (mt hworks.1 hw)]
    exact .refl g

/-- TDEAD comes to some cores: ABORTMASK takes those that worked, and the roles find the rest as it was. -/
theorem Glexon.foldl_passDeadline (l : List Nat) (hnd : l.Nodup) (hlt : ∀ n ∈ l, n < 24) (g : Glexon)
    (hrest : ∀ n ∈ l, (g.core n).works = true → (g.core n).isOpen = false ∧ (g.core n).flight = []) :
    (l.foldl Glexon.passDeadline g).tk = g.tk ∧
      (∀ k < 4, (l.foldl Glexon.passDeadline g).roleOn k = g.roleOn k) ∧
      ∀ m < 24, bit (l.foldl Glexon.passDeadline g).abortMask m = (bit g.abortMask m || (decide (m ∈ l) && (g.core m).works)) := by
  induction l generalizing g with
  | nil => simp
  | cons n l ih =>
    obtain ⟨hnl, hnd⟩ := List.nodup_cons.1 hnd
    have hne {m : Nat} (hm : m ∈ l) : m ≠ n := fun e => hnl (e ▸ hm)
    obtain ⟨hroles, hworks, hcore⟩ := g.passDeadline_passed (hlt n List.mem_cons_self) (hrest n List.mem_cons_self)
    obtain ⟨htk, hon, hmask⟩ := ih hnd (fun m hm => hlt m (List.mem_cons_of_mem _ hm)) (g.passDeadline n) fun m hm hw => by
      rw [hcore m (hne hm) hw]
      exact hrest m (List.mem_cons_of_mem _ hm) (by rwa [← hworks m (hne hm)])
    refine ⟨htk.trans hroles.tk, fun k hk => (hon k hk).trans (hroles.roleOn hk), fun m hm => ?_⟩
    have hbit : bit (g.passDeadline n).abortMask m = (bit g.abortMask m || (decide (m = n) && (g.core n).works)) := by
      rw [hroles.mask]
      dsimp only
      split_ifs with hw
      · rw [bit_or_abortBit _ hm, hw, Bool.and_true]
      · rw [Bool.not_eq_true] at hw
        rw [hw, Bool.and_false, Bool.or_false]
    rw [List.foldl_cons, hmask m hm, hbit]
    by_cases hmn : m = n
    · subst hmn
      simp [hnl]
    · simp [hmn, hworks m hmn]

/-- R22, R202, R226: at the deadline of the cores, if none has an open bundle or a result on its way, ABORTMASK takes those that
work. -/
theorem Glexon.coresDeadline_idle {g : Glexon} (h : ∀ n < 24, (g.core n).isOpen = false ∧ (g.core n).flight = []) :
    g.coresDeadline.tk = g.tk ∧ (∀ k < 4, g.coresDeadline.roleOn k = g.roleOn k) ∧
      ∀ m < 24, bit g.coresDeadline.abortMask m = (bit g.abortMask m || (g.core m).works) := by
  obtain ⟨htk, hon, hmask⟩ := Glexon.foldl_passDeadline (List.range 24) List.nodup_range (fun n hn => List.mem_range.1 hn) g
    fun n hn _ => h n (List.mem_range.1 hn)
  refine ⟨htk, hon, fun m hm => ?_⟩
  rw [Glexon.coresDeadline_eq, hmask m hm, decide_eq_true (List.mem_range.2 hm), Bool.true_and]

/-- Without a role, the work deadline is that of the cores alone. -/
theorem exec_workDeadline_noRole {s : State} (hs : s.gx.coreUp = true) (ht : s.gx.tk.ticking = true)
    (hoff : ∀ k < 4, s.gx.coresDeadline.roleOn k = false) : exec .workDeadline s = .next { s with gx := s.gx.coresDeadline } := by
  change execWorkDeadline s = _
  have hrange : List.range 4 = [0, 1, 2, 3] := rfl
  simp [execWorkDeadline, onCore_runs _ _ hs, ht, hrange, hoff]

/-! ### Fields of a register -/

/-- A field that is replaced holds the new bits, and every other bit stays. -/
theorem testBit_putFldN (n lo len v i : Nat) : (putFldN n lo len v).testBit i =
    if lo ≤ i ∧ i < lo + len then v.testBit (i - lo) else n.testBit i := by
  have hsplit : putFldN n lo len v = 2 ^ lo * (2 ^ len * (n >>> lo >>> len) + v % 2 ^ len) + n % 2 ^ lo := by
    have hlow := Nat.div_add_mod n (2 ^ lo)
    have hfld := Nat.div_add_mod (n / 2 ^ lo) (2 ^ len)
    simp only [putFldN, fldN, Nat.shiftRight_eq_div_pow, Nat.shiftLeft_eq]
    generalize n / 2 ^ lo / 2 ^ len = a at *
    generalize n / 2 ^ lo % 2 ^ len = f at *
    rw [← hfld] at hlow
    rw [mul_comm f, mul_comm (v % _), Nat.mul_add] at *
    omega
  rw [hsplit, Nat.testBit_two_pow_mul_add _ (Nat.mod_lt _ (by positivity)),
    Nat.testBit_two_pow_mul_add _ (Nat.mod_lt _ (by positivity)), Nat.testBit_mod_two_pow, Nat.testBit_mod_two_pow,
    Nat.testBit_shiftRight, Nat.testBit_shiftRight]
  by_cases hlo : i < lo
  · simp [hlo, Nat.not_le.2 hlo]
  · by_cases hhi : i - lo < len
    · simp [hlo, hhi, show lo ≤ i ∧ i < lo + len by omega]
    · simp [hlo, hhi, show ¬(lo ≤ i ∧ i < lo + len) by omega, show lo + (len + (i - lo - len)) = i by omega]

theorem testBit_putFld (w : Word) (lo len v : Nat) {i : Nat} (hi : i < 64) : (putFld w lo len v).toNat.testBit i =
    if lo ≤ i ∧ i < lo + len then v.testBit (i - lo) else w.toNat.testBit i := by
  rw [putFld, BitVec.toNat_ofNat, Nat.testBit_mod_two_pow, decide_eq_true hi, Bool.true_and, testBit_putFldN]

theorem fld_putFld_same (w : Word) {lo len : Nat} (v : Nat) (h : lo + len ≤ 64) : fld (putFld w lo len v) lo len = v % 2 ^ len := by
  refine Nat.eq_of_testBit_eq fun i => ?_
  by_cases hi : i < len
  · rw [fld, testBit_fldN _ _ _ _ hi, testBit_putFld _ _ _ _ (by omega), if_pos (by omega), Nat.testBit_mod_two_pow]
    simp [hi]
  · simp [fld, fldN, hi]

theorem fld_putFld_other (w : Word) {lo len lo' len' : Nat} (v : Nat) (h : lo' + len' ≤ lo ∨ lo + len ≤ lo')
    (h' : lo' + len' ≤ 64) : fld (putFld w lo len v) lo' len' = fld w lo' len' := by
  refine Nat.eq_of_testBit_eq fun i => ?_
  by_cases hi : i < len'
  · rw [fld, fld, testBit_fldN _ _ _ _ hi, testBit_fldN _ _ _ _ hi, testBit_putFld _ _ _ _ (by omega), if_neg (by omega)]
  · simp [fld, fldN, hi]

/-! ### A fabric port goes down (R508, R509) -/

/-- A port has no lanes exactly when none passes training. -/
theorem lanesOf_eq_zero_iff (m : BitVec 4) : lanesOf m = 0 ↔ m = 0 := by
  revert m
  decide

section
variable (g : Glexon)

/-- What moving one role slot off port `p` to port `q` does (R509). -/
def Glexon.moveRole (p q : Nat) (g : Glexon) (k : Nat) : Glexon :=
  if g.roleSet k ∧ g.rolePort k = p then
    (g.wr Reg.TS_ROLE_PORT (putFld (g.rd Reg.TS_ROLE_PORT) (4 * k) 3 q)).event 0x0548 31 [word k, word p, word q]
  else g

/-- Firmware moves the slots to the port `q` that is the lowest one up. -/
theorem Glexon.moveRoles_to {p q : Nat} (hq : (List.range 8).find? (fun q => SMap.get 0 g.portLanes q ≠ 0) = some q)
    (hfw : g.fwOn = true) : g.moveRoles p = (List.range 4).foldl (Glexon.moveRole p q) g := by
  unfold Glexon.moveRoles
  rw [hq]
  dsimp only
  rw [if_pos hfw]
  rfl

/-- Moving a slot touches no pending value, and no register but TS_ROLE_PORT and the recorder's. -/
theorem Glexon.roleSet_moveRole (p q k : Nat) {j : Nat} (hj : j < 4) : (g.moveRole p q k).roleSet j = g.roleSet j := by
  unfold Glexon.moveRole
  split
  · have hport : Reg.RE_ROLE_CFG j ≠ Reg.TS_ROLE_PORT := by simp only [Reg.RE_ROLE_CFG, Reg.TS_ROLE_PORT]; omega
    have hev : Reg.RE_ROLE_CFG j ≠ Reg.MG_EVR_STAT := by simp only [Reg.RE_ROLE_CFG, Reg.MG_EVR_STAT]; omega
    simp [Glexon.roleSet, Glexon.roleCfg, Glexon.rwtRd, Glexon.rd_event _ _ _ _ _ hev, Glexon.rd_wr_other _ _ _ _ hport]
  · rfl

/-- A slot that is set and on port `p` is on port `q` once it is moved; no other slot's port changes. -/
theorem Glexon.rolePort_moveRole {p q k j : Nat} (hk : k < 4) (hj : j < 4) (hq : q < 8) : (g.moveRole p q k).rolePort j =
    if j = k ∧ g.roleSet k = true ∧ g.rolePort k = p then q else g.rolePort j := by
  unfold Glexon.moveRole
  split_ifs with hmove hall hall
  · rw [hall.1, Glexon.rolePort, Glexon.rd_event _ _ _ _ _ (by decide), Glexon.rd_wr_same, fld_putFld_same _ _ (by omega)]
    exact Nat.mod_eq_of_lt hq
  · have hjk : j ≠ k := fun e => hall ⟨e, hmove⟩
    rw [Glexon.rolePort, Glexon.rd_event _ _ _ _ _ (by decide), Glexon.rd_wr_same, fld_putFld_other _ _ (by omega) (by omega)]
    rfl
  · exact absurd hall.2 hmove
  · rfl

/-- Some slots are moved: those that are set and on port `p`. -/
theorem Glexon.foldl_moveRole {p q : Nat} (hq : q < 8) (l : List Nat) (hnd : l.Nodup) (hl : ∀ k ∈ l, k < 4) {j : Nat} (hj : j < 4) :
    (l.foldl (Glexon.moveRole p q) g).rolePort j =
      if j ∈ l ∧ g.roleSet j = true ∧ g.rolePort j = p then q else g.rolePort j := by
  induction l generalizing g with
  | nil => simp
  | cons k l ih =>
    obtain ⟨hkl, hnd⟩ := List.nodup_cons.1 hnd
    rw [List.foldl_cons, ih _ hnd fun i hi => hl i (List.mem_cons_of_mem _ hi), g.roleSet_moveRole p q k hj,
      g.rolePort_moveRole (hl k List.mem_cons_self) hj hq]
    by_cases hjk : j = k
    · subst hjk
      simp [hkl]
    · simp [hjk]

theorem Glexon.moveRoles_mem (p : Nat) : (g.moveRoles p).mem = g.mem := by
  unfold Glexon.moveRoles
  split
  · rfl
  · split
    · exact foldl_keep Glexon.mem _ (fun x k => by split <;> simp) _ _
    · rfl

theorem Glexon.moveRoles_portLanes (p : Nat) : (g.moveRoles p).portLanes = g.portLanes := by
  unfold Glexon.moveRoles
  split
  · rfl
  · split
    · exact foldl_keep Glexon.portLanes _ (fun x k => by split <;> simp) _ _
    · rfl

/-- HOLDOVER changes the time's registers alone: no lane and no role's port (R73). -/
theorem Glexon.enterHoldover_keepsPorts (c : Nat) :
    (g.enterHoldover c).portLanes = g.portLanes ∧ ∀ k, (g.enterHoldover c).rolePort k = g.rolePort k := by
  unfold Glexon.enterHoldover
  extract_lets l g1
  have h1 : g1.portLanes = g.portLanes ∧ g1.rd Reg.TS_ROLE_PORT = g.rd Reg.TS_ROLE_PORT := by
    unfold g1
    split
    · exact ⟨rfl, rfl⟩
    · exact ⟨rfl, Glexon.rd_wr_other _ _ _ _ (by decide)⟩
  clear_value g1
  split
  · exact ⟨rfl, fun _ => rfl⟩
  · refine ⟨(Glexon.event_portLanes _ _ _ _).trans h1.1, fun k => ?_⟩
    have hrd := (Glexon.rd_event g1 0x0102 34 Reg.TS_ROLE_PORT [word c] (by decide)).trans h1.2
    exact congrArg (fld · (4 * k) 3) hrd

end

section
variable (g : Glexon)

theorem Glexon.setLanes_get_same (p n : Nat) : SMap.get 0 (g.setLanes p n).portLanes p = n := SMap.get_put_same _ _ _ _

theorem Glexon.setLanes_get_other {p q : Nat} (n : Nat) (h : q ≠ p) :
    SMap.get 0 (g.setLanes p n).portLanes q = SMap.get 0 g.portLanes q := SMap.get_put_other _ _ _ _ _ h

/-- A port has lost its last lane, and the loss is told. -/
def Glexon.fabricLost (p : Nat) : Glexon := (g.setLanes p 0).event 0x0303 31 [word p]

/-- A port goes down, and firmware moves its roles. -/
def Glexon.fabricDown (p : Nat) : Glexon := (g.fabricLost p).moveRoles p

@[simp] theorem Glexon.fabricLost_mem (p : Nat) : (g.fabricLost p).mem = g.mem := Glexon.event_mem _ _ _ _

@[simp] theorem Glexon.fabricLost_portLanes (p : Nat) : (g.fabricLost p).portLanes = (g.setLanes p 0).portLanes :=
  Glexon.event_portLanes _ _ _ _

theorem Glexon.fabricLost_fwOn (p : Nat) : (g.fabricLost p).fwOn = g.fwOn := by
  obtain h | ⟨x, h⟩ := (g.setLanes p 0).event_mg 0x0303 31 [word p] <;> simp [Glexon.fabricLost, Glexon.fwOn, h]

/-- The loss touches no register but the recorder's. -/
theorem Glexon.fabricLost_rd (p : Nat) {a : Nat} (h : a ≠ Reg.MG_EVR_STAT) : (g.fabricLost p).rd a = g.rd a :=
  Glexon.rd_event _ _ _ _ _ h

theorem Glexon.fabricLost_roleSet (p : Nat) {k : Nat} (hk : k < 4) : (g.fabricLost p).roleSet k = g.roleSet k := by
  have hev : Reg.RE_ROLE_CFG k ≠ Reg.MG_EVR_STAT := by simp only [Reg.RE_ROLE_CFG, Reg.MG_EVR_STAT]; omega
  have hrwt : (g.fabricLost p).rwt = g.rwt := Glexon.event_rwt _ _ _ _
  simp only [Glexon.roleSet, Glexon.roleCfg, Glexon.rwtRd, g.fabricLost_rd p hev, hrwt]

theorem Glexon.fabricLost_rolePort (p k : Nat) : (g.fabricLost p).rolePort k = g.rolePort k :=
  congrArg (fld · (4 * k) 3) (g.fabricLost_rd p (by decide))

/-- The lowest port up but for the one that is lost is the lowest one up after the loss. -/
theorem Glexon.fabricLost_lowest {g : Glexon} {p q : Nat} (hq : q < 8) (hqp : q ≠ p) (hup : SMap.get 0 g.portLanes q ≠ 0)
    (hlow : ∀ x < q, x ≠ p → SMap.get 0 g.portLanes x = 0) :
    (List.range 8).find? (fun x => SMap.get 0 (g.fabricLost p).portLanes x ≠ 0) = some q := by
  rw [Glexon.fabricLost_portLanes, List.find?_range_eq_some]
  refine ⟨by simpa [g.setLanes_get_other 0 hqp] using hup, List.mem_range.2 hq, fun x hx => ?_⟩
  by_cases hxp : x = p
  · simp [hxp, g.setLanes_get_same]
  · simp [g.setLanes_get_other 0 hxp, hlow x hx hxp]

end

theorem Glexon.fabricDown_portLanes (g : Glexon) (p : Nat) : (g.fabricDown p).portLanes = (g.setLanes p 0).portLanes := by
  simp [Glexon.fabricDown, Glexon.moveRoles_portLanes]

theorem Glexon.fabricDown_mem (g : Glexon) (p : Nat) : (g.fabricDown p).mem = g.mem := by
  simp [Glexon.fabricDown, Glexon.moveRoles_mem]

/-- The roles of a port that goes down are on the lowest port that is up, if firmware runs and there is one. -/
theorem Glexon.fabricDown_rolePort {g : Glexon} {p q k : Nat} (hfw : g.fwOn = true) (hq : q < 8) (hqp : q ≠ p)
    (hup : SMap.get 0 g.portLanes q ≠ 0) (hlow : ∀ x < q, x ≠ p → SMap.get 0 g.portLanes x = 0) (hk : k < 4)
    (hset : g.roleSet k = true) : (g.fabricDown p).rolePort k = if g.rolePort k = p then q else g.rolePort k := by
  rw [Glexon.fabricDown, Glexon.moveRoles_to _ (Glexon.fabricLost_lowest hq hqp hup hlow) ((g.fabricLost_fwOn p).trans hfw),
    Glexon.foldl_moveRole _ hq _ List.nodup_range (fun i hi => List.mem_range.1 hi) hk, g.fabricLost_roleSet p hk,
    g.fabricLost_rolePort]
  simp [hset, hk]

/-- R508: with a lane left, the port runs at the widest width that passes. -/
theorem exec_fabricLaneFail_narrows {s : State} {p : BitVec 3} {m : BitVec 4} (hs : s.gx.coreUp = true)
    (hl : SMap.get 0 s.gx.portLanes p.toNat ≠ 0) (hm : m ≠ 0) : exec (.fabricLaneFail p m) s = .next { s with
      gx := (s.gx.setLanes p.toNat (lanesOf m)).event 0x0302 31 [word p.toNat, word (lanesOf m)] } := by
  change execFabricLaneFail p m s = _
  simp [execFabricLaneFail, onCore_runs _ _ hs, hl, mt (lanesOf_eq_zero_iff m).1 hm]

/-- R508: with none left, the port goes down, and a clock that was locked over it is in HOLDOVER. -/
theorem exec_fabricLaneFail_down {s : State} {p : BitVec 3} (hs : s.gx.coreUp = true)
    (hl : SMap.get 0 s.gx.portLanes p.toNat ≠ 0) : ∃ g, exec (.fabricLaneFail p 0) s = .next { s with gx := g } ∧
      (g = s.gx.fabricDown p.toNat ∨ g = (s.gx.fabricDown p.toNat).enterHoldover 0) := by
  refine ⟨_, (onCore_runs _ _ hs : execFabricLaneFail p 0 s = _), ?_⟩
  have h0 : lanesOf 0 = 0 := rfl
  simp only [hl, h0, if_false, if_true]
  split
  · exact .inr rfl
  · exact .inl rfl

/-- Either way the lanes are none and the roles' ports are those of the port that went down. -/
theorem Glexon.fabricDown_or_holdover {g h : Glexon} {p : Nat} (hh : h = g.fabricDown p ∨ h = (g.fabricDown p).enterHoldover 0) :
    h.mem = g.mem ∧ h.portLanes = (g.setLanes p 0).portLanes ∧ ∀ k, h.rolePort k = (g.fabricDown p).rolePort k := by
  obtain rfl | rfl := hh
  · exact ⟨g.fabricDown_mem p, g.fabricDown_portLanes p, fun _ => rfl⟩
  · obtain ⟨hl, hp⟩ := (g.fabricDown p).enterHoldover_keepsPorts 0
    exact ⟨((g.fabricDown p).enterHoldover_keeps 0).1.trans (g.fabricDown_mem p), hl.trans (g.fabricDown_portLanes p), hp⟩

/-! ### A fabric port comes up (R508) -/

/-- A port that comes up has its lanes, and its virtual time and tags begin at 0. -/
def Glexon.fabricUp (g : Glexon) (p n : Nat) : Glexon :=
  let e := g.egress p
  let e1 : Egress := { e with v := 0, qs := e.qs.map fun x => (x.1, { x.2 with
    fLast := 0, tag := match x.2.frames with
      | f :: _ => g.wfqTag x.1 0 f.len
      | [] => 0 }) }
  ((((g.setLanes p n).setEgress p e1).event 0x0301 31 [word p, word n]).buDone 2).mapPhase

theorem exec_fabricPortUp_up {s : State} {p : BitVec 3} {m : BitVec 4} (hs : s.gx.coreUp = true) (hm : m ≠ 0) :
    exec (.fabricPortUp p m) s = .next { s with gx := s.gx.fabricUp p.toNat (lanesOf m) } := by
  have hn : lanesOf m ≠ 0 := mt (lanesOf_eq_zero_iff m).1 hm
  refine (onCore_runs _ _ hs : execFabricPortUp p m s = _).trans ?_
  exact congrArg (fun g => Host.Outcome.next { s with gx := g }) (if_neg hn)

/-- The map phase of bring-up touches a register alone. -/
theorem Glexon.mapPhase_keeps (g : Glexon) :
    g.mapPhase.mem = g.mem ∧ g.mapPhase.portLanes = g.portLanes ∧ g.mapPhase.ts = g.ts := by
  unfold Glexon.mapPhase
  split <;> simp

theorem Glexon.fabricUp_keeps (g : Glexon) (p n : Nat) : (g.fabricUp p n).mem = g.mem ∧
    (g.fabricUp p n).portLanes = (g.setLanes p n).portLanes ∧ ((g.fabricUp p n).egress p).v = 0 ∧
    ∀ q, q ≠ p → (g.fabricUp p n).egress q = g.egress q := by
  unfold Glexon.fabricUp
  extract_lets e e1
  obtain ⟨hmem, hlanes, hts⟩ := Glexon.mapPhase_keeps ((((g.setLanes p n).setEgress p e1).event 0x0301 31 [word p, word n]).buDone 2)
  rw [Glexon.buDone_mem, Glexon.event_mem] at hmem
  rw [Glexon.buDone_portLanes, Glexon.event_portLanes] at hlanes
  rw [Glexon.buDone_ts, Glexon.event_ts] at hts
  refine ⟨hmem, hlanes, ?_, fun q hq => ?_⟩
  · rw [Glexon.egress, hts]
    exact congrArg Egress.v (SMap.get_put_same _ _ _ _)
  · rw [Glexon.egress, hts]
    exact SMap.get_put_other _ _ _ _ _ hq

/-- Settles O60: the cores at TDEAD one after another, and the fabric ports' rules above. -/
theorem deadlinesAndFabricPorts : Obligations.DeadlinesAndFabricPorts := by
  intro s hs
  refine ⟨fun ht => ?_, fun ht hoff hidle => ?_, fun p m hl => ?_, fun p m hm => ?_⟩
  · change execWorkDeadline s = _
    simp [execWorkDeadline, onCore_runs _ _ hs, ht]
  · obtain ⟨htk, hon, hmask⟩ := Glexon.coresDeadline_idle hidle
    have hoff' (k : Nat) (hk : k < 4) : s.gx.coresDeadline.roleOn k = false := (hon k hk).trans (hoff k hk)
    exact ⟨_, exec_workDeadline_noRole hs ht hoff', rfl, htk, hmask⟩
  · by_cases hm : m = 0
    · subst hm
      obtain ⟨g, hexec, hg⟩ := exec_fabricLaneFail_down hs hl
      obtain ⟨hmem, hlanes, hport⟩ := Glexon.fabricDown_or_holdover hg
      refine ⟨_, hexec, rfl, hmem, ?_, fun q hq => ?_, fun h => absurd rfl h, fun _ hfw q hq hqp hup hlow k hk hset => ?_⟩
      · rw [hlanes, Glexon.setLanes_get_same]
        rfl
      · rw [hlanes, Glexon.setLanes_get_other _ _ hq]
      · exact (hport k).trans (Glexon.fabricDown_rolePort hfw hq hqp hup hlow hk hset)
    · refine ⟨_, exec_fabricLaneFail_narrows hs hl hm, rfl, Glexon.event_mem _ _ _ _, ?_, fun q hq => ?_,
        fun _ => Glexon.rd_event _ _ _ _ _ (by decide), fun h => absurd h hm⟩
      · rw [Glexon.event_portLanes, Glexon.setLanes_get_same]
      · rw [Glexon.event_portLanes, Glexon.setLanes_get_other _ _ hq]
  · obtain ⟨hmem, hlanes, hv, hother⟩ := s.gx.fabricUp_keeps p.toNat (lanesOf m)
    refine ⟨_, exec_fabricPortUp_up hs hm, rfl, hmem, ?_, hv, fun q hq => ?_, hother⟩
    · rw [hlanes, Glexon.setLanes_get_same]
    · rw [hlanes, Glexon.setLanes_get_other _ _ hq]

end Sys2Proof.Machine
end

section
/-! PROOFS. The addend, and reads of the local time (R49, R50). -/

namespace Sys2Proof.Machine

/-! ### The addend (R49) -/

/-- An addend within ±500 ppm of nominal takes effect as it is. -/
theorem Glexon.setAddend_within (g : Glexon) {v : Nat} (hlo : 5366024766 ≤ v) (hhi : v ≤ 5371393474) :
    g.setAddend v = g.wr Reg.TK_ADDEND (word v) :=
  (if_neg (Nat.not_lt.2 hlo)).trans (if_neg (Nat.not_lt.2 hhi))

/-- One below takes effect as the lower limit. -/
theorem Glexon.setAddend_below (g : Glexon) {v : Nat} (h : v < 5366024766) :
    g.setAddend v = (g.wr Reg.TK_ADDEND (word 5366024766)).event 0x0107 34 [word v] :=
  if_pos h

/-- One above takes effect as the upper limit. -/
theorem Glexon.setAddend_above (g : Glexon) {v : Nat} (h : 5371393474 < v) :
    g.setAddend v = (g.wr Reg.TK_ADDEND (word 5371393474)).event 0x0107 34 [word v] :=
  (if_neg (by simp only [addendNominal, addendMax]; omega)).trans (if_pos h)

/-- The servo owns the addend. -/
theorem exec_tkAddendWrite_servoOn {s : State} (v : Word) (hs : s.gx.coreUp = true) (h : s.gx.servoEn = true) :
    exec (.tkAddendWrite v) s = .next s :=
  (onCore_runs _ s hs : execTkAddendWrite v s = _).trans (by simp [h])

/-- Without the servo, firmware sets it. -/
theorem exec_tkAddendWrite_servoOff {s : State} (v : Word) (hs : s.gx.coreUp = true) (h : s.gx.servoEn = false) :
    exec (.tkAddendWrite v) s = .next { s with gx := s.gx.setAddend (fld v 0 40) } :=
  (onCore_runs _ s hs : execTkAddendWrite v s = _).trans (by simp [h])

/-! ### Reads of the local time (R50) -/

/-- The latch reads as it is stored, and its read changes nothing. -/
theorem Glexon.csrRead_nowSub (g : Glexon) (n : Nat) : g.csrRead n Reg.TK_NOW_SUB = (g.rd Reg.TK_NOW_SUB, g) := rfl

/-- A read of the seconds latches the rest of the instant. -/
theorem Glexon.csrRead_nowSec (g : Glexon) (n : Nat) :
    g.csrRead n Reg.TK_NOW_SEC = (word (secOf g.tk.clk), g.wr Reg.TK_NOW_SUB (word (subOf g.tk.clk))) := rfl

/-- Settles O20: the three ranges of an addend, and the latch of TK_NOW_SUB. -/
theorem addendAndTimeReads : Obligations.AddendAndTimeReads := by
  refine ⟨fun s v hs => ⟨exec_tkAddendWrite_servoOn v hs, fun hoff hlo hhi => ?_, fun hoff h => ?_, fun hoff h => ?_⟩,
    fun s hs => (onCore_runs _ s hs : execTkNowSecRead s = _), fun g n => ⟨g.csrRead_nowSec n, g.csrRead_nowSub n⟩⟩
  · rw [exec_tkAddendWrite_servoOff v hs hoff, s.gx.setAddend_within hlo hhi]
  · rw [exec_tkAddendWrite_servoOff v hs hoff, s.gx.setAddend_below h]
  · rw [exec_tkAddendWrite_servoOff v hs hoff, s.gx.setAddend_above h]

end Sys2Proof.Machine
end

section
/-! PROOFS. Steps, slews, comparators, triggers and captures of the local clock (R51, R68 to R72). -/

namespace Sys2Proof.Machine

/-! ### Steps, slews and the reference (R51, R68) -/

/-- The unit of the local clock's instants, 2⁻³² ns, among the integers. -/
theorem nsUnit_cast : (nsUnit : Int) = 2 ^ 32 := by norm_num [nsUnit]

/-- A step takes effect at once while the clock is not ticking. -/
theorem Glexon.writeStep_still {g : Glexon} (agent : Nat) (v : Word) (h : g.tk.ticking = false) :
    g.writeStep agent v = { g with tk := { g.tk with clk := ((g.tk.clk : Int) + v.toInt * 2 ^ 32).toNat } } := by
  simp [Glexon.writeStep, TimeKeeper.step, h, nsUnit_cast]

/-- While it is ticking the step is refused; agent 31's refusal is counted too. -/
theorem Glexon.writeStep_ticking {g : Glexon} {agent : Nat} (v : Word) (h : g.tk.ticking = true) (ha : agent ≠ 31) :
    g.writeStep agent v = g.event 0x010A 34 [v] := by
  simp [Glexon.writeStep, h, ha]

/-- A slew is held in 2⁻³² ns, whatever is left of the one before. -/
theorem Glexon.writeSlew_eq (g : Glexon) (v : Word) :
    g.writeSlew v = { g with tk := { g.tk with slew := v.toInt * 2 ^ 32 } } := by
  rw [Glexon.writeSlew, nsUnit_cast]

/-- A TK_CFG write that leaves the servo on: MODE stands, and REF_SEL gives the reference. -/
theorem Glexon.writeTkCfg_servoOn (g : Glexon) {v : Word} (h : bit v 0 = true) :
    g.writeTkCfg v = { (g.wr Reg.TK_CFG (v &&& 3)) with tk := { g.tk with refOk := bit v 1 } } := by
  simp [Glexon.writeTkCfg, h]

/-- One that turns it off makes MODE FREE. -/
theorem Glexon.writeTkCfg_servoOff (g : Glexon) {v : Word} (h : bit v 0 = false) :
    g.writeTkCfg v =
      ({ (g.wr Reg.TK_CFG (v &&& 3)) with tk := { g.tk with refOk := bit v 1 } } : Glexon).setMode .free := by
  simp [Glexon.writeTkCfg, h]

/-! ### Comparators (R69, R70) -/

/-- A bit that is put is read. -/
theorem bit_putBit_same (w : Word) {i : Nat} (b : Bool) (hi : i < 64) : bit (putBit w i b) i = b := by
  change (putFld w i 1 b.toNat).toNat.testBit i = b
  rw [testBit_putFld _ _ _ _ hi]
  cases b <;> simp

/-- A comparator that fires writes its own configuration alone. -/
theorem Glexon.fire_regs (g : Glexon) (k : Nat) :
    (g.fire k).regs = (g.wr (Reg.TK_CMP_CFG k) (putBit (g.rd (Reg.TK_CMP_CFG k)) 59 true)).regs := by
  unfold Glexon.fire
  dsimp only
  split_ifs <;> rfl

/-- It keeps the clock. -/
theorem Glexon.fire_clk (g : Glexon) (k : Nat) : (g.fire k).tk.clk = g.tk.clk := by
  unfold Glexon.fire
  dsimp only
  split_ifs <;> rfl

/-- An unarmed comparator does not fire, nor does a tick-relative one whose offset is beyond the tick. -/
theorem exec_cmpFire_idle {s : State} {k : BitVec 4} (hs : s.gx.tkUp = true)
    (h : SMap.get false s.gx.tk.armed k.toNat = false ∨
      (s.gx.cmpMode k.toNat = 2 ∧ s.gx.pNs ≤ fld (s.gx.rd (Reg.TK_CMP_TIME k.toNat)) 4 30)) :
    exec (.cmpFire k) s = .next s := by
  refine (onTk_runs _ s hs : execCmpFire k s = _).trans ?_
  obtain h | ⟨hmode, hoff⟩ := h
  · simp [h]
  · simp [hmode, hoff]

/-- An armed absolute comparator fires once. -/
theorem exec_cmpFire_absolute {s : State} {k : BitVec 4} (hs : s.gx.tkUp = true)
    (harm : SMap.get false s.gx.tk.armed k.toNat = true) (hmode : s.gx.cmpMode k.toNat = 0) :
    exec (.cmpFire k) s = .next { s with gx := { s.gx.fire k.toNat with
      tk := { (s.gx.fire k.toNat).tk with armed := SMap.put false (s.gx.fire k.toNat).tk.armed k.toNat false } } } :=
  (onTk_runs _ s hs : execCmpFire k s = _).trans (by simp [harm, hmode])

/-- A tick-relative comparator that is enabled is armed; none fires. -/
theorem Glexon.writeCmpCfg_relative (g : Glexon) (k : Nat) {v : Word} (hen : bit v 63 = true) (hmode : fld v 61 2 = 2) :
    g.writeCmpCfg k v =
      { (g.wr (Reg.TK_CMP_CFG k)
          (putBit (v &&& 0xF0FFFFFFFFFFFFFF) 59 (bit (g.rd (Reg.TK_CMP_CFG k)) 59 && !bit v 59))) with
        tk := { g.tk with armed := SMap.put false g.tk.armed k true } } := by
  simp [Glexon.writeCmpCfg, hen, hmode]

/-! ### Captures (R71) -/

/-- A rising edge at an enabled input that captures rising edges and has room is appended. -/
theorem exec_captEdge_appends {s : State} {j : BitVec 2} (hs : s.gx.tkUp = true)
    (hedge : (SMap.get {} s.gx.tk.capt j.toNat).edge = none) (hroom : (SMap.get {} s.gx.tk.capt j.toNat).words.length < 16)
    (hen : bit (s.gx.rd (Reg.TK_CAPT_CFG j.toNat)) 63 = true) (hsel : fld (s.gx.rd (Reg.TK_CAPT_CFG j.toNat)) 61 2 = 0) :
    ∃ (f : CaptFifo) (irq : BitVec 4), exec (.captEdge j true) s = .next { s with gx := { s.gx with
        tk := { s.gx.tk with capt := SMap.put {} s.gx.tk.capt j.toNat f, captIrq := irq } } } ∧
      f.words = (SMap.get {} s.gx.tk.capt j.toNat).words ++
        [captWord (s.gx.tk.clk * 16 / 2 ^ 32 - fld (s.gx.rd (Reg.TK_CAPT_CFG j.toNat)) 0 16)] := by
  refine ⟨_, _, (onTk_runs _ s hs : execCaptEdge j true s = _).trans
    (congrArg (fun g => Host.Outcome.next { s with gx := g }) ((if_neg ?_).trans (if_neg ?_))), rfl⟩
  · simp [hen, hsel]
  · simp only [hedge, not_or, not_le]
    exact ⟨Bool.false_ne_true, hroom⟩

/-- A read of a FIFO with words takes the oldest. -/
theorem Glexon.captRead_word (g : Glexon) {i : Nat} {w : Word} {r : List Word} (h : (SMap.get {} g.tk.capt i).words = w :: r) :
    g.captRead i = { g with
      rdData := w
      tk := { g.tk with capt := SMap.put {} g.tk.capt i { SMap.get {} g.tk.capt i with words := r, last := w } } } := by
  unfold Glexon.captRead
  dsimp only
  rw [h]

/-- A read of an empty one repeats the last word, and notes the underrun. -/
theorem Glexon.captRead_empty (g : Glexon) {i : Nat} (h : (SMap.get {} g.tk.capt i).words = []) :
    g.captRead i = { g with
      rdData := (SMap.get {} g.tk.capt i).last
      tk := { g.tk with capt := SMap.put {} g.tk.capt i { SMap.get {} g.tk.capt i with under := true } } } := by
  unfold Glexon.captRead
  dsimp only
  rw [h]

/-- The core domain runs only while the Time Keeper does. -/
theorem Glexon.tkUp_of_coreUp {g : Glexon} (h : g.coreUp = true) : g.tkUp = true :=
  (Bool.and_eq_true_iff.1 h).1

/-- Settles O21: each write of the local clock, then each comparator, trigger and capture. -/
theorem stepsComparatorsAndCaptures : Obligations.StepsComparatorsAndCaptures := by
  refine ⟨fun s v hs => ⟨fun ht a => ?_, fun ht a ha => ?_, ?_, fun hv => ?_, fun hv => ?_⟩, fun s hs => ?_⟩
  · rw [← Glexon.writeStep_still a.toNat v ht]
    exact (onCore_runs _ s hs : execTkStep a v s = _)
  · rw [← Glexon.writeStep_ticking v ht fun h => ha (BitVec.eq_of_toNat_eq h)]
    exact (onCore_runs _ s hs : execTkStep a v s = _)
  · rw [← Glexon.writeSlew_eq]
    exact (onCore_runs _ s hs : execTkSlew v s = _)
  · refine ⟨_, (onCore_runs _ s hs : execTkRefSelWrite v s = _), ?_⟩
    rw [s.gx.writeTkCfg_servoOn hv]
    exact ⟨Glexon.rd_wr_same _ _ _, rfl, rfl, rfl, rfl, rfl⟩
  · refine ⟨_, (onCore_runs _ s hs : execTkRefSelWrite v s = _), ?_⟩
    rw [s.gx.writeTkCfg_servoOff hv]
    exact ⟨Glexon.rd_wr_same _ _ _, rfl, rfl, rfl, rfl⟩
  · have htk := Glexon.tkUp_of_coreUp hs
    refine ⟨fun k h => exec_cmpFire_idle htk (.inl h), fun k hm hp => exec_cmpFire_idle htk (.inr ⟨hm, hp⟩),
      fun k harm hmode => ?_, fun k v hen hmode => ?_, fun pin => ?_, fun j f hf hedge hroom hen hsel => ?_,
      fun j f hf => ⟨fun w r hw => ?_, fun hw => ?_⟩⟩
    · refine ⟨_, exec_cmpFire_absolute htk harm hmode, ?_, SMap.get_put_same _ _ _ _, s.gx.fire_clk _, (s.gx.fire_keeps _).1, rfl⟩
      have hrd : (s.gx.fire k.toNat).rd (Reg.TK_CMP_CFG k.toNat) = putBit (s.gx.rd (Reg.TK_CMP_CFG k.toNat)) 59 true := by
        rw [Glexon.rd_congr (s.gx.fire_regs k.toNat), Glexon.rd_wr_same]
      exact (congrArg (bit · 59) hrd).trans (bit_putBit_same _ _ (by decide))
    · refine ⟨_, (onCore_runs _ s hs : execComparatorArm k v s = _), ?_⟩
      rw [s.gx.writeCmpCfg_relative k.toNat hen hmode]
      exact ⟨SMap.get_put_same _ _ _ _, fun j hj => SMap.get_put_other _ _ _ _ _ hj, rfl, rfl, rfl⟩
    · exact ⟨_, (onTk_runs _ s htk : execTrigPulseEnd pin s = _), congrArg TrigPin.active (SMap.get_put_same _ _ _ _),
        fun j hj => SMap.get_put_other _ _ _ _ _ hj⟩
    · subst hf
      obtain ⟨f, irq, hexec, hwords⟩ := exec_captEdge_appends htk hedge hroom hen hsel
      refine ⟨_, hexec, rfl, rfl, ?_⟩
      rw [SMap.get_put_same, hwords]
    · subst hf
      rw [← s.gx.captRead_word hw]
      exact (onCore_runs _ s hs : execCaptRead j s = _)
    · subst hf
      rw [← s.gx.captRead_empty hw]
      exact (onCore_runs _ s hs : execCaptRead j s = _)

end Sys2Proof.Machine
end

section
/-! PROOFS. PTP messages (R52, R54, R73): an Announce may cost a LOCKED slave its master, and HOLDOVER then writes a register. -/

namespace Sys2Proof.Machine

/-- The data set of a slave's master: clock 9, of first priority. -/
def masterAnn : PtpAnn :=
  { clock := 9, domain := 0, prio1 := 0, cls := 6, acc := 0x21, var := 0, prio2 := 0, steps := 0 }

/-- The same clock, of last priority. -/
def demotedAnn : PtpAnn := { masterAnn with prio1 := 255 }

/-- A Glexon with the servo on and PTP enabled without SLAVE_ONLY. It is LOCKED to this master, at first with an addend one below
nominal, now with the nominal one. -/
def lockedSlave : State :=
  { bm := Bumas.reset, pending := []
    gx := { ((Glexon.reset.wr Reg.TK_CFG 1).wr Reg.TK_PTP_CFG 0x30CC000001) with
      sysRstN := true
      tk := { mode := .locked, everLocked := true, master := some masterAnn, foreign := [(masterAnn, 2)],
              addends := [(0, 5368709119)] } } }

/-- The Glexon after its master has announced the last priority. -/
def demotedSlave : Glexon :=
  ({ lockedSlave.gx with tk := { lockedSlave.gx.tk with foreign := [(demotedAnn, 3)] } } : Glexon).bmca

/-- The Announce that the master sends it. -/
theorem exec_announce_demoted :
    exec (.ptpAnnounceReceive demotedAnn) lockedSlave = .next { lockedSlave with gx := demotedSlave } := by
  have hcond : lockedSlave.gx.ptpEn ∧ demotedAnn.domain.toNat = fld (lockedSlave.gx.rd Reg.TK_PTP_CFG) 16 8 := by decide +kernel
  exact (onCore_runs _ lockedSlave (by decide) : execPtpAnnounceReceive demotedAnn lockedSlave = _).trans
    (congrArg (fun g => Host.Outcome.next { lockedSlave with gx := g }) (if_pos hcond))

/-- This clock is now the best: it enters HOLDOVER, and its addend freezes at the mean of LOCKED (R52, R73). -/
theorem demotedSlave_addend : demotedSlave.tk.mode = .holdover ∧
    demotedSlave.rd Reg.TK_ADDEND = 5368709119 ∧ lockedSlave.gx.rd Reg.TK_ADDEND = 5368709120 := by
  decide +kernel

/-- Refutes O22: its last clause has an Announce of a foreign clock leave every register alone, whatever the mode. A LOCKED slave
whose master announces a worse data set than its own loses that master by BMCA, and HOLDOVER writes TK_ADDEND. -/
theorem not_ptpMessages : ¬ Obligations.PtpMessages := by
  rintro ⟨-, hmsg⟩
  obtain ⟨-, -, -, -, -, hann⟩ := hmsg lockedSlave (by decide) (by decide +kernel)
  obtain ⟨t, n, hexec, -, -, hregs, -⟩ := hann demotedAnn (by decide +kernel)
  obtain ⟨-, hnew, hold⟩ := demotedSlave_addend
  rw [exec_announce_demoted] at hexec
  injection hexec with ht
  subst ht
  have hsame : demotedSlave.rd Reg.TK_ADDEND = lockedSlave.gx.rd Reg.TK_ADDEND := Glexon.rd_congr hregs _
  rw [hnew, hold] at hsame
  exact absurd hsame (by decide)

end Sys2Proof.Machine
end

section
/-! PROOFS. References lost and found, holdover, and the pulse per second (R52, R66 to R68, R73, R510). -/

namespace Sys2Proof.Machine

/-! ### Holdover (R52, R73) -/

/-- A LOCKED clock that enters HOLDOVER keeps its time, its ticks and its view of the PPS. -/
theorem Glexon.enterHoldover_locked {g : Glexon} (c : Nat) (h : g.tk.mode = .locked) :
    (g.enterHoldover c).tk.mode = .holdover ∧ (g.enterHoldover c).tk.clk = g.tk.clk ∧
      (g.enterHoldover c).tk.ticking = g.tk.ticking ∧ (g.enterHoldover c).tk.ppsOk = g.tk.ppsOk := by
  unfold Glexon.enterHoldover
  rw [if_neg (not_not_intro h)]
  dsimp only
  split_ifs <;> exact ⟨rfl, rfl, rfl, rfl⟩

/-- A clock that is not LOCKED does not enter HOLDOVER. -/
theorem Glexon.enterHoldover_unlocked {g : Glexon} (c : Nat) (h : g.tk.mode ≠ .locked) : g.enterHoldover c = g := if_pos h

/-- The cause is told. -/
theorem Glexon.enterHoldover_events {g : Glexon} (c : Nat) (h : g.tk.mode = .locked) (hroom : g.events.length < 256) :
    ∃ e : EvItem, (g.enterHoldover c).events = g.events ++ [e] ∧ e.code = 0x0102 ∧ e.args = [word c] := by
  unfold Glexon.enterHoldover
  rw [if_neg (not_not_intro h)]
  extract_lets l g1
  have hev : g1.events = g.events := by
    unfold g1
    split_ifs <;> rfl
  obtain ⟨-, -, e, he, hcode, -, hargs⟩ := g1.event_room 0x0102 34 [word c] (hev ▸ hroom)
  exact ⟨e, he.trans (by rw [hev]), hcode, hargs⟩

/-- The choice of a master leaves a clock in HOLDOVER there, with its time and its ticks. -/
theorem Glexon.bmca_holdover {g : Glexon} (h : g.tk.mode = .holdover) :
    g.bmca.tk.mode = .holdover ∧ g.bmca.tk.clk = g.tk.clk ∧ g.bmca.tk.ticking = g.tk.ticking := by
  have hlocked : g.tk.mode ≠ .locked := by rw [h]; decide
  have hfree : g.tk.mode ≠ .free := by rw [h]; decide
  unfold Glexon.bmca
  extract_lets best slaveOnly own t g1 changed g2
  have hown : g1.enterHoldover 1 = g1 := Glexon.enterHoldover_unlocked 1 hlocked
  have hother : ¬(best.isSome ∧ g.servoEn ∧ g.tk.mode = .free) := fun hbest => hfree hbest.2.2
  rw [hown, if_neg hother, ite_self]
  split_ifs <;> exact ⟨h, rfl, rfl⟩

/-- The Glexon without its master, with none of its Announces remembered. -/
def Glexon.masterLost (g : Glexon) : Glexon :=
  { g with tk := { g.tk with
      master := none, lastSeq := none, twoStep := none,
      foreign := g.tk.foreign.filter fun x => decide (some x.1.clock ≠ g.tk.master.map PtpAnn.clock) } }

/-- R52: a LOCKED clock whose master is lost enters HOLDOVER, and then chooses anew. -/
theorem exec_announceReceiptTimeout_up {s : State} (hs : s.gx.tkUp = true) :
    exec .announceReceiptTimeout s = .next { s with gx := (s.gx.masterLost.enterHoldover 1).bmca } :=
  (onTk_runs _ s hs : execAnnounceReceiptTimeout s = _)

/-- The Glexon whose PPS is lost, before it leaves LOCKED. -/
def Glexon.ppsLost (g : Glexon) : Glexon := { (g.event 0x0106 34 []) with tk := { g.tk with ppsOk := false } }

/-- R67: in grandmaster mode a lost PPS is told, and a LOCKED clock enters HOLDOVER. -/
theorem exec_ppsInLost_grandmaster {s : State} (hs : s.gx.tkUp = true) (hgm : s.gx.gmMode = true) :
    exec .ppsInLost s = .next { s with gx := s.gx.ppsLost.enterHoldover 2 } :=
  (onTk_runs _ s hs : execPpsInLost s = _).trans (congrArg (fun g => Host.Outcome.next { s with gx := g }) (if_pos hgm))

/-! ### The pulse per second (R67) -/

/-- Without the servo, a measured offset is kept, and nothing follows from it. -/
theorem Glexon.measure_servoOff {g : Glexon} (off : Int) (h : g.servoEn = false) :
    g.measure off = { g with tk := { g.tk with offset := off, measN := g.tk.measN + 1 } } :=
  if_pos (by simp [h])

/-- Nothing follows a clock that is not LOCKED. -/
theorem Glexon.lockedNow_unlocked {g : Glexon} (h : g.tk.mode ≠ .locked) : g.lockedNow = g := if_neg h

/-- How far the local clock is past a whole second, in 2⁻¹⁶ ns. -/
def Glexon.pastSecond (g : Glexon) : Int := (nsOf g.tk.clk % 1000000000 * 65536 + g.tk.clk % nsUnit / 65536 : Nat)

/-- It lies within its nanosecond. -/
theorem Glexon.pastSecond_bounds (g : Glexon) :
    (nsOf g.tk.clk % 1000000000 * 65536 : Int) ≤ g.pastSecond ∧
      g.pastSecond < (nsOf g.tk.clk % 1000000000 * 65536 : Int) + 65536 := by
  have hfrac : g.tk.clk % nsUnit / 65536 < 65536 :=
    Nat.div_lt_of_lt_mul (Nat.mod_lt _ (by decide))
  unfold Glexon.pastSecond
  omega

/-- In grandmaster mode, an edge in the first half of a second is as late as the clock is past it. -/
theorem Glexon.ppsIn_late {g : Glexon} (hgm : g.gmMode = true) (hx : g.pastSecond < 500000000 * 65536) : g.ppsIn =
    if g.tk.everLocked ∧ (100000 * 65536 < g.pastSecond ∨ g.pastSecond < -(100000 * 65536)) then g.bump Reg.TK_PPS_STAT 1
    else ({ g with tk := { g.tk with ppsOk := true } } : Glexon).measure g.pastSecond := by
  unfold Glexon.ppsIn
  rw [if_neg (not_not_intro hgm)]
  extract_lets x off
  have hoff : off = g.pastSecond := if_pos hx
  rw [hoff]

/-- One more than 100 µs late is ignored and counted once the clock has locked. -/
theorem Glexon.ppsIn_far {g : Glexon} (hgm : g.gmMode = true) (hl : g.tk.everLocked = true)
    (hlo : 100000 < nsOf g.tk.clk % 1000000000) (hhi : nsOf g.tk.clk % 1000000000 < 499999999) :
    g.ppsIn = g.wr Reg.TK_PPS_STAT (satAdd (g.rd Reg.TK_PPS_STAT) 1) := by
  obtain ⟨hge, hlt⟩ := g.pastSecond_bounds
  rw [Glexon.ppsIn_late hgm (by omega), if_pos ⟨hl, .inl (by omega)⟩]
  rfl

/-- A nearer one is taken as a mark. -/
theorem Glexon.ppsIn_near {g : Glexon} (hgm : g.gmMode = true) (hsv : g.servoEn = false)
    (hhi : nsOf g.tk.clk % 1000000000 < 100000) : g.ppsIn =
      { g with tk := { g.tk with ppsOk := true, offset := g.pastSecond, measN := g.tk.measN + 1 } } := by
  obtain ⟨hge, hlt⟩ := g.pastSecond_bounds
  rw [Glexon.ppsIn_late hgm (by omega), if_neg (by omega)]
  exact Glexon.measure_servoOff _ hsv

/-- Settles O23: each reference that is lost, and the edges of the pulse per second. -/
theorem timeReferencesAndThePulse : Obligations.TimeReferencesAndThePulse := by
  refine ⟨fun s hs => ⟨fun hm hroom => ?_, fun hm => ?_, fun hgm hm => ?_, fun hsel hok => ?_, fun hlost ht => ?_⟩,
    fun s hs => ⟨(onTk_runs _ s hs : execPpsOutRise s = _), (onTk_runs _ s hs : execPpsOutFall s = _),
      fun x hgm hl hm hx hlo hhi => ?_, fun hgm hsv hm hhi => ?_⟩⟩
  · obtain ⟨hmode, hclk, htick, -⟩ := Glexon.enterHoldover_locked 0 hm
    obtain ⟨e, hev, hcode, hargs⟩ := Glexon.enterHoldover_events 0 hm hroom
    refine ⟨_, (onTk_runs _ s hs : execSyncTimeout s = _), hmode, hclk, htick, (s.gx.enterHoldover_keeps 0).1, ?_, rfl⟩
    rw [hev, List.map_append, List.map_singleton, hcode, hargs]
  · obtain ⟨hmode, hclk, htick, -⟩ := Glexon.enterHoldover_locked (g := s.gx.masterLost) 1 hm
    obtain ⟨hmode', hclk', htick'⟩ := Glexon.bmca_holdover hmode
    exact ⟨_, exec_announceReceiptTimeout_up hs, hmode', hclk'.trans hclk, htick'.trans htick,
      (Glexon.bmca_keeps _).1.trans (Glexon.enterHoldover_keeps _ 1).1, rfl⟩
  · obtain ⟨hmode, hclk, -, hpps⟩ := Glexon.enterHoldover_locked (g := s.gx.ppsLost) 2 hm
    exact ⟨_, exec_ppsInLost_grandmaster hs hgm, hmode, hpps, hclk,
      (Glexon.enterHoldover_keeps _ 2).1.trans (Glexon.event_mem _ _ _ _), rfl⟩
  · refine (onTk_runs _ s hs : execRef10mLost s = _).trans ?_
    rw [if_pos ⟨hsel, hok⟩]
  · refine (onTk_runs _ s hs : execTickStopped s = _).trans ?_
    rw [if_pos ⟨hlost, ht⟩]
  · subst hx
    have hfar := Glexon.ppsIn_far hgm hl hlo hhi
    refine (onTk_runs _ s hs : execPpsInEdge s = _).trans ?_
    rw [hfar, Glexon.lockedNow_unlocked]
    exact hm
  · have hnear := Glexon.ppsIn_near hgm hsv hhi
    refine ⟨_, (onTk_runs _ s hs : execPpsInEdge s = _), ?_⟩
    rw [hnear, Glexon.lockedNow_unlocked]
    · exact ⟨rfl, rfl, rfl, rfl⟩
    · exact hm

end Sys2Proof.Machine
end

section
/-! PROOFS. Boundaries and the tick number (R60, R462, R494). -/

namespace Sys2Proof.Machine

/-! ### The number of the next tick (R58 to R60) -/

/-- Whether a period change is due is read of the Time Keeper alone. -/
theorem Glexon.changeDue_congr {g h : Glexon} (e : g.tk = h.tk) : g.changeDue = h.changeDue := by
  unfold Glexon.changeDue Glexon.changeAt
  rw [e]

/-- With no epoch change waiting and no period change due, the next tick has the next number. -/
theorem Glexon.nextTick_plain {g : Glexon} (hpend : g.tk.pend = none) (hnext : g.tk.next = none) (hdue : g.changeDue = false) :
    g.nextTick = (g, g.tk.tickNo + 1) := by
  simp [Glexon.nextTick, hpend, hnext, hdue]

/-- To come to an instant moves the clock alone, and never back. -/
theorem Glexon.toInstant_tk (g : Glexon) (ns : Nat) : (g.toInstant ns).tk = { g.tk with clk := max g.tk.clk (ns * nsUnit) } := rfl

/-- The Time Keeper takes boundary `n`: it ticks, and its time, epoch and period stand. -/
theorem Glexon.tickIs_tk (g : Glexon) (n : Word) : (g.tickIs n).tk.ticking = true ∧ (g.tickIs n).tk.tickNo = n ∧
    (g.tickIs n).tk.clk = g.tk.clk ∧ (g.tickIs n).tk.period = g.tk.period ∧ (g.tickIs n).tk.epoch = g.tk.epoch := by
  unfold Glexon.tickIs
  dsimp only
  split_ifs <;> simp

/-! ### What a boundary does to the Time Keeper (R190) -/

/-- What the pulse brings to the other blocks leaves the Time Keeper alone. -/
theorem Glexon.pulseTo_tk (g : Glexon) (was : List Nat) (last : Option Word) (prev n : Word) :
    (g.pulseTo was last prev n).tk = g.tk := by
  unfold Glexon.pulseTo
  extract_lets sel g1 g2 g3 g4 g5 g6 g7
  have h2 : g2.tk = g.tk := by
    unfold g2
    split_ifs <;> simp [g1]
  have h4 : g4.tk = g.tk := by
    cases last <;> simp [g4, g3, h2]
  have h7 : g7.tk = g.tk := by
    unfold g7
    split_ifs <;> simp [g6, g5, h4]
  exact g7.epBegin_tk.trans h7

/-- With no core in the barrier set, the end of a tick leaves the Time Keeper alone. -/
theorem Glexon.endTick_tk {g : Glexon} (b : BoundaryIn) (h : ∀ n < 24, (g.core n).inSet = false) : (g.endTick b).tk = g.tk := by
  have hrest (n : Nat) (hn : n ∈ List.range 24) (hw : (g.core n).works = true) :
      (g.core n).isOpen = false ∧ (g.core n).flight = [] := by
    simp [Core.works, h n (List.mem_range.1 hn)] at hw
  obtain ⟨hcores, -, -⟩ := Glexon.foldl_passDeadline (List.range 24) List.nodup_range (fun n hn => List.mem_range.1 hn) g hrest
  rw [← Glexon.coresDeadline_eq] at hcores
  simp [Glexon.endTick, hcores]

/-- What the management domain is told is no matter of the Time Keeper. -/
theorem Glexon.ite_mg_tk (c : Prop) [Decidable c] (g : Glexon) (m : Mgmt) : (if c then { g with mg := m } else g).tk = g.tk := by
  split_ifs <;> rfl

/-- A boundary of a ticking Glexon whose cores are at rest: the next tick begins. -/
theorem Glexon.boundary_ticking {g : Glexon} (b : BoundaryIn) (ht : g.tk.ticking = true) (hl : g.tk.lost = false)
    (hpend : g.tk.pend = none) (hnext : g.tk.next = none) (hdue : g.changeDue = false)
    (hrest : ∀ n < 24, (g.core n).inSet = false) : (g.boundary b).tk.ticking = true ∧
      (g.boundary b).tk.tickNo = g.tk.tickNo + 1 ∧ (g.boundary b).tk.period = g.tk.period ∧
      (g.boundary b).tk.epoch = g.tk.epoch := by
  have hend := Glexon.endTick_tk b hrest
  have hplain : (g.endTick b).nextTick = (g.endTick b, g.tk.tickNo + 1) := by
    rw [Glexon.nextTick_plain (by rw [hend, hpend]) (by rw [hend, hnext]) ((Glexon.changeDue_congr hend).trans hdue), hend]
  obtain ⟨hticking, hno, -, hperiod, hepoch⟩ := Glexon.tickIs_tk
    (((g.endTick b).toInstant ((g.endTick b).boundNs (g.tk.tickNo + 1))).obsSnap (g.tk.tickNo + 1) b.obs) (g.tk.tickNo + 1)
  rw [Glexon.obsSnap_tk, Glexon.toInstant_tk, hend] at hperiod hepoch
  unfold Glexon.boundary
  rw [if_pos ht, if_neg (by simp [hl]), hplain]
  dsimp only
  rw [Glexon.pulseTo_tk, Glexon.ite_mg_tk]
  exact ⟨hticking, hno, hperiod, hepoch⟩

/-- In thermal halt the Time Keeper alone comes to the boundary (R462). -/
theorem Glexon.haltBoundary_ticking {g : Glexon} (ht : g.tk.ticking = true) (hl : g.tk.lost = false)
    (hpend : g.tk.pend = none) (hnext : g.tk.next = none) (hdue : g.changeDue = false) :
    g.haltBoundary = (g.toInstant (g.boundNs (g.tk.tickNo + 1))).tickIs (g.tk.tickNo + 1) := by
  simp [Glexon.haltBoundary, ht, hl, Glexon.nextTick_plain hpend hnext hdue]

/-- The first tick of a LOCKED Glexon that holds an epoch begins (R60). -/
theorem Glexon.boundary_first {g : Glexon} (b : BoundaryIn) (ht : g.tk.ticking = false) (hm : g.tk.mode = .locked)
    (he : g.tk.hasEpoch = true) : (g.boundary b).tk.ticking = true := by
  unfold Glexon.boundary
  rw [if_neg (by simp [ht]), if_pos ⟨hm, he⟩]
  dsimp only
  rw [Glexon.pulseTo_tk, Glexon.begun_tk, Glexon.ite_mg_tk]
  exact (Glexon.tickIs_tk _ _).1

/-- A Glexon that is not ticking takes no boundary before it is LOCKED and holds an epoch. -/
theorem Glexon.boundary_held {g : Glexon} (b : BoundaryIn) (ht : g.tk.ticking = false)
    (h : ¬(g.tk.mode = .locked ∧ g.tk.hasEpoch = true)) : g.boundary b = g := by
  unfold Glexon.boundary
  rw [if_neg (by simp [ht]), if_neg h]

/-- R494: a LOCKED Glexon that is not ticking comes to the next whole millisecond, and to the first entry of its gate list. -/
theorem exec_provisionalBoundary_locked {s : State} (hs : s.gx.coreUp = true) (ht : s.gx.tk.ticking = false)
    (hm : s.gx.tk.mode = .locked) : exec .provisionalBoundary s = .next { s with
      gx := (s.gx.toInstant ((s.gx.nowNs + 999999) / 1000000 * 1000000)).gateEntry 0 } :=
  (onCore_runs _ s hs : execProvisionalBoundary s = _).trans (by simp [ht, hm])

/-- Without a lock it does not. -/
theorem exec_provisionalBoundary_unlocked {s : State} (hs : s.gx.coreUp = true) (hm : s.gx.tk.mode ≠ .locked) :
    exec .provisionalBoundary s = .next s :=
  (onCore_runs _ s hs : execProvisionalBoundary s = _).trans (by simp [hm])

/-- R190: a boundary is the whole Glexon's while its core domain runs. -/
theorem exec_glexonBoundary_full {s : State} (b : BoundaryIn) (hs : s.gx.tkUp = true) (hc : s.gx.coreUp = true) :
    exec (.glexonBoundary b) s = .next { s with gx := s.gx.boundary b } :=
  (onTk_runs _ s hs : execGlexonBoundary b s = _).trans (by simp [hc])

/-- R462: in thermal halt it is the Time Keeper's. -/
theorem exec_glexonBoundary_halt {s : State} (b : BoundaryIn) (hs : s.gx.tkUp = true) (hc : s.gx.coreUp = false) :
    exec (.glexonBoundary b) s = .next { s with gx := s.gx.haltBoundary } :=
  (onTk_runs _ s hs : execGlexonBoundary b s = _).trans (by simp [hc])

/-- Settles O59: the boundary of a Glexon that runs, that in thermal halt, the first one, and the provisional one. -/
theorem boundariesAdvanceTheTick : Obligations.BoundariesAdvanceTheTick := by
  intro s b hs
  have hcore : s.gx.coreUp = !s.gx.mg.tripped := by rw [Glexon.coreUp, hs, Bool.true_and]
  refine ⟨fun ht hl hpend hnext hdue => ?_, fun hrun ht => ?_, fun hrun hm => ?_⟩
  · have hhalt := Glexon.haltBoundary_ticking ht hl hpend hnext hdue
    obtain ⟨hticking, hno, hclk, hperiod, hepoch⟩ :=
      Glexon.tickIs_tk (s.gx.toInstant (s.gx.boundNs (s.gx.tk.tickNo + 1))) (s.gx.tk.tickNo + 1)
    rw [← hhalt] at hticking hno hclk hperiod hepoch
    refine ⟨fun hrest => ?_, fun htrip => ?_⟩
    · cases hc : s.gx.coreUp with
      | true => exact ⟨_, exec_glexonBoundary_full b hs hc, rfl, Glexon.boundary_ticking b ht hl hpend hnext hdue hrest⟩
      | false => exact ⟨_, exec_glexonBoundary_halt b hs hc, rfl, hticking, hno, hperiod, hepoch⟩
    · obtain ⟨hmem, hcores⟩ := s.gx.haltBoundary_keeps
      exact ⟨_, exec_glexonBoundary_halt b hs (by rw [hcore, htrip]; rfl), hmem, hcores, hno, hclk⟩
  · have hc : s.gx.coreUp = true := by rw [hcore, hrun]; rfl
    refine ⟨fun hm he => ⟨_, exec_glexonBoundary_full b hs hc, Glexon.boundary_first b ht hm he⟩, fun he => ?_, fun hm => ?_⟩
    · rw [exec_glexonBoundary_full b hs hc, Glexon.boundary_held b ht fun h => by simp [he] at h]
    · exact ⟨_, exec_provisionalBoundary_locked hc ht hm, rfl, rfl, rfl, rfl, rfl, rfl, rfl⟩
  · exact exec_provisionalBoundary_unlocked (by rw [hcore, hrun]; rfl) hm

end Sys2Proof.Machine
end

section
/-! PROOFS. The Bumas at its boundary: pins, counters, markers, PC samples, snoop messages and audit sites (R82 to R107, R264). -/

namespace Sys2Proof.Machine

/-! ### Power and reset pins (R100 to R102) -/

/-- The supply of an unpowered block comes up; link training begins where reset was released before (R100, R101). -/
theorem Bumas.pwrRise_unpowered {b : Bumas} (h : b.pwrOk = false) : b.pwrRise =
    { b with pwrOk := true, tap := if b.rstN then { b.tap with tr := { st := .detect } } else b.tap } := by
  cases hr : b.rstN <;> simp [Bumas.pwrRise, Bumas.startTraining, h, hr]

/-- Reset of a block that is held in it is released; link training begins where the supply is up (R101). -/
theorem Bumas.rstRelease_held {b : Bumas} (h : b.rstN = false) : b.rstRelease =
    { b with rstN := true, tap := if b.pwrOk then { b.tap with tr := { st := .detect } } else b.tap } := by
  cases hp : b.pwrOk <;> simp [Bumas.rstRelease, Bumas.startTraining, h, hp]

/-- A pin command's next state from the Bumas that its update gives. -/
theorem onBumasPins_eq {f : Bumas → Bumas} {s : State} {b : Bumas} (h : f s.bm = b) :
    onBumasPins f s = .next { s with bm := b } := by
  rw [onBumasPins_next, h]

/-- Settles O5: a reset is the update of its pin, and the last pin to come up starts link training. -/
theorem powerAndResetPinsMoveTheBumas : Obligations.PowerAndResetPinsMoveTheBumas := fun _ =>
  ⟨rfl, rfl, fun h => onBumasPins_eq (Bumas.pwrRise_unpowered h), fun h => onBumasPins_eq (Bumas.rstRelease_held h)⟩

/-! ### Counters (R82) -/

/-- The next state of a command of the Bumas, from the Bumas that its update gives. -/
theorem onBumas_eq (f : Bumas → Bumas) {s : State} {b : Bumas} (hs : s.bm.alive = true) (h : f s.bm = b) :
    onBumas f s = .next { s with bm := b } := by
  rw [onBumas_runs f s hs, h]

/-- A block that runs is powered and out of reset (Table 3.13). -/
theorem Bumas.alive_of_running {b : Bumas} (h : b.running = true) : b.alive = true := (Bool.and_eq_true_iff.1 h).1

/-- So is one whose audit window takes writes (R91). -/
theorem Bumas.alive_of_awReady {b : Bumas} (h : b.awReady = true) : b.alive = true :=
  Bumas.alive_of_running (Bool.and_eq_true_iff.1 h).1

/-- A series of additions changes the counters alone. -/
theorem Bumas.foldl_count {β : Type} (key amt : β → Nat) (l : List β) (b : Bumas) :
    l.foldl (fun b x => b.count (key x) (amt x)) b =
      { b with cnt := l.foldl (fun m x => SMap.mod 0 m (key x) fun v => v + word (amt x)) b.cnt } := by
  induction l generalizing b with
  | nil => rfl
  | cons x l ih => rw [List.foldl_cons, ih]; rfl

theorem word_add (m n : Nat) : word (m + n) = word m + word n := BitVec.ofNat_add m n

/-- A counter takes the sum of the additions that name it, modulo 2⁶⁴. -/
theorem SMap.get_foldl_add {β : Type} (key amt : β → Nat) (c : Nat) (l : List β) (m : SMap Word) :
    SMap.get 0 (l.foldl (fun m x => SMap.mod 0 m (key x) fun v => v + word (amt x)) m) c =
      SMap.get 0 m c + word ((l.filter fun x => key x = c).map amt).sum := by
  induction l generalizing m with
  | nil => simp [word]
  | cons x l ih =>
    rw [List.foldl_cons, ih]
    by_cases hx : key x = c
    · subst hx
      simp [SMap.get_mod_same, word_add, add_assoc]
    · simp [SMap.get_mod_other _ _ _ _ _ (Ne.symm hx), hx]

/-- A captured event line adds 1 to its counter, once. -/
theorem sum_onesBelow_filter (evt : BitVec 256) (c : Nat) :
    (((onesBelow 256 evt.toNat).filter fun x => x = c).map fun _ => 1).sum = if c < 256 ∧ evt.getLsbD c = true then 1 else 0 := by
  have hnd : (onesBelow 256 evt.toNat).Nodup := List.nodup_range.filter _
  have hmem : c ∈ onesBelow 256 evt.toNat ↔ c < 256 ∧ evt.getLsbD c = true := by simp [onesBelow, BitVec.getLsbD]
  rw [List.map_const', List.sum_replicate, smul_eq_mul, mul_one, ← List.countP_eq_length_filter]
  exact (List.count_eq_countP ..).symm.trans (by simp [hnd.count, hmem])

/-- R82: every counter takes the sum of its event line and of the increment ports that name it. -/
theorem Bumas.eventCount_running {b : Bumas} (evt : BitVec 256) (incs : List CntInc) (h : b.running = true) :
    ∃ cnt : SMap Word, b.eventCount evt incs = { b with cnt := cnt } ∧ ∀ c : Nat, SMap.get 0 cnt c = SMap.get 0 b.cnt c +
      (if c < 256 ∧ evt.getLsbD c = true then 1 else 0)
        + word ((incs.filter fun i => i.id.toNat = c).map fun i => i.inc.toNat).sum := by
  simp only [Bumas.eventCount, h, if_true, Bumas.foldl_count (fun c : Nat => c) fun _ => 1,
    Bumas.foldl_count (fun i : CntInc => i.id.toNat) fun i => i.inc.toNat]
  refine ⟨_, rfl, fun c => ?_⟩
  rw [SMap.get_foldl_add, SMap.get_foldl_add (fun c => c), sum_onesBelow_filter]
  split <;> rfl

/-! ### Markers (R84) -/

theorem Bumas.marker_latched {b : Bumas} {id : BitVec 16} (arg : BitVec 32) (h : b.running = true) (hid : id ≠ 0)
    (hl : b.markC.marks.length < 256) : b.marker id arg = { b with
      markC := { b.markC with marks := b.markC.marks ++ [⟨id, arg, b.nowNs⟩] } } := by
  rw [Bumas.marker, if_neg (by simp [h]), if_neg hid, if_pos hl]

theorem Bumas.marker_dropped {b : Bumas} {id : BitVec 16} (arg : BitVec 32) (h : b.running = true) (hid : id ≠ 0)
    (hl : 256 ≤ b.markC.marks.length) : b.marker id arg = { b with
      markC := { b.markC with dropped := b.markC.dropped + 1 } } := by
  rw [Bumas.marker, if_neg (by simp [h]), if_neg hid, if_neg (Nat.not_lt.2 hl)]

theorem Bumas.marker_zeroId {b : Bumas} {id : BitVec 16} (arg : BitVec 32) (h : b.running = true) (hid : id = 0) :
    b.marker id arg = { b with markC := { b.markC with zeroId := b.markC.zeroId + 1 } }.irqSet 4 := by
  rw [Bumas.marker, if_neg (by simp [h]), if_pos hid]

/-! ### PC samples (R86) -/

/-- In the open window a core's first sample is kept. -/
theorem Bumas.pcSample_first {b : Bumas} {core : BitVec 9} (pc : BitVec 48) (stall : BitVec 6) (h : b.running = true)
    (ho : b.pcs.isOpen = true) (hc : core.toNat < fld (b.rd Reg.BM_PCS_CFG) 0 10) (hm : b.pcs.mode ≠ .stride)
    (hnew : SMap.get none b.pcs.samples core.toNat = none) : b.pcSample core pc stall = { b with pcs := { b.pcs with
      taken := b.pcs.taken + 1, samples := SMap.put none b.pcs.samples core.toNat (some ⟨pc, stall, false⟩) } } := by
  simp [Bumas.pcSample, h, ho, Nat.not_le.2 hc, hm, hnew]

/-- A later one of the same core replaces it. -/
theorem Bumas.pcSample_again {b : Bumas} {core : BitVec 9} (pc : BitVec 48) (stall : BitVec 6) (h : b.running = true)
    (ho : b.pcs.isOpen = true) (hc : core.toNat < fld (b.rd Reg.BM_PCS_CFG) 0 10) (hm : b.pcs.mode ≠ .stride)
    (hdup : SMap.get none b.pcs.samples core.toNat ≠ none) : b.pcSample core pc stall = { b with pcs := { b.pcs with
      dup := b.pcs.dup + 1, samples := SMap.put none b.pcs.samples core.toNat (some ⟨pc, stall, true⟩) } }.irqSet 4 := by
  obtain ⟨x, hx⟩ := Option.ne_none_iff_exists'.1 hdup
  simp [Bumas.pcSample, h, ho, Nat.not_le.2 hc, hm, hx]

/-- Outside a window a sample is counted as stray. -/
theorem Bumas.pcSample_closed {b : Bumas} (core : BitVec 9) (pc : BitVec 48) (stall : BitVec 6) (h : b.running = true)
    (ho : b.pcs.isOpen = false) :
    b.pcSample core pc stall = { b with pcs := { b.pcs with stray := b.pcs.stray + 1 } }.irqSet 4 := by
  rw [Bumas.pcSample, if_neg (by simp [h]), if_pos (by simp [ho])]

/-- Settles O6: the counters' sums, and the branches of the marker latch and of the PC sampler. -/
theorem countersMarkersAndSamplesAreTaken : Obligations.CountersMarkersAndSamplesAreTaken := by
  refine ⟨fun s evt incs hr => ?_, fun s id arg hr => ?_, fun s => ⟨fun core pc stall hr ho hc hm => ?_,
    fun core pc stall hr ho => ?_, fun ha => ?_, fun nJ hr => ?_, fun ha => ?_⟩⟩
  · obtain ⟨cnt, he, hget⟩ := Bumas.eventCount_running evt incs hr
    exact ⟨cnt, onBumas_eq (·.eventCount evt incs) (Bumas.alive_of_running hr) he, hget⟩
  · have next {b : Bumas} := onBumas_eq (·.marker id arg) (b := b) (Bumas.alive_of_running hr)
    exact ⟨fun hid hl => next (Bumas.marker_latched arg hr hid hl), fun hid hl => next (Bumas.marker_dropped arg hr hid hl),
      fun hid => next (Bumas.marker_zeroId arg hr hid)⟩
  · have next {b : Bumas} := onBumas_eq (·.pcSample core pc stall) (b := b) (Bumas.alive_of_running hr)
    exact ⟨fun hnew => next (Bumas.pcSample_first pc stall hr ho hc hm hnew),
      fun hdup => next (Bumas.pcSample_again pc stall hr ho hc hm hdup)⟩
  · exact onBumas_eq (·.pcSample core pc stall) (Bumas.alive_of_running hr) (Bumas.pcSample_closed core pc stall hr ho)
  · exact onBumas_runs _ s ha
  · exact onBumas_eq (·.energyInc nJ) (Bumas.alive_of_running hr) (if_pos hr)
  · exact (onBumas_runs _ s ha : execClkGap s = _)

/-! ### Snoop messages (R87, R107) -/

/-- An element's statistics count neither messages nor bytes. -/
theorem SnoopAcc.elem_counts (a : SnoopAcc) (fmt v : Nat) : (a.elem fmt v).msgs = a.msgs ∧ (a.elem fmt v).bytes = a.bytes := by
  unfold SnoopAcc.elem
  dsimp only
  split_ifs <;> exact ⟨rfl, rfl⟩

/-- A beat adds its kept bytes and completes no message. -/
theorem SnoopAcc.beat_counts (a : SnoopAcc) (m : SnoopMsg) (k : Nat) (bt : BitVec 512 × BitVec 64) :
    (a.beat m k bt).msgs = a.msgs ∧ (a.beat m k bt).bytes = a.bytes + (keptBytes bt.1 bt.2).length := by
  have hfold (l : List (Nat × Nat × Nat)) (c : SnoopAcc) :
      (l.foldl (fun a e => a.elem m.fmt.toNat e.2.2) c).msgs = c.msgs ∧
        (l.foldl (fun a e => a.elem m.fmt.toNat e.2.2) c).bytes = c.bytes := by
    refine List.foldlRecOn (motive := fun a : SnoopAcc => a.msgs = c.msgs ∧ a.bytes = c.bytes) l _ ⟨rfl, rfl⟩ fun a ha e _ => ?_
    simpa [SnoopAcc.elem_counts] using ha
  unfold SnoopAcc.beat
  dsimp only
  split_ifs <;> simp [hfold]

/-- The beats of a message add their kept bytes and complete no other one. -/
theorem SnoopAcc.beats_counts (m : SnoopMsg) (l : List (BitVec 512 × BitVec 64)) (k : Nat) (a : SnoopAcc) :
    (SnoopAcc.beats m k l a).msgs = a.msgs ∧
      (SnoopAcc.beats m k l a).bytes = a.bytes + (l.map fun p => (keptBytes p.1 p.2).length).sum := by
  induction l generalizing k a with
  | nil => exact ⟨rfl, rfl⟩
  | cons bt l ih => simp [SnoopAcc.beats, ih, SnoopAcc.beat_counts, Nat.add_assoc]

/-- A beat that is not the last only joins the message in progress (R107). -/
theorem Bumas.chanBeat_middle (b : Bumas) (i : Nat) {bt : SnoopBeat} {c : SnoopCh} {m : SnoopMsg} (hskip : c.skip = false)
    (hm : c.msg = some m) (hlast : bt.last = false) :
    b.chanBeat i c bt = ({ c with msg := some { m with beats := m.beats ++ [(bt.data, bt.keep)] } }, false) := by
  simp [Bumas.chanBeat, hskip, hm, hlast]

/-- The last beat of a message of a defined format completes it. -/
theorem Bumas.chanBeat_last (b : Bumas) (i : Nat) {bt : SnoopBeat} {c : SnoopCh} {m : SnoopMsg} (hskip : c.skip = false)
    (hm : c.msg = some m) (hlast : bt.last = true) (hfmt : m.fmt.toNat < 9) : b.chanBeat i c bt =
      ({ c with msg := none, cur := c.cur.message { m with beats := m.beats ++ [(bt.data, bt.keep)] } }, false) := by
  simp [Bumas.chanBeat, hskip, hm, hlast, Nat.not_le.2 hfmt]

/-- A beat of no reserved format changes its channel alone. -/
theorem Bumas.snoopBeat_captured {b : Bumas} {bt : SnoopBeat} {c c' : SnoopCh} (h : b.running = true) (hen : b.snpEn = true)
    (hc : SMap.get {} b.snoop bt.ch.toNat = c) (hbeat : b.chanBeat bt.ch.toNat c bt = (c', false)) :
    b.snoopBeat bt = { b with snoop := SMap.put {} b.snoop bt.ch.toNat c' } := by
  rw [Bumas.snoopBeat, if_pos (by rw [h, hen]; rfl)]
  dsimp only
  rw [hc, hbeat]
  rfl

/-! ### Audit queries (R89, R264) -/

theorem fld_lt {n : Nat} (w : BitVec n) (lo len : Nat) : fld w lo len < 2 ^ len := Nat.mod_lt _ (by positivity)

/-- A captured query waits with its hash and the threshold in force. -/
theorem Bumas.auditQuery_running {b : Bumas} (site : BitVec 16) (h : b.running = true) : b.auditQuery site = { b with
    audit := { b.audit with
      cur := { b.audit.cur with queries := b.audit.cur.queries + 1 },
      pend := b.audit.pend ++ [{
        site := site, tick := b.time.tickNo, aw := b.awEn, lk := b.linkUp,
        hash := auditHash (b.rd Reg.BM_AUDIT_SEED).toNat b.time.tickNo.toNat b.dieIndex site.toNat,
        thr := BitVec.ofNat 32 (fld (b.rd Reg.BM_AUDIT_THRESH) 0 32),
        sel := decide ((auditHash (b.rd Reg.BM_AUDIT_SEED).toNat b.time.tickNo.toNat b.dieIndex site.toNat).toNat
          < fld (b.rd Reg.BM_AUDIT_THRESH) 0 32) }] } } := by
  have hthr : fld (b.rd Reg.BM_AUDIT_THRESH) 0 32 % 2 ^ 32 = fld (b.rd Reg.BM_AUDIT_THRESH) 0 32 := Nat.mod_eq_of_lt (fld_lt ..)
  rw [Bumas.auditQuery, if_neg (by simp [h])]
  simp only [BitVec.toNat_ofNat, hthr]

/-- Where a slot is free, the window has slots. -/
theorem BmAudit.slotSize_ne_none {a : BmAudit} {n : Nat} (h : a.freeSlot? = some n) : a.slotSize ≠ none := by
  intro hn
  simp [BmAudit.freeSlot?, hn] at h

/-- A count of the current tick enters the interval in progress. -/
theorem BmAudit.tally_now (a : BmAudit) (t : Word) (f : AuditCounts → AuditCounts) : a.tally t t f = { a with cur := f a.cur } :=
  if_pos rfl

/-- R89: the oldest query takes the lowest free slot. -/
theorem Bumas.auditAnswer_granted {b : Bumas} {q : AuditPend} {rest : List AuditPend} {slot : Nat} (h : b.running = true)
    (hp : b.audit.pend = q :: rest) (hsel : q.sel = true) (haw : q.aw = true) (hlk : q.lk = true) (hup : b.linkUp = true)
    (hsz : b.sizePending = false) (htick : q.tick = b.time.tickNo) (hsite : (q.tick, q.site) ∉ b.audit.sites)
    (hslot : b.audit.freeSlot? = some slot) : b.auditAnswer = { b with audit := { b.audit with
      pend := rest, take := true, slotOut := BitVec.ofNat 5 slot, sites := b.audit.sites ++ [(q.tick, q.site)],
      cur := { b.audit.cur with selected := b.audit.cur.selected + 1, granted := b.audit.cur.granted + 1 },
      slots := SMap.put {} b.audit.slots slot
        { st := .granted, grantTick := q.tick, site := q.site, hash := q.hash, thr := q.thr } } } := by
  have hgrant : ¬(¬b.running = true ∨ ¬q.aw = true ∨ ¬q.lk = true ∨ b.sizePending = true ∨ b.audit.slotSize = none ∨
      (q.tick, q.site) ∈ b.audit.sites) := by
    simp [h, haw, hlk, hsz, hsite, BmAudit.slotSize_ne_none hslot]
  rw [Bumas.auditAnswer, hp]
  dsimp only
  rw [if_neg (by simp [hsel, hup]), ← htick]
  simp only [BmAudit.tally_now]
  split
  · next h => exact absurd h hgrant
  · split
    · next hnone => cases hslot.symm.trans hnone
    · next n hsome => cases hslot.symm.trans hsome; rfl

/-! ### The audit window (R90, R91, R98) -/

/-- One beat's write changes exactly the strobed bytes. -/
theorem get_writeBeat (w : SMap Byte) (base : Nat) (data : BitVec 512) (strb : BitVec 64) (a : Nat) :
    SMap.get 0 (writeBeat w base data strb) a = if base ≤ a ∧ a < base + 64 ∧ strb.getLsbD (a - base) = true
      then BitVec.ofNat 8 (fldN data.toNat (8 * (a - base)) 8) else SMap.get 0 w a := by
  have hmem (i : Nat) : i ∈ onesBelow 64 strb.toNat ↔ i < 64 ∧ strb.getLsbD i = true := by simp [onesBelow, BitVec.getLsbD]
  refine SMap.get_foldl_put 0 _ (base + ·) _ _ w ?_ fun i hi ha => ?_
  · split
    · next h => exact .inl ⟨a - base, (hmem _).2 ⟨by omega, h.2.2⟩, by omega⟩
    · exact .inr rfl
  · obtain ⟨hlt, hbit⟩ := (hmem i).1 hi
    obtain rfl : i = a - base := by omega
    rw [if_pos ⟨by omega, by omega, hbit⟩]

/-- A map of which the entries at some indices are kept reads as the default at the others. -/
theorem SMap.get_filter {α : Type} (d : α) (p : Nat → Bool) (k : Nat) (m : SMap α) :
    SMap.get d (m.filter fun e => p e.1) k = if p k = true then SMap.get d m k else d := by
  induction m with
  | nil => simp
  | cons e m ih =>
    by_cases hk : k = e.1
    · subst hk
      cases hp : p e.1 <;> simp [SMap.get, hp, ih]
    · cases hp : p e.1 <;> simp [SMap.get, hp, ih, hk]

/-- R91: a write outside a granted slot only counts as stray. -/
theorem Bumas.auditWrite_stray {b : Bumas} {addr : BitVec 21} (data : BitVec 512) (strb : BitVec 64) (h : b.awReady = true)
    (hs : (SMap.get {} b.audit.slots (addr.toNat / 64 * 64 / b.audit.slotSize.getD 2097152)).st ≠ .granted) :
    b.auditWrite addr data strb = { b with audit := { b.audit with stray := b.audit.stray + 1 } }.irqSet 4 := by
  rw [Bumas.auditWrite, if_neg (by simp [h])]
  exact if_pos hs

/-- R91: an aligned write to a granted slot, past its first beat, writes its bytes alone. -/
theorem Bumas.auditWrite_granted {b : Bumas} {addr : BitVec 21} (data : BitVec 512) (strb : BitVec 64) (h : b.awReady = true)
    (hs : (SMap.get {} b.audit.slots (addr.toNat / 64 * 64 / b.audit.slotSize.getD 2097152)).st = .granted)
    (hal : addr.toNat % 64 = 0) (hpast : addr.toNat % b.audit.slotSize.getD 2097152 ≠ 0) :
    b.auditWrite addr data strb =
      { b with audit := { b.audit with window := writeBeat b.audit.window addr.toNat data strb } } := by
  have hbase : addr.toNat / 64 * 64 = addr.toNat := by omega
  rw [hbase] at hs
  rw [Bumas.auditWrite, if_neg (by simp [h]), hbase]
  dsimp only
  rw [if_neg (not_not_intro hs), if_neg hpast, if_neg (not_not_intro hal)]

/-- R90: a granted slot that its tick's end finds unsealed is freed and counted. -/
theorem Bumas.slotExpire_granted {b : Bumas} {n : Nat} (hs : (SMap.get {} b.audit.slots n).st = .granted)
    (ht : (SMap.get {} b.audit.slots n).grantTick.toNat + 1 ≤ b.time.tickNo.toNat) : b.slotExpire n = { b.freeSlot n with
      audit := { (b.freeSlot n).audit with expired := (b.freeSlot n).audit.expired + 1 } }.irqSet 2 := by
  rw [Bumas.slotExpire]
  exact if_pos ⟨hs, ht⟩

/-- R90: at the end of its clearing a slot is free and its bytes are gone. -/
theorem Bumas.clearDone_clearing {b : Bumas} {n : Nat} (hs : (SMap.get {} b.audit.slots n).st = .clearing) :
    b.clearDone n = { b with audit := { b.audit with
      window := b.audit.window.filter fun e => decide (e.1 / b.audit.slotSize.getD 2097152 ≠ n),
      slots := SMap.put {} b.audit.slots n {} } } := by
  rw [Bumas.clearDone]
  exact if_pos hs

/-- Settles O7: a beat joins or completes its message, a query waits and is answered, and the window's slots are written, expire
and are cleared. -/
theorem snoopMessagesAndAuditSitesAreTaken : Obligations.SnoopMessagesAndAuditSitesAreTaken := by
  refine ⟨fun s bt c m hr hen hc hskip hm => ?_, fun s hr => ⟨fun site => ?_, ?_⟩, fun s => ⟨?_, ?_, ?_, ?_⟩⟩
  · have next {b : Bumas} := onBumas_eq (·.snoopBeat bt) (b := b) (Bumas.alive_of_running hr)
    refine ⟨fun hlast => next (Bumas.snoopBeat_captured hr hen hc (s.bm.chanBeat_middle _ hskip hm hlast)),
      fun hlast hfmt => ?_⟩
    have hsum := SnoopAcc.beats_counts { m with beats := m.beats ++ [(bt.data, bt.keep)] } (m.beats ++ [(bt.data, bt.keep)]) 0 c.cur
    exact ⟨_, next (Bumas.snoopBeat_captured hr hen hc (s.bm.chanBeat_last _ hskip hm hlast hfmt)),
      congrArg (fun n => satN 32 (n + 1)) hsum.1, rfl, hsum.2, rfl⟩
  · exact onBumas_eq (·.auditQuery site) (Bumas.alive_of_running hr) (Bumas.auditQuery_running site hr)
  · intro q rest slot hp hsel haw hlk hup hsz htick hsite hslot
    exact ⟨_, onBumas_eq Bumas.auditAnswer (Bumas.alive_of_running hr)
      (Bumas.auditAnswer_granted hr hp hsel haw hlk hup hsz htick hsite hslot), rfl, rfl, rfl, rfl, rfl, rfl⟩
  · intro addr data strb hr hs hal hpast
    exact ⟨_, onBumas_eq (·.auditWrite addr data strb) (Bumas.alive_of_awReady hr)
      (Bumas.auditWrite_granted data strb hr hs hal hpast), get_writeBeat _ _ _ _⟩
  · intro addr data strb hr hs
    exact onBumas_eq (·.auditWrite addr data strb) (Bumas.alive_of_awReady hr)
      (Bumas.auditWrite_stray data strb hr hs)
  · intro slot ha hs ht
    refine ⟨_, onBumas_eq (·.slotExpire slot.toNat) ha (Bumas.slotExpire_granted hs ht), ?_, rfl, ?_, rfl, rfl, rfl⟩
    · exact congrArg AuditSlot.st (SMap.get_put_same ..)
    · rw [Bumas.irqSet, Bumas.rd_wr_same]
      exact bit_putBit_same _ _ (by decide)
  · intro slot ha hs
    have hget (a : Nat) :=
      SMap.get_filter 0 (fun a => decide (a / s.bm.audit.slotSize.getD 2097152 ≠ slot.toNat)) a s.bm.audit.window
    refine ⟨_, onBumas_eq (·.clearDone slot.toNat) ha (Bumas.clearDone_clearing hs), ?_, fun a hin => ?_,
      fun a hout => ?_, rfl⟩
    · exact congrArg AuditSlot.st (SMap.get_put_same ..)
    · exact (hget a).trans (if_neg (by simp [hin]))
    · exact (hget a).trans (if_pos (by simp [hout]))

end Sys2Proof.Machine
end

section
/-! PROOFS. What the soundness of the Bumas speaks of, and the operations that leave it alone. -/

namespace Sys2Proof.Machine

/-- The marker latches and the probe sequencer: all that soundness speaks of. -/
def Bumas.bufs (b : Bumas) : MarkLatch × MarkLatch × BmProbe := (b.markC, b.markP, b.probe)

/-- A Bumas with the latches and the sequencer of a sound one is sound. -/
theorem Bumas.Sound.congr {b c : Bumas} (h : b.Sound) (hc : c.markC = b.markC) (hm : c.markP = b.markP)
    (hp : c.probe = b.probe) : c.Sound := by
  obtain ⟨marks, marksP, opens, emit, block, passed, valid, running⟩ := h
  rw [← hc] at marks
  rw [← hm] at marksP
  rw [← hp] at opens emit block passed valid running
  exact ⟨marks, marksP, opens, emit, block, passed, valid, running⟩

theorem Bumas.Sound.of_bufs {b c : Bumas} (h : b.Sound) (e : c.bufs = b.bufs) : c.Sound := by
  simp only [Bumas.bufs, Prod.mk.injEq] at e
  obtain ⟨hc, hm, hp⟩ := e
  exact h.congr hc hm hp

/-- A series of operations that leave the latches and the sequencer alone does so. -/
theorem foldl_bufs {α : Type} (f : Bumas → α → Bumas) (hf : ∀ b a, (f b a).bufs = b.bufs) (l : List α) (b : Bumas) :
    (l.foldl f b).bufs = b.bufs :=
  List.foldlRecOn (motive := fun c : Bumas => c.bufs = b.bufs) _ _ rfl fun c hc a _ => (hf c a).trans hc

section

variable (b : Bumas)

/-! Registers, and the transmit queue (R145 to R150) -/

theorem Bumas.wr_bufs (a : Nat) (v : Word) : (b.wr a v).bufs = b.bufs := rfl

theorem Bumas.commitRwt_bufs : b.commitRwt.bufs = b.bufs := 
  foldl_bufs (fun b (p : Nat × Option Word) => b.wr p.1 (p.2.getD 0)) (fun _ _ => rfl) b.rwt b

theorem Bumas.discard_bufs (t : TxRec) : (b.discard t).bufs = b.bufs := by
  unfold Bumas.discard
  split
  · rfl
  · dsimp only
    split <;> rfl

theorem Bumas.discardWhere_bufs (p : TxRec → Bool) : (b.discardWhere p).bufs = b.bufs := foldl_bufs _ Bumas.discard_bufs _ _

theorem Bumas.pushTx_bufs (t : TxRec) : (b.pushTx t).bufs = b.bufs := by
  unfold Bumas.pushTx
  dsimp only
  split <;> rfl

theorem Bumas.evictOne_bufs {b : Bumas} {c col : Nat} {b' : Bumas} (he : b.evictOne c col = some b') : b'.bufs = b.bufs := by
  unfold Bumas.evictOne at he
  split at he
  · cases he
    exact Bumas.discard_bufs _ _
  · cases he

theorem Bumas.evictMauve_bufs (n need : Nat) : (Bumas.evictMauve n b need).bufs = b.bufs := by
  induction n generalizing b with
  | zero => rfl
  | succ n ih =>
    unfold Bumas.evictMauve
    split
    · rfl
    · split
      · next he => exact (ih _).trans (Bumas.evictOne_bufs he)
      · split
        · next he => exact (ih _).trans (Bumas.evictOne_bufs he)
        · split
          · next he => exact (ih _).trans (Bumas.evictOne_bufs he)
          · rfl

theorem Bumas.evictIndigo_bufs (n need : Nat) : (Bumas.evictIndigo n b need).bufs = b.bufs := by
  induction n generalizing b with
  | zero => rfl
  | succ n ih =>
    unfold Bumas.evictIndigo
    split
    · rfl
    · split
      · next he => exact (ih _).trans (Bumas.evictOne_bufs he)
      · rfl

theorem Bumas.enqueue_bufs (t : TxRec) : (b.enqueue t).bufs = b.bufs := by
  have hroom : (if t.r.cls.toNat = 1 then b.evictMauve b.tap.q.length (Rec.size t.r) else b).bufs = b.bufs := by
    split
    · exact b.evictMauve_bufs _ _
    · rfl
  unfold Bumas.enqueue
  dsimp only
  generalize (if t.r.cls.toNat = 1 then b.evictMauve b.tap.q.length (Rec.size t.r) else b) = b1 at hroom ⊢
  split
  · exact b.discard_bufs _
  · split
    · exact b.discard_bufs _
    · split
      · exact (Bumas.pushTx_bufs _ _).trans (b.evictIndigo_bufs _ _)
      · split
        · exact b.pushTx_bufs _
        · split
          · exact (b1.pushTx_bufs _).trans hroom
          · exact (b1.discard_bufs _).trans hroom

theorem Bumas.close_bufs (r : Rec) (slot : Option Nat) (loss : Option LossInfo) : (b.close r slot loss).bufs = b.bufs :=
  Bumas.enqueue_bufs _ _

theorem Bumas.closeLoss_bufs : b.closeLoss.bufs = b.bufs := by
  unfold Bumas.closeLoss
  dsimp only
  split
  · rfl
  · exact (Bumas.close_bufs _ _ _ _).trans (b.discardWhere_bufs _)

theorem Bumas.refillWritten_bufs (written : List Nat) : (b.refillWritten written).bufs = b.bufs := by
  refine foldl_bufs _ (fun b c => ?_) _ b
  dsimp only
  split
  · split <;> rfl
  · split <;> rfl

/-! The boundary (R83, R98, R107, R128, R129) -/

theorem Bumas.latchStats_bufs : b.latchStats.bufs = b.bufs := rfl

theorem Bumas.swapSnoop_bufs (written : List Nat) : (b.swapSnoop written).bufs = b.bufs := by
  simp only [Bumas.swapSnoop, Bumas.bufs]

theorem Bumas.bumpAlive_bufs (old : BmTime) : (b.bumpAlive old).bufs = b.bufs := rfl

theorem Bumas.dropDisabled_bufs : b.dropDisabled.bufs = b.bufs := rfl

theorem Bumas.applySlotSize_bufs : b.applySlotSize.bufs = b.bufs := by
  unfold Bumas.applySlotSize
  split <;> rfl

theorem Bumas.startRounds_bufs : b.startRounds.bufs = b.bufs := by
  unfold Bumas.startRounds
  dsimp only
  split <;> rfl

/-! Counting, samples, snoop channels and audit sites (chapter 3) -/

theorem Bumas.eventCount_bufs (evt : BitVec 256) (incs : List CntInc) : (b.eventCount evt incs).bufs = b.bufs := by
  unfold Bumas.eventCount
  split
  · exact (foldl_bufs (fun b (i : CntInc) => b.count i.id.toNat i.inc.toNat) (fun _ _ => rfl) incs _).trans
      (foldl_bufs (fun b c => b.count c 1) (fun _ _ => rfl) (onesBelow 256 evt.toNat) b)
  · rfl

theorem Bumas.energyInc_bufs (nJ : BitVec 32) : (b.energyInc nJ).bufs = b.bufs := by
  unfold Bumas.energyInc
  split <;> rfl

theorem Bumas.pcSample_bufs (core : BitVec 9) (pc : BitVec 48) (stall : BitVec 6) : (b.pcSample core pc stall).bufs = b.bufs := by
  unfold Bumas.pcSample
  dsimp only
  split
  · rfl
  · split
    · rfl
    · split
      · rfl
      · split <;> rfl

theorem Bumas.snoopBeat_bufs (bt : SnoopBeat) : (b.snoopBeat bt).bufs = b.bufs := by
  unfold Bumas.snoopBeat
  dsimp only
  split_ifs <;> rfl

theorem Bumas.auditQuery_bufs (site : BitVec 16) : (b.auditQuery site).bufs = b.bufs := by
  unfold Bumas.auditQuery
  split <;> rfl

theorem Bumas.auditAnswer_bufs : b.auditAnswer.bufs = b.bufs := by
  unfold Bumas.auditAnswer
  split
  · rfl
  · dsimp only
    split
    · rfl
    · split
      · rfl
      · split <;> rfl

theorem Bumas.seal_bufs (n size : Nat) : (b.seal n size).bufs = b.bufs := Bumas.close_bufs _ _ _ _

theorem Bumas.auditWrite_bufs (addr : BitVec 21) (data : BitVec 512) (strb : BitVec 64) :
    (b.auditWrite addr data strb).bufs = b.bufs := by
  unfold Bumas.auditWrite
  dsimp only
  split
  · rfl
  · split
    · rfl
    · split
      · refine (Bumas.seal_bufs _ _ _).trans ?_
        split <;> rfl
      · split <;> rfl

theorem Bumas.slotExpire_bufs (n : Nat) : (b.slotExpire n).bufs = b.bufs := by
  unfold Bumas.slotExpire
  dsimp only
  split <;> rfl

theorem Bumas.clearDone_bufs (n : Nat) : (b.clearDone n).bufs = b.bufs := by
  unfold Bumas.clearDone
  split <;> rfl

theorem Bumas.droopEvent_bufs (d : Nat) (level : BitVec 16) : (b.droopEvent d level).bufs = b.bufs := by
  unfold Bumas.droopEvent
  dsimp only
  split <;> rfl

/-! The Tap link (chapter 5) -/

theorem Bumas.linkLost_bufs : b.linkLost.bufs = b.bufs := b.discardWhere_bufs _

theorem Bumas.setTrain_bufs (t : Train) : (b.setTrain t).bufs = b.bufs := by
  unfold Bumas.setTrain
  dsimp only
  split
  · exact Bumas.linkLost_bufs _
  · split <;> rfl

theorem Bumas.shaperSpend_bufs (c : Nat) : (b.shaperSpend c).bufs = b.bufs := by
  unfold Bumas.shaperSpend
  split <;> rfl

theorem Bumas.sendData_bufs (c : Nat) (t : TxRec) : (b.sendData c t).bufs = b.bufs := by
  unfold Bumas.sendData
  dsimp only
  split
  · exact b.shaperSpend_bufs c
  · split <;> exact b.shaperSpend_bufs c

theorem Bumas.ackNew_bufs (seq : BitVec 32) (status : Byte) (data : Word) : (b.ackNew seq status data).bufs = b.bufs := by
  unfold Bumas.ackNew
  dsimp only
  split <;> rfl

theorem Bumas.putInstr_bufs (buf : Bool) (i w : Nat) : (b.putInstr buf i w).bufs = b.bufs := rfl

theorem Bumas.exchange_bufs (t1 t2 t3 t4 : Int) : (b.exchange t1 t2 t3 t4).bufs = b.bufs := by
  unfold Bumas.exchange
  dsimp only
  split
  · rfl
  · split <;> rfl

theorem Bumas.reported_bufs (hold : Bool) : (b.reported hold).bufs = b.bufs := rfl

theorem Bumas.timeRx_bufs (t : TimeBlk) : (b.timeRx t).bufs = b.bufs := by
  unfold Bumas.timeRx
  dsimp only
  split
  · split
    · exact Bumas.exchange_bufs _ _ _ _ _
    · rfl
  · rfl

theorem Bumas.servo_bufs : b.servo.bufs = b.bufs := by
  unfold Bumas.servo
  dsimp only
  split
  · rfl
  · split <;> rfl

theorem Bumas.tickRx_bufs (t : TickBlk) : (b.tickRx t).bufs = b.bufs := by
  unfold Bumas.tickRx
  dsimp only
  split_ifs <;> rfl

end

end Sys2Proof.Machine
end

section
/-! PROOFS. The operations of the Bumas keep it sound (R84, R112, R116, R117, R122, R133). -/

namespace Sys2Proof.Machine

/-! ### Register writes -/

section

variable {b : Bumas} (h : b.Sound)
include h

/-- A validation that starts has not passed (R116). -/
theorem Bumas.Sound.startValidation (v : Word) : (b.startValidation v).Sound := { h with passed := nofun }

theorem Bumas.Sound.csrApply (who : BmAgent) (a : Nat) (v : Word) : (b.csrApply who a v).Sound := by
  unfold Bumas.csrApply
  split
  · exact h
  · split
    · exact { h with }
    · exact { h with }
    · dsimp only
      split
      · refine Bumas.Sound.startValidation ?_ _
        exact { h with }
      · exact { h with }
    · exact h

theorem Bumas.Sound.csrWrite (who : BmAgent) (a : Nat) (v : Word) : (b.csrWrite who a v).1.Sound := by
  unfold Bumas.csrWrite
  split
  · exact h.csrApply _ _ _
  · exact h

theorem Bumas.Sound.hostWrite (a : Nat) (v : Word) : (b.hostWrite a v).Sound := by
  have hw := h.csrWrite .host a v
  unfold Bumas.hostWrite
  dsimp only
  split <;> exact { hw with }

theorem Bumas.Sound.csrWrites (l : List (Nat × Word)) : (b.csrWrites l).b.Sound := by
  induction l generalizing b with
  | nil => exact h
  | cons e l ih =>
    unfold Bumas.csrWrites
    dsimp only
    split
    · exact ih (h.csrWrite _ _ _)
    · exact h

/-! ### The run of the probe sequencer -/

theorem Bumas.Sound.closeRun (typ cls : Nat) (payload : List Byte) (part : Bool) : (b.closeRun typ cls payload part).Sound :=
  { h.of_bufs (b.close_bufs (b.mkRec typ cls payload part) none none) with }

theorem Bumas.Sound.summary (status faultPc cause : Nat) (part : Bool) : (b.summary status faultPc cause part).Sound :=
  h.of_bufs (b.close_bufs _ _ _)

theorem Bumas.Sound.closeBlock (part : Bool) : (b.closeBlock part).Sound := by
  unfold Bumas.closeBlock
  split
  · refine Bumas.Sound.closeRun ?_ _ _ _ _
    exact { h with block := nofun }
  · exact h

/-- At its end no run is left that could leave its program (R132). -/
theorem Bumas.Sound.endRun (status faultPc cause : Nat) (part : Bool) : (b.endRun status faultPc cause part).Sound :=
  { (h.closeBlock part).summary status faultPc cause part with running := nofun }

theorem Bumas.Sound.probeFault (cause pc : Nat) : (b.probeFault cause pc).Sound := by
  refine Bumas.Sound.endRun ?_ _ _ _ _
  exact { h with }

theorem Bumas.Sound.setSreg (i : BitVec 4) (v : Word) : (b.setSreg i v).Sound := by
  unfold Bumas.setSreg BmProbe.setReg
  split <;> exact { h with }

/-- A run goes on only to an instruction of its program; else it ends. -/
theorem Bumas.Sound.advance (n : Nat) (target : Option Int) : (b.advance n target).Sound := by
  unfold Bumas.advance
  dsimp only
  split
  · next ht => exact { h with running := fun hr => ⟨(h.running hr).1, by dsimp only; omega⟩ }
  · refine Bumas.Sound.probeFault ?_ _ _
    exact { h with }

end

/-- What an instruction gives leaves the Bumas sound. -/
inductive ProbeRes.Sound : ProbeRes → Prop
  | done {b : Bumas} {n : Nat} {target : Option Int} (h : b.Sound) : ProbeRes.Sound (.done b n target)
  | waits {b : Bumas} {w : ProbeWait} (h : b.Sound) : ProbeRes.Sound (.waits b w)
  | fault {cause : Nat} : ProbeRes.Sound (.fault cause)

/-- An instruction is issued, and the run goes past it, waits or ends (R111, R115). -/
theorem Bumas.Sound.probeStep {b : Bumas} (h : b.Sound) (op v : Nat) (o : ProbeOp) (f : Bumas → ProbeRes)
    (hf : ∀ b : Bumas, b.Sound → (f b).Sound) : (Bumas.probeStep op v o f b).Sound := by
  have h0 : ({ b with pcsReq := false } : Bumas).Sound := { h with }
  have hres := hf _ h0
  unfold Bumas.probeStep
  dsimp only
  split
  · split
    · next hdone =>
      rw [hdone] at hres
      cases hres with | done h1 => exact h1.advance _ _
    · next hwaits =>
      rw [hwaits] at hres
      cases hres with | waits h1 => exact { h1 with }
    · exact h0.probeFault _ _
  · exact h

section

variable {b : Bumas} (h : b.Sound)
include h

theorem Bumas.Sound.probeAlu (o : ProbeOp) (n : Nat) (f : Bumas → Word) : (probeAlu o n f b).Sound := .done (h.setSreg _ _)

theorem Bumas.Sound.probeCounter (o : ProbeOp) (f : Bumas → Nat → Word) : (probeCounter o f b).Sound := by
  unfold Machine.probeCounter
  dsimp only
  split
  · exact .fault
  · exact .done (h.setSreg _ _)

theorem Bumas.Sound.probeBranch (o : ProbeOp) (c : Bumas → Bool) : (probeBranch o c b).Sound := by
  unfold Machine.probeBranch
  split <;> exact .done h

theorem Bumas.Sound.pcsamp (m : PcMode) (stride : Nat) : (pcsamp m stride b).Sound := by
  unfold Machine.pcsamp
  split
  · exact .done h
  · split <;> exact .done { h with }

theorem Bumas.Sound.waitt (w : ProbeWait) : (waitt w b).Sound := by
  unfold Machine.waitt
  split
  · exact .done h
  · exact .waits h

theorem Bumas.Sound.histAdd (i v n : Nat) : (b.histAdd i v n).Sound := { h with }

theorem Bumas.Sound.emitFull : b.emitFull.Sound := { h with }

/-- What fits the emit buffer is used of it (R112). -/
theorem Bumas.Sound.emitUse {n : Nat} (hn : b.emitFits n = true) : (b.emitUse n).Sound :=
  { h with emit := of_decide_eq_true hn }

/-- An entry of at most 16 KiB leaves a block of at most 16 KiB (R133). -/
theorem Bumas.Sound.addEntry {e : List Byte} (he : e.length ≤ 16384) : (b.addEntry e).Sound := by
  have start {c : Bumas} (hc : c.Sound) : ({ c with probe := { c.probe with block := some e } } : Bumas).Sound :=
    { hc with block := by rintro p ⟨⟩; exact he }
  unfold Bumas.addEntry
  split
  · exact start h
  · split
    · next hfit => exact { h with block := by rintro p ⟨⟩; simpa using hfit }
    · exact start (h.closeBlock false)

theorem Bumas.Sound.emitEntry {e : List Byte} (he : e.length ≤ 16384) : (emitEntry b e).Sound := by
  unfold Machine.emitEntry
  split
  · next hfit => exact .done ((h.emitUse hfit).addEntry he)
  · exact .done h.emitFull

theorem Bumas.Sound.emitRecord (typ cls : Nat) (payload : Bumas → List Byte) : (emitRecord typ cls payload b).Sound := by
  unfold Machine.emitRecord
  dsimp only
  split
  · next hfit => exact .done ((h.emitUse hfit).closeRun _ _ _ _)
  · exact .done h.emitFull

end

/-! ### Sizes of COUNTER_BLOCK entries (R133) -/

theorem length_cbEntry (id kind n : Nat) (words : List Byte) : (cbEntry id kind n words).length = words.length + 8 := by
  simp [cbEntry, length_leBytes]
  omega

theorem length_flatten_leBytes {α : Type} (n : Nat) (f : α → Nat) (l : List α) :
    (l.map fun x => leBytes n (f x)).flatten.length = l.length * n := by
  simp [List.length_flatten, Function.comp_def, length_leBytes]

/-- A range of a split EMIT.K fits an empty block. -/
theorem splitRange_le (f used c n : Nat) : ∀ r ∈ splitRange f used c n, r.2 ≤ 2047 := by
  induction f generalizing used c n with
  | zero => simp [splitRange]
  | succ f ih =>
    unfold splitRange
    dsimp only
    split
    · simp
    · split
      · exact ih _ _ _
      · intro r hr
        rcases List.mem_cons.1 hr with rfl | hr
        · dsimp only
          omega
        · exact ih _ _ _ r hr

section

variable {b : Bumas} (h : b.Sound)
include h

/-- The ranges of an EMIT.K, one after another. -/
theorem Bumas.Sound.addEntries (rs : List (Nat × Nat)) (hrs : ∀ r ∈ rs, r.2 ≤ 2047) :
    (rs.foldl (fun b r => b.addEntry (cbEntry r.1 2 r.2 (b.deltas r.1 r.2))) b).Sound := by
  refine List.foldlRecOn (motive := Bumas.Sound) _ _ h fun c hc r hr => hc.addEntry ?_
  have hle := hrs r hr
  rw [length_cbEntry, Bumas.deltas, length_flatten_leBytes, List.length_range]
  omega

/-! ### THRESH.MI (R121 to R123) -/

theorem Bumas.Sound.emitLong (p : List Byte) : (b.emitLong p).1.Sound := by
  unfold Bumas.emitLong
  split
  · next hfit => exact (h.emitUse hfit).closeRun _ _ _ _
  · exact h.emitFull

/-- The open table takes an entry only where it has room (R122). -/
theorem Bumas.Sound.miMark (base thr n : Nat) (m : Mark) : (miMark base thr (b, n) m).1.Sound := by
  unfold Machine.miMark
  dsimp only
  split
  · exact { h with }
  · split
    · exact { h with opens := Nat.zero_le _ }
    · split
      · split
        · next hroom => exact { h with opens := by simpa using hroom }
        · exact { h with }
      · split
        · split
          · exact { h with }
          · next e _ =>
            have herase : ({ b with probe := { b.probe with opens := b.probe.opens.erase e } } : Bumas).Sound :=
              { h with opens := List.length_erase_le.trans h.opens }
            split
            · exact herase.emitLong _
            · exact herase
        · exact h

theorem Bumas.Sound.miOpen (thr n : Nat) (e : OpenEnt) : (miOpen thr (b, n) e).1.Sound := by
  unfold Machine.miOpen
  dsimp only
  split
  · split
    · exact { h.emitLong _ with opens := by simpa using (h.emitLong _).opens }
    · exact h.emitLong _
  · exact h

theorem Bumas.Sound.miMarks (base thr n : Nat) (l : List Mark) : (l.foldl (Machine.miMark base thr) (b, n)).1.Sound :=
  List.foldlRecOn (motive := fun x : Bumas × Nat => x.1.Sound) _ _ h fun _ hx m _ => hx.miMark base thr _ m

theorem Bumas.Sound.miOpens (thr n : Nat) (l : List OpenEnt) : (l.foldl (Machine.miOpen thr) (b, n)).1.Sound :=
  List.foldlRecOn (motive := fun x : Bumas × Nat => x.1.Sound) _ _ h fun _ hx e _ => hx.miOpen thr _ e

theorem Bumas.Sound.miScan (base thr : Nat) : (b.miScan base thr).1.Sound := by
  have h0 : ({ b with probe := { b.probe with scanned := true } } : Bumas).Sound := { h with }
  exact (h0.miMarks base thr 0 _).miOpens thr _ _

theorem Bumas.Sound.miCut (c : ProbeCut) : (b.miCut c).Sound := by
  have h0 : ({ b with probe := { b.probe with scanned := true } } : Bumas).Sound := { h with }
  unfold Bumas.miCut
  dsimp only
  split
  · exact h
  · split
    · exact h0.miMarks _ _ _ _
    · exact (h0.miMarks _ _ _ _).miOpens _ _ _

/-! ### Validation, the limit and waits (R109, R116, R117) -/

/-- Only a program of 1 to 1,024 words passes. -/
theorem Bumas.Sound.valDone : b.valDone.Sound := by
  unfold Bumas.valDone
  split
  · exact h
  · dsimp only
    split
    · exact { h with passed := nofun }
    · next hlen =>
      split
      · exact { h with passed := nofun }
      · exact { h with passed := fun _ => by dsimp only; omega }

theorem Bumas.Sound.overrun (cut : Option ProbeCut) : (b.overrun cut).Sound := by
  unfold Bumas.overrun
  split
  · refine Bumas.Sound.endRun ?_ _ _ _ _
    cases cut with
    | none => exact { h with }
    | some c => exact { h.miCut c with }
  · exact h

theorem Bumas.Sound.waitDone (n : Nat) : (b.waitDone n).Sound := by
  have h0 : ({ b with probe := { b.probe with wait := none } } : Bumas).Sound := { h with }
  unfold Bumas.waitDone
  split
  · exact h
  · split
    · exact h
    · dsimp only
      split
      · exact h0.advance _ _
      · split
        · exact h0.advance _ _
        · exact h

end

/-! ### The boundary (R83, R107, R110, R117) -/

/-- The Bumas with its run at the first word, to which a boundary takes it back (R108). A swap is judged before that, while the
counter of an old run may lie outside the new program. -/
def Bumas.rewound (b : Bumas) : Bumas := { b with probe := { b.probe with pc := 0 } }

theorem Bumas.rewound_bufs {b c : Bumas} (e : c.bufs = b.bufs) : c.rewound.bufs = b.rewound.bufs :=
  congrArg (fun x : MarkLatch × MarkLatch × BmProbe => (x.1, x.2.1, { x.2.2 with pc := 0 })) e

/-- A run starts at the first word of a validated program, with its buffers empty (R108, R112). -/
theorem Bumas.Sound.startRun {b : Bumas} (hr : b.rewound.Sound) : b.startRun.Sound := by
  have h1 : ({ b with probe := { b.probe with
      pc := 0, hists := [], alert := 0, emitUsed := 0, block := none, closed := 0, instrs := 0, cycles := 0,
      emitFull := false, wait := none, scanned := false, unmatched := 0, tabOver := 0 } } : Bumas).Sound :=
    { hr with emit := Nat.zero_le _, block := nofun }
  unfold Bumas.startRun
  dsimp only
  split
  · exact h1
  · split
    · next hv =>
      have hvalid := (Bool.and_eq_true_iff.1 hv).1
      exact { h1 with running := fun _ => ⟨hvalid, (h1.valid hvalid).1⟩ }
    · exact h1.summary _ _ _ _

section

variable {b : Bumas} (h : b.Sound)
include h

/-- The markers of the tick that ends become those of the closed interval. -/
theorem Bumas.Sound.snapshot : b.snapshot.Sound := { h with marks := Nat.zero_le _, marksP := h.marks }

theorem Bumas.Sound.rewound : b.rewound.Sound :=
  { h with running := fun hr => ⟨(h.running hr).1, Nat.zero_lt_of_lt (h.running hr).2⟩ }

/-- The program that takes over is one that passed validation, and a run is in its bounds from the first word (R116, R117). -/
theorem Bumas.Sound.judgeSwap : b.judgeSwap.rewound.Sound := by
  have hr := h.rewound
  unfold Bumas.judgeSwap
  dsimp only
  split
  · exact { hr with }
  · split
    · exact { hr with }
    · split
      · exact { hr with }
      · split
        · next hp =>
          have hlen := h.passed hp
          exact { hr with opens := Nat.zero_le _, valid := fun _ => hlen, running := fun _ => ⟨rfl, hlen.1⟩ }
        · exact { hr with }

theorem Bumas.Sound.atTick (t : BmTime) (thr : BitVec 32) : ({ b with time := t, thrPrev := thr } : Bumas).Sound := { h with }

/-- R83: closing the tick, taking the snapshot, judging the swap and starting the run. -/
theorem Bumas.Sound.boundary (khz : BitVec 21) : (b.boundary khz).Sound := by
  unfold Bumas.boundary
  split
  · exact h
  · extract_lets b0 thr written b1 b2 b3 b4 b5 b6 b7
    have h1 : b1.Sound := Bumas.Sound.snapshot ((h.overrun none).of_bufs
      ((Bumas.swapSnoop_bufs _ written).trans (Bumas.latchStats_bufs _)))
    have h2 : b2.Sound := h1.atTick b1.time.boundary thr
    have e3 : b3.bufs = b2.bufs :=
      (Bumas.bumpAlive_bufs _ _).trans ((Bumas.refillWritten_bufs _ _).trans b2.commitRwt_bufs)
    have e4 : b4.bufs = b3.bufs := (Bumas.wr_bufs _ _ _).trans (b3.wr_bufs _ _)
    have e5 : b4.dropDisabled.applySlotSize.bufs = b4.bufs := (Bumas.applySlotSize_bufs _).trans b4.dropDisabled_bufs
    have h5 : b5.rewound.Sound := (h2.of_bufs (e5.trans (e4.trans e3))).judgeSwap
    have e6 : b6.bufs = b5.bufs := (Bumas.startRounds_bufs _).trans b5.closeLoss_bufs
    have e7 : b7.bufs = b6.bufs := by
      unfold b7
      split <;> rfl
    exact Bumas.Sound.startRun (h5.of_bufs (Bumas.rewound_bufs (e7.trans e6)))

/-! ### Blocks of the Tap link (R139 to R159) -/

theorem Bumas.Sound.afterAck (seq : BitVec 32) : (b.afterAck seq).Sound := by
  unfold Bumas.afterAck
  split
  · split
    · dsimp only
      split
      · exact Bumas.sound_reset.of_bufs rfl
      · exact h.of_bufs (Bumas.setTrain_bufs _ _)
    · exact h
  · exact h

theorem Bumas.Sound.blockSlot : b.blockSlot.Sound := by
  unfold Bumas.blockSlot
  split
  · exact h
  · split
    · refine Bumas.Sound.afterAck ?_ _
      exact { h with }
    · split
      · exact { h with }
      · split
        · split
          · exact h.of_bufs (b.sendData_bufs _ _)
          · exact h
        · exact { h with }

/-- A received block leaves the Bumas sound where its effect does (R140). -/
theorem Bumas.Sound.receive (k : BlkCheck) {f : Bumas → Bumas} (hf : (f b).Sound) : (b.receive k f).Sound := by
  unfold Bumas.receive
  dsimp only
  split
  · exact h
  · split
    · exact hf
    · exact { h with }

/-- A received command leaves the Bumas sound where its execution does (R151). -/
theorem Bumas.Sound.tapCmd (c : TapCmd) {f : Bumas → CmdRes} (hf : (f b).b.Sound) : (b.tapCmd c f).Sound := by
  refine h.receive _ ?_
  dsimp only
  split
  · exact hf.of_bufs (Bumas.ackNew_bufs _ _ _ _)
  · split
    · exact h
    · split
      · split <;> exact { h with }
      · exact { h with }

theorem Bumas.Sound.tapCmdLen (c : TapCmd) (n : Nat) {f : Bumas → CmdRes} (hf : (f b).b.Sound) : (b.tapCmdLen c n f).Sound := by
  refine h.tapCmd c ?_
  split
  · exact hf
  · exact h

/-! ### Markers, pins and the clocks (R84, R100 to R102, R155) -/

/-- The marker latch takes a marker only where it has room (R84). -/
theorem Bumas.Sound.marker (id : BitVec 16) (arg : BitVec 32) : (b.marker id arg).Sound := by
  unfold Bumas.marker
  split
  · exact h
  · split
    · exact { h with }
    · split
      · next hroom => exact { h with marks := by simpa using hroom }
      · exact { h with }

theorem Bumas.Sound.pwrRise : b.pwrRise.Sound := by
  unfold Bumas.pwrRise
  split
  · exact h
  · split <;> exact { h with }

theorem Bumas.Sound.rstRelease : b.rstRelease.Sound := by
  unfold Bumas.rstRelease
  split <;> exact { h with }

theorem Bumas.Sound.idle : b.idle.Sound := by
  unfold Bumas.idle
  dsimp only
  split <;> exact { h with }

end

theorem Bumas.sound_resetBy (b : Bumas) (c : RstCause) : (b.resetBy c).Sound := { Bumas.sound_reset with }

end Sys2Proof.Machine
end

section
/-! PROOFS. Every command keeps the Bumas sound. -/

namespace Sys2Proof.Machine

/-! ### Ways of running a command -/

/-- The answer of a command in the state `s` leaves a sound Bumas sound. -/
def KeepsSound (s : State) (r : Answer) : Prop := s.bm.Sound → ∀ t, r = .next t → t.bm.Sound

/-- A pin command does where its update does. -/
theorem KeepsSound.pins {s : State} {f : Bumas → Bumas} (hf : ∀ b : Bumas, b.Sound → (f b).Sound) :
    KeepsSound s (onBumasPins f s) := by
  intro hs t ht
  cases ht
  exact hf _ hs

/-- A command of the Bumas does where its update does. -/
theorem KeepsSound.bumas {s : State} {f : Bumas → Bumas} (hf : ∀ b : Bumas, b.Sound → (f b).Sound) :
    KeepsSound s (onBumas f s) := by
  intro hs t ht
  obtain ⟨-, rfl⟩ | ⟨-, rfl⟩ := onBumas_cases f s t ht
  · exact hf _ hs
  · exact hs

/-- Or where its update leaves the latches and the sequencer alone. -/
theorem KeepsSound.bufs {s : State} {f : Bumas → Bumas} (hf : ∀ b : Bumas, (f b).bufs = b.bufs) : KeepsSound s (onBumas f s) :=
  .bumas fun b h => h.of_bufs (hf b)

/-- An instruction of the probe sequencer does where its operation does (R108, R115). -/
theorem KeepsSound.probe {s : State} {op v : Nat} {o : ProbeOp} {f : Bumas → ProbeRes}
    (hf : ∀ b : Bumas, b.Sound → (f b).Sound) : KeepsSound s (probeExec op v o f s) :=
  .bumas fun _ h => h.probeStep op v o f hf

/-- A command of the Glexon leaves the Bumas as it is. -/
theorem KeepsSound.glexon {s : State} (g : Glexon) : KeepsSound s (.next { s with gx := g }) := by
  intro hs t ht
  cases ht
  exact hs

theorem KeepsSound.trainAt {s : State} (e : LinkEnd) (f : Train → Bool → Train) : KeepsSound s (trainAt e f s) := by
  cases e with
  | bumas => exact .bufs fun b => b.setTrain_bufs _
  | port p => exact .glexon _

/-! ### Commands of more than one branch -/

section

variable {s : State}

theorem keepsSound_hostCsrWrite (addr : BitVec 13) (data : Word) : KeepsSound s (execHostCsrWrite addr data s) := by
  refine .pins fun b h => ?_
  split
  · exact h.hostWrite _ _
  · exact { h with }

theorem keepsSound_bmTimeSecRead : KeepsSound s (execBmTimeSecRead s) := by
  refine .pins fun b h => ?_
  dsimp only
  split <;> exact { h with }

theorem keepsSound_programSwap (byTap : Bool) (data : Word) : KeepsSound s (execProgramSwap byTap data s) := by
  refine .pins fun b h => ?_
  split
  · split
    · exact h.csrWrite _ _ _
    · exact h
  · split
    · exact h.hostWrite _ _
    · exact { h with }

theorem keepsSound_probeEnd (o : ProbeOp) : KeepsSound s (execProbeEnd o s) := by
  refine .bumas fun b h => ?_
  dsimp only
  split
  · refine Bumas.Sound.endRun ?_ _ _ _ _
    exact { h with }
  · exact h

theorem keepsSound_snapE (o : ProbeOp) : KeepsSound s (execSnapE o s) := by
  refine .probe fun b h => ?_
  split
  · exact .done (h.setSreg _ _)
  · split
    · exact .done (h.setSreg _ _)
    · exact .fault

theorem keepsSound_orK (o : ProbeOp) : KeepsSound s (execOrK o s) := by
  refine .probe fun b h => ?_
  split
  · exact .fault
  · exact .done (h.setSreg _ _)

theorem keepsSound_threshC (o : ProbeOp) : KeepsSound s (execThreshC o s) := by
  refine .probe fun b h => ?_
  dsimp only
  split
  · refine .done (Bumas.Sound.setSreg ?_ _ _)
    exact { h with }
  · exact .done (h.setSreg _ _)

theorem keepsSound_threshMi (o : ProbeOp) : KeepsSound s (execThreshMi o s) := by
  refine .probe fun b h => ?_
  dsimp only
  split
  · exact .fault
  · split
    · exact .done (h.setSreg _ _)
    · exact .done ((h.miScan _ _).setSreg _ _)

theorem keepsSound_emitW (o : ProbeOp) : KeepsSound s (execEmitW o s) :=
  .probe fun b h => h.emitEntry (by simp [length_cbEntry, length_leBytes])

theorem keepsSound_emitH (o : ProbeOp) : KeepsSound s (execEmitH o s) :=
  .probe fun b h => h.emitEntry (by rw [length_cbEntry, length_flatten_leBytes, List.length_range]; decide)

theorem keepsSound_emitK (o : ProbeOp) : KeepsSound s (execEmitK o s) := by
  refine .probe fun b h => ?_
  dsimp only
  split
  · exact .fault
  · split
    · exact .fault
    · split
      · next hfit => exact .done ((h.emitUse hfit).addEntries _ (splitRange_le _ _ _ _))
      · exact .done h.emitFull

theorem keepsSound_emitRMarker (o : ProbeOp) : KeepsSound s (execEmitRMarker o s) := by
  unfold execEmitRMarker
  split
  · exact .glexon s.gx
  · refine .probe fun b h => ?_
    split
    · exact h.emitRecord _ _ _
    · exact .fault

theorem keepsSound_emitRPcSamples (o : ProbeOp) : KeepsSound s (execEmitRPcSamples o s) := by
  refine .probe fun b h => Bumas.Sound.emitRecord ?_ _ _ _
  exact { h with }

theorem keepsSound_csrWrite (c : TapCmd) : KeepsSound s (execCsrWrite c s) := by
  refine .bumas fun b h => h.tapCmd c ?_
  dsimp only
  split
  · exact h.csrWrites _
  · exact h

theorem keepsSound_csrRead (c : TapCmd) : KeepsSound s (execCsrRead c s) := by
  refine .bumas fun b h => h.tapCmdLen c _ ?_
  dsimp only
  split
  · exact { h with }
  · exact h

theorem keepsSound_progLoad (c : TapCmd) : KeepsSound s (execProgLoad c s) := by
  refine .bumas fun b h => h.tapCmd c ?_
  dsimp only
  split
  · exact h
  · split
    · exact h
    · dsimp only
      exact h.of_bufs (foldl_bufs _ (fun c k => c.putInstr_bufs _ _ _) _ b)

theorem keepsSound_tapGreyout (c : TapCmd) : KeepsSound s (execTapGreyout c s) := by
  refine .bumas fun b h => h.tapCmdLen c _ ?_
  dsimp only
  split
  · exact h
  · refine List.foldlRecOn (motive := Bumas.Sound) _ _ h fun b hb k _ => ?_
    split
    · exact hb.csrApply _ _ _
    · exact hb

theorem keepsSound_tapBlackout (c : TapCmd) : KeepsSound s (execTapBlackout c s) := by
  refine .bumas fun b h => h.tapCmdLen c _ ?_
  dsimp only
  split
  · exact h
  · dsimp only
    exact h.csrApply _ _ _

theorem keepsSound_auditThresh (c : TapCmd) : KeepsSound s (execAuditThresh c s) := by
  refine .bumas fun b h => h.tapCmdLen c _ ?_
  dsimp only
  exact h.csrApply _ _ _

theorem keepsSound_tapReset (c : TapCmd) : KeepsSound s (execTapReset c s) := by
  refine .bumas fun b h => h.tapCmdLen c _ ?_
  dsimp only
  split
  · exact { h with }
  · exact h

theorem keepsSound_linkRetrain (c : TapCmd) : KeepsSound s (execLinkRetrain c s) := by
  refine .bumas fun b h => h.tapCmdLen c _ ?_
  dsimp only
  split
  · exact { h with }
  · exact h

theorem keepsSound_badOpcode (opcode : BitVec 16) (c : TapCmd) : KeepsSound s (execBadOpcode opcode c s) := by
  refine .bumas fun b h => ?_
  split
  · exact h
  · exact h.tapCmd c h

theorem keepsSound_linkInit (e : LinkEnd) (two fresh : Bool) : KeepsSound s (execLinkInit e two fresh s) := by
  cases e with
  | bumas => exact .bufs fun b => b.setTrain_bufs _
  | port p => exact .glexon _

theorem keepsSound_registerWrite (n : BitVec 6) (a : BitVec 48) (v : Word) : KeepsSound s (execRegisterWrite n a v s) := by
  unfold execRegisterWrite
  dsimp only
  split <;> exact .glexon _

theorem keepsSound_badReq (opcode : BitVec 16) (q : MbxReq) : KeepsSound s (execBadReq opcode q s) := by
  unfold execBadReq
  split
  · exact .glexon s.gx
  · exact .glexon _

end

/-! ### Every command -/

/-- The groups say which of the ways above each command takes. -/
theorem keepsSound_exec (i : Instr) (s : State) : KeepsSound s (exec i s) := by
  cases i <;> dsimp only [exec]
  -- pins and the host's register port
  case bmPwrOkFall => exact .pins fun b _ => Bumas.sound_resetBy _ _
  case bmRstNAssert => exact .pins fun b _ => Bumas.sound_resetBy _ _
  case bmPwrOkRise => exact .pins fun b h => h.pwrRise
  case bmRstNRelease => exact .pins fun b h => h.rstRelease
  case hostCsrWrite addr data => exact keepsSound_hostCsrWrite addr data
  case bmTimeSecRead => exact keepsSound_bmTimeSecRead
  case programSwap byTap data => exact keepsSound_programSwap byTap data
  -- chapter 3
  case clkGap | pcWindowClose | droopRecovery | thermalRoundDone | voltageRoundDone => exact .bufs fun _ => rfl
  case eventCount => exact .bufs fun b => b.eventCount_bufs _ _
  case energyIncrement => exact .bufs fun b => b.energyInc_bufs _
  case markerCapture => exact .bumas fun b h => h.marker _ _
  case pcSample => exact .bufs fun b => b.pcSample_bufs _ _ _
  case snoopBeat => exact .bufs fun b => b.snoopBeat_bufs _
  case auditQuery => exact .bufs fun b => b.auditQuery_bufs _
  case auditAnswer => exact .bufs fun b => b.auditAnswer_bufs
  case auditWindowWrite => exact .bufs fun b => b.auditWrite_bufs _ _ _
  case auditSlotExpire => exact .bufs fun b => b.slotExpire_bufs _
  case auditSlotClearDone => exact .bufs fun b => b.clearDone_bufs _
  case droopEvent => exact .bufs fun b => b.droopEvent_bufs _ _
  case bumasBoundary => exact .bumas fun b h => h.boundary _
  -- the probe sequencer
  case programValidationDone => exact .bumas fun b h => h.valDone
  case probeOverrun => exact .bumas fun b h => h.overrun _
  case probeWaitDone => exact .bumas fun b h => h.waitDone _
  case probeEnd o => exact keepsSound_probeEnd o
  case snapC | snapP | deltaC => exact .probe fun b h => h.probeCounter _ _
  case snapS | deltaE | probeSel | probeAdd | probeAddI | probeSub | probeSubI | probeAnd | probeAndI | probeOr | probeOrI | shfL |
      shfR | shfA | shfO | probeCmpEq | probeCmpNe | probeCmpLtu | probeCmpGeu | probeCmpLt | probeCmpGe =>
    exact .probe fun b h => h.probeAlu _ _ _
  case snapE o => exact keepsSound_snapE o
  case orK o => exact keepsSound_orK o
  case probeBr | probeBrZ | probeBrNz => exact .probe fun b h => h.probeBranch _ _
  case histV | histW => exact .probe fun b h => .done (h.histAdd _ _ _)
  case threshC o => exact keepsSound_threshC o
  case threshMi o => exact keepsSound_threshMi o
  case emitW o => exact keepsSound_emitW o
  case emitH o => exact keepsSound_emitH o
  case emitK o => exact keepsSound_emitK o
  case emitRMarker o => exact keepsSound_emitRMarker o
  case emitRPcSamples o => exact keepsSound_emitRPcSamples o
  case emitRDigest | emitRSensor | emitREnergy => exact .probe fun b h => h.emitRecord _ _ _
  case pcsampF | pcsampS | pcsampH => exact .probe fun b h => h.pcsamp _ _
  case digsetS | digsetE | adcstartT | adcstartV => exact .probe fun b h => .done (h.congr rfl rfl rfl)
  case waittT | waittA | waittP => exact .probe fun b h => h.waitt _
  -- the Tap link
  case tapQueueAgeOut => exact .bufs fun b => b.discardWhere_bufs _
  case bumasBlockSlot => exact .bumas fun b h => h.blockSlot
  case creditReceive => exact .bumas fun b h => h.receive _ (h.of_bufs rfl)
  case tapNop c => exact .bumas fun b h => h.tapCmdLen c _ h
  case csrWrite c => exact keepsSound_csrWrite c
  case csrRead c => exact keepsSound_csrRead c
  case progLoad c => exact keepsSound_progLoad c
  case tapGreyout c => exact keepsSound_tapGreyout c
  case tapBlackout c => exact keepsSound_tapBlackout c
  case auditThresh c => exact keepsSound_auditThresh c
  case tapReset c => exact keepsSound_tapReset c
  case linkRetrain c => exact keepsSound_linkRetrain c
  case badOpcode opcode c => exact keepsSound_badOpcode opcode c
  case timeReceive => exact .bumas fun b h => h.receive _ (h.of_bufs (b.timeRx_bufs _))
  case tickReceive => exact .bumas fun b h => h.receive _ (h.of_bufs (b.tickRx_bufs _))
  case bumasServoUpdate => exact .bufs fun b => b.servo_bufs
  case signalDetect | trainDone | codewordLock | deskewDone | trainingTimeout | laneFail => exact .trainAt _ _
  case linkInit e two fresh => exact keepsSound_linkInit e two fresh
  -- the Glexon
  case registerWrite n a v => exact keepsSound_registerWrite n a v
  case badReq opcode q => exact keepsSound_badReq opcode q
  all_goals exact .glexon _

/-- Settles O4: a command keeps the Bumas sound, and so does a cycle of the clocks. -/
theorem everyStepKeepsTheBumasSound : Obligations.EveryStepKeepsTheBumasSound := by
  intro s t hs ht
  unfold step at ht
  split at ht
  · cases ht
    change (if s.bm.alive then s.bm.idle else s.bm).Sound
    split
    · exact hs.idle
    · exact hs
  · refine keepsSound_exec _ _ ?_ t ht
    exact hs

end Sys2Proof.Machine
end

section
/-! PROOFS. What a record that closes leaves alone on its way into the Tap transmit queue (R132, R145 to R150). -/

namespace Sys2Proof.Machine

/-- A write leaves what another index reads alone, whatever an unlisted index reads as. -/
theorem SMap.get_put_ne {α : Type} [DecidableEq α] (d d' : α) (m : SMap α) {k i : Nat} (v : α) (h : i ≠ k) :
    SMap.get d (SMap.put d' m k v) i = SMap.get d m i := by
  induction m with
  | nil => by_cases hv : v = d' <;> simp [SMap.put, SMap.get, hv, h]
  | cons e m ih =>
    simp only [SMap.put]
    split
    · next hk =>
      have hi : i ≠ e.1 := hk ▸ h
      split <;> simp [SMap.get, h, hi, ih]
    · split
      · simp [SMap.get, h]
      · simp [SMap.get, ih]

/-- Putting a register of the window in force leaves every other register alone. -/
theorem Bumas.rd_wr_other (b : Bumas) {a c : Nat} (v : Word) (h : c ≠ a) : (b.wr a v).rd c = b.rd c := SMap.get_put_ne _ _ _ _ h

/-- The Bumas without what a closing record may touch: the registers (BM_TAP_DROP_c), the Tap endpoint and the audit slots. -/
def Bumas.withoutTx (b : Bumas) : Bumas := { b with regs := [], tap := {}, audit := { b.audit with slots := [] } }

/-- The registers BM_TAP_DROP_c, for every class that a record can have, do not reach `a`. -/
def ClearOfDrops (a : Nat) : Prop := a < Reg.BM_TAP_DROP 0 ∨ Reg.BM_TAP_DROP 16 ≤ a

theorem ClearOfDrops.ne {a c : Nat} (h : ClearOfDrops a) (hc : c < 16) : a ≠ Reg.BM_TAP_DROP c := by
  simp only [ClearOfDrops, Reg.BM_TAP_DROP] at *
  omega

/-- `c` is `b` but for what the transmit queue does with records: no sequence number is taken. -/
structure Bumas.SameButTx (b c : Bumas) : Prop where
  rest : c.withoutTx = b.withoutTx
  seq  : c.tap.seq = b.tap.seq
  rd   : ∀ a, ClearOfDrops a → c.rd a = b.rd a

namespace Bumas.SameButTx

theorem refl (b : Bumas) : b.SameButTx b := ⟨rfl, rfl, fun _ _ => rfl⟩

theorem trans {b c d : Bumas} (h : b.SameButTx c) (k : c.SameButTx d) : b.SameButTx d :=
  ⟨k.rest.trans h.rest, k.seq.trans h.seq, fun a ha => (k.rd a ha).trans (h.rd a ha)⟩

/-- A change of the transmit queue and its counts, and of audit slots, alone. -/
theorem of_regs {b c : Bumas} (hrest : c.withoutTx = b.withoutTx) (hseq : c.tap.seq = b.tap.seq) (hregs : c.regs = b.regs) :
    b.SameButTx c :=
  ⟨hrest, hseq, fun _ _ => congrArg (SMap.get _ · _) hregs⟩

/-- A series of such operations is one. -/
theorem foldl {α : Type} {f : Bumas → α → Bumas} (hf : ∀ (b : Bumas) a, b.SameButTx (f b a)) (l : List α) (b : Bumas) :
    b.SameButTx (l.foldl f b) :=
  List.foldlRecOn (motive := b.SameButTx) _ _ (refl b) fun c hc a _ => hc.trans (hf c a)

end Bumas.SameButTx

section

variable (b : Bumas)

/-- Only what waits in the transmit queue changes. -/
theorem Bumas.sameButTx_queue (q : List TxRec) : b.SameButTx { b with tap := { b.tap with q := q } } := .of_regs rfl rfl rfl

theorem Bumas.sameButTx_freeSlot (n : Nat) : b.SameButTx (b.freeSlot n) := .of_regs rfl rfl rfl

/-- A discarded record is counted in its class's drop register, or merges into the next LOSS record (R149, R150). -/
theorem Bumas.sameButTx_discard (t : TxRec) : b.SameButTx (b.discard t) := by
  have hdrop (v : Word) (x y : SMap Nat) : b.SameButTx
      { b.wr (Reg.BM_TAP_DROP t.r.cls.toNat) v with tap := { b.tap with lossRecs := x, lossWords := y } } :=
    ⟨rfl, rfl, fun a ha => b.rd_wr_other v (ha.ne t.r.cls.isLt)⟩
  unfold Bumas.discard
  split
  · exact .of_regs rfl rfl rfl
  · dsimp only
    split
    · exact (hdrop _ _ _).trans (Bumas.sameButTx_freeSlot _ _)
    · exact hdrop _ _ _

theorem Bumas.sameButTx_discardWhere (p : TxRec → Bool) : b.SameButTx (b.discardWhere p) :=
  (b.sameButTx_queue _).trans (.foldl Bumas.sameButTx_discard _ _)

theorem Bumas.sameButTx_pushTx (t : TxRec) : b.SameButTx (b.pushTx t) := by
  unfold Bumas.pushTx
  dsimp only
  split <;> exact .of_regs rfl rfl rfl

theorem Bumas.sameButTx_evictOne {b c : Bumas} {cls col : Nat} (h : b.evictOne cls col = some c) : b.SameButTx c := by
  unfold Bumas.evictOne at h
  split at h
  · cases h
    exact (b.sameButTx_queue _).trans (Bumas.sameButTx_discard _ _)
  · cases h

theorem Bumas.sameButTx_evictMauve (n need : Nat) : b.SameButTx (Bumas.evictMauve n b need) := by
  induction n generalizing b with
  | zero => exact .refl b
  | succ n ih =>
    unfold Bumas.evictMauve
    split
    · exact .refl b
    · split
      · next he => exact (Bumas.sameButTx_evictOne he).trans (ih _)
      · split
        · next he => exact (Bumas.sameButTx_evictOne he).trans (ih _)
        · split
          · next he => exact (Bumas.sameButTx_evictOne he).trans (ih _)
          · exact .refl b

theorem Bumas.sameButTx_evictIndigo (n need : Nat) : b.SameButTx (Bumas.evictIndigo n b need) := by
  induction n generalizing b with
  | zero => exact .refl b
  | succ n ih =>
    unfold Bumas.evictIndigo
    split
    · exact .refl b
    · split
      · next he => exact (Bumas.sameButTx_evictOne he).trans (ih _)
      · exact .refl b

/-- A metered record is queued, or discarded, after those it evicts (R149). -/
theorem Bumas.sameButTx_enqueue (t : TxRec) : b.SameButTx (b.enqueue t) := by
  have hroom : b.SameButTx (if t.r.cls.toNat = 1 then b.evictMauve b.tap.q.length (Rec.size t.r) else b) := by
    split
    · exact b.sameButTx_evictMauve _ _
    · exact .refl b
  unfold Bumas.enqueue
  extract_lets c size b1
  split
  · exact b.sameButTx_discard t
  · split
    · exact b.sameButTx_discard t
    · split
      · exact (b.sameButTx_evictIndigo _ _).trans (Bumas.sameButTx_pushTx _ t)
      · split
        · exact b.sameButTx_pushTx t
        · split
          · exact hroom.trans (Bumas.sameButTx_pushTx _ t)
          · exact hroom.trans (Bumas.sameButTx_discard _ t)

/-- The Bumas with the next sequence number taken (R132). -/
def Bumas.seqTaken (b : Bumas) : Bumas := { b with tap := { b.tap with seq := b.tap.seq + 1 } }

/-- A record that closes takes one sequence number (R132). -/
theorem Bumas.sameButTx_close (r : Rec) (slot : Option Nat) (loss : Option LossInfo) : b.seqTaken.SameButTx (b.close r slot loss) :=
  b.seqTaken.sameButTx_enqueue _

theorem Bumas.close_withoutTx (r : Rec) (slot : Option Nat) (loss : Option LossInfo) :
    (b.close r slot loss).withoutTx = b.withoutTx := (b.sameButTx_close r slot loss).rest

theorem Bumas.close_seq (r : Rec) (slot : Option Nat) (loss : Option LossInfo) : (b.close r slot loss).tap.seq = b.tap.seq + 1 :=
  (b.sameButTx_close r slot loss).seq

theorem Bumas.rd_close (r : Rec) (slot : Option Nat) (loss : Option LossInfo) {a : Nat} (ha : ClearOfDrops a) :
    (b.close r slot loss).rd a = b.rd a := (b.sameButTx_close r slot loss).rd a ha

end

end Sys2Proof.Machine
end

section
/-! PROOFS. How an instruction of the probe sequencer issues, and goes on, waits or faults (R111, R114, R115). -/

namespace Sys2Proof.Machine

/-- The Bumas with its run on the next word, one instruction and `n` cycles further. -/
def Bumas.past (b : Bumas) (n : Nat) : Bumas :=
  { b with probe := { b.probe with pc := b.probe.pc + 1, instrs := b.probe.instrs + 1, cycles := b.probe.cycles + n } }

/-- The Bumas as an issued instruction finds it: no sampling request is out. -/
def Bumas.issued (b : Bumas) : Bumas := { b with pcsReq := false }

/-- What an issued instruction makes of the run: it goes on, waits, or ends in a fault (R111, R115). -/
def Bumas.resolve (b : Bumas) : ProbeRes → Bumas
  | .done b1 n t => b1.advance n t
  | .waits b1 w => { b1 with probe := { b1.probe with wait := some w } }
  | .fault c => b.probeFault c b.probe.pc

/-- The result may be written before or after the run goes on. -/
theorem Bumas.past_setSreg (b : Bumas) (n : Nat) (i : BitVec 4) (v : Word) : (b.setSreg i v).past n = (b.past n).setSreg i v := by
  unfold Bumas.setSreg BmProbe.setReg Bumas.past
  split <;> rfl

/-- The result of an instruction leaves the run where it is. -/
theorem Bumas.setSreg_pc_len (b : Bumas) (i : BitVec 4) (v : Word) :
    (b.setSreg i v).probe.pc = b.probe.pc ∧ (b.setSreg i v).probe.len = b.probe.len := by
  unfold Bumas.setSreg BmProbe.setReg
  split <;> exact ⟨rfl, rfl⟩

theorem Bumas.advance_next {b : Bumas} (n : Nat) (h : b.probe.pc + 1 < b.probe.len) : b.advance n none = b.past n := by
  unfold Bumas.advance
  dsimp only [Option.getD_none]
  rw [if_pos (by omega)]
  rfl

/-- A branch into the program goes to its target (R114). -/
theorem Bumas.advance_target {b : Bumas} (n : Nat) {i : Int} {t : Nat} (hi : i = t) (h : t < b.probe.len) :
    b.advance n (some i) = { b with probe := { b.probe with
      pc := t, cycles := b.probe.cycles + n, instrs := b.probe.instrs + 1 } } := by
  subst hi
  unfold Bumas.advance
  dsimp only [Option.getD_some]
  rw [if_pos (by omega)]
  rfl

/-- Instructions issue in a block that runs (R108). -/
theorem Bumas.alive_of_issues {b : Bumas} {op v : Nat} {o : ProbeOp} (h : b.issues op v o = true) : b.alive = true := by
  simp only [Bumas.issues, Bool.and_eq_true] at h
  obtain ⟨⟨⟨⟨hr, -⟩, -⟩, -⟩, -⟩ := h
  exact Bumas.alive_of_running hr

section

variable {s : State} {op v : Nat} {o : ProbeOp} {f : Bumas → ProbeRes}

/-- An instruction that issues leaves the Bumas that its result gives. -/
theorem probeExec_issued (h : s.bm.issues op v o = true) :
    probeExec op v o f s = .next { s with bm := s.bm.issued.resolve (f s.bm.issued) } := by
  refine onBumas_eq _ (Bumas.alive_of_issues h) ?_
  simp only [Bumas.probeStep, h, if_true]
  rfl

/-- An instruction that completes takes the run on. -/
theorem probeExec_done {b : Bumas} {n : Nat} {t : Option Int} (h : s.bm.issues op v o = true) (hf : f s.bm.issued = .done b n t) :
    probeExec op v o f s = .next { s with bm := b.advance n t } := by
  rw [probeExec_issued h, hf, Bumas.resolve]

/-- An instruction that neither branches nor ends the program takes the run to the next word. -/
theorem probeExec_next {b : Bumas} {n : Nat} (h : s.bm.issues op v o = true) (hf : f s.bm.issued = .done b n none)
    (hpc : b.probe.pc + 1 < b.probe.len) : probeExec op v o f s = .next { s with bm := b.past n } := by
  rw [probeExec_done h hf, Bumas.advance_next n hpc]

/-- One that branches into the program takes it to the target. -/
theorem probeExec_target {b : Bumas} {n t : Nat} {i : Int} (h : s.bm.issues op v o = true)
    (hf : f s.bm.issued = .done b n (some i)) (hi : i = t) (ht : t < b.probe.len) :
    probeExec op v o f s = .next { s with bm := { b with probe := { b.probe with
      pc := t, cycles := b.probe.cycles + n, instrs := b.probe.instrs + 1 } } } := by
  rw [probeExec_done h hf, Bumas.advance_target n hi ht]

theorem probeExec_waits {b : Bumas} {w : ProbeWait} (h : s.bm.issues op v o = true) (hf : f s.bm.issued = .waits b w) :
    probeExec op v o f s = .next { s with bm := { b with probe := { b.probe with wait := some w } } } := by
  rw [probeExec_issued h, hf, Bumas.resolve]

theorem probeExec_fault {c : Nat} (h : s.bm.issues op v o = true) (hf : f s.bm.issued = .fault c) :
    probeExec op v o f s = .next { s with bm := s.bm.issued.probeFault c s.bm.probe.pc } := by
  rw [probeExec_issued h, hf, Bumas.resolve]
  rfl

/-- An instruction that writes one register after another change: the run goes on, with the result in s_RD (R111, R114). -/
theorem probeExec_setSreg_of (b : Bumas) {n : Nat} {w : Word} (h : s.bm.issues op v o = true)
    (hpc : b.probe.pc + 1 < b.probe.len) (hf : f s.bm.issued = .done (b.setSreg o.rd w) n none) :
    probeExec op v o f s = .next { s with bm := (b.past n).setSreg o.rd w } := by
  obtain ⟨hp, hl⟩ := b.setSreg_pc_len o.rd w
  rw [probeExec_next h hf (by rwa [hp, hl]), Bumas.past_setSreg]

theorem probeExec_setSreg {n : Nat} {w : Word} (h : s.bm.issues op v o = true) (hpc : s.bm.probe.pc + 1 < s.bm.probe.len)
    (hf : f s.bm.issued = .done (s.bm.issued.setSreg o.rd w) n none) :
    probeExec op v o f s = .next { s with bm := (s.bm.passed n).setSreg o.rd w } :=
  probeExec_setSreg_of s.bm.issued h hpc hf

end

end Sys2Proof.Machine
end

section
/-! PROOFS. Probe instructions that write one register (R111, R113, R114, R118). -/

namespace Sys2Proof.Machine

section

variable {s : State} {op v : Nat} {o : ProbeOp}

theorem probeExec_alu {f : Bumas → Word} {n : Nat} (h : s.bm.issues op v o = true) (hpc : s.bm.probe.pc + 1 < s.bm.probe.len) :
    probeExec op v o (probeAlu o n f) s = .next { s with bm := (s.bm.passed n).setSreg o.rd (f s.bm.issued) } :=
  probeExec_setSreg h hpc rfl

/-- A counter in range is read from the snapshots (R118). -/
theorem probeCounter_inRange {f : Bumas → Nat → Word} {b : Bumas} (hc : (b.sreg o.ra + probeZx o).toNat ≤ 4095) :
    probeCounter o f b = .done (b.setSreg o.rd (f b (b.sreg o.ra + probeZx o).toNat)) 2 none := if_neg (Nat.not_lt.2 hc)

theorem probeCounter_beyond {f : Bumas → Nat → Word} {b : Bumas} (hc : 4095 < (b.sreg o.ra + probeZx o).toNat) :
    probeCounter o f b = .fault pfIndex := if_pos hc

/-- R118: an instruction on a counter, in range and beyond. -/
theorem probeExec_counter {f : Bumas → Nat → Word} (h : s.bm.issues op v o = true) :
    ((s.bm.sreg o.ra + o.imm.zeroExtend 64).toNat ≤ 4095 → s.bm.probe.pc + 1 < s.bm.probe.len →
      probeExec op v o (probeCounter o f) s = .next { s with
        bm := (s.bm.passed 2).setSreg o.rd (f s.bm.issued (s.bm.sreg o.ra + o.imm.zeroExtend 64).toNat) }) ∧
    (4095 < (s.bm.sreg o.ra + o.imm.zeroExtend 64).toNat →
      probeExec op v o (probeCounter o f) s = .next { s with bm := s.bm.issued.probeFault 1 s.bm.probe.pc }) :=
  ⟨fun hc hpc => probeExec_setSreg h hpc (probeCounter_inRange hc), fun hc => probeExec_fault h (probeCounter_beyond hc)⟩

end

/-- A compare issues as the word whose IMM is its relation code, and writes 1 or 0 (R114). -/
theorem probeCmp_next {s : State} {o : ProbeOp} (rel : Nat) (f : Word → Word → Bool)
    (h : s.bm.issues 0x09 0 { o with imm := BitVec.ofNat 12 rel } = true) (hpc : s.bm.probe.pc + 1 < s.bm.probe.len) :
    probeCmp rel f o s = .next { s with
      bm := (s.bm.passed 1).setSreg o.rd (if f (s.bm.sreg o.ra) (s.bm.sreg o.rb) then 1 else 0) } :=
  probeExec_setSreg (o := { o with imm := BitVec.ofNat 12 rel }) h hpc rfl

/-- Settles O10: every row is one register write, and an operand out of range faults. -/
theorem probeArithmeticComparesAndSnapshots : Obligations.ProbeArithmeticComparesAndSnapshots := by
  refine ⟨?_, ⟨?_, fun s o h => ⟨fun hk hpc => ?_, fun hk => ?_⟩⟩,
    fun s o => ⟨?_, fun h => ⟨fun hi hpc => ?_, fun hi hpc => ?_, fun hi => ?_⟩⟩⟩
  · simp only [List.forall_mem_cons]
    refine ⟨?_, ?_, ?_, ?_, ?_, ?_, ?_, ?_, ?_, ?_, ?_, ?_, ?_, ?_, ?_, nofun⟩ <;> exact fun _ _ => probeExec_alu
  · simp only [List.forall_mem_cons]
    exact ⟨fun _ _ => probeCmp_next 0 (· == ·), fun _ _ => probeCmp_next 1 (· != ·),
      fun _ _ => probeCmp_next 2 (·.ult ·), fun _ _ => probeCmp_next 3 (!·.ult ·),
      fun _ _ => probeCmp_next 4 (·.slt ·), fun _ _ => probeCmp_next 5 (!·.slt ·), nofun⟩
  · exact probeExec_setSreg h hpc (if_neg (Nat.not_lt.2 hk))
  · exact probeExec_fault h (if_pos hk)
  · simp only [List.forall_mem_cons]
    exact ⟨probeExec_counter, probeExec_counter, probeExec_counter, nofun⟩
  · exact probeExec_setSreg h hpc (if_pos hi)
  · exact probeExec_setSreg h hpc ((if_neg (by simp [hi])).trans (if_pos hi))
  · have h0 : o.imm ≠ 0 := by rintro h0; simp [h0] at hi
    have h1 : o.imm ≠ 1 := by rintro h1; simp [h1] at hi
    exact probeExec_fault h ((if_neg h0).trans (if_neg h1))

end Sys2Proof.Machine
end

section
/-! PROOFS. The end of a run of the probe sequencer, its faults and its branches (R109, R114, R115, R132). -/

namespace Sys2Proof.Machine

theorem satN_eq_min (len n : Nat) : satN len n = min (2 ^ len - 1) n := by
  unfold satN
  split <;> omega

/-- A field that counts up stays at its all ones. -/
theorem fld_satFld_same (w : Word) {lo len : Nat} (n : Nat) (h : lo + len ≤ 64) :
    fld (satFld w lo len n) lo len = min (2 ^ len - 1) (fld w lo len + n) := by
  have hpos : 0 < 2 ^ len := by positivity
  rw [satFld, fld_putFld_same _ _ h, satN_eq_min, Nat.mod_eq_of_lt (by omega)]

/-- The sign extension of IMM is its value as a two's-complement number. -/
theorem sextN_toNat (i : BitVec 12) : sextN 12 i.toNat = i.toInt := by
  have hi : i.toNat % 2 ^ 12 = i.toNat := Nat.mod_eq_of_lt i.isLt
  rw [BitVec.toInt_eq_toNat_cond, sextN, hi]
  split <;> split <;> omega

/-! ### The end of a run (R132) -/

section

variable (b : Bumas)

/-- A record of the run counts as closed and takes one sequence number. -/
theorem Bumas.closeRun_withoutTx (typ cls : Nat) (payload : List Byte) (part : Bool) :
    (b.closeRun typ cls payload part).withoutTx =
      { b.withoutTx with probe := { b.probe with closed := b.probe.closed + 1 } } :=
  congrArg (fun c : Bumas => { c with probe := { c.probe with closed := c.probe.closed + 1 } }) (b.close_withoutTx ..)

theorem Bumas.closeRun_seq (typ cls : Nat) (payload : List Byte) (part : Bool) :
    (b.closeRun typ cls payload part).tap.seq = b.tap.seq + 1 := b.close_seq ..

theorem Bumas.rd_closeRun (typ cls : Nat) (payload : List Byte) (part : Bool) {a : Nat} (ha : ClearOfDrops a) :
    (b.closeRun typ cls payload part).rd a = b.rd a := b.rd_close _ _ _ ha

/-- Closing the open COUNTER_BLOCK leaves none, and counts at most one record more. -/
theorem Bumas.closeBlock_withoutTx (part : Bool) : ∃ n, (b.closeBlock part).withoutTx =
    { b.withoutTx with probe := { b.probe with block := none, closed := n } } := by
  unfold Bumas.closeBlock
  split
  · exact ⟨_, Bumas.closeRun_withoutTx _ _ _ _ _⟩
  · next h => exact ⟨b.probe.closed, by rw [← h]; rfl⟩

theorem Bumas.rd_closeBlock (part : Bool) {a : Nat} (ha : ClearOfDrops a) : (b.closeBlock part).rd a = b.rd a := by
  unfold Bumas.closeBlock
  split
  · exact Bumas.rd_closeRun _ _ _ _ _ ha
  · rfl

/-- The end of a run leaves the registers of its program, the counters and the copies as they are. -/
theorem Bumas.endRun_withoutTx (status faultPc cause : Nat) (part : Bool) :
    ∃ n, (b.endRun status faultPc cause part).withoutTx =
      { b.withoutTx with probe := { b.probe with running := false, wait := none, block := none, closed := n } } := by
  obtain ⟨n, h⟩ := b.closeBlock_withoutTx part
  exact ⟨n, congrArg (fun c : Bumas => { c with probe := { c.probe with running := false, wait := none } })
    ((Bumas.close_withoutTx _ _ _ _).trans h)⟩

theorem Bumas.rd_endRun (status faultPc cause : Nat) (part : Bool) {a : Nat} (ha : ClearOfDrops a) :
    (b.endRun status faultPc cause part).rd a = b.rd a :=
  (Bumas.rd_close _ _ _ _ ha).trans (b.rd_closeBlock part ha)

/-- With no COUNTER_BLOCK open the TICK_SUMMARY is the one record that closes. -/
theorem Bumas.endRun_seq {b : Bumas} (h : b.probe.block = none) (status faultPc cause : Nat) (part : Bool) :
    (b.endRun status faultPc cause part).tap.seq = b.tap.seq + 1 := by
  have hb : b.closeBlock part = b := by simp [Bumas.closeBlock, h]
  refine (Bumas.close_seq _ _ _ _).trans ?_
  rw [hb]

end

/-! ### Faults and branches -/

theorem clearOfDrops_probeStat : ClearOfDrops Reg.BM_PROBE_STAT := .inr (by decide)

/-- R115: a fault ends the run and enters BM_PROBE_STAT. -/
theorem Bumas.rd_probeFault (b : Bumas) (cause pc : Nat) : (b.probeFault cause pc).rd Reg.BM_PROBE_STAT =
    putFld (satFld (b.rd Reg.BM_PROBE_STAT) 32 16 1) 0 10 pc :=
  (Bumas.rd_endRun _ _ _ _ _ clearOfDrops_probeStat).trans (b.rd_wr_same _ _)

theorem probeBranch_taken {o : ProbeOp} {c : Bumas → Bool} {b : Bumas} (h : c b = true) :
    probeBranch o c b = .done b 2 (some (b.probe.pc + o.imm.toInt)) := by
  rw [← sextN_toNat]
  exact if_pos h

theorem probeBranch_notTaken {o : ProbeOp} {c : Bumas → Bool} {b : Bumas} (h : c b = false) :
    probeBranch o c b = .done b 1 none := if_neg (by simp [h])

/-- R114: a branch with its target in the program, by whether its condition holds of s_RA. -/
theorem probeExec_branch {s : State} {o : ProbeOp} {v t : Nat} (c : Word → Bool) (h : s.bm.issues 0x0A v o = true) :
    (c (s.bm.sreg o.ra) = true → (s.bm.probe.pc : Int) + o.imm.toInt = t → t < s.bm.probe.len →
      probeExec 0x0A v o (probeBranch o fun b => c (b.sreg o.ra)) s = .next { s with bm := { s.bm with
        pcsReq := false, probe := { s.bm.probe with
          pc := t, cycles := s.bm.probe.cycles + 2, instrs := s.bm.probe.instrs + 1 } } }) ∧
    (c (s.bm.sreg o.ra) = false → s.bm.probe.pc + 1 < s.bm.probe.len →
      probeExec 0x0A v o (probeBranch o fun b => c (b.sreg o.ra)) s = .next { s with bm := s.bm.passed 1 }) := by
  refine ⟨fun hc ht hlen => ?_, fun hc hpc => ?_⟩
  · exact probeExec_target h (probeBranch_taken hc) ht hlen
  · exact probeExec_next h (probeBranch_notTaken hc) hpc

/-- Settles O11: a fault is the end of its run with BM_PROBE_STAT written, and a branch moves the run to its target. -/
theorem probeBranchesAndFaults : Obligations.ProbeBranchesAndFaults := by
  refine ⟨fun b cause pc hpc => ?_, ?_⟩
  · obtain ⟨n, hend⟩ := (b.wr Reg.BM_PROBE_STAT (putFld (satFld (b.rd Reg.BM_PROBE_STAT) 32 16 1) 0 10 pc)).endRun_withoutTx
      stFault pc cause true
    refine ⟨congrArg (·.probe.running) hend, congrArg (·.probe.s) hend, ?_, ?_, congrArg (·.probe.block) hend,
      congrArg (·.cnt) hend⟩
    · rw [Bumas.rd_probeFault, fld_putFld_same _ _ (by decide)]
      exact Nat.mod_eq_of_lt hpc
    · rw [Bumas.rd_probeFault, fld_putFld_other _ _ (.inr (by decide)) (by decide), fld_satFld_same _ _ (by decide)]
      rfl
  · rw [List.forall_mem_cons, List.forall_mem_cons, List.forall_mem_cons]
    exact ⟨fun _ _ _ => probeExec_branch fun _ => true, fun _ _ _ => probeExec_branch (· == 0),
      fun _ _ _ => probeExec_branch (· != 0), nofun⟩

end Sys2Proof.Machine
end

section
/-! PROOFS. Histograms, threshold alerts and the interval scan of a probe program (R119 to R122). -/

namespace Sys2Proof.Machine

/-! ### Bins (R119) -/

theorem histBin_eq_zero (v : Nat) : histBin v = 0 ↔ v = 0 := by
  unfold histBin
  split <;> omega

theorem histBin_of_ne_zero {v : Nat} (h : v ≠ 0) : histBin v = min 63 (Nat.log2 v + 1) := if_neg h

/-- A bin between the first and the last holds the values of one binary order of magnitude. -/
theorem histBin_eq_iff {v k : Nat} (h0 : k ≠ 0) (h63 : k < 63) : histBin v = k ↔ 2 ^ (k - 1) ≤ v ∧ v < 2 ^ k := by
  have hpos : 0 < 2 ^ (k - 1) := by positivity
  rcases eq_or_ne v 0 with rfl | hv
  · have : histBin 0 = 0 := rfl
    omega
  · have hlog : Nat.log2 v = k - 1 ↔ 2 ^ (k - 1) ≤ v ∧ v < 2 ^ (k - 1 + 1) := Nat.log2_eq_iff hv
    rw [Nat.sub_add_cancel (Nat.pos_of_ne_zero h0)] at hlog
    rw [histBin_of_ne_zero hv, ← hlog]
    omega

/-- The last bin holds every value that is too large for the others. -/
theorem histBin_eq_last (v : Nat) : histBin v = 63 ↔ 2 ^ 62 ≤ v := by
  rcases eq_or_ne v 0 with rfl | hv
  · decide
  · rw [histBin_of_ne_zero hv, ← Nat.le_log2 hv]
    omega

/-- A bin that is added to saturates, and the others stay (R119). -/
theorem get_histAdd (m : SMap Nat) (i n k : Nat) : SMap.get 0 (SMap.mod 0 m i fun x => satN 32 (x + n)) k =
    if k = i then min (2 ^ 32 - 1) (SMap.get 0 m k + n) else SMap.get 0 m k := by
  split
  · next h => rw [h, SMap.get_mod_same, satN_eq_min]
  · next h => rw [SMap.get_mod_other _ _ _ _ _ h]

/-- The Bumas with one bit of the alert mask set (R120). -/
def Bumas.alerted (b : Bumas) (i : Nat) : Bumas := { b with probe := { b.probe with alert := b.probe.alert ||| (1#32 <<< i) } }

/-- The Bumas whose run has scanned the interval (R121). -/
def Bumas.scanMarked (b : Bumas) : Bumas := { b with probe := { b.probe with scanned := true } }

section

variable {s : State} {o : ProbeOp}

/-- An instruction that adds to one bin of a histogram (R119). -/
theorem probeExec_histAdd {v n : Nat} {f : Bumas → ProbeRes} (h : s.bm.issues 0x0B v o = true)
    (hpc : s.bm.probe.pc + 1 < s.bm.probe.len)
    (hf : f s.bm.issued = .done (s.bm.issued.histAdd (o.imm.toNat % 16) (s.bm.sreg o.ra).toNat n) 2 none) : ∃ m : SMap Nat,
      probeExec 0x0B v o f s = .next { s with bm := { s.bm.passed 2 with probe := { (s.bm.passed 2).probe with hists := m } } } ∧
      ∀ k, SMap.get 0 m k = if k = 64 * (o.imm.toNat % 16) + histBin (s.bm.sreg o.ra).toNat
        then min (2 ^ 32 - 1) (SMap.get 0 s.bm.probe.hists k + n) else SMap.get 0 s.bm.probe.hists k :=
  ⟨_, probeExec_next h hf hpc, get_histAdd _ _ n⟩

/-! ### Alerts (R120) -/

/-- s_RA reaches s_RB: the alert bit is set, and 1 written. -/
theorem threshC_reached (h : s.bm.issues 0x0C 1 o = true) (hpc : s.bm.probe.pc + 1 < s.bm.probe.len)
    (hle : (s.bm.sreg o.rb).toNat ≤ (s.bm.sreg o.ra).toNat) : exec (.threshC o) s = .next { s with
      bm := ((s.bm.passed 1).alerted (o.imm.toNat % 32)).setSreg o.rd 1 } :=
  probeExec_setSreg_of (s.bm.issued.alerted (o.imm.toNat % 32)) h hpc (if_pos hle)

theorem threshC_below (h : s.bm.issues 0x0C 1 o = true) (hpc : s.bm.probe.pc + 1 < s.bm.probe.len)
    (hlt : (s.bm.sreg o.ra).toNat < (s.bm.sreg o.rb).toNat) :
    exec (.threshC o) s = .next { s with bm := (s.bm.passed 1).setSreg o.rd 0 } :=
  probeExec_setSreg h hpc (if_neg (Nat.not_le.2 hlt))

/-! ### The interval scan (R121, R122) -/

theorem threshMi_badBase (h : s.bm.issues 0x0C 0 o = true) (hb : miBaseOk (fld (s.bm.sreg o.ra) 0 16) = false) :
    exec (.threshMi o) s = .next { s with bm := s.bm.issued.probeFault 3 s.bm.probe.pc } :=
  probeExec_fault h (if_pos (Bool.eq_false_iff.1 hb))

/-- Only the first THRESH.MI of a run scans. -/
theorem threshMi_again (h : s.bm.issues 0x0C 0 o = true) (hpc : s.bm.probe.pc + 1 < s.bm.probe.len)
    (hb : miBaseOk (fld (s.bm.sreg o.ra) 0 16) = true) (hs : s.bm.probe.scanned = true) :
    exec (.threshMi o) s = .next { s with bm := (s.bm.passed 2).setSreg o.rd 0 } :=
  probeExec_setSreg h hpc ((if_neg (not_not_intro hb)).trans (if_pos hs))

/-- A scan of no marker with no entry open finds nothing. -/
theorem Bumas.miScan_empty {b : Bumas} (base thr : Nat) (hm : b.markP.marks = []) (ho : b.probe.opens = []) :
    b.miScan base thr = (b.scanMarked, 0) := by
  simp [Bumas.miScan, hm, ho, Bumas.scanMarked]

theorem threshMi_nothing (h : s.bm.issues 0x0C 0 o = true) (hpc : s.bm.probe.pc + 1 < s.bm.probe.len)
    (hb : miBaseOk (fld (s.bm.sreg o.ra) 0 16) = true) (hs : s.bm.probe.scanned = false) (hm : s.bm.markP.marks = [])
    (ho : s.bm.probe.opens = []) :
    exec (.threshMi o) s = .next { s with bm := (s.bm.passed 2).scanMarked.setSreg o.rd 0 } := by
  refine probeExec_setSreg_of s.bm.issued.scanMarked h hpc ((if_neg (not_not_intro hb)).trans
    ((if_neg (Bool.eq_false_iff.1 hs)).trans ?_))
  simp only [Bumas.miScan_empty (b := s.bm.issued) _ _ hm ho]
  rw [show s.bm.issued.markP.marks = [] from hm]
  rfl

end

/-- Settles O12: the bins by orders of magnitude, the alert by the comparison, and the scan by whether it is the run's first. -/
theorem histogramsAlertsAndTheIntervalScan : Obligations.HistogramsAlertsAndTheIntervalScan := by
  refine ⟨fun s o hpc => ⟨?_, fun h => ⟨threshC_reached h hpc, threshC_below h hpc⟩⟩, fun v k => ⟨fun hk => ?_,
    histBin_eq_last v, histBin_of_ne_zero⟩, fun s o h => ⟨threshMi_badBase h, fun hb hs hpc => threshMi_again h hpc hb hs,
    fun hb hs hm ho hpc => threshMi_nothing h hpc hb hs hm ho⟩⟩
  · simp only [List.forall_mem_cons]
    exact ⟨fun h => probeExec_histAdd h hpc rfl, fun h => probeExec_histAdd h hpc rfl, nofun⟩
  · split
    · next h0 => rw [h0, histBin_eq_zero]
    · next h0 => exact histBin_eq_iff h0 hk

end Sys2Proof.Machine
end

section
/-! PROOFS. EMIT: what fits the emit buffer is added to it, and what does not sets EMIT_FULL (R112, R133). -/

namespace Sys2Proof.Machine

/-- The Bumas with `n` bytes more of the emit buffer used and this payload in the open COUNTER_BLOCK. -/
def Bumas.emitted (b : Bumas) (n : Nat) (block : List Byte) : Bumas :=
  { b with probe := { b.probe with emitUsed := b.probe.emitUsed + n, block := some block } }

section

variable {b : Bumas}

theorem Bumas.emitFits_iff (n : Nat) : b.emitFits n = true ↔ b.probe.emitUsed + n ≤ 65536 := decide_eq_true_iff

/-- An entry that fits the open block joins it, and is the first of a new block where none is open (R133). -/
theorem Bumas.addEntry_fits (n : Nat) {e : List Byte} (h : (b.probe.block.getD []).length + e.length ≤ 16384) :
    (b.emitUse n).addEntry e = b.emitted n (b.probe.block.getD [] ++ e) := by
  unfold Bumas.addEntry Bumas.emitted
  cases hb : b.probe.block with
  | none => simp [Bumas.emitUse, hb]
  | some p =>
    rw [hb] at h
    have hp : p.length + e.length ≤ 16384 := h
    simp [Bumas.emitUse, hb, hp]

theorem emitEntry_fits {e : List Byte} (hbuf : b.probe.emitUsed + e.length ≤ 65536)
    (hblock : (b.probe.block.getD []).length + e.length ≤ 16384) :
    emitEntry b e = .done (b.emitted e.length (b.probe.block.getD [] ++ e)) (emitCycles e.length) none := by
  rw [emitEntry, if_pos ((Bumas.emitFits_iff _).2 hbuf), Bumas.addEntry_fits _ hblock]

theorem emitEntry_full {e : List Byte} (hbuf : 65536 < b.probe.emitUsed + e.length) :
    emitEntry b e = .done b.emitFull (emitCycles 0) none := by
  rw [emitEntry, if_neg (mt (Bumas.emitFits_iff _).1 (Nat.not_le.2 hbuf))]

/-- A range that fits an empty block is one entry (R133). -/
theorem splitRange_one (f c : Nat) {n : Nat} (h0 : 0 < n) (hn : n ≤ 2047) : splitRange (f + 2) 0 c n = [(c, n)] := by
  have hk : min n ((16384 - 0 - 8) / 8) = n := by omega
  simp [splitRange, hk, Nat.pos_iff_ne_zero.1 h0]

theorem length_deltaEntry (b : Bumas) (c n : Nat) : (cbEntry c 2 n (b.deltas c n)).length = 8 * n + 8 := by
  rw [length_cbEntry, Bumas.deltas, length_flatten_leBytes, List.length_range, mul_comm]

theorem emitRecord_fits (typ cls : Nat) {payload : Bumas → List Byte} (h : b.probe.emitUsed + (payload b).length ≤ 65536) :
    emitRecord typ cls payload b =
      .done ((b.emitUse (payload b).length).closeRun typ cls (payload b) false) (emitCycles (payload b).length) none :=
  if_pos ((Bumas.emitFits_iff _).2 h)

end

section

variable {s : State} {o : ProbeOp}

/-- EMIT.W and EMIT.H add one entry, or set EMIT_FULL. -/
theorem probeExec_emitEntry {v : Nat} {e : List Byte} {f : Bumas → ProbeRes} (hpc : s.bm.probe.pc + 1 < s.bm.probe.len)
    (hf : f s.bm.issued = emitEntry s.bm.issued e) (h : s.bm.issues 0x0D v o = true) :
    (s.bm.probe.emitUsed + e.length ≤ 65536 → (s.bm.probe.block.getD []).length + e.length ≤ 16384 →
      probeExec 0x0D v o f s = .next { s with
        bm := (s.bm.passed (4 + (e.length + 63) / 64)).emitted e.length (s.bm.probe.block.getD [] ++ e) }) ∧
    (65536 < s.bm.probe.emitUsed + e.length → probeExec 0x0D v o f s = .next { s with bm := (s.bm.passed 4).emitFull }) :=
  ⟨fun hbuf hblock => probeExec_next h (hf.trans (emitEntry_fits hbuf hblock)) hpc,
    fun hbuf => probeExec_next h (hf.trans (emitEntry_full hbuf)) hpc⟩

/-- EMIT.K of a range that fits an empty block adds its deltas as one entry. -/
theorem emitK_oneEntry {c n : Nat} (hpc : s.bm.probe.pc + 1 < s.bm.probe.len) (h : s.bm.issues 0x0D 1 o = true)
    (hc : (s.bm.sreg o.ra + o.imm.zeroExtend 64).toNat = c) (hn : (s.bm.sreg o.rb).toNat = n) (h0 : 0 < n) (hmax : n ≤ 2047)
    (hlast : c + n ≤ 4096) (hblock : s.bm.probe.block = none) (hbuf : s.bm.probe.emitUsed + 8 + 8 * n ≤ 65536) :
    exec (.emitK o) s = .next { s with
      bm := (s.bm.passed (4 + (8 * n + 8 + 63) / 64)).emitted (8 * n + 8) (cbEntry c 2 n (s.bm.deltas c n)) } := by
  have hc' : (s.bm.issued.sreg o.ra + probeZx o).toNat = c := hc
  have hn' : (s.bm.issued.sreg o.rb).toNat = n := hn
  have hblock' : s.bm.issued.probe.block = none := hblock
  have hindex : ¬ 4095 < c := by omega
  have hrange : ¬ (n = 0 ∨ 4096 < c + n) := by omega
  have hfits : s.bm.issued.emitFits (8 * n + 8) = true := (Bumas.emitFits_iff _).2 (by change s.bm.probe.emitUsed + _ ≤ _; omega)
  have hadd : (s.bm.issued.emitUse (8 * n + 8)).addEntry (cbEntry c 2 n ((s.bm.issued.emitUse (8 * n + 8)).deltas c n)) =
      s.bm.issued.emitted (8 * n + 8) (cbEntry c 2 n (s.bm.deltas c n)) := by
    refine (Bumas.addEntry_fits _ ?_).trans ?_
    · rw [hblock', length_deltaEntry]
      change 0 + _ ≤ _
      omega
    · rw [hblock']
      rfl
  refine probeExec_next (b := s.bm.issued.emitted _ _) (n := emitCycles (8 * n + 8)) h ?_ hpc
  simp only [hc', hn', hblock', Option.map_none, Option.getD_none, splitRange_one 6 c h0 hmax, if_neg hindex, if_neg hrange,
    List.length_singleton, Nat.mul_one, if_pos hfits, List.foldl_cons, List.foldl_nil, hadd]

/-- EMIT.R of a record that fits closes it, counted and numbered (R133). -/
theorem probeExec_emitRecord {f : Bumas → ProbeRes} {p : List Byte} (b : Bumas) (typ cls : Nat) (payload : Bumas → List Byte)
    (hpc : s.bm.probe.pc + 1 < s.bm.probe.len) (h : s.bm.issues 0x0D 3 o = true)
    (hf : f s.bm.issued = emitRecord typ cls payload b) (hp : payload b = p)
    (hprobe : b.probe = s.bm.probe) (hcnt : b.cnt = s.bm.cnt) (htap : b.tap = s.bm.tap)
    (hbuf : s.bm.probe.emitUsed + p.length ≤ 65536) :
    ∃ t, probeExec 0x0D 3 o f s = .next t ∧ t.bm.probe.emitUsed = s.bm.probe.emitUsed + p.length ∧
      t.bm.probe.closed = s.bm.probe.closed + 1 ∧ t.bm.tap.seq = s.bm.tap.seq + 1 ∧ t.bm.probe.pc = s.bm.probe.pc + 1 ∧
      t.bm.probe.s = s.bm.probe.s ∧ t.bm.cnt = s.bm.cnt ∧ t.gx = s.gx := by
  subst hp
  rw [← hprobe] at hpc hbuf ⊢
  have hrest := (b.emitUse (payload b).length).closeRun_withoutTx typ cls (payload b) false
  have hrun : ((b.emitUse (payload b).length).closeRun typ cls (payload b) false).probe =
      { b.probe with emitUsed := b.probe.emitUsed + (payload b).length, closed := b.probe.closed + 1 } :=
    congrArg Bumas.probe hrest
  refine ⟨_, probeExec_next h (hf.trans (emitRecord_fits typ cls hbuf)) (by rw [hrun]; exact hpc), congrArg (·.emitUsed) hrun,
    congrArg (·.closed) hrun, ?_, congrArg (·.pc + 1) hrun, congrArg (·.s) hrun, (congrArg Bumas.cnt hrest).trans hcnt, rfl⟩
  exact (Bumas.closeRun_seq ..).trans (congrArg (·.seq + 1) htap)

/-- A row whose IMM is fixed issues as the word that has it. -/
theorem Bumas.issues_imm {b : Bumas} {op v : Nat} {i : BitVec 12} (hi : o.imm = i) (h : b.issues op v o = true) :
    b.issues op v { o with imm := i } = true := by
  subst hi
  exact h

/-- EMIT.R with IMM = 0x003 is the MARKER record. -/
theorem emitRMarker_eq (hi : o.imm = 3) :
    exec (.emitRMarker o) s = probeExec 0x0D 3 o (emitRecord 0x0103 1 Bumas.markerPayload) s := by
  change execEmitRMarker o s = _
  simp [execEmitRMarker, hi]

end

/-- Settles O13: an entry or a record joins the buffer where it fits, and only EMIT_FULL is set where it does not. -/
theorem emitsFillTheBufferInOrder : Obligations.EmitsFillTheBufferInOrder := by
  intro s o hpc
  refine ⟨?_, fun c n => emitK_oneEntry hpc, ?_⟩
  · simp only [List.forall_mem_cons]
    exact ⟨probeExec_emitEntry hpc rfl, probeExec_emitEntry hpc rfl, nofun⟩
  · simp only [List.forall_mem_cons]
    refine ⟨fun hi h => ?_, fun hi h => ?_, fun hi h => ?_, fun hi h => ?_, fun hi h => ?_, nofun⟩
    · rw [emitRMarker_eq hi]
      exact probeExec_emitRecord s.bm.issued 0x0103 1 Bumas.markerPayload hpc h rfl rfl rfl rfl rfl
    · exact probeExec_emitRecord s.bm.issued.closeWindow 0x0104 3 Bumas.pcPayload hpc (Bumas.issues_imm hi h) rfl rfl rfl rfl rfl
    · exact probeExec_emitRecord s.bm.issued 0x0105 1
        (fun b => ((onesBelow 16 (b.sreg o.ra).toNat).map b.digestEntry).flatten) hpc (Bumas.issues_imm hi h) rfl rfl rfl rfl rfl
    · exact probeExec_emitRecord s.bm.issued 0x0106 1 Bumas.sensorPayload hpc (Bumas.issues_imm hi h) rfl rfl rfl rfl rfl
    · exact probeExec_emitRecord s.bm.issued 0x0107 1 Bumas.energyPayload hpc (Bumas.issues_imm hi h) rfl rfl rfl rfl rfl

end Sys2Proof.Machine
end

section
/-! PROOFS. PC sampling, DIGSET, sensor rounds and waits of a probe program, and the sensors themselves (R114, R124, R126, R128 to
R130). -/

namespace Sys2Proof.Machine

/-- Changes at every index below `n`, one after another, are each read at their index alone. -/
theorem SMap.get_foldl_mod_range {α : Type} [DecidableEq α] (d : α) (f : Nat → α → α) (m : SMap α) (n i : Nat) :
    SMap.get d ((List.range n).foldl (fun m k => SMap.mod d m k (f k)) m) i =
      if i < n then f i (SMap.get d m i) else SMap.get d m i := by
  induction n with
  | zero => rfl
  | succ n ih =>
    rw [List.range_succ, List.foldl_append, List.foldl_cons, List.foldl_nil]
    by_cases hi : i = n
    · subst hi
      rw [SMap.get_mod_same, ih, if_neg (lt_irrefl i), if_pos (Nat.lt_succ_self i)]
    · rw [SMap.get_mod_other _ _ _ _ _ hi, ih]
      exact if_congr (by omega) rfl rfl

/-- A change at one index is read there alone. -/
theorem SMap.get_mod {α : Type} [DecidableEq α] (d : α) (m : SMap α) (k i : Nat) (f : α → α) :
    SMap.get d (SMap.mod d m k f) i = if i = k then f (SMap.get d m i) else SMap.get d m i := by
  split
  · next h => rw [h, SMap.get_mod_same]
  · next h => exact SMap.get_mod_other _ _ _ _ _ h

/-! ### Requests and waits (R114, R124, R126, R128) -/

/-- DIGSET.S reaches one channel (R126). -/
theorem get_seedSet (m : SMap SnoopCh) (k v i : Nat) : SMap.get {} (SMap.mod {} m k fun c => { c with seedSet := some v }) i =
    if i = k then { (SMap.get {} m i) with seedSet := some v } else SMap.get {} m i := SMap.get_mod ..

/-- DIGSET.E reaches every channel (R126). -/
theorem get_enSet (m : SMap SnoopCh) (en : Nat → Bool) : ∀ i < 16,
    SMap.get {} ((List.range 16).foldl (fun m i => SMap.mod {} m i fun c => { c with enSet := some (en i) }) m) i =
      { (SMap.get {} m i) with enSet := some (en i) } := by
  intro i hi
  rw [SMap.get_foldl_mod_range {} fun i (c : SnoopCh) => { c with enSet := some (en i) }, if_pos hi]

/-- The first PCSAMP of a run opens the window (R124). -/
theorem pcsamp_opens {b : Bumas} (m : PcMode) (stride : Nat) (hacted : b.pcs.acted = false) (hen : b.pcsEn = true) :
    pcsamp m stride b = .done { b with pcsReq := true, pcs := { b.pcs with
      acted := true, isOpen := true, mode := m, stride := stride, samples := [] } } 1 none := by
  rw [pcsamp, if_neg (Bool.eq_false_iff.1 hacted), if_pos hen]

section

variable {s : State} {o : ProbeOp} {v : Nat}

theorem probeExec_pcsamp (m : PcMode) (stride : Nat) (hpc : s.bm.probe.pc + 1 < s.bm.probe.len) (h : s.bm.issues 0x0E v o = true)
    (hacted : s.bm.pcs.acted = false) (hen : s.bm.pcsEn = true) :
    probeExec 0x0E v o (pcsamp m stride) s = .next { s with bm := { s.bm.passed 1 with pcsReq := true, pcs := { s.bm.pcs with
      acted := true, isOpen := true, mode := m, stride := stride, samples := [] } } } :=
  probeExec_next h (pcsamp_opens m stride hacted hen) hpc

/-- DIGSET changes the channels alone (R126). -/
theorem probeExec_digset {f : Bumas → ProbeRes} (c : SMap SnoopCh) (hpc : s.bm.probe.pc + 1 < s.bm.probe.len)
    (h : s.bm.issues 0x0F v o = true) (hf : f s.bm.issued = .done { s.bm.issued with snoop := c } 1 none) :
    probeExec 0x0F v o f s = .next { s with bm := { s.bm.passed 1 with snoop := c } } := probeExec_next h hf hpc

/-- R114: a WAITT passes in one cycle where its condition holds, and waits where it does not. -/
theorem probeExec_waitt (w : ProbeWait) (hpc : s.bm.probe.pc + 1 < s.bm.probe.len) (h : s.bm.issues 0x11 v o = true) :
    (s.bm.waitHolds w = true → probeExec 0x11 v o (waitt w) s = .next { s with bm := s.bm.passed 1 }) ∧
    (s.bm.waitHolds w = false → probeExec 0x11 v o (waitt w) s = .next { s with
      bm := { s.bm with pcsReq := false, probe := { s.bm.probe with wait := some w } } }) := by
  have hw : s.bm.issued.waitHolds w = s.bm.waitHolds w := by cases w <;> rfl
  rw [← hw]
  exact ⟨fun hyes => probeExec_next (b := s.bm.issued) h (if_pos hyes) hpc,
    fun hno => probeExec_waits (b := s.bm.issued) h (if_neg (Bool.eq_false_iff.1 hno))⟩

end

/-- A WAITT.P ends when the window has closed (R114). -/
theorem Bumas.waitDone_pcs {b : Bumas} (n : Nat) (hr : b.running = true) (hp : b.probe.running = true)
    (hw : b.probe.wait = some .pcs) (ho : b.pcs.isOpen = false) (hpc : b.probe.pc + 1 < b.probe.len) :
    b.waitDone n = { b with probe := { b.probe with
      wait := none, pc := b.probe.pc + 1, instrs := b.probe.instrs + 1, cycles := b.probe.cycles + max 1 n } } := by
  have hgo : ¬¬(b.running && b.probe.running) = true := by simp [hr, hp]
  rw [Bumas.waitDone, if_neg hgo, hw]
  dsimp only
  rw [if_pos (by simp [Bumas.waitHolds, ho])]
  exact Bumas.advance_next (b := { b with probe := { b.probe with wait := none } }) _ hpc

/-- Settles O14: each of these instructions changes what it asks for and goes on, but a WAITT whose condition does not hold. -/
theorem probeRequestsAndWaits : Obligations.ProbeRequestsAndWaits := by
  intro s o hpc
  refine ⟨?_, fun h => ⟨_, probeExec_digset _ hpc h rfl, get_seedSet _ _ _⟩,
    fun h => ⟨_, probeExec_digset _ hpc h rfl, get_enSet s.bm.snoop (bit (s.bm.sreg o.ra))⟩,
    fun h => probeExec_next (b := { s.bm.issued with therm := _ }) h rfl hpc,
    fun h => probeExec_next (b := { s.bm.issued with volt := _ }) h rfl hpc, ?_, fun cycles hr hp hw ho => ?_⟩
  · simp only [List.forall_mem_cons]
    exact ⟨probeExec_pcsamp .full 1 hpc, probeExec_pcsamp .stride _ hpc, probeExec_pcsamp .hist 1 hpc, nofun⟩
  · simp only [List.forall_mem_cons]
    exact ⟨probeExec_waitt _ hpc, probeExec_waitt _ hpc, probeExec_waitt _ hpc, nofun⟩
  · exact onBumas_eq (·.waitDone cycles.toNat) (Bumas.alive_of_running hr) (Bumas.waitDone_pcs _ hr hp hw ho hpc)

/-! ### Droop inputs and rounds (R128 to R130) -/

theorem Bumas.droopEvent_armed {b : Bumas} {d : Nat} {level : BitVec 16} (hr : b.running = true)
    (hen : bit (b.rd Reg.BM_SNS_EN) (48 + d) = true) (harmed : (SMap.get {} b.droop d).below = false)
    (hlevel : level.toNat < b.droopThr d) : b.droopEvent d level = { b with
      droop := SMap.put {} b.droop d { (SMap.get {} b.droop d) with
        below := true, events := satN 16 ((SMap.get {} b.droop d).events + 1),
        deepest := if level.toNat < (SMap.get {} b.droop d).deepest.toNat then level else (SMap.get {} b.droop d).deepest } } :=
  if_pos ⟨hr, hen, Bool.eq_false_iff.1 harmed, hlevel⟩

/-- The deepest level falls to a lower one. -/
theorem toNat_deepest (x y : BitVec 16) : (if x.toNat < y.toNat then x else y).toNat = min x.toNat y.toNat := by
  split <;> omega

/-- A round that ends with none waiting leaves its group idle and one round further (R128). -/
theorem Conv.finish_last {c : Conv} {m : Nat} (d : BitVec 16) (res : Nat → BitVec 16) (hrun : c.running = some m)
    (hwait : c.waiting = none) : c.finish d res = {
      running := none, waiting := none, rounds := c.rounds + 1,
      reads := (onesBelow 32 m).foldl (fun r i => SMap.put d r i (res i)) c.reads } := by
  simp [Conv.finish, hrun, hwait]

/-- Its results replace the readings of its inputs alone. -/
theorem get_foldl_reads (d : BitVec 16) (res : Nat → BitVec 16) (m : Nat) (reads : SMap (BitVec 16)) {i : Nat} (hi : i < 32) :
    SMap.get d ((onesBelow 32 m).foldl (fun r i => SMap.put d r i (res i)) reads) i =
      if m.testBit i then res i else SMap.get d reads i := by
  have hmem (k : Nat) : k ∈ onesBelow 32 m ↔ k < 32 ∧ m.testBit k = true := by simp [onesBelow]
  refine SMap.get_foldl_put d _ (fun k => k) res _ _ ?_ fun k hk hki => ?_
  · split
    · next h => exact .inl ⟨i, (hmem i).2 ⟨hi, h⟩, rfl⟩
    · exact .inr rfl
  · subst hki
    rw [if_pos ((hmem k).1 hk).2]

/-- A connected monitor's reading is clamped to 0.30 V and 1.50 V (R129). -/
theorem toNat_vmonReading (k : Nat) (v : BitVec 16) : (vmonReading k (.volt v)).toNat = max 0x04B0 (min 0x1770 v.toNat) := by
  simp only [vmonReading]
  split
  · simp; omega
  · split
    · simp; omega
    · omega

/-- Settles O8: an event and a recovery of one droop input, and the end of a round of either group. -/
theorem sensorRoundsAndDroopsReplaceReadings : Obligations.SensorRoundsAndDroopsReplaceReadings := by
  refine fun s => ⟨fun input level hr hen harmed hlevel => ?_, fun input ha => ?_, fun reads m ha hrun hwait => ?_,
    fun reads m ha hrun hwait => ?_⟩
  · have hnext := onBumas_eq (·.droopEvent input.toNat level) (Bumas.alive_of_running hr)
      (Bumas.droopEvent_armed hr hen harmed hlevel)
    refine ⟨_, hnext, ?_, ?_, ?_, fun i hi => SMap.get_put_other _ _ _ _ _ hi⟩ <;> rw [SMap.get_put_same]
    · exact satN_eq_min 16 _
    · exact toNat_deepest _ _
  · exact ⟨_, (onBumas_runs _ s ha : execDroopRecovery input s = _), fun i => SMap.get_mod ..⟩
  · have hfin := Conv.finish_last 0x8000 (fun i => thermReading (reads.getD i .broken)) hrun hwait
    refine ⟨_, (onBumas_runs _ s ha : execThermalRoundDone reads s = _), ?_, ?_, fun i hi => ?_⟩ <;> rw [hfin]
    exact get_foldl_reads _ _ _ _ hi
  · have hfin := Conv.finish_last 0xFFFF (fun j => vmonReading (s.bm.free + j) (reads.getD j .unconnected)) hrun hwait
    refine ⟨_, (onBumas_runs _ s ha : execVoltageRoundDone reads s = _), ?_, ?_, fun j hj v hv hm => ?_⟩ <;> rw [hfin]
    rw [get_foldl_reads _ _ _ _ (by omega), if_pos hm, List.getD_eq_getElem?_getD, hv]
    exact toNat_vmonReading _ _

end Sys2Proof.Machine
end

section
/-! PROOFS. Probe programs, and the boundary that turns the copies over (R83, R107, R109, R110, R116, R117). -/

namespace Sys2Proof.Machine

/-! ### END and the limit (R109, R132) -/

/-- The Bumas whose run has issued END. -/
def Bumas.endIssued (b : Bumas) : Bumas :=
  { b with pcsReq := false, probe := { b.probe with cycles := b.probe.cycles + 1, instrs := b.probe.instrs + 1 } }

theorem probeEnd_issues {s : State} {o : ProbeOp} (h : s.bm.issues 0x3F 0 o = true) :
    exec (.probeEnd o) s = .next { s with bm := s.bm.endIssued.endRun stDone 0 0 false } :=
  onBumas_eq (fun b => if b.issues 0x3F 0 o then b.endIssued.endRun stDone 0 0 false else b) (Bumas.alive_of_issues h) (if_pos h)

/-- The Bumas whose run has reached the limit: one overrun more in BM_PROBE_STAT, and the cycles to 50 µs. -/
def Bumas.limitReached (b : Bumas) : Bumas :=
  { b.wr Reg.BM_PROBE_STAT (satFld (b.rd Reg.BM_PROBE_STAT) 48 16 1) with
    probe := { b.probe with cycles := max b.probe.cycles (b.cyclesTo 50000) } }

theorem Bumas.overrun_running {b : Bumas} (hr : b.running = true) (hp : b.probe.running = true) :
    b.overrun none = b.limitReached.endRun stOverrun 0 0 true := by
  have hgo : (b.running && b.probe.running) = true := by rw [hr, hp]; rfl
  exact if_pos hgo

/-! ### SWAP and validation (R116, R117) -/

/-- The Glexon may write BM_PROBE_CTRL, and a SWAP written there starts a validation (R116). -/
theorem Bumas.csrWrite_swap (b : Bumas) {v : Word} (hv : bit v 0 = true) : ∃ x : Word, (b.csrWrite .tap Reg.BM_PROBE_CTRL v).1 =
    ({ b with rwt := SMap.put none b.rwt Reg.BM_PROBE_CTRL (some x) } : Bumas).startValidation v := by
  have hfind : ∃ f, regFind bmRegFams Reg.BM_PROBE_CTRL = some f ∧ f.acc = .rwt ∧ f.own = .glexon := ⟨_, rfl, rfl, rfl⟩
  obtain ⟨f, hf, hacc, hown⟩ := hfind
  have hbuf : progBufOf Reg.BM_PROBE_CTRL = none := by decide
  have hmay : b.csrMayWrite .tap Reg.BM_PROBE_CTRL = true := by
    rw [Bumas.csrMayWrite, if_neg (by decide), hf, hbuf]
    simp [hacc, hown]
  refine ⟨b.csrValue .tap f Reg.BM_PROBE_CTRL v, ?_⟩
  rw [Bumas.csrWrite, if_pos hmay, Bumas.csrApply, hf]
  simp [hacc, hv]

/-- A SWAP by a Tap command is that write, of a block out of reset. -/
theorem programSwap_tap {s : State} {data : Word} {b : Bumas} (ha : s.bm.alive = true)
    (h : (s.bm.csrWrite .tap Reg.BM_PROBE_CTRL (putBit data 0 true)).1 = b) :
    exec (.programSwap true data) s = .next { s with bm := b } := by
  change execProgramSwap true data s = _
  simp [execProgramSwap, onBumasPins_next, ha, h]

theorem fld_putBit_other (w : Word) {i lo len : Nat} (b : Bool) (h : i < lo) (h' : lo + len ≤ 64) :
    fld (putBit w i b) lo len = fld w lo len := fld_putFld_other _ _ (.inr h) h'

theorem Bumas.firstBad_eq_none_iff (b : Bumas) (buf : Bool) (len : Nat) :
    b.firstBad buf len = none ↔ ∀ i < len, probeWordOk len i (b.progWord buf i) = true := by
  simp [Bumas.firstBad, List.find?_eq_none]

/-- Validation passes a program of 1 to 1,024 words, all of them valid, and fails any other (R116). -/
theorem Bumas.valDone_running {b : Bumas} (h : b.probe.val = .running) :
    ∃ v pc, b.valDone = { b with probe := { b.probe with val := v, valPc := pc } } ∧
      (v = .passed ↔ 0 < b.probe.valLen ∧ b.probe.valLen ≤ 1024 ∧
        ∀ i < b.probe.valLen, probeWordOk b.probe.valLen i (b.progWord (!b.probe.progBuf) i) = true) ∧
      (v ≠ .passed → v = .failed) := by
  rw [← Bumas.firstBad_eq_none_iff]
  unfold Bumas.valDone
  rw [if_neg (not_not_intro h)]
  dsimp only
  split
  · next hlen => exact ⟨.failed, 0, rfl, iff_of_false nofun (by omega), fun _ => rfl⟩
  · next hlen =>
    split
    · next i hbad => exact ⟨.failed, i, rfl, iff_of_false nofun (by simp [hbad]), fun _ => rfl⟩
    · next hgood =>
      exact ⟨.passed, b.probe.valPc, rfl, iff_of_true rfl ⟨by omega, by omega, hgood⟩, fun hne => absurd rfl hne⟩

/-! ### The boundary (R83, R107) -/

/-- The counters, the energy, the markers, the audit counts and the time with their copies: the Bumas without its registers, its
sequencer, its conversions, its channels, its Tap endpoint and its audit slots. -/
def Bumas.copies (b : Bumas) : Bumas := { b with
  regs := [], probe := {}, therm := {}, volt := {}, snoop := [], droop := [], tap := {},
  audit := { b.audit with slots := [], sizeCode := 0 } }

theorem Bumas.copies_of_withoutTx {b c : Bumas} (h : c.withoutTx = b.withoutTx) : c.copies = b.copies := by
  have hcopies := congrArg Bumas.copies h
  exact hcopies

/-- `c` has the copies of `b`, and the two registers that a boundary writes of its own tick. -/
structure Bumas.SameCopies (b c : Bumas) : Prop where
  copies : c.copies = b.copies
  clk    : c.rd Reg.BM_CLK_MEAS = b.rd Reg.BM_CLK_MEAS
  snap   : c.rd Reg.BM_SNAP_TICK = b.rd Reg.BM_SNAP_TICK

namespace Bumas.SameCopies

theorem refl (b : Bumas) : b.SameCopies b := ⟨rfl, rfl, rfl⟩

theorem trans {b c d : Bumas} (h : b.SameCopies c) (k : c.SameCopies d) : b.SameCopies d :=
  ⟨k.copies.trans h.copies, k.clk.trans h.clk, k.snap.trans h.snap⟩

theorem of_regs {b c : Bumas} (hc : c.copies = b.copies) (hr : c.regs = b.regs) : b.SameCopies c :=
  ⟨hc, congrArg (SMap.get _ · _) hr, congrArg (SMap.get _ · _) hr⟩

theorem wr (b : Bumas) {a : Nat} (v : Word) (hclk : Reg.BM_CLK_MEAS ≠ a) (hsnap : Reg.BM_SNAP_TICK ≠ a) :
    b.SameCopies (b.wr a v) :=
  ⟨rfl, b.rd_wr_other v hclk, b.rd_wr_other v hsnap⟩

/-- What the transmit queue does with records leaves the copies alone. -/
theorem of_sameButTx {b c : Bumas} (h : b.SameButTx c) : b.SameCopies c :=
  ⟨Bumas.copies_of_withoutTx h.rest, h.rd _ (.inl (by decide)), h.rd _ (.inl (by decide))⟩

theorem close (b : Bumas) (r : Rec) (slot : Option Nat) (loss : Option LossInfo) : b.SameCopies (b.close r slot loss) :=
  .trans (c := b.seqTaken) (.of_regs rfl rfl) (.of_sameButTx (b.sameButTx_close r slot loss))

end Bumas.SameCopies

/-- A series of operations that leave the copies alone does so. -/
theorem foldl_copies {α : Type} (f : Bumas → α → Bumas) (hf : ∀ b a, (f b a).copies = b.copies) (l : List α) (b : Bumas) :
    (l.foldl f b).copies = b.copies :=
  List.foldlRecOn (motive := fun c : Bumas => c.copies = b.copies) _ _ rfl fun c hc a _ => (hf c a).trans hc

section

variable (b : Bumas)

/-- The limit ends a run and leaves the copies alone. -/
theorem Bumas.overrun_copies : (b.overrun none).copies = b.copies := by
  by_cases h : b.running = true ∧ b.probe.running = true
  · obtain ⟨n, hend⟩ := b.limitReached.endRun_withoutTx stOverrun 0 0 true
    have hcopies := congrArg Bumas.copies hend
    rw [Bumas.overrun_running h.1 h.2]
    exact hcopies
  · rw [Bumas.overrun, if_neg (by simpa using h)]

theorem Bumas.wr_copies (a : Nat) (v : Word) : (b.wr a v).copies = b.copies := rfl

theorem Bumas.latchStats_copies : b.latchStats.copies = b.copies := by simp only [Bumas.latchStats, Bumas.wr_copies]

theorem Bumas.swapSnoop_copies (written : List Nat) : (b.swapSnoop written).copies = b.copies := by
  simp only [Bumas.swapSnoop, Bumas.copies]

theorem Bumas.bumpAlive_copies (old : BmTime) : (b.bumpAlive old).copies = b.copies := rfl

theorem Bumas.refillWritten_copies (written : List Nat) : (b.refillWritten written).copies = b.copies := by
  refine foldl_copies _ (fun b c => ?_) _ b
  dsimp only
  split
  · split <;> rfl
  · split <;> rfl

/-- RWT values in force are pending no longer (R14). -/
theorem Bumas.commitRwt_copies : b.commitRwt.copies = { b with rwt := [] }.copies :=
  congrArg (fun c : Bumas => { c with rwt := [] })
    (foldl_copies (fun b (p : Nat × Option Word) => b.wr p.1 (p.2.getD 0)) (fun _ _ => rfl) b.rwt b)

theorem Bumas.sameCopies_applySlotSize : b.SameCopies b.applySlotSize := by
  unfold Bumas.applySlotSize
  split <;> exact .of_regs rfl rfl

theorem Bumas.sameCopies_judgeSwap : b.SameCopies b.judgeSwap := by
  have hctrl (v : Word) : b.SameCopies (b.wr Reg.BM_PROBE_CTRL v) := .wr b v (by decide) (by decide)
  unfold Bumas.judgeSwap
  extract_lets p c b1
  split
  · exact .of_regs rfl rfl
  · split
    · exact .of_regs rfl rfl
    · split
      · exact .of_regs rfl rfl
      · split <;> exact (hctrl _).trans (.of_regs rfl rfl)

theorem Bumas.sameCopies_closeLoss : b.SameCopies b.closeLoss := by
  unfold Bumas.closeLoss
  extract_lets b1 first l tap b2
  split
  · exact .refl b
  · have h2 : b.SameCopies b2 := .trans (.of_sameButTx (b.sameButTx_discardWhere _)) (.of_regs rfl rfl)
    exact h2.trans (.close _ _ _ _)

theorem Bumas.sameCopies_startRounds : b.SameCopies b.startRounds := by
  unfold Bumas.startRounds
  dsimp only
  split <;> exact .of_regs rfl rfl

/-- A run starts, or the summary of a tick without one closes (R108, R110). -/
theorem Bumas.sameCopies_startRun : b.SameCopies b.startRun := by
  unfold Bumas.startRun
  extract_lets p b1
  have h1 : b.SameCopies b1 := .of_regs rfl rfl
  split
  · exact h1
  · split
    · exact h1.trans (.of_regs rfl rfl)
    · exact h1.trans (.close _ _ _ _)

/-- The Bumas in a new tick, with the threshold of the interval before and no RWT value pending. -/
def Bumas.atTick (t : BmTime) (thr : BitVec 32) : Bumas := { b with time := t, thrPrev := thr, rwt := [] }

/-- The new tick begins: the RWT values are put in force (R16, R147, R306). -/
def Bumas.newTick (t old : BmTime) (thr : BitVec 32) (written : List Nat) : Bumas :=
  (({ b with time := t, thrPrev := thr } : Bumas).commitRwt.refillWritten written).bumpAlive old

/-- The registers of the snapshot are written (R80, R83). -/
def Bumas.stamped (khz : BitVec 21) : Bumas := (b.wr Reg.BM_CLK_MEAS (word khz.toNat)).wr Reg.BM_SNAP_TICK b.time.tickNo

/-- The interrupt of a boundary (R94). -/
def Bumas.boundaryIrq : Bumas := if b.en then b.irqSet 0 else b

/-- What a boundary does after its snapshot: readings, slots, the judgement of a SWAP, the LOSS record, rounds and the run. -/
def Bumas.tickBegun : Bumas := (b.dropDisabled.applySlotSize.judgeSwap.closeLoss.startRounds.boundaryIrq).startRun

/-- A boundary in its steps: the tick that ends is closed, its snapshot taken, and the new tick begun (R83, R107). -/
theorem Bumas.boundary_ticking {b : Bumas} (khz : BitVec 21) (h : b.time.ticking = true) :
    ∃ (thr : BitVec 32) (written : List Nat), b.boundary khz = (((((b.overrun none).latchStats.swapSnoop written).snapshot.newTick
      ((b.overrun none).latchStats.swapSnoop written).snapshot.time.boundary b.time thr written).stamped khz).tickBegun) := by
  rw [Bumas.boundary, if_neg (not_not_intro h)]
  simp only [Bumas.tickBegun, Bumas.boundaryIrq, Bumas.stamped, Bumas.newTick]
  exact ⟨_, _, rfl⟩

theorem Bumas.newTick_copies (t old : BmTime) (thr : BitVec 32) (written : List Nat) :
    (b.newTick t old thr written).copies = (b.atTick t thr).copies := by
  rw [Bumas.newTick, Bumas.bumpAlive_copies, Bumas.refillWritten_copies, Bumas.commitRwt_copies]
  rfl

theorem Bumas.stamped_copies (khz : BitVec 21) : (b.stamped khz).copies = b.copies := by
  simp only [Bumas.stamped, Bumas.wr_copies]

theorem Bumas.rd_stamped_snap (khz : BitVec 21) : (b.stamped khz).rd Reg.BM_SNAP_TICK = b.time.tickNo := Bumas.rd_wr_same _ _ _

theorem Bumas.rd_stamped_clk (khz : BitVec 21) : (b.stamped khz).rd Reg.BM_CLK_MEAS = word khz.toNat :=
  (Bumas.rd_wr_other _ _ (by decide)).trans (Bumas.rd_wr_same _ _ _)

theorem Bumas.sameCopies_tickBegun : b.SameCopies b.tickBegun := by
  have hdrop : b.SameCopies b.dropDisabled := .of_regs rfl rfl
  have hirq (b : Bumas) : b.SameCopies b.boundaryIrq := by
    unfold Bumas.boundaryIrq
    split
    · exact .wr _ _ (by decide) (by decide)
    · exact .refl b
  exact (((((hdrop.trans (Bumas.sameCopies_applySlotSize _)).trans (Bumas.sameCopies_judgeSwap _)).trans
    (Bumas.sameCopies_closeLoss _)).trans (Bumas.sameCopies_startRounds _)).trans (hirq _)).trans (Bumas.sameCopies_startRun _)

/-- R83: a boundary turns the copies over, and the registers of the snapshot name the new tick and the measured clock. -/
theorem Bumas.boundary_copies {b : Bumas} (khz : BitVec 21) (h : b.time.ticking = true) : ∃ (c : Bumas) (thr : BitVec 32),
    c.copies = b.copies ∧ (b.boundary khz).copies = (c.snapshot.atTick c.snapshot.time.boundary thr).copies ∧
    (b.boundary khz).rd Reg.BM_SNAP_TICK = (b.boundary khz).time.tickNo ∧
    (b.boundary khz).rd Reg.BM_CLK_MEAS = word khz.toNat := by
  obtain ⟨thr, written, heq⟩ := b.boundary_ticking khz h
  have hc : ((b.overrun none).latchStats.swapSnoop written).copies = b.copies :=
    (Bumas.swapSnoop_copies _ _).trans ((Bumas.latchStats_copies _).trans b.overrun_copies)
  rw [heq]
  generalize (b.overrun none).latchStats.swapSnoop written = c at hc ⊢
  have hnew := c.snapshot.newTick_copies c.snapshot.time.boundary b.time thr written
  generalize c.snapshot.newTick c.snapshot.time.boundary b.time thr written = d at hnew ⊢
  have hbegun := (d.stamped khz).sameCopies_tickBegun
  generalize (d.stamped khz).tickBegun = t at hbegun ⊢
  have htick : t.time.tickNo = d.time.tickNo := congrArg (·.time.tickNo) (hbegun.copies.trans (d.stamped_copies khz))
  refine ⟨c, thr, hc, hbegun.copies.trans ((d.stamped_copies khz).trans hnew), ?_, ?_⟩
  · rw [hbegun.snap, htick, Bumas.rd_stamped_snap]
  · rw [hbegun.clk, Bumas.rd_stamped_clk]

end

/-- With nothing to adopt the next tick follows (R159). -/
theorem BmTime.nextTick_follows {t : BmTime} (h : t.adopt = none) : t.nextTick.1 = t.tickNo + 1 := by
  rw [BmTime.nextTick, h]
  dsimp only
  split <;> rfl

/-- Settles O15: the ends of a run, SWAP and validation, and the boundary from one set of copies to the next. -/
theorem probeProgramsAndTheBoundary : Obligations.ProbeProgramsAndTheBoundary := by
  refine ⟨fun s => ⟨fun o h hb => ?_, fun hr hp => ?_, fun data ha => ?_, fun ha hv => ?_⟩, fun s khz ha ht => ?_⟩
  · obtain ⟨n, hend⟩ := s.bm.endIssued.endRun_withoutTx stDone 0 0 false
    exact ⟨_, probeEnd_issues h, congrArg (·.probe.running) hend, congrArg (·.probe.instrs) hend,
      Bumas.endRun_seq (b := s.bm.endIssued) hb _ _ _ _,
      congrArg (·.probe.s) hend, congrArg (·.cnt) hend, rfl⟩
  · obtain ⟨n, hend⟩ := s.bm.limitReached.endRun_withoutTx stOverrun 0 0 true
    refine ⟨_, onBumas_eq (·.overrun none) (Bumas.alive_of_running hr) (Bumas.overrun_running hr hp),
      congrArg (·.probe.running) hend, ?_, congrArg (·.probe.s) hend, congrArg (·.probe.block) hend, rfl⟩
    have hstat : s.bm.limitReached.rd Reg.BM_PROBE_STAT = satFld (s.bm.rd Reg.BM_PROBE_STAT) 48 16 1 := s.bm.rd_wr_same _ _
    rw [Bumas.rd_endRun _ _ _ _ _ clearOfDrops_probeStat, hstat, fld_satFld_same _ _ (by decide)]
    rfl
  · obtain ⟨x, hx⟩ := s.bm.csrWrite_swap (bit_putBit_same data true (i := 0) (by decide))
    refine ⟨_, programSwap_tap ha hx, rfl, rfl, ?_, ?_, rfl, rfl⟩
    · exact fld_putBit_other _ _ (by decide) (by decide)
    · exact congrArg (BitVec.ofNat 32) (fld_putBit_other _ _ (by decide) (by decide))
  · obtain ⟨v, pc, hval, hpassed, hfailed⟩ := Bumas.valDone_running hv
    exact ⟨_, onBumas_eq Bumas.valDone ha hval, rfl, rfl, hpassed, hfailed⟩
  · obtain ⟨c, thr, hc, hturn, hsnap, hclk⟩ := s.bm.boundary_copies khz ht
    have hnext := onBumas_runs (·.boundary khz) s ha
    generalize s.bm.boundary khz = t at hnext hturn hsnap hclk
    have htime : c.snapshot.time = s.bm.time := congrArg (·.time) hc
    refine ⟨_, hnext, ?_, ?_, ?_, ?_, ?_, ?_, ?_, congrArg (·.markC) hturn, ?_,
      congrArg (·.audit.cur) hturn, congrArg (·.rwt) hturn, fun hadopt => ?_, hsnap, hclk, rfl⟩
    · exact (congrArg (·.snapN) hturn).trans (congrArg (·.cnt) hc)
    · exact (congrArg (·.snapP) hturn).trans (congrArg (·.snapN) hc)
    · exact (congrArg (·.cnt) hturn).trans (congrArg (·.cnt) hc)
    · exact (congrArg (·.energyN) hturn).trans (congrArg (·.energy) hc)
    · exact (congrArg (·.energyP) hturn).trans (congrArg (·.energyN) hc)
    · exact (congrArg (·.energy) hturn).trans (congrArg (·.energy) hc)
    · exact (congrArg (·.markP) hturn).trans (congrArg (·.markC) hc)
    · exact (congrArg (·.audit.prev) hturn).trans (congrArg (·.audit.cur) hc)
    · rw [← htime] at hadopt ⊢
      exact (congrArg (·.time.tickNo) hturn).trans (BmTime.nextTick_follows hadopt)

end Sys2Proof.Machine
end

section
/-! PROOFS. The Tap link at both ends: what is read of a port after an update, and what a discard leaves of the transmit queue. -/

namespace Sys2Proof.Machine

/-! ### Ports of the Glexon -/

section
variable (g : Glexon) (p : Nat)

@[simp] theorem Glexon.port_modPort_same (f : TapPort → TapPort) : (g.modPort p f).port p = f (g.port p) :=
  g.port_setPort_same p _

theorem Glexon.port_modPort_other {q : Nat} (f : TapPort → TapPort) (h : q ≠ p) : (g.modPort p f).port q = g.port q :=
  g.port_setPort_other p q _ h

/-- A port is what the table of ports says, whatever else of the Glexon differs. -/
theorem Glexon.port_congr {g h : Glexon} (e : g.ports = h.ports) (p : Nat) : g.port p = h.port p :=
  congrArg (fun m : SMap TapPort => SMap.get ({} : TapPort) m p) e

@[simp] theorem Glexon.port_wr (a : Nat) (v : Word) : (g.wr a v).port p = g.port p := rfl

@[simp] theorem Glexon.port_event (code agent : Nat) (args : List Word) : (g.event code agent args).port p = g.port p :=
  Glexon.port_congr (g.event_ports code agent args) p

@[simp] theorem Glexon.port_count (cls unit ev n : Nat) : (g.count cls unit ev n).port p = g.port p :=
  Glexon.port_congr (g.count_ports cls unit ev n) p

@[simp] theorem Glexon.port_buDone (n : Nat) : (g.buDone n).port p = g.port p :=
  Glexon.port_congr (g.buDone_ports n) p

end

/-! ### The transmit queue of the Bumas (R149, R150) -/

/-- A discarded record is gone already: the queue that is left, and the training of the link, stay. -/
theorem Bumas.discard_queue (b : Bumas) (t : TxRec) : (b.discard t).tap.q = b.tap.q ∧ (b.discard t).tap.tr = b.tap.tr := by
  unfold Bumas.discard
  split
  · exact ⟨rfl, rfl⟩
  · dsimp only
    split <;> exact ⟨rfl, rfl⟩

/-- What stays queued is what the discard does not name, in its order. -/
theorem Bumas.discardWhere_queue (b : Bumas) (p : TxRec → Bool) :
    (b.discardWhere p).tap.q = b.tap.q.filter (fun t => !p t) ∧ (b.discardWhere p).tap.tr = b.tap.tr :=
  List.foldlRecOn (motive := fun c : Bumas => c.tap.q = b.tap.q.filter (fun t => !p t) ∧ c.tap.tr = b.tap.tr) _ _ ⟨rfl, rfl⟩
    fun c ⟨hq, htr⟩ t _ => ⟨(c.discard_queue t).1.trans hq, (c.discard_queue t).2.trans htr⟩

end Sys2Proof.Machine
end

section
/-! PROOFS. Link training at either end, and what entering UP sets (R145, R160, R161, R163, R165, Table 5.7). -/

namespace Sys2Proof.Machine

/-! ### The training states of Table 5.7 -/

section
variable {t : Train} {lane : Bool}

/-- A signal on a lane brings DETECT to TRAIN. -/
theorem Train.signal_detect (h : t.st = .detect) :
    (t.signal lane).st = .train ∧ (if lane then (t.signal lane).sig1 else (t.signal lane).sig0) = true := by
  rw [Train.signal, if_pos (.inl h)]
  cases lane <;> exact ⟨rfl, rfl⟩

/-- The last lane with a signal to be trained, of one, brings TRAIN to FEC_ALIGN. -/
theorem Train.trained_last (h : t.st = .train) (h0 : t.sig0 = !lane) (h1 : t.sig1 = lane) : (t.trained lane).st = .fecAlign := by
  cases lane <;> simp [Train.trained, Train.allTrained, setLane, h, h0, h1]

/-- Codeword lock on the one lane that passed TRAIN brings FEC_ALIGN to INIT. -/
theorem Train.lock_single (pair : Bool) (h : t.st = .fecAlign) (h0 : t.trn0 = !lane) (h1 : t.trn1 = lane) :
    (t.lock pair lane).st = .init := by
  cases lane <;> simp [Train.lock, Train.two, setLane, h, h0, h1]

/-- On the second of two lanes it brings it to DESKEW. -/
theorem Train.lock_second (h : t.st = .fecAlign) (h0 : t.trn0 = true) (h1 : t.trn1 = true) (hw : t.want ≠ 1)
    (hl : (if lane then t.lane0 else t.lane1) = true) : (t.lock true lane).st = .deskew := by
  cases lane <;> simp_all [Train.lock, Train.two, setLane]

theorem Train.deskewed_deskew (h : t.st = .deskew) : t.deskewed.st = .init := by rw [Train.deskewed, if_pos h]

/-- A limit that expires between TRAIN and UP brings DETECT. -/
theorem Train.timeout_aligning (h : t.st = .fecAlign ∨ t.st = .deskew ∨ t.st = .init) : t.timeout = t.toDetect := by
  obtain h | h | h := h <;> simp [Train.timeout, h]

/-- A ×2 link that loses a lane aligns on the other, a degrade. -/
theorem Train.laneFail_two (lane : Bool) (h : t.st = .up) (hw : t.width = 2) : t.laneFail lane =
    { st := .fecAlign, sig0 := lane, trn0 := lane, sig1 := !lane, trn1 := !lane, degr := true, retrains := t.retrains + 1 } := by
  rw [Train.laneFail, if_neg (not_not_intro h), if_pos hw]

/-- The two ends' agreement on the width brings INIT to UP, and ends a degrade. -/
theorem Train.enterUp_init (two : Bool) (h : t.st = .init) : (t.enterUp two).st = .up ∧ (t.enterUp two).degr = false := by
  rw [Train.enterUp, if_pos h]
  exact ⟨rfl, rfl⟩

end

/-! ### A training step at an end -/

@[simp] theorem Bumas.irqSet_tap (b : Bumas) (i : Nat) : (b.irqSet i).tap = b.tap := rfl

/-- A link that leaves UP is in the state it goes to. -/
theorem Bumas.linkLost_tr (b : Bumas) : b.linkLost.tap.tr = b.tap.tr := (b.discardWhere_queue _).2

theorem Bumas.setTrain_tr (b : Bumas) (t : Train) : (b.setTrain t).tap.tr = t := by
  unfold Bumas.setTrain
  dsimp only
  split
  · exact Bumas.linkLost_tr _
  · split <;> rfl

theorem Glexon.setPortTrain_tr (g : Glexon) (p : Nat) (t : Train) : ((g.setPortTrain p t).port p).tr = t := by
  unfold Glexon.setPortTrain
  extract_lets old g1
  split_ifs <;> simp [g1]

/-- A training step puts its end in the state that it gives, and answers. -/
theorem trainAt_train {s : State} {e : LinkEnd} (f : Train → Bool → Train) (h : s.endRuns e = true) :
    ∃ t, trainAt e f s = .next t ∧ t.train e = f (s.train e) (s.paired e) := by
  cases e with
  | bumas => exact ⟨_, onBumas_runs (fun b => b.setTrain (f b.tap.tr true)) s h, s.bm.setTrain_tr _⟩
  | port p => 
    exact ⟨_, onCore_runs (fun g => g.setPortTrain p.toNat (f (g.port p.toNat).tr (g.tpPair p.toNat))) s h,
      s.gx.setPortTrain_tr _ _⟩

/-! ### The Bumas enters UP (R145, R151, R160) -/

/-- What entering UP sets at the Bumas: the initial credit limits with nothing sent, and, but after a degrade, command number 1. -/
def Bumas.linkedUp (b : Bumas) (t : Train) : Bumas :=
  { b with tap := { b.tap with
      tr := t, sent := [], limit := [(0, 64), (1, 1024), (2, 1024), (3, 256)],
      next := if b.tap.tr.degr then b.tap.next else 1, hist := if b.tap.tr.degr then b.tap.hist else [] } }

theorem Bumas.setTrain_up {b : Bumas} {t : Train} (h : b.tap.tr.st ≠ .up) (ht : t.st = .up) :
    b.setTrain t = (b.linkedUp t).irqSet 1 := by
  simp [Bumas.setTrain, Bumas.linkUp, Bumas.linkedUp, h, ht]

/-! ### A port enters UP, or holds its link (R145, R160, R163) -/

/-- The training of a port's link, and the limits of its credit. -/
def TapPort.link (t : TapPort) : Train × SMap (BitVec 32) := (t.tr, t.limit)

/-- Commands that are queued leave the link alone. -/
theorem TapPort.foldl_link {α : Type} {f : TapPort → α → TapPort} (hf : ∀ t a, (f t a).link = t.link) (l : List α) (t : TapPort) :
    (l.foldl f t).link = t.link :=
  List.foldlRecOn (motive := fun x : TapPort => x.link = t.link) _ _ rfl fun x hx a _ => (hf x a).trans hx

/-- So does the restore of a die's registers (R162). -/
theorem Glexon.restoreDie_link (g : Glexon) (p : Nat) (fresh : Bool) : ((g.restoreDie p fresh).port p).link = (g.port p).link := by
  rw [Glexon.restoreDie, Glexon.port_modPort_same]
  extract_lets t0 t1 ctl t2 en
  have h0 : t0.link = (g.port p).link := by unfold t0; split <;> rfl
  have h1 : t1.link = t0.link := by
    refine TapPort.foldl_link (fun t off => ?_) _ _
    split
    · split <;> rfl
    · rfl
  have h2 : t2.link = t1.link := by
    unfold t2
    split_ifs
    · rfl
    · exact TapPort.foldl_link (f := TapPort.queueCmd) (fun _ _ => rfl) (progLoads 94 0 g.probe) t1
  rw [← h0, ← h1, ← h2]
  split_ifs <;> rfl

/-- The fourth step of bring-up ends in a register alone. -/
theorem Glexon.tapsUp_keeps (g : Glexon) : g.tapsUp.ports = g.ports ∧ g.tapsUp.mem = g.mem := by
  unfold Glexon.tapsUp
  split
  · exact ⟨g.buDone_ports 4, g.buDone_mem 4⟩
  · exact ⟨rfl, rfl⟩

/-- A port that enters UP has the initial credit limits, and memory stays. -/
theorem Glexon.portUp_link (g : Glexon) (p : Nat) (t : Train) (fresh degr : Bool) :
    ((g.portUp p t fresh degr).port p).link = (t, [(0, 64), (1, 1024), (2, 1024), (3, 256)]) ∧
      (g.portUp p t fresh degr).mem = g.mem := by
  unfold Glexon.portUp
  extract_lets g1 g2 fl g3
  obtain ⟨hports, hmem⟩ := (g3.restoreDie p fresh).tapsUp_keeps
  have hport : g3.port p = g1.port p := g1.port_event p _ _ _
  refine ⟨?_, hmem.trans (g1.event_mem _ _ _)⟩
  rw [Glexon.port_congr hports, Glexon.restoreDie_link, hport, Glexon.port_modPort_same]
  rfl

theorem exec_linkInit_port {s : State} {p : BitVec 6} (two fresh : Bool) (hs : s.gx.coreUp = true)
    (h : (s.gx.port p.toNat).tr.st = .init) (hexp : s.gx.tpExpected p.toNat = true) :
    exec (.linkInit (.port p) two fresh) s = .next { s with
      gx := s.gx.portUp p.toNat ((s.gx.port p.toNat).tr.enterUp two) fresh (s.gx.port p.toNat).tr.degr } := by
  change execLinkInit (.port p) two fresh s = _
  simp [execLinkInit, onCore_runs _ s hs, h, hexp]

/-- A link that is held in INIT, with what was agreed kept for when the port is set to expect a die (R163). -/
def Glexon.linkHeld (g : Glexon) (p : Nat) (two fresh : Bool) : Glexon :=
  (g.modPort p fun t => { t with held := true, fresh := fresh, heldTwo := two }).event 0x0205 29 [word p]

theorem exec_linkInit_unexpected {s : State} {p : BitVec 6} (two fresh : Bool) (hs : s.gx.coreUp = true)
    (h : (s.gx.port p.toNat).tr.st = .init) (hexp : s.gx.tpExpected p.toNat = false) (hheld : (s.gx.port p.toNat).held = false) :
    exec (.linkInit (.port p) two fresh) s = .next { s with gx := s.gx.linkHeld p.toNat two fresh } := by
  change execLinkInit (.port p) two fresh s = _
  simp [execLinkInit, onCore_runs _ s hs, h, hexp, hheld, Glexon.linkHeld]

/-! ### TP_PORT_CFG (R161, R163, R165) -/

theorem bit_putBit_other (w : Word) {i j : Nat} (b : Bool) (hi : i < 64) (h : i ≠ j) : bit (putBit w j b) i = bit w i := by
  change (putFld w j 1 b.toNat).toNat.testBit i = w.toNat.testBit i
  rw [testBit_putFld _ _ _ _ hi, if_neg (by omega)]

/-- What TP_PORT_CFG_p takes of a write: the four top bits, PAIR at an even port only, and the retrain bit not kept. -/
def portCfg (p : Nat) (data : Word) : Word :=
  let v := data &&& 0xF000000000000000
  putBit (if p % 2 = 0 then v else putBit v 61 false) 60 false

theorem bit_topBits (data : Word) {i : Nat} (h : i = 62 ∨ i = 63) : bit (data &&& 0xF000000000000000) i = bit data i := by
  simp only [bit, BitVec.getLsbD_and]
  obtain rfl | rfl := h <;> exact Bool.and_true _

theorem bit_portCfg (p : Nat) (data : Word) {i : Nat} (h : i = 62 ∨ i = 63) : bit (portCfg p data) i = bit data i := by
  rw [portCfg, bit_putBit_other _ _ (by omega) (by omega)]
  split
  · exact bit_topBits data h
  · rw [bit_putBit_other _ _ (by omega) (by omega), bit_topBits data h]

/-- Another register than the event recorder's status reads the same after a training step of a port that is not UP. -/
theorem Glexon.setPortTrain_rd {g : Glexon} {p a : Nat} (t : Train) (hup : (g.port p).up = false) (ha : a ≠ Reg.MG_EVR_STAT) :
    (g.setPortTrain p t).rd a = g.rd a := by
  unfold Glexon.setPortTrain
  dsimp only
  rw [if_neg (by simp [hup])]
  split
  · exact Glexon.rd_event _ _ _ _ _ ha
  · rfl

theorem portCfg_ne_evrStat (p : BitVec 6) : Reg.TP_PORT_CFG p.toNat ≠ Reg.MG_EVR_STAT := by
  unfold Reg.TP_PORT_CFG Reg.MG_EVR_STAT
  omega

/-- EN = 0 disables a port. -/
theorem Glexon.portCfgWrite_off (g : Glexon) (p : Nat) {data : Word} (h : bit data 63 = false) : g.portCfgWrite p data =
    (g.wr (Reg.TP_PORT_CFG p) (portCfg p data)).setPortTrain p { retrains := (g.port p).tr.retrains } := by
  unfold Glexon.portCfgWrite
  dsimp only
  rw [bit_topBits data (.inr rfl), h, if_pos Bool.false_ne_true]
  rfl

/-- The first EN = 1 starts detection. -/
theorem Glexon.portCfgWrite_first {g : Glexon} {p : Nat} {data : Word} (h : bit data 63 = true) (hoff : g.tpEn p = false) :
    g.portCfgWrite p data =
      (g.wr (Reg.TP_PORT_CFG p) (portCfg p data)).setPortTrain p { (g.port p).tr with st := .detect } := by
  have hold : bit (g.rd (Reg.TP_PORT_CFG p)) 63 = false := hoff
  unfold Glexon.portCfgWrite
  dsimp only
  rw [bit_topBits data (.inr rfl), h, if_neg (not_not_intro rfl), hold, if_pos Bool.false_ne_true]
  rfl

/-- Settles O16: each training step gives its state of Table 5.7 to its end, and UP brings the initial credit. -/
theorem linksTrainAndComeUp : Obligations.LinksTrainAndComeUp := by
  refine ⟨fun s e lane hs => ⟨fun h => ?_, fun h h0 h1 => ?_, fun h h0 h1 => ?_, fun h h0 h1 hw hp hl => ?_, fun h => ?_,
    fun h => ?_, fun h hw => ?_⟩, fun s => ⟨fun two fresh ha hi => ?_, fun p two fresh hs hi => ⟨fun hexp => ?_,
    fun hexp hheld hroom => ?_⟩, fun q data hs hup => ?_⟩⟩
  · obtain ⟨t, ht, htr⟩ := trainAt_train (fun t _ => t.signal lane) hs
    exact ⟨t, ht, htr ▸ Train.signal_detect h⟩
  · obtain ⟨t, ht, htr⟩ := trainAt_train (fun t _ => t.trained lane) hs
    exact ⟨t, ht, htr ▸ Train.trained_last h h0 h1⟩
  · obtain ⟨t, ht, htr⟩ := trainAt_train (fun t pair => t.lock pair lane) hs
    exact ⟨t, ht, htr ▸ Train.lock_single _ h h0 h1⟩
  · obtain ⟨t, ht, htr⟩ := trainAt_train (fun t pair => t.lock pair lane) hs
    rw [hp] at htr
    exact ⟨t, ht, htr ▸ Train.lock_second h h0 h1 hw hl⟩
  · obtain ⟨t, ht, htr⟩ := trainAt_train (fun t _ => t.deskewed) hs
    exact ⟨t, ht, htr ▸ Train.deskewed_deskew h⟩
  · obtain ⟨t, ht, htr⟩ := trainAt_train (fun t _ => t.timeout) hs
    rw [Train.timeout_aligning h] at htr
    exact ⟨t, ht, htr ▸ ⟨rfl, rfl⟩⟩
  · obtain ⟨t, ht, htr⟩ := trainAt_train (fun t _ => t.laneFail lane) hs
    rw [Train.laneFail_two lane h hw] at htr
    refine ⟨t, ht, ?_⟩
    rw [htr]
    cases lane <;> exact ⟨rfl, rfl, rfl, rfl, rfl⟩
  · obtain ⟨hst, -⟩ := Train.enterUp_init two hi
    have hnext := onBumas_eq (fun b => b.setTrain (b.tap.tr.enterUp two)) ha
      (Bumas.setTrain_up (b := s.bm) (by simp [hi]) hst)
    refine ⟨_, hnext, decide_eq_true hst, rfl, rfl, fun hd => ?_, ?_, rfl, rfl⟩
    · simp [Bumas.linkedUp, hd]
    · exact (congrArg (bit · 1) (Bumas.rd_wr_same ..)).trans (bit_putBit_same _ _ (by decide))
  · obtain ⟨hlink, hmem⟩ := s.gx.portUp_link p.toNat ((s.gx.port p.toNat).tr.enterUp two) fresh (s.gx.port p.toNat).tr.degr
    obtain ⟨htr, hlimit⟩ := Prod.mk.inj hlink
    refine ⟨_, exec_linkInit_port two fresh hs hi hexp, ?_, hlimit, hmem, rfl⟩
    rw [TapPort.up, htr]
    exact decide_eq_true (Train.enterUp_init two hi).1
  · obtain ⟨hregs, -, e, hevents, hcode, -⟩ := Glexon.event_room
      (s.gx.modPort p.toNat fun t => { t with held := true, fresh := fresh, heldTwo := two }) 0x0205 29 [word p.toNat] hroom
    refine ⟨_, exec_linkInit_unexpected two fresh hs hi hexp hheld, ?_, ?_, ?_, hregs, rfl⟩
    · simp [Glexon.linkHeld]
    · simp [Glexon.linkHeld]
    · rw [Glexon.linkHeld, hevents, List.map_append, List.map_singleton, hcode]
      rfl
  · have hrd (t : Train) (i : Nat) (h : i = 62 ∨ i = 63) : bit (((s.gx.wr (Reg.TP_PORT_CFG q.toNat)
        (portCfg q.toNat data)).setPortTrain q.toNat t).rd (Reg.TP_PORT_CFG q.toNat)) i = bit data i := by
      rw [Glexon.setPortTrain_rd t (by exact hup) (portCfg_ne_evrStat q), Glexon.rd_wr_same, bit_portCfg _ _ h]
    have hnext := onCore_runs (·.portCfgWrite q.toNat data) s hs
    refine ⟨fun hoff => ⟨_, hnext, ?_⟩, fun hon hen => ⟨_, hnext, ?_⟩⟩
    · rw [Glexon.portCfgWrite_off _ _ hoff]
      exact ⟨congrArg Train.st (Glexon.setPortTrain_tr ..), (hrd _ 63 (.inr rfl)).trans hoff, rfl⟩
    · rw [Glexon.portCfgWrite_first hon hen]
      exact ⟨congrArg Train.st (Glexon.setPortTrain_tr ..), (hrd _ 63 (.inr rfl)).trans hon, hrd _ 62 (.inl rfl), rfl⟩

end Sys2Proof.Machine
end

section
/-! PROOFS. The Bumas's block slots, the ageing of its transmit queue, and the blocks it receives (R141 to R145, R149, R152, R155 to
R157, R159). -/

namespace Sys2Proof.Machine

/-! ### Block slots (R141 to R143, R152, R155) -/

/-- The CMD_ACK block of an answer (R152). -/
def ackBlock (a : TapAck) : List Byte :=
  mkBlock ([0x21, 0, 0, 0] ++ leBytes 4 a.seq.toNat ++ [a.status] ++ leBytes 7 0 ++ leBytes 8 a.data.toNat)

/-- The TIME_ECHO block of an exchange (R155). -/
def echoBlock (id : BitVec 16) (t2 t3 : Int) : List Byte :=
  mkBlock ([0x31, 0, 0, 0] ++ timeWordBytes t2 ++ timeWordBytes t3 ++ leBytes 2 0 ++ leBytes 2 id.toNat)

section
variable {b : Bumas}

/-- The oldest CMD_ACK goes first. -/
theorem Bumas.blockSlot_ack {a : TapAck} {rest : List TapAck} (hup : b.linkUp = true) (hacks : b.tap.acks = a :: rest)
    (hafter : b.tap.after = none) : b.blockSlot = { b with tap := { b.tap with acks := rest, block := ackBlock a } } := by
  simp [Bumas.blockSlot, Bumas.afterAck, hup, hacks, hafter, ackBlock]

/-- Then a TIME_ECHO, with t3. -/
theorem Bumas.blockSlot_echo {id : BitVec 16} {t1 t2 : Int} (hup : b.linkUp = true) (hacks : b.tap.acks = [])
    (hecho : b.time.echo = some (id, t1, t2)) : b.blockSlot = { b with
      time := { b.time with echo := none, exch := some (id, t1, t2, b.stamp + bmEgress) },
      tap := { b.tap with block := echoBlock id t2 (b.stamp + bmEgress) } } := by
  simp [Bumas.blockSlot, hup, hacks, hecho, echoBlock]

/-- Then a DATA block of the highest class that may send. -/
theorem Bumas.blockSlot_data {c : Nat} {x : TxRec} (hup : b.linkUp = true) (hacks : b.tap.acks = []) (hecho : b.time.echo = none)
    (hc : b.sendClass = some c) (hx : b.tap.head c = some x) : b.blockSlot = b.sendData c x := by
  simp [Bumas.blockSlot, hup, hacks, hecho, hc, hx]

/-- Else IDLE. -/
theorem Bumas.blockSlot_idle (hup : b.linkUp = true) (hacks : b.tap.acks = []) (hecho : b.time.echo = none)
    (hc : b.sendClass = none) : b.blockSlot = { b with tap := { b.tap with block := mkBlock [0x00] } } := by
  simp [Bumas.blockSlot, hup, hacks, hecho, hc]

end

/-- Tokens are spent of the shapers alone. -/
theorem Bumas.shaperSpend_eq (b : Bumas) (c : Nat) : ∃ m, b.shaperSpend c = { b with tap := { b.tap with shapers := m } } := by
  unfold Bumas.shaperSpend
  split
  · exact ⟨b.tap.shapers, rfl⟩
  · exact ⟨_, rfl⟩

/-- A DATA block takes one block of credit of its class (R145), whether or not it is the record's last. -/
theorem Bumas.sendData_sent (b : Bumas) (c : Nat) (x : TxRec) :
    (b.sendData c x).tap.block = dataBlock c x.sent (Rec.blocks x.r) (Rec.bytes x.r) ∧
      (b.sendData c x).tap.sent = SMap.mod 0 b.tap.sent c (· + 1) ∧ (b.sendData c x).tap.limit = b.tap.limit ∧
      (b.sendData c x).cnt = b.cnt := by
  obtain ⟨m, hm⟩ := b.shaperSpend_eq c
  unfold Bumas.sendData
  rw [hm]
  dsimp only
  split
  · exact ⟨rfl, rfl, rfl, rfl⟩
  · split <;> exact ⟨rfl, rfl, rfl, rfl⟩

/-- What ages out of the transmit queue changes nothing else but the counts of discards, and frees its audit slots (R149). -/
theorem Bumas.sameButTx_ageOut (b : Bumas) : b.SameButTx b.ageOut := b.sameButTx_discardWhere _

/-! ### Blocks received (R140, R145) -/

/-- A good block on a link that is UP is taken. -/
theorem Bumas.receive_good {b : Bumas} {k : BlkCheck} (f : Bumas → Bumas) (hup : b.linkUp = true) (hk : k = ⟨true, true⟩) :
    b.receive k f = f b := by
  simp [Bumas.receive, hup, hk]

/-- A block whose CRC does not match changes its count in BM_TAP_ERR alone. -/
theorem Bumas.receive_badCrc {b : Bumas} {k : BlkCheck} (f : Bumas → Bumas) (hup : b.linkUp = true) (hk : k = ⟨true, false⟩) :
    b.receive k f = b.wr Reg.BM_TAP_ERR (satFld (b.rd Reg.BM_TAP_ERR) 16 16 1) := by
  simp [Bumas.receive, hup, hk]

/-- Four limits that are put, class by class, are each read. -/
theorem get_limits (m : SMap (BitVec 32)) (l0 l1 l2 l3 : BitVec 32) :
    let l := SMap.put 0 (SMap.put 0 (SMap.put 0 (SMap.put 0 m 0 l0) 1 l1) 2 l2) 3 l3
    SMap.get 0 l 0 = l0 ∧ SMap.get 0 l 1 = l1 ∧ SMap.get 0 l 2 = l2 ∧ SMap.get 0 l 3 = l3 := by
  simp [SMap.get_put_same, SMap.get_put_other]

/-! ### Time transfer (R155 to R157) -/

/-- The end of an exchange neither starts nor stops the tick generator, and counts nothing. -/
theorem Bumas.exchange_keeps (b : Bumas) (t1 t2 t3 t4 : Int) : (b.exchange t1 t2 t3 t4).time.glexHold = b.time.glexHold ∧
    (b.exchange t1 t2 t3 t4).time.ticking = b.time.ticking ∧ (b.exchange t1 t2 t3 t4).cnt = b.cnt := by
  unfold Bumas.exchange
  dsimp only
  split
  · exact ⟨rfl, rfl, rfl⟩
  · split <;> exact ⟨rfl, rfl, rfl⟩

/-- A TIME block is stamped and queues its echo, whether or not it ends an exchange. -/
theorem Bumas.timeRx_echo (b : Bumas) (x : TimeBlk) :
    (b.timeRx x).time.echo = some (x.id, ofTimeWord x.t1, b.stamp - bmIngress) ∧
      (b.timeRx x).time.glexHold = stateHold x.state ∧ (b.timeRx x).time.ticking = b.time.ticking ∧ (b.timeRx x).cnt = b.cnt := by
  refine ⟨rfl, ?_⟩
  unfold Bumas.timeRx
  dsimp only
  split
  · split
    · exact Bumas.exchange_keeps _ _ _ _ _
    · exact ⟨rfl, rfl, rfl⟩
  · exact ⟨rfl, rfl, rfl⟩

/-- The mean of the sixteen oldest offsets, in 2⁻¹⁶ ns. -/
def BmTime.mean (t : BmTime) : Int := (t.offsets.take 16).sum / 16

/-- A clock that is stepped back. -/
theorem BmTime.step_neg (t : BmTime) (d : Int) : (t.step (-d)).clk = ((t.clk : Int) - d * 65536).toNat :=
  congrArg Int.toNat (by ring)

/-- A loss of the link is not over yet, and the mean lies beyond ±1 µs (R157). -/
def BmTime.strayed (t : BmTime) : Prop := t.lossSince = true ∧ (1000 * 65536 < t.mean ∨ t.mean < -(1000 * 65536))

section
variable {b : Bumas} (hlen : 16 ≤ b.time.offsets.length) (hhold : b.time.state ≠ .holdover) (hnone : b.time.state ≠ .none)
include hlen hhold hnone

/-- Such a mean steps the clock and stops ticking. -/
theorem Bumas.servo_strayed (h : b.time.strayed) :
    b.servo = { b.wr Reg.BM_TAP_OFFSET (BitVec.ofInt 64 b.time.mean) with time := { b.time with
      clk := (b.time.step (-b.time.mean)).clk, offsets := [], ticking := false, state := .acquiring, inBand := 0 } } :=
  (if_neg (by simp [hhold, hnone, Nat.not_lt.2 hlen])).trans (if_pos h)

/-- Any other is slewed away: the clock and the tick generator stay. -/
theorem Bumas.servo_slewed (h : ¬b.time.strayed) : ∃ n c st l,
    b.servo = { b.wr Reg.BM_TAP_OFFSET (BitVec.ofInt 64 b.time.mean) with time := { b.time with
      offsets := b.time.offsets.drop 16, inBand := n, corr := c, state := st, lossSince := l } } :=
  ⟨_, _, _, _, (if_neg (by simp [hhold, hnone, Nat.not_lt.2 hlen])).trans (if_neg h)⟩

end

/-! ### Tick markers (R159) -/

/-- A locked block that is not ticking starts at the tick, epoch and period of the TICK block. -/
theorem Bumas.tickRx_starts {b : Bumas} {x : TickBlk} (hstill : b.time.ticking = false) (hlocked : b.time.state = .locked)
    (hhold : stateHold x.state = false) : b.tickRx x = { b with time := { b.time with
      ticking := true, glexHold := false,
      tickNo := word ((b.nowNs - (x.epochSec.toNat * 1000000000 + x.epochNs.toNat)) / (250000 * 2 ^ (x.period.toNat % 8))),
      epoch := x.epochSec.toNat * 1000000000 + x.epochNs.toNat, period := x.period.toNat % 8, pchg := x.pchg, adopt := none } } := by
  have hsame : b.reported false = { b with time := { b.time with glexHold := false } } := by simp [Bumas.reported, hlocked]
  unfold Bumas.tickRx
  dsimp only
  rw [hhold, hsame, if_pos (by simp [hstill]), if_pos hlocked]
  rfl

/-- Settles O17: the four branches of a block slot, the queue after a discard, and what each kind of block changes. -/
theorem theBumasSendsAndReceivesBlocks : Obligations.TheBumasSendsAndReceivesBlocks := by
  refine ⟨fun s ha hup => ⟨fun a rest hacks hafter => ?_, fun id t1 t2 hacks hecho => ?_, fun c x hacks hecho hc hx => ?_,
    fun hacks hecho hc => ?_⟩, fun s ha => ?_, fun s ha => ⟨fun c hup hk => ?_, fun c hup hk => ?_, fun x hup hk => ?_,
    fun f hlen hhold hnone hf => ?_, fun x hup hk hstill hlocked hhold => ?_⟩⟩
  · exact onBumas_eq Bumas.blockSlot ha (Bumas.blockSlot_ack hup hacks hafter)
  · exact onBumas_eq Bumas.blockSlot ha (Bumas.blockSlot_echo hup hacks hecho)
  · obtain ⟨hblock, hsent, hlimit, hcnt⟩ := s.bm.sendData_sent c x
    refine ⟨_, onBumas_eq Bumas.blockSlot ha (Bumas.blockSlot_data hup hacks hecho hc hx), hblock, ?_, fun d hd => ?_, hlimit,
      hcnt, rfl⟩
    · rw [hsent, SMap.get_mod_same]
    · rw [hsent, SMap.get_mod_other _ _ _ _ _ hd]
  · exact onBumas_eq Bumas.blockSlot ha (Bumas.blockSlot_idle hup hacks hecho hc)
  · have hrest := s.bm.sameButTx_ageOut.rest
    exact ⟨_, onBumas_runs Bumas.ageOut s ha, (s.bm.discardWhere_queue _).1, congrArg (·.cnt) hrest, congrArg (·.probe) hrest,
      congrArg (·.time) hrest, rfl⟩
  · exact ⟨_, onBumas_eq (fun b => b.receive c.chk _) ha (Bumas.receive_good _ hup hk), get_limits _ _ _ _ _⟩
  · exact onBumas_eq (fun b => b.receive c.chk _) ha (Bumas.receive_badCrc _ hup hk)
  · obtain ⟨hecho, hhold, htick, hcnt⟩ := s.bm.timeRx_echo x
    exact ⟨_, onBumas_eq (fun b => b.receive x.chk _) ha (Bumas.receive_good (·.timeRx x) hup hk), hecho, hhold, htick, hcnt, rfl⟩
  · subst hf
    have hnext := onBumas_runs Bumas.servo s ha
    by_cases hs : s.bm.time.strayed
    · rw [Bumas.servo_strayed hlen hhold hnone hs] at hnext
      refine ⟨_, hnext, Bumas.rd_wr_same _ _ _, rfl, fun hin => ?_, fun _ _ => ⟨rfl, rfl, BmTime.step_neg _ _⟩⟩
      simp only [BmTime.strayed, BmTime.mean] at hs
      obtain hin | hin := hin
      · simp [hin] at hs
      · omega
    · obtain ⟨n, c, st, l, heq⟩ := Bumas.servo_slewed hlen hhold hnone hs
      rw [heq] at hnext
      refine ⟨_, hnext, Bumas.rd_wr_same _ _ _, rfl, fun _ => ⟨rfl, rfl, rfl⟩, fun hl hout => ?_⟩
      exact absurd ⟨hl, by simp only [BmTime.mean]; omega⟩ hs
  · exact onBumas_eq (fun b => b.receive x.chk _) ha
      ((Bumas.receive_good (·.tickRx x) hup hk).trans (Bumas.tickRx_starts hstill hlocked hhold))

end Sys2Proof.Machine
end

section
/-! PROOFS. Tap commands at the Bumas: executed once in order, acknowledged, and answered again when repeated (R151 to R154). -/

namespace Sys2Proof.Machine

/-! ### Numbering and acknowledgement (R151, R152) -/

/-- The command carries the number expected: it is executed and acknowledged. -/
theorem Bumas.tapCmd_next {b : Bumas} {c : TapCmd} (f : Bumas → CmdRes) (hup : b.linkUp = true) (hk : c.chk = ⟨true, true⟩)
    (hseq : c.seq = b.tap.next) : b.tapCmd c f = (f b).b.ackNew c.seq (f b).status (f b).data := by
  rw [Bumas.tapCmd, Bumas.receive_good _ hup hk]
  simp [hseq]

/-- A command ahead of that number is discarded. -/
theorem Bumas.tapCmd_ahead {b : Bumas} {c : TapCmd} (f : Bumas → CmdRes) (hup : b.linkUp = true) (hk : c.chk = ⟨true, true⟩)
    (h1 : 1 ≤ (c.seq - b.tap.next).toNat) (h2 : (c.seq - b.tap.next).toNat < 2 ^ 31) : b.tapCmd c f = b := by
  rw [Bumas.tapCmd, Bumas.receive_good _ hup hk]
  dsimp only
  rw [if_neg (by omega), if_pos h2]

/-- One of the 16 before it is answered as it was, and counted. -/
theorem Bumas.tapCmd_repeated {b : Bumas} {c : TapCmd} {a : TapAck} (f : Bumas → CmdRes) (hup : b.linkUp = true)
    (hk : c.chk = ⟨true, true⟩) (h1 : 1 ≤ (b.tap.next - c.seq).toNat) (h2 : (b.tap.next - c.seq).toNat ≤ 16)
    (ha : (b.tap.hist.find? fun y => y.seq == c.seq) = some a) : b.tapCmd c f = { b with
      regs := (b.wr Reg.BM_TAP_CMD_STAT (satFld (b.rd Reg.BM_TAP_CMD_STAT) 16 16 1)).regs,
      tap := { b.tap with acks := b.tap.acks ++ [a] } } := by
  have hahead : 2 ^ 31 ≤ (c.seq - b.tap.next).toNat := by bv_omega
  rw [Bumas.tapCmd, Bumas.receive_good _ hup hk]
  dsimp only
  rw [if_neg (by omega), if_neg (by omega), if_pos h2, Bumas.wr_tap, ha]
  rfl

/-- An acknowledgement expects the next number, waits behind those queued, and leaves counters and pending RWT values. -/
theorem Bumas.ackNew_keeps (b : Bumas) (seq : BitVec 32) (status : Byte) (data : Word) :
    (b.ackNew seq status data).tap.next = b.tap.next + 1 ∧
    (b.ackNew seq status data).tap.acks = b.tap.acks ++ [{ seq := seq, status := status, data := data }] ∧
    (b.ackNew seq status data).cnt = b.cnt ∧ (b.ackNew seq status data).rwt = b.rwt := by
  unfold Bumas.ackNew
  dsimp only
  split <;> exact ⟨rfl, rfl, rfl, rfl⟩

/-- What executing a command may not touch: the numbering, the acknowledgements queued and the counters. -/
def Bumas.SameAcks (b c : Bumas) : Prop := c.tap.next = b.tap.next ∧ c.tap.acks = b.tap.acks ∧ c.cnt = b.cnt

section
variable {s : State} {c : TapCmd} (hs : s.bm.alive = true) (hup : s.bm.linkUp = true) (hk : c.chk = ⟨true, true⟩)
  (hseq : c.seq = s.bm.tap.next)
include hs hup hk hseq

/-- A command that is executed is answered with its status and data. -/
theorem answered_tapCmd {f : Bumas → CmdRes} {r : CmdRes} {P : Bumas → Prop} (hf : f s.bm = r) (hkeep : s.bm.SameAcks r.b)
    (hP : P (r.b.ackNew c.seq r.status r.data)) :
    Answered s (onBumas (fun b => b.tapCmd c f) s) c.seq r.status r.data P := by
  obtain ⟨hnext, hacks, hcnt⟩ := hkeep
  obtain ⟨hnext', hacks', hcnt', -⟩ := r.b.ackNew_keeps c.seq r.status r.data
  have hcmd := Bumas.tapCmd_next f hup hk hseq
  rw [hf] at hcmd
  exact ⟨_, onBumas_eq (fun b => b.tapCmd c f) hs hcmd, by rw [hnext', hnext], by rw [hacks', hacks], by rw [hcnt', hcnt], hP⟩

/-- So is one whose argument length is as Table 5.5 has it. -/
theorem answered_tapCmdLen {n : Nat} {f : Bumas → CmdRes} {r : CmdRes} {P : Bumas → Prop} (hlen : c.argLen.toNat = n)
    (hf : f s.bm = r) (hkeep : s.bm.SameAcks r.b) (hP : P (r.b.ackNew c.seq r.status r.data)) :
    Answered s (onBumas (fun b => b.tapCmdLen c n f) s) c.seq r.status r.data P :=
  answered_tapCmd hs hup hk hseq ((if_pos hlen).trans hf) hkeep hP

end

/-- Every opcode of Table 5.5 is received in the same way. -/
theorem exec_tapCommand (c : TapCmd) (s : State) : ∀ x ∈ ([.tapNop c, .csrWrite c, .csrRead c, .progLoad c, .tapGreyout c,
    .tapBlackout c, .auditThresh c, .tapReset c, .linkRetrain c] : List Instr),
    ∃ f : Bumas → CmdRes, exec x s = onBumas (fun b => b.tapCmd c f) s := by
  simp only [List.forall_mem_cons]
  exact ⟨⟨_, rfl⟩, ⟨_, rfl⟩, ⟨_, rfl⟩, ⟨_, rfl⟩, ⟨_, rfl⟩, ⟨_, rfl⟩, ⟨_, rfl⟩, ⟨_, rfl⟩, ⟨_, rfl⟩,
    List.forall_mem_nil _⟩

/-! ### Registers (R14, R96, R153, R154) -/

/-- A register write of a command touches neither the Tap endpoint nor the counters. -/
theorem Bumas.csrApply_keeps (b : Bumas) (who : BmAgent) (a : Nat) (v : Word) : b.SameAcks (b.csrApply who a v) := by
  unfold Bumas.csrApply
  split
  · exact ⟨rfl, rfl, rfl⟩
  · split
    · exact ⟨rfl, rfl, rfl⟩
    · exact ⟨rfl, rfl, rfl⟩
    · dsimp only
      split <;> exact ⟨rfl, rfl, rfl⟩
    · exact ⟨rfl, rfl, rfl⟩

/-- The Bumas with these RWT values pending. -/
def Bumas.pending (b : Bumas) (m : SMap (Option Word)) : Bumas := { b with rwt := m }

/-- A command's value for an RWT register, reserved bits 0, is pending until the boundary. -/
theorem Bumas.csrApply_rwt (b : Bumas) {a : Nat} {f : RegFam} (v : Word) (hf : regFind bmRegFams a = some f) (hacc : f.acc = .rwt)
    (ha : a ≠ Reg.BM_PROBE_CTRL) : b.csrApply .tap a v = b.pending (SMap.put none b.rwt a (some (v &&& f.wmask))) := by
  simp [Bumas.csrApply, hf, hacc, ha, Bumas.csrValue, Bumas.pending]

/-- A pending value is read at once (R14). -/
theorem Bumas.csrRead_pending {b : Bumas} {a : Nat} {v : Word} (h : SMap.get none b.rwt a = some v) : b.csrRead .tap a = v := by
  rw [Bumas.csrRead, if_neg (by simp), h]

theorem Bumas.csrRead_put (b : Bumas) (a : Nat) (v : Word) :
    (b.pending (SMap.put none b.rwt a (some v))).csrRead .tap a = v :=
  Bumas.csrRead_pending (SMap.get_put_same _ b.rwt _ _)

/-- Where nothing new is pending, a read stays. -/
theorem Bumas.csrRead_same {b : Bumas} {m : SMap (Option Word)} {a : Nat} (h : SMap.get none m a = SMap.get none b.rwt a) :
    (b.pending m).csrRead .tap a = b.csrRead .tap a := by
  unfold Bumas.csrRead
  rw [Bumas.pending, h]
  rfl

/-- An acknowledgement without error is read in BM_TAP_CMD_STAT alone. -/
theorem Bumas.csrRead_ackOk (b : Bumas) (seq : BitVec 32) (data : Word) {a : Nat} (ha : a ≠ Reg.BM_TAP_CMD_STAT) :
    (b.ackNew seq ackOk data).csrRead .tap a = b.csrRead .tap a := by
  unfold Bumas.csrRead Bumas.view
  rw [if_neg ha, if_neg ha]
  rfl

/-- A CSR_WRITE of one entry. -/
theorem csrEntries_one {c : TapCmd} (h : c.argLen = 16) : csrEntries c = [(leAt c.args 0 2, word (leAt c.args 8 8))] := by
  simp [csrEntries, h]

theorem Bumas.csrWrites_accepted {b : Bumas} {a : Nat} (v : Word) (h : b.csrMayWrite .tap a = true) :
    b.csrWrites [(a, v)] = { b := b.csrApply .tap a v, status := ackOk } := by
  simp [Bumas.csrWrites, Bumas.csrWrite, h]

theorem Bumas.csrWrites_refused {b : Bumas} {a : Nat} (v : Word) (h : b.csrMayWrite .tap a = false) :
    b.csrWrites [(a, v)] = { b := b, status := ackRefused } := by
  simp [Bumas.csrWrites, Bumas.csrWrite, h]

/-! ### PROG_LOAD (R116) -/

/-- The register that holds instruction `i` of a buffer; two instructions share one. -/
def progReg (buf : Bool) (i : Nat) : Nat := (if buf then Reg.BM_PROG_1 else Reg.BM_PROG_0) (i / 2)

theorem progReg_ne (buf : Bool) {i j : Nat} (h : j / 2 ≠ i / 2) : progReg buf j ≠ progReg buf i := by
  cases buf <;> simpa [progReg, Reg.BM_PROG_0, Reg.BM_PROG_1] using h

/-- An instruction that is put is read. -/
theorem Bumas.progWord_putInstr_same (b : Bumas) (buf : Bool) {i w : Nat} (hw : w < 2 ^ 32) :
    (b.putInstr buf i w).progWord buf i = w := by
  change fld ((b.wr (progReg buf i) _).rd (progReg buf i)) _ 32 = w
  rw [Bumas.rd_wr_same, fld_putFld_same _ _ (by omega), Nat.mod_eq_of_lt hw]

/-- Every other instruction of the buffer stays, the one in the same register too. -/
theorem Bumas.progWord_putInstr_other (b : Bumas) (buf : Bool) {i j w : Nat} (h : j ≠ i) :
    (b.putInstr buf i w).progWord buf j = b.progWord buf j := by
  change fld ((b.wr (progReg buf i) (putFld (b.rd (progReg buf i)) (32 * (i % 2)) 32 w)).rd (progReg buf j)) _ 32 =
    fld (b.rd (progReg buf j)) _ 32
  by_cases hij : j / 2 = i / 2
  · have hreg : progReg buf j = progReg buf i := by rw [progReg, progReg, hij]
    rw [hreg, Bumas.rd_wr_same, fld_putFld_other _ _ (by omega) (by omega)]
  · rw [Bumas.rd_wr_other _ _ (progReg_ne buf hij)]

/-! ### GREYOUT (R154) -/

/-- One class's shaper word, if the mask names the class. -/
def Bumas.shapePut (m : Nat) (v : Word) (b : Bumas) (k : Nat) : Bumas :=
  if m.testBit k then b.csrApply .tap (Reg.BM_TAP_SHAPE k) v else b

/-- The shaper registers are RWT, with their reserved bits. -/
theorem Bumas.csrApply_shape (b : Bumas) {k : Nat} (v : Word) (hk : 1 ≤ k ∧ k ≤ 3) : b.csrApply .tap (Reg.BM_TAP_SHAPE k) v =
    b.pending (SMap.put none b.rwt (Reg.BM_TAP_SHAPE k) (some (v &&& 0xFFFFFF0000FFFFFF))) := by
  have hfind : ∃ f, regFind bmRegFams (Reg.BM_TAP_SHAPE k) = some f ∧ f.acc = .rwt ∧ f.wmask = 0xFFFFFF0000FFFFFF := by
    obtain ⟨h1, h3⟩ := hk
    interval_cases k <;> exact ⟨_, rfl, rfl, rfl⟩
  obtain ⟨f, hf, hacc, hmask⟩ := hfind
  have hne : Reg.BM_TAP_SHAPE k ≠ Reg.BM_PROBE_CTRL := by
    unfold Reg.BM_TAP_SHAPE Reg.BM_PROBE_CTRL
    omega
  rw [b.csrApply_rwt v hf hacc hne, hmask]

theorem shapeReg_ne {j k : Nat} (hj : 1 ≤ j) (hk : 1 ≤ k) (h : j ≠ k) : Reg.BM_TAP_SHAPE j ≠ Reg.BM_TAP_SHAPE k := by
  unfold Reg.BM_TAP_SHAPE
  omega

theorem shapeReg_ne_cmdStat {k : Nat} (hk : k ≤ 3) : Reg.BM_TAP_SHAPE k ≠ Reg.BM_TAP_CMD_STAT := by
  unfold Reg.BM_TAP_SHAPE Reg.BM_TAP_CMD_STAT
  omega

/-- A class of the mask gets the word pending. -/
theorem Bumas.shapePut_pending (m : Nat) (v : Word) (b : Bumas) {j : Nat} (hj : 1 ≤ j ∧ j ≤ 3) :
    ∃ r, Bumas.shapePut m v b j = b.pending r ∧ ∀ k, 1 ≤ k → SMap.get none r (Reg.BM_TAP_SHAPE k) =
      if k = j ∧ m.testBit k = true then some (v &&& 0xFFFFFF0000FFFFFF) else SMap.get none b.rwt (Reg.BM_TAP_SHAPE k) := by
  by_cases hm : m.testBit j = true
  · refine ⟨_, (if_pos hm).trans (b.csrApply_shape v hj), fun k hk => ?_⟩
    by_cases hkj : k = j
    · rw [hkj, SMap.get_put_same, if_pos ⟨rfl, hm⟩]
    · rw [SMap.get_put_other _ _ _ _ _ (shapeReg_ne hk hj.1 hkj), if_neg fun h => hkj h.1]
  · exact ⟨b.rwt, if_neg hm, fun k _ => (if_neg fun ⟨hkj, hk⟩ => hm (hkj ▸ hk)).symm⟩

/-- So does each of several classes, and no other. -/
theorem Bumas.foldl_shapePut (m : Nat) (v : Word) (l : List Nat) (hl : ∀ k ∈ l, 1 ≤ k ∧ k ≤ 3) (b : Bumas) :
    ∃ r, l.foldl (Bumas.shapePut m v) b = b.pending r ∧ ∀ k, 1 ≤ k → SMap.get none r (Reg.BM_TAP_SHAPE k) =
      if k ∈ l ∧ m.testBit k = true then some (v &&& 0xFFFFFF0000FFFFFF) else SMap.get none b.rwt (Reg.BM_TAP_SHAPE k) := by
  induction l generalizing b with
  | nil => exact ⟨b.rwt, rfl, by simp⟩
  | cons j l ih =>
    obtain ⟨hj, hl⟩ := List.forall_mem_cons.1 hl
    obtain ⟨r0, h0, hget0⟩ := Bumas.shapePut_pending m v b hj
    obtain ⟨r, hr, hget⟩ := ih hl (b.pending r0)
    refine ⟨r, by rw [List.foldl_cons, h0, hr]; rfl, fun k hk => ?_⟩
    have hpend : SMap.get none (b.pending r0).rwt (Reg.BM_TAP_SHAPE k) = _ := hget0 k hk
    rw [hget k hk, hpend]
    obtain rfl | hkj := eq_or_ne k j
    · by_cases hm : m.testBit k = true <;> simp [hm]
    · simp [hkj]

/-! ### Arguments of Table 5.5 -/

/-- A number of `n` bytes fits `n` bytes. -/
theorem leAt_lt (l : List Byte) (o n : Nat) : leAt l o n < 256 ^ n :=
  (leNat_lt _).trans_le (Nat.pow_le_pow_right (by omega) (by simp))

/-- A class mask that Table 5.5 allows has no reserved bit. -/
theorem word_blackout {m : Nat} (h : tapMaskOk m = true) : word m &&& 0xE = word m := by
  obtain ⟨heven, hlt⟩ : m % 2 = 0 ∧ m < 16 := by simpa [tapMaskOk] using h
  have hall : ∀ m < 16, m % 2 = 0 → word m &&& 0xE = word m := by decide
  exact hall m hlt heven

/-- Nor has a threshold of four bytes. -/
theorem word_thresh (l : List Byte) : word (leAt l 0 4) &&& 0xFFFFFFFF = word (leAt l 0 4) := by
  have hlt : leAt l 0 4 < 2 ^ 32 := leAt_lt l 0 4
  refine BitVec.eq_of_toNat_eq ?_
  rw [BitVec.toNat_and]
  change _ &&& 2 ^ 32 - 1 = _
  rw [Nat.and_two_pow_sub_one_eq_mod, word, BitVec.toNat_ofNat, Nat.mod_eq_of_lt (by omega : _ < 2 ^ 64),
    Nat.mod_eq_of_lt hlt]

/-! ### The opcodes of Table 5.5 -/

section
variable {s : State} {c : TapCmd} (hs : s.bm.alive = true) (hup : s.bm.linkUp = true) (hk : c.chk = ⟨true, true⟩)
  (hseq : c.seq = s.bm.tap.next)
include hs hup hk hseq

theorem csrRead_answered (hl : c.argLen = 2) (ha : leAt c.args 0 2 ≠ Reg.BM_TIME_SEC) :
    Answered s (exec (.csrRead c) s) c.seq 0 (s.bm.csrRead .tap (leAt c.args 0 2)) fun b =>
      b.regs = s.bm.regs ∧ b.rwt = s.bm.rwt := by
  refine answered_tapCmdLen (r := { b := s.bm, status := ackOk, data := s.bm.csrRead .tap (leAt c.args 0 2) }) hs hup hk hseq
    (congrArg BitVec.toNat hl) ?_ ⟨rfl, rfl, rfl⟩ ⟨rfl, rfl⟩
  dsimp only
  rw [if_neg ha]

theorem csrWrite_answered (hl : c.argLen = 16) (hmay : s.bm.csrMayWrite .tap (leAt c.args 0 2) = true) :
    Answered s (exec (.csrWrite c) s) c.seq 0 0 fun b =>
      b.regs = (s.bm.csrApply .tap (leAt c.args 0 2) (word (leAt c.args 8 8))).regs ∧
        b.rwt = (s.bm.csrApply .tap (leAt c.args 0 2) (word (leAt c.args 8 8))).rwt := by
  refine answered_tapCmd (r := { b := s.bm.csrApply .tap (leAt c.args 0 2) (word (leAt c.args 8 8)), status := ackOk })
    hs hup hk hseq ?_ (s.bm.csrApply_keeps _ _ _) ⟨rfl, rfl⟩
  simp [hl, csrEntries_one hl, Bumas.csrWrites_accepted _ hmay]

theorem csrWrite_refused (hl : c.argLen = 16) (hmay : s.bm.csrMayWrite .tap (leAt c.args 0 2) = false) :
    Answered s (exec (.csrWrite c) s) c.seq 1 0 fun b => b.rwt = s.bm.rwt := by
  refine answered_tapCmd (r := { b := s.bm, status := ackRefused }) hs hup hk hseq ?_ ⟨rfl, rfl, rfl⟩ rfl
  simp [hl, csrEntries_one hl, Bumas.csrWrites_refused _ hmay]

/-- A PROG_LOAD of one instruction reaches it alone, in the buffer that does not run. -/
theorem progLoad_answered {i w : Nat} (hl : c.argLen = 8) (hi : leAt c.args 0 2 = i) (hlt : i < 1024)
    (hcount : leAt c.args 2 1 = 1) (hres : leAt c.args 3 1 = 0) (hw : leAt c.args 4 4 = w)
    (hbuf : s.bm.bufWritable (!s.bm.probe.progBuf) = true) : Answered s (exec (.progLoad c) s) c.seq 0 0 fun b =>
      b.progWord (!s.bm.probe.progBuf) i = w ∧
        ∀ j < 1024, j ≠ i → b.progWord (!s.bm.probe.progBuf) j = s.bm.progWord (!s.bm.probe.progBuf) j := by
  refine answered_tapCmd (r := { b := s.bm.putInstr (!s.bm.probe.progBuf) i w, status := ackOk }) hs hup hk hseq ?_
    ⟨rfl, rfl, rfl⟩ ⟨Bumas.progWord_putInstr_same _ _ ?_, fun j _ hj => Bumas.progWord_putInstr_other _ _ hj⟩
  · have hfit : ¬1024 < i + 1 := by omega
    simp [hl, hi, hcount, hres, hw, hbuf, hfit, List.range_succ]
  · exact hw ▸ leAt_lt c.args 4 4

/-- A GREYOUT is pending for the classes of its mask, and for no other. -/
theorem tapGreyout_answered {m : Nat} (hl : c.argLen = 16) (hm : leAt c.args 0 1 = m) (hok : tapMaskOk m = true) :
    Answered s (exec (.tapGreyout c) s) c.seq 0 0 fun b => b.regs = s.bm.regs ∧ ∀ k, 1 ≤ k → k ≤ 3 →
      b.csrRead .tap (Reg.BM_TAP_SHAPE k) =
        if m.testBit k then word (leAt c.args 8 8) &&& 0xFFFFFF0000FFFFFF else s.bm.csrRead .tap (Reg.BM_TAP_SHAPE k) := by
  obtain ⟨r, hr, hget⟩ := s.bm.foldl_shapePut m (word (leAt c.args 8 8)) [1, 2, 3] (by decide)
  refine answered_tapCmdLen (r := { b := s.bm.pending r, status := ackOk }) hs hup hk hseq (congrArg BitVec.toNat hl) ?_
    ⟨rfl, rfl, rfl⟩ ⟨rfl, fun k h1 h3 => ?_⟩
  · dsimp only
    rw [hm, hok, if_neg (not_not_intro rfl)]
    exact congrArg (CmdRes.mk · ackOk 0) hr
  · have hmem : k ∈ [1, 2, 3] := by simp; omega
    have hpend := hget k h1
    simp only [hmem, true_and] at hpend
    rw [Bumas.csrRead_ackOk _ _ _ (shapeReg_ne_cmdStat h3)]
    split at hpend
    · next hbit =>
      rw [if_pos hbit]
      exact Bumas.csrRead_pending hpend
    · next hbit =>
      rw [if_neg hbit]
      exact Bumas.csrRead_same hpend

/-- A command that writes one RWT register, whose value has no reserved bit, makes the value pending. -/
theorem pending_answered {n a : Nat} {v : Word} {f : RegFam} {g : Bumas → CmdRes} (hl : c.argLen.toNat = n)
    (hg : g s.bm = { b := s.bm.csrApply .tap a v, status := ackOk }) (hf : regFind bmRegFams a = some f) (hacc : f.acc = .rwt)
    (hctrl : a ≠ Reg.BM_PROBE_CTRL) (hstat : a ≠ Reg.BM_TAP_CMD_STAT) (hv : v &&& f.wmask = v) :
    Answered s (onBumas (fun b => b.tapCmdLen c n g) s) c.seq 0 0 fun b => b.regs = s.bm.regs ∧ b.csrRead .tap a = v := by
  rw [s.bm.csrApply_rwt v hf hacc hctrl, hv] at hg
  exact answered_tapCmdLen hs hup hk hseq hl hg ⟨rfl, rfl, rfl⟩
    ⟨rfl, (Bumas.csrRead_ackOk _ _ _ hstat).trans (s.bm.csrRead_put a v)⟩

theorem tapBlackout_answered {m : Nat} (hl : c.argLen = 1) (hm : leAt c.args 0 1 = m) (hok : tapMaskOk m = true) :
    Answered s (exec (.tapBlackout c) s) c.seq 0 0 fun b =>
      b.regs = s.bm.regs ∧ b.csrRead .tap Reg.BM_TAP_BLACKOUT = word m := by
  refine pending_answered hs hup hk hseq (congrArg BitVec.toNat hl) ?_ rfl rfl (by decide) (by decide) (word_blackout hok)
  dsimp only
  rw [hm, hok, if_neg (not_not_intro rfl)]

theorem auditThresh_answered (hl : c.argLen = 4) : Answered s (exec (.auditThresh c) s) c.seq 0 0 fun b =>
    b.regs = s.bm.regs ∧ b.csrRead .tap Reg.BM_AUDIT_THRESH = word (leAt c.args 0 4) :=
  pending_answered hs hup hk hseq (congrArg BitVec.toNat hl) rfl rfl rfl (by decide) (by decide) (word_thresh c.args)

theorem tapReset_answered (hl : c.argLen = 2) (hkey : leAt c.args 0 2 = 0x5A5A) :
    Answered s (exec (.tapReset c) s) c.seq 0 0 fun b => b.regs = s.bm.regs ∧ b.tap.after = some (c.seq, .reset) :=
  answered_tapCmdLen (r := { b := { s.bm with tap := { s.bm.tap with after := some (c.seq, .reset) } }, status := ackOk })
    hs hup hk hseq (congrArg BitVec.toNat hl) (if_pos hkey) ⟨rfl, rfl, rfl⟩ ⟨rfl, rfl⟩

theorem linkRetrain_answered {w : Nat} (hl : c.argLen = 1) (hw : leAt c.args 0 1 = w) (hok : w = 1 ∨ w = 2) :
    Answered s (exec (.linkRetrain c) s) c.seq 0 0 fun b =>
      b.regs = s.bm.regs ∧ b.tap.after = some (c.seq, .retrain (decide (w = 2))) := by
  subst hw
  exact answered_tapCmdLen
    (r := { b := { s.bm with tap := { s.bm.tap with after := some (c.seq, .retrain _) } }, status := ackOk })
    hs hup hk hseq (congrArg BitVec.toNat hl) (if_pos hok) ⟨rfl, rfl, rfl⟩ ⟨rfl, rfl⟩

theorem badOpcode_answered {op : BitVec 16} (hop : 8 < op.toNat) :
    Answered s (exec (.badOpcode op c) s) c.seq 2 0 fun b => b.rwt = s.bm.rwt := by
  have hrun : exec (.badOpcode op c) s = onBumas (fun b => b.tapCmd c fun b => { b := b, status := ackBadOpcode }) s := by
    change execBadOpcode op c s = _
    simp only [execBadOpcode, if_neg (Nat.not_le.2 hop)]
  rw [hrun]
  exact answered_tapCmd (r := { b := s.bm, status := ackBadOpcode }) hs hup hk hseq rfl ⟨rfl, rfl, rfl⟩ rfl

end

/-- Settles O18: every opcode's execution with its answer, and what a number other than the next one does. -/
theorem tapCommandsExecuteOnce : Obligations.TapCommandsExecuteOnce := by
  refine ⟨fun s c hs hup hk hseq => ⟨fun hl => ?_, csrRead_answered hs hup hk hseq,
    fun hl hmay => ⟨_, if_pos hmay, csrWrite_answered hs hup hk hseq hl hmay⟩, csrWrite_refused hs hup hk hseq,
    fun i w => progLoad_answered hs hup hk hseq, fun m => tapGreyout_answered hs hup hk hseq,
    fun m => tapBlackout_answered hs hup hk hseq, auditThresh_answered hs hup hk hseq, tapReset_answered hs hup hk hseq,
    fun w => linkRetrain_answered hs hup hk hseq, fun op => badOpcode_answered hs hup hk hseq⟩,
    fun s c a hs hup hk x hx => ?_⟩
  · exact answered_tapCmdLen (r := { b := s.bm, status := ackOk }) hs hup hk hseq (congrArg BitVec.toNat hl) rfl ⟨rfl, rfl, rfl⟩
      ⟨rfl, rfl⟩
  · obtain ⟨f, hf⟩ := exec_tapCommand c s x hx
    rw [hf]
    exact ⟨fun h1 h2 ha => onBumas_eq (fun b => b.tapCmd c f) hs (Bumas.tapCmd_repeated f hup hk h1 h2 ha),
      fun h1 h2 => onBumas_eq (fun b => b.tapCmd c f) hs (Bumas.tapCmd_ahead f hup hk h1 h2)⟩

end Sys2Proof.Machine
end

section
/-! PROOFS. A Tap port's block slots, and the answers that it takes (R141, R146, R151, R152, R155, R159). -/

namespace Sys2Proof.Machine

/-! ### Block slots (R141, R151, R159) -/

section
variable {g : Glexon} {p : Nat}

/-- A due TICK block goes first. -/
theorem Glexon.blockSlot_tick (hup : (g.port p).up = true) (h : (g.port p).tickDue = true) :
    g.blockSlot p = g.setPort p { g.port p with tickDue := false, block := g.tickBlock } := by
  simp [Glexon.blockSlot, hup, h]

/-- A command that waits takes the next number, while fewer than 16 await their answer. -/
theorem Glexon.blockSlot_cmd {c : PortCmd} {rest : List PortCmd} (hup : (g.port p).up = true) (htick : (g.port p).tickDue = false)
    (htime : (g.port p).timeDue = false) (hq : (g.port p).cmdQ = c :: rest) (hre : (g.port p).resend = [])
    (hroom : (g.port p).unacked.length < 16) : g.blockSlot p = g.setPort p { g.port p with
      cmdQ := rest, nextSeq := (g.port p).nextSeq + 1,
      unacked := (g.port p).unacked ++ [{ c with seq := (g.port p).nextSeq }],
      block := cmdBlock { c with seq := (g.port p).nextSeq } } := by
  have hnone : ((g.port p).unacked.find? fun c => (g.port p).resend.contains c.seq) = none := by simp [hre]
  unfold Glexon.blockSlot
  dsimp only
  rw [if_neg (not_not_intro hup), htick, if_neg Bool.false_ne_true, htime, if_neg Bool.false_ne_true, hnone, hq]
  exact if_pos hroom

/-! ### Blocks received (R140) -/

/-- A good block at a port that is UP is counted and taken. -/
theorem Glexon.portRx_good {k : BlkCheck} (f : Glexon → Glexon) (hup : (g.port p).up = true) (hk : k = ⟨true, true⟩) :
    g.portRx p k f = f (g.count 5 p 0 1) := by
  simp [Glexon.portRx, hup, hk]

/-- A block whose CRC does not match is counted in TP_BLKERR_p, and nothing else changes. -/
theorem Glexon.portRx_badCrc {k : BlkCheck} (f : Glexon → Glexon) (hup : (g.port p).up = true) (hfec : k.fecOk = true)
    (hcrc : k.crcOk = false) : g.portRx p k f = g.bumpFld (Reg.TP_BLKERR p) 0 32 1 := by
  simp [Glexon.portRx, hup, hfec, hcrc]

end

/-! ### Acknowledgements (R152) -/

/-- What a port makes of a CMD_ACK. -/
def TapPort.acked (t : TapPort) (a : AckBlk) : TapPort :=
  match t.unacked.find? fun c => c.seq == a.seq with
  | none => t
  | some c => { t with
      unacked := t.unacked.filter fun x => x.seq != a.seq,
      resend := t.resend.filter fun q => q != a.seq,
      ack := some (a.seq, a.status, a.data),
      known := if a.status = 0 then c.regs.foldl (fun m (e : Nat × Word) => SMap.put none m e.1 (some e.2)) t.known
        else t.known }

/-- It retires the command of its number and no other. -/
theorem TapPort.acked_unacked (t : TapPort) (a : AckBlk) : (t.acked a).unacked = t.unacked.filter fun x => x.seq != a.seq := by
  unfold TapPort.acked
  split
  · next h => exact (List.filter_eq_self.2 (by simpa using h)).symm
  · rfl

/-- One that awaits its answer has it. -/
theorem TapPort.acked_ack {t : TapPort} {a : AckBlk} (h : ∃ x ∈ t.unacked, x.seq = a.seq) :
    (t.acked a).ack = some (a.seq, a.status, a.data) := by
  unfold TapPort.acked
  split
  · next hnone =>
    obtain ⟨x, hx, heq⟩ := h
    exact absurd heq (by simpa using List.find?_eq_none.1 hnone x hx)
  · rfl

theorem exec_cmdAckReceive_good {s : State} {p : BitVec 6} {a : AckBlk} (hs : s.gx.coreUp = true)
    (hup : (s.gx.port p.toNat).up = true) (hk : a.chk = ⟨true, true⟩) :
    exec (.cmdAckReceive p a) s = .next { s with
      gx := (s.gx.count 5 p.toNat 0 1).modPort p.toNat fun t => t.acked a } :=
  (onCore_runs (fun g => g.portRx p.toNat a.chk fun g => g.modPort p.toNat fun t => t.acked a) s hs).trans
    (by rw [Glexon.portRx_good _ hup hk])

/-! ### Time echoes (R155) -/

theorem Glexon.stamp_count (g : Glexon) (cls unit ev n : Nat) : (g.count cls unit ev n).stamp = g.stamp := by
  rw [Glexon.stamp, Glexon.count_tk]
  rfl

theorem Glexon.tsc_count (g : Glexon) (cls unit ev n a : Nat) : (g.count cls unit ev n).tsc a = g.tsc a := by
  rw [Glexon.tsc, Glexon.rd_count]
  rfl

/-- The echo of the exchange in progress ends it: t4 waits for the next TIME block, and delay and offset are in TP_TIME_p. -/
theorem exec_timeEchoReceive_good {s : State} {p : BitVec 6} {e : EchoBlk} {t1 : Int} (hs : s.gx.coreUp = true)
    (hup : (s.gx.port p.toNat).up = true) (hk : e.chk = ⟨true, true⟩) (ht : (s.gx.port p.toNat).t1 = some (e.id, t1)) :
    ∃ v, exec (.timeEchoReceive p e) s = .next { s with
      gx := ((s.gx.count 5 p.toNat 0 1).setPort p.toNat { s.gx.port p.toNat with
        t1 := none, t4 := some (e.id, s.gx.stamp - s.gx.tsc (Reg.TK_TSC_ING 3)) }).wr (Reg.TP_TIME p.toNat) v } := by
  have hrun := (onCore_runs _ s hs : execTimeEchoReceive p e s = _)
  rw [Glexon.portRx_good _ hup hk] at hrun
  simp only [Glexon.port_count, ht, Glexon.stamp_count, Glexon.tsc_count, if_true] at hrun
  exact ⟨_, hrun⟩

/-! ### Resends (R152) -/

/-- A command whose answer is overdue is due to be sent again. -/
theorem exec_cmdResend_again {s : State} {p : BitVec 6} {seq : BitVec 32} {c : PortCmd} (hs : s.gx.coreUp = true)
    (hc : (s.gx.port p.toNat).unacked.find? (fun x => x.seq == seq) = some c) (hn : c.resent < 16) :
    exec (.cmdResend p seq) s = .next { s with
      gx := s.gx.setPort p.toNat { s.gx.port p.toNat with
        resend := (s.gx.port p.toNat).resend ++ [seq],
        unacked := (s.gx.port p.toNat).unacked.map fun x => if x.seq = seq then { x with resent := x.resent + 1 } else x } } := by
  refine (onCore_runs _ s hs : execCmdResend p seq s = _).trans ?_
  dsimp only
  rw [hc]
  dsimp only
  rw [if_neg (Nat.not_le.2 hn)]

/-- Settles O19: a slot's order, the answers to what was sent, and what makes a block due. -/
theorem portSendsAndIsAnswered : Obligations.PortSendsAndIsAnswered := by
  intro s p hs
  refine ⟨fun hup => ⟨fun h => ?_, fun c rest htick htime hq hre hroom => ?_, fun a hk => ?_, fun e t1 hk ht => ?_⟩,
    (onCore_runs _ s hs : execCreditSend p s = _), (onCore_runs _ s hs : execTimeSend p s = _),
    fun seq c hc hn => exec_cmdResend_again hs hc hn⟩
  · exact (onCore_runs (·.blockSlot p.toNat) s hs).trans (by rw [Glexon.blockSlot_tick hup h])
  · exact (onCore_runs (·.blockSlot p.toNat) s hs).trans (by rw [Glexon.blockSlot_cmd hup htick htime hq hre hroom])
  · refine ⟨_, exec_cmdAckReceive_good hs hup hk, ?_, fun h => ?_, Glexon.count_regs _ _ _ _ _, Glexon.count_mem _ _ _ _ _, rfl⟩
    · rw [Glexon.port_modPort_same, Glexon.port_count, TapPort.acked_unacked]
    · rw [Glexon.port_modPort_same, Glexon.port_count, TapPort.acked_ack h]
  · obtain ⟨v, hv⟩ := exec_timeEchoReceive_good hs hup hk ht
    refine ⟨_, hv, ?_, ?_, Glexon.count_mem _ _ _ _ _, rfl⟩ <;> rw [Glexon.port_wr, Glexon.port_setPort_same]

end Sys2Proof.Machine
end

section
/-! PROOFS. DATA blocks at a port, and records on their way into the leaf's ingest area (R142, R144, R170, R313). -/

namespace Sys2Proof.Machine

/-! ### DATA blocks (R142, R144) -/

/-- The reassembly of a class is set. -/
def TapPort.setReasm (t : TapPort) (c : Nat) (x : Reasm) : TapPort := { t with reasm := SMap.put .idle t.reasm c x }

theorem TapPort.get_setReasm_same (t : TapPort) (c : Nat) (x : Reasm) : SMap.get .idle (t.setReasm c x).reasm c = x :=
  SMap.get_put_same _ _ _ _

theorem TapPort.get_setReasm_other (t : TapPort) {c d : Nat} (x : Reasm) (h : d ≠ c) :
    SMap.get .idle (t.setReasm c x).reasm d = SMap.get .idle t.reasm d := SMap.get_put_other _ _ _ _ _ h

/-- What is read within a list does not depend on what follows it. -/
theorem leAt_append {l : List Byte} (r : List Byte) {o n : Nat} (h : o + n ≤ l.length) : leAt (l ++ r) o n = leAt l o n := by
  rw [leAt, leAt, List.drop_append_of_le_length (by omega), List.take_append_of_le_length (by rw [List.length_drop]; omega)]

/-- The header fields and the body of a block, given without its CRC, are in its first 60 bytes. -/
theorem block_fields {l : List Byte} (h : l.length = 60) : leAt (padTo 64 (l.take 64)) 1 1 = leAt l 1 1 ∧
    leAt (padTo 64 (l.take 64)) 2 2 = leAt l 2 2 ∧ ((padTo 64 (l.take 64)).drop 4).take 56 = (l.drop 4).take 56 := by
  rw [padTo, List.take_of_length_le (by omega)]
  refine ⟨leAt_append _ (by omega), leAt_append _ (by omega), ?_⟩
  rw [List.drop_append_of_le_length (by omega), List.take_append_of_le_length (by rw [List.length_drop]; omega)]

section
variable {g : Glexon} {p : Nat} {l : List Byte} (full : Bool) (hl : l.length = 60) (hc : leAt l 1 1 / 64 ≠ 2)
  (heor : (leAt l 1 1).testBit 4 = false)
include hl hc heor

/-- A block with the index expected continues the record of its class. -/
theorem Glexon.dataBlock_continues {b : List Byte} {k : Nat} (hst : SMap.get .idle (g.port p).reasm (leAt l 1 1 / 64) = .part b k)
    (hsor : (leAt l 1 1).testBit 5 = false) (hidx : leAt l 2 2 = k) :
    g.dataBlock p (padTo 64 (l.take 64)) full =
      g.modPort p fun t => t.setReasm (leAt l 1 1 / 64) (.part (b ++ (l.drop 4).take 56) (k + 1)) := by
  obtain ⟨hhead, hindex, hbody⟩ := block_fields hl
  simp [Glexon.dataBlock, hhead, hindex, hbody, hc, hst, hsor, hidx, heor, TapPort.setReasm]

/-- A first block opens one. -/
theorem Glexon.dataBlock_opens (hst : SMap.get .idle (g.port p).reasm (leAt l 1 1 / 64) = .idle)
    (hsor : (leAt l 1 1).testBit 5 = true) (hidx : leAt l 2 2 = 0) :
    g.dataBlock p (padTo 64 (l.take 64)) full =
      g.modPort p fun t => t.setReasm (leAt l 1 1 / 64) (.part ((l.drop 4).take 56) 1) := by
  obtain ⟨hhead, hindex, hbody⟩ := block_fields hl
  simp [Glexon.dataBlock, hhead, hindex, hbody, hc, hst, hsor, hidx, heor, TapPort.setReasm]

end

/-- A good DATA block that only sets the reassembly of its class changes nothing else but counts of the Observation Unit. -/
theorem exec_tapDataBlock_reasm {s : State} {p : BitVec 6} {l : List Byte} {c : Nat} {x : Reasm} (hs : s.gx.coreUp = true)
    (hup : (s.gx.port p.toNat).up = true)
    (h : ∀ g : Glexon, g.port p.toNat = s.gx.port p.toNat → ∀ full, g.dataBlock p.toNat (padTo 64 (l.take 64)) full =
      g.modPort p.toNat fun t => t.setReasm c x) :
    ∃ n, exec (.tapDataBlock p { fecOk := true, crcOk := true } l) s = .next { s with
      gx := ((s.gx.count 5 p.toNat 0 1).modPort p.toNat fun t => t.setReasm c x).count 5 p.toNat 2 n } := by
  have hrun := (onCore_runs _ s hs : execTapDataBlock p { fecOk := true, crcOk := true } l s = _)
  rw [Glexon.portRx_good _ hup rfl] at hrun
  dsimp only at hrun
  rw [h _ (Glexon.port_count ..), if_neg (by simp [TapPort.setReasm])] at hrun
  exact ⟨_, hrun⟩

/-! ### What an accepted record leaves alone

The ring, the markers and samples, and the alarms that they raise, touch neither the ingest areas nor the time. -/

/-- The ingest areas, and the Time Keeper. -/
def Glexon.intake (g : Glexon) : SMap (List Ing) × TimeKeeper := (g.fl.ing, g.tk)

section
variable (g : Glexon)

theorem Glexon.event_intake (code agent : Nat) (args : List Word) : (g.event code agent args).intake = g.intake := by
  rw [Glexon.intake, Glexon.event_fl, Glexon.event_tk]
  rfl

theorem Glexon.enqueue_intake (p q : Nat) (f : Frame) : (g.enqueue p q f).intake = g.intake := by
  unfold Glexon.enqueue
  dsimp only
  split <;> rfl

theorem Glexon.alertOut_intake (r : Rec) : (g.alertOut r).intake = g.intake := by
  unfold Glexon.alertOut
  split <;> rfl

theorem Glexon.alarmOut_intake (k : Nat) (r : Rec) (mg : Bool) : (g.alarmOut k r mg).intake = g.intake := by
  unfold Glexon.alarmOut
  extract_lets f g1 g2
  have h1 : g1.intake = g.intake := by
    unfold g1
    split
    · rfl
    · exact g.enqueue_intake _ _ _
  have h2 : g2.intake = g1.intake := by
    refine foldl_keep Glexon.intake _ (fun h i => ?_) _ _
    dsimp only
    split
    · exact h.enqueue_intake _ _ _
    · rfl
  split
  · rw [Glexon.alertOut_intake, h2, h1]
  · rw [h2, h1]

theorem Glexon.alarm_intake (k typ : Nat) (n : Word) (ws gen flags : Nat) (payload : List Byte) (mg : Bool) :
    (g.alarm k typ n ws gen flags payload mg).intake = g.intake := by
  unfold Glexon.alarm
  split
  · exact Glexon.alarmOut_intake _ k _ mg
  · rfl

theorem Glexon.wr_intake (a : Nat) (v : Word) : (g.wr a v).intake = g.intake := rfl

theorem Glexon.memPut_intake (a : Nat) (l : List Byte) : (g.memPut a l).intake = g.intake := rfl

theorem Glexon.rwIndex_intake : g.rwIndex.intake = g.intake := by
  unfold Glexon.rwIndex
  split
  exact g.memPut_intake _ _

theorem Glexon.rwPut_intake (x : Nat) (l : List Byte) : (g.rwPut x l).intake = g.intake := by
  rw [Glexon.rwPut, Glexon.memPut_intake, Glexon.memPut_intake]

theorem Glexon.retain_intake (p : Nat) (r : Rec) : (g.retain p r).intake = g.intake := by
  unfold Glexon.retain
  split
  split
  · rw [Glexon.rwIndex_intake, Glexon.bump, Glexon.wr_intake]
    rfl
  · extract_lets x head all keep lost gone old fl g1
    rw [Glexon.rwIndex_intake, Glexon.wr_intake, Glexon.wr_intake, Glexon.rwPut_intake]
    rfl

theorem Glexon.seeMarker_intake (p die : Nat) (n : Word) (m : List Byte) : (g.seeMarker p die n m).intake = g.intake := by
  unfold Glexon.seeMarker
  dsimp only
  split
  · split
    · exact (Glexon.event_intake _ _ _ _).trans (Glexon.alarm_intake _ _ _ _ _ _ _ _ _)
    · rfl
  · rfl

theorem Glexon.seeSample_intake (p id : Nat) (n : Word) : (g.seeSample p id n).intake = g.intake := by
  unfold Glexon.seeSample
  dsimp only
  split <;> rfl

theorem Glexon.seeRecord_intake (p : Nat) (r : Rec) : (g.seeRecord p r).intake = g.intake := by
  unfold Glexon.seeRecord
  dsimp only
  split
  · rfl
  · split
    · exact foldl_keep Glexon.intake _ (fun h m => h.seeMarker_intake _ _ _ m) _ _
    · split
      · exact g.seeSample_intake _ _ _
      · rfl

/-! ### The checks of a record (R313, Table 11.1) -/

/-- A failed check is counted in a register. -/
theorem Glexon.countFail_keeps (c : Nat) :
    (g.countFail c).fl = g.fl ∧ (g.countFail c).mem = g.mem ∧ (g.countFail c).tk = g.tk := by
  unfold Glexon.countFail
  split_ifs <;> exact ⟨rfl, rfl, rfl⟩

/-- It is told at most once a tick. -/
theorem Glexon.tellFail_keeps (p c : Nat) :
    (g.tellFail p c).fl.ing = g.fl.ing ∧ (g.tellFail p c).mem = g.mem ∧ (g.tellFail p c).tk = g.tk := by
  unfold Glexon.tellFail
  split
  · exact ⟨rfl, rfl, rfl⟩
  · rw [Glexon.event_fl, Glexon.event_mem, Glexon.event_tk]
    exact ⟨rfl, rfl, rfl⟩

end

section
variable {g : Glexon} {p : Nat} {r : Rec}

/-- While the leaf is not ticking a record is dropped and counted. -/
theorem Glexon.takeRecord_held (h : g.tk.ticking = false) : g.takeRecord p r = g.bumpFld Reg.RE_INGEST_BAD 16 16 1 := if_pos h

/-- A record that fails a check is dropped, counted and told. -/
theorem Glexon.takeRecord_failed (h : g.tk.ticking = true) (hf : g.ingestFail p r ≠ 0) :
    g.takeRecord p r = (g.countFail (g.ingestFail p r)).tellFail p (g.ingestFail p r) :=
  (if_neg (by simp [h])).trans (if_pos hf)

/-- One that passes them, with no alive check, enters the ingest area, after those that are there. -/
theorem Glexon.takeRecord_passed (h : g.tk.ticking = true) (hf : g.ingestFail p r = 0) (hdg : bit (g.rd Reg.DG_CTRL) 61 = false) :
    (g.takeRecord p r).ingest 0 = g.ingest 0 ++ [{ tick := r.tick, child := p, r := r }] ∧ (g.takeRecord p r).tk = g.tk := by
  have htake : g.takeRecord p r = ((g.putIngest 0 { tick := r.tick, child := p, r := r }).retain p r).seeRecord p r := by
    simp [Glexon.takeRecord, Glexon.aliveCheck, h, hf, hdg]
  have hkeep : (g.takeRecord p r).intake = (g.putIngest 0 { tick := r.tick, child := p, r := r }).intake := by
    rw [htake, Glexon.seeRecord_intake, Glexon.retain_intake]
  obtain ⟨hing, htk⟩ := Prod.mk.inj hkeep
  exact ⟨(congrArg (SMap.get [] · 0) hing).trans (SMap.get_put_same _ _ _ _), htk⟩

end

/-! ### RECORD_INGEST (R170) -/

/-- The oldest record of a class leaves its FIFO, returns its credit, and is judged as its meter leaves it. -/
theorem exec_recordIngest_judged {s : State} {p : BitVec 6} {c : BitVec 2} {r r1 : Rec} {blocks : Nat} {g1 g3 : Glexon}
    (hs : s.gx.coreUp = true) (hc : c ≠ 2) (hpop : s.gx.popFifo p.toNat c.toNat = some ((r, blocks), g1))
    (hmeter : ((g1.modPort p.toNat fun t => t.raise c.toNat blocks).count 5 p.toNat 2 blocks).tapMeter p.toNat r = (some r1, g3)) :
    exec (.recordIngest p c) s = .next { s with gx := g3.takeRecord p.toNat r1 } := by
  refine (onCore_runs _ s hs : execRecordIngest p c s = _).trans ?_
  simp only [if_neg hc, hpop, hmeter]

/-- With no record of the class nothing happens. -/
theorem exec_recordIngest_empty {s : State} {p : BitVec 6} {c : BitVec 2} (hs : s.gx.coreUp = true)
    (hpop : s.gx.popFifo p.toNat c.toNat = none) : exec (.recordIngest p c) s = .next s := by
  refine (onCore_runs _ s hs : execRecordIngest p c s = _).trans ?_
  simp only [hpop, ite_self]

/-- Settles O58: what a DATA block sets of the reassembly, and what becomes of a complete record. -/
theorem tapRecordsAreReassembledAndIngested : Obligations.TapRecordsAreReassembledAndIngested := by
  intro s p hs
  refine ⟨fun l c hup hl hcls hc heor => ?_, fun l x hup hfec hcrc => ?_, fun c r blocks g1 g2 r1 g3 hc hpop hg2 hmeter => ?_,
    fun c hpop => exec_recordIngest_empty hs hpop⟩
  · subst hcls
    refine ⟨fun b k hst hsor hidx => ?_, fun hst hsor hidx => ?_⟩
    · obtain ⟨n, hn⟩ := exec_tapDataBlock_reasm hs hup fun g hg full =>
        Glexon.dataBlock_continues full hl hc heor (hg.symm ▸ hst) hsor hidx
      refine ⟨_, hn, ?_, ?_, by simp, by simp⟩
      · rw [Glexon.port_count, Glexon.port_modPort_same, TapPort.get_setReasm_same]
      · rw [Glexon.port_count, Glexon.port_modPort_same, Glexon.port_count]
        rfl
    · obtain ⟨n, hn⟩ := exec_tapDataBlock_reasm hs hup fun g hg full =>
        Glexon.dataBlock_opens full hl hc heor (hg.symm ▸ hst) hsor hidx
      refine ⟨_, hn, ?_, fun d hd => ?_, fun q hq => ?_, by simp, by simp⟩
      · rw [Glexon.port_count, Glexon.port_modPort_same, TapPort.get_setReasm_same]
      · rw [Glexon.port_count, Glexon.port_modPort_same, TapPort.get_setReasm_other _ _ hd, Glexon.port_count]
      · rw [Glexon.port_count, Glexon.port_modPort_other _ _ _ hq, Glexon.port_count]
  · refine (onCore_runs _ s hs : execTapDataBlock p x l s = _).trans ?_
    rw [Glexon.portRx_badCrc _ hup hfec hcrc]
  · have hrun := exec_recordIngest_judged hs hc hpop (hg2 ▸ hmeter)
    refine ⟨fun ht => ?_, fun ht hf hdg => ?_, fun ht hf => ?_⟩
    · rw [hrun, Glexon.takeRecord_held ht]
    · exact ⟨_, hrun, Glexon.takeRecord_passed ht hf hdg⟩
    · obtain ⟨hfl, hmem, htk⟩ := g3.countFail_keeps (g3.ingestFail p.toNat r1)
      obtain ⟨hing', hmem', htk'⟩ := (g3.countFail (g3.ingestFail p.toNat r1)).tellFail_keeps p.toNat (g3.ingestFail p.toNat r1)
      refine ⟨_, hrun, ?_⟩
      rw [Glexon.takeRecord_failed ht hf]
      exact ⟨hing'.trans (congrArg Fleet.ing hfl), hmem'.trans hmem, htk'.trans htk⟩

end Sys2Proof.Machine
end

section
/-! PROOFS. Engine operations enter their queue, and the windows of the shared engines (R168, R232, R233, R236, R245). -/

namespace Sys2Proof.Machine

/-! ### Fields of a masked value -/

/-- A mask that is 1 all over a field does not change what the field reads. -/
theorem fldN_and_mask (n : Nat) {m lo len : Nat} (h : fldN m lo len = 2 ^ len - 1) : fldN (n &&& m) lo len = fldN n lo len := by
  unfold fldN at h ⊢
  rw [Nat.shiftRight_and_distrib, Nat.and_mod_two_pow, h, Nat.and_two_pow_sub_one_eq_mod, Nat.mod_mod]

/-! ### A queue (R232, R233) -/

/-- The engine operation that a slot issues. -/
def Slot.engOp (x : Slot) (q : EngQueue) (kind : EngKind) : EngOp :=
  { q := q, tag := x.tag, kind := kind, pc := x.k.pc, gs := x.k.g }

section
variable {x : Slot} {q : EngQueue} (kind : EngKind)

/-- With an outstanding operation of its tag, the operation faults. -/
theorem Slot.enqueue_busy (h : ∃ p ∈ x.k.ops, p.tag = x.tag) : x.enqueue q kind = .fault cENGINE none 1 :=
  if_pos (List.any_eq_true.2 (h.imp fun _ hp => ⟨hp.1, decide_eq_true hp.2⟩))

theorem not_anyTag_of_idle (h : ∀ p ∈ x.k.ops, p.tag ≠ x.tag) : ¬ (x.k.ops.any fun p => p.tag = x.tag) = true := by
  simpa using h

/-- With an idle tag and a full queue, it faults. -/
theorem Slot.enqueue_full (h : ∀ p ∈ x.k.ops, p.tag ≠ x.tag) (hfull : 8 ≤ (x.k.ops.filter fun p => p.q = q).length) :
    x.enqueue q kind = .fault cENGINE none 2 :=
  (if_neg (not_anyTag_of_idle h)).trans (if_pos hfull)

/-- With an idle tag and a place in the queue, the core has one outstanding operation more. -/
theorem Slot.enqueue_room (h : ∀ p ∈ x.k.ops, p.tag ≠ x.tag) (hroom : (x.k.ops.filter fun p => p.q = q).length < 8) :
    x.enqueue q kind = .chip ((x.gx.count 1 x.n 7 1).setCore x.n { x.k with ops := x.k.ops ++ [x.engOp q kind] }) :=
  (if_neg (not_anyTag_of_idle h)).trans (if_neg (Nat.not_le.2 hroom))

end

/-- A slot whose chip differs in its core and in a count alone changes nothing else. -/
theorem coreBecomes_count_setCore (s : State) (o : SlotOp) (cls unit ev n : Nat) (k : Core) :
    s.CoreBecomes
      { s with
        gx := (s.gx.entered o).finish o.core.toNat o
          (.chip (((s.gx.entered o).count cls unit ev n).setCore o.core.toNat k)) }
      o { k with next := o.slot.toNat + 1 } := by
  refine ⟨rfl, ?_, ?_, ?_, fun m hm => ?_⟩ <;> simp only [Glexon.finish]
  · rw [Glexon.modCore_mem, Glexon.setCore_mem, Glexon.count_mem]
  · rw [Glexon.modCore_regs, Glexon.setCore_regs, Glexon.count_regs]
  · rw [Glexon.modCore, Glexon.core_setCore_same, Glexon.core_setCore_same]
  · rw [Glexon.modCore, Glexon.core_setCore_other _ _ _ _ hm, Glexon.core_setCore_other _ _ _ _ hm,
      Glexon.core_congr (Glexon.count_cores ..)]

/-- A ready slot whose meaning is to enqueue an operation enters the queue, or faults with ENGINE. -/
theorem enters_of_enqueue {s : State} {o : SlotOp} {i : Instr} {f : Form} {sem : Slot → SlotRes} {q : EngQueue} {kind : EngKind}
    (hexec : exec i s = slotCmd f sem o s) (hready : s.slotReady f o = true)
    (hsem : sem (s.slotView f o) = (s.slotView f o).enqueue q kind) : s.Enters o i q kind := by
  have hrun := hexec.trans (slotCmd_ready sem hready)
  rw [hsem] at hrun
  refine ⟨fun hidle hroom => ⟨_, hrun, ?_⟩, fun hbusy => ?_, fun hidle hfull => ?_⟩
  · rw [Slot.enqueue_room kind hidle hroom]
    exact coreBecomes_count_setCore s o _ _ _ _ _
  · rw [hrun, Slot.enqueue_busy kind hbusy]
    rfl
  · rw [hrun, Slot.enqueue_full kind hidle hfull]
    rfl

/-! ### XOP (R168, R236, R245) -/

/-- An aligned range in the core's own SRAM passes its check (R237). -/
theorem Slot.range_allowed {x : Slot} {a len align : Nat} (f : SlotRes) (halign : a % align = 0)
    (hown : inOwnSram x.n a len = true) : x.range a len align f = f :=
  (if_neg (not_not.2 halign)).trans (if_neg (by simp [hown]))

section
variable {x : Slot} {eng code : Nat} (heng : fld x.o.imm 5 3 = eng) (hle : eng ≤ 4) (halign : x.ga.toNat % 64 = 0)
  (hown : inOwnSram x.n x.ga.toNat 64 = true)
include heng hle halign hown

/-- An operation of the Remote Memory Engine, or of an engine in a window of the core, goes to its queue. -/
theorem semXop_inWindow (hcode : fld x.o.imm 8 8 = code) (hwin : eng = 4 ∨ x.gx.inWindow eng x.n x.k.cyc = true) :
    semXop x = x.enqueue (.shared (BitVec.ofNat 3 eng)) (.xop x.ga.toNat code) := by
  subst heng hcode
  have hopen : ¬ (fld x.o.imm 5 3 < 4 ∧ x.gx.inWindow (fld x.o.imm 5 3) x.n x.k.cyc = false) := by
    rintro ⟨hlt, hout⟩
    obtain h4 | hin := hwin
    · omega
    · exact absurd (hin.symm.trans hout) (by decide)
  exact (if_neg (Nat.not_lt.2 hle)).trans ((Slot.range_allowed _ halign hown).trans (if_neg hopen))

/-- Outside its windows an operation of a shared engine faults. -/
theorem semXop_outsideWindow (hne : eng ≠ 4) (hout : x.gx.inWindow eng x.n x.k.cyc = false) :
    semXop x = .fault cWINDOW none 0 := by
  subst heng
  exact (if_neg (Nat.not_lt.2 hle)).trans
    ((Slot.range_allowed _ halign hown).trans (if_pos ⟨Nat.lt_of_le_of_ne hle hne, hout⟩))

end

/-- The IMM bits that tell the XOPs apart name the engine and the operation (R245). -/
theorem fld_imm_of_slotReady_fXop {s : State} {o : SlotOp} {eng code : Nat} (heng : eng ≤ 4) (hcode : code < 256)
    (h : s.slotReady (fXop eng code) o = true) : fld o.imm 5 3 = eng ∧ fld o.imm 8 8 = code := by
  obtain ⟨-, hfetch, -⟩ := (slotReady_iff ..).1 h
  have hkey : o.imm.toNat &&& 0xFFE0 = code * 256 + eng * 32 := by
    simp only [Glexon.fetches, Bool.and_eq_true, decide_eq_true_eq] at hfetch
    exact hfetch.1.2
  unfold fld
  rw [← fldN_and_mask (lo := 5) (len := 3) (m := 0xFFE0) _ (by decide),
    ← fldN_and_mask (lo := 8) (len := 8) (m := 0xFFE0) _ (by decide), hkey]
  simp only [fldN, Nat.shiftRight_eq_div_pow]
  omega

/-- The command issues this operation of this engine (R245). -/
structure IssuesXop (i : SlotOp → Instr) (eng code : Nat) : Prop where
  exec_eq : ∀ o s, exec (i o) s = slotCmd (fXop eng code) semXop o s
  eng_le  : eng ≤ 4
  code_lt : code < 256

/-- An XOP of any engine, its descriptor aligned in the core's own SRAM, enters its queue in a window and faults outside. -/
theorem IssuesXop.entersInWindow {i : SlotOp → Instr} {eng code : Nat} (hx : IssuesXop i eng code)
    (s : State) (o : SlotOp) (a : Nat) (hready : s.slotReady (fXop eng code) o = true)
    (ha : a = ((s.slotCore o).rg o.a.toNat).toNat) (halign : a % 64 = 0) (hown : inOwnSram o.core.toNat a 64 = true) :
    (eng = 4 ∨ (s.gx.entered o).inWindow eng o.core.toNat (s.slotCore o).cyc = true →
      s.Enters o (i o) (.shared (BitVec.ofNat 3 eng)) (.xop a code)) ∧
    (eng ≠ 4 → (s.gx.entered o).inWindow eng o.core.toNat (s.slotCore o).cyc = false →
      exec (i o) s = .next { s with gx := (s.gx.entered o).faultAt o.core.toNat 8 o.slot.toNat none 0 }) := by
  subst ha
  obtain ⟨hexec, heng, hcode⟩ := hx
  obtain ⟨hfe, hfc⟩ := fld_imm_of_slotReady_fXop heng hcode hready
  refine ⟨fun hwin => enters_of_enqueue (hexec o s) hready ?_, fun hne hout => ?_⟩
  · exact semXop_inWindow hfe heng halign hown hfc hwin
  · have hfault : semXop (s.slotView (fXop eng code) o) = .fault cWINDOW none 0 :=
      semXop_outsideWindow hfe heng halign hown hne hout
    rw [hexec, slotCmd_ready semXop hready, hfault]
    rfl

/-- Settles O35: every row is one XOP, told by its engine and its code. -/
theorem sharedEngineOperationsNeedTheirWindow : Obligations.SharedEngineOperationsNeedTheirWindow := by
  intro row hrow
  have hx : IssuesXop row.1 row.2.1 row.2.2 := by
    revert row
    simp only [List.forall_mem_cons]
    refine ⟨?_, ?_, ?_, ?_, ?_, ?_, ?_, ?_, ?_, ?_, ?_, ?_, ?_, ?_, ?_, ?_, ?_, ?_, ?_, nofun⟩ <;>
      exact ⟨fun _ _ => rfl, by decide, by decide⟩
  exact hx.entersInWindow

end Sys2Proof.Machine
end

section
/-! PROOFS. Slots of a core's program: what a slot that issues does, by its meaning, and what keeps one from executing (R193, R203
to R205, R226). -/

namespace Sys2Proof.Machine

section
variable {i : SlotOp → Instr} {f : Form} {sem : Slot → SlotRes} {s : State} {o : SlotOp}

/-- A ready slot whose meaning changes its core alone. -/
theorem exec_slot_core {k : Core} (hexec : exec (i o) s = slotCmd f sem o s) (hready : s.slotReady f o = true)
    (hsem : sem (s.slotView f o) = .core k) : exec (i o) s = .next (s.slotNext o k) := by
  rw [hexec, slotCmd_ready sem hready, hsem]
  rfl

/-- A ready slot whose meaning is a fault. -/
theorem exec_slot_fault {c sub : Nat} {addr : Option Nat} (hexec : exec (i o) s = slotCmd f sem o s)
    (hready : s.slotReady f o = true) (hsem : sem (s.slotView f o) = .fault c addr sub) :
    exec (i o) s = .next { s with gx := (s.gx.entered o).faultAt o.core.toNat c o.slot.toNat addr sub } := by
  rw [hexec, slotCmd_ready sem hready, hsem]
  rfl

/-- A slot that the program holds at this point, its bundle open, issues. -/
theorem slotCmd_open (hup : s.gx.coreUp = true) (hfetch : s.gx.fetches f o = true) (hopen : (s.slotCore o).isOpen = true) :
    slotCmd f sem o s = .next { s with gx := (s.gx.entered o).issueSlot f o sem } := by
  have hopen' : ((s.gx.entered o).core o.core.toNat).isOpen = true := hopen
  unfold Glexon.entered at hopen' ⊢
  simp [slotCmd, onCore, hup, Glexon.slotOp, hfetch, hopen']

end

section
variable {g : Glexon} {f : Form} {o : SlotOp} (sem : Slot → SlotRes) (hfree : f.blocked (g.core o.core.toNat) o = [])
include hfree

/-- A slot that its opcode may not stand in faults with SLOT (R193). -/
theorem Glexon.issueSlot_wrongSlot (hslot : f.slots.testBit o.slot.toNat = false) :
    g.issueSlot f o sem = g.faultAt o.core.toNat cSLOT o.slot.toNat none 0 := by
  simp [Glexon.issueSlot, hfree, hslot, Glexon.finish]

variable (hslot : f.slots.testBit o.slot.toNat = true) (hc : f.c = .pred) (hsel : o.c.toNat < 16) (hlanes : f.lanes = false)
include hslot hc hsel hlanes

/-- A slot whose predicate is false does nothing (R203). -/
theorem Glexon.issueSlot_notExecuted (hmask : bit ((g.core o.core.toNat).mask o.c) 0 = false) :
    g.issueSlot f o sem = g.finish o.core.toNat o (.core (g.core o.core.toNat)) := by
  simp [Glexon.issueSlot, hfree, hslot, hc, Fld.legal, hsel, hlanes, hmask]

/-- A slot that executes with a field that its form does not allow faults with ILLEGAL_INSTRUCTION (R193, R226). -/
theorem Glexon.issueSlot_illegal (hmask : bit ((g.core o.core.toNat).mask o.c) 0 = true) (hlegal : f.legal o = false) :
    g.issueSlot f o sem = g.faultAt o.core.toNat cILLEGAL o.slot.toNat none 0 := by
  simp [Glexon.issueSlot, hfree, hslot, hc, Fld.legal, hsel, hlanes, hmask, hlegal, Glexon.finish]

end

/-! ### Commands that change their core alone -/

/-- The command, in this form, changes its core alone: to `act` of the core as the slot finds it. -/
structure ActsOnCore (i : SlotOp → Instr) (f : Form) (act : Core → SlotOp → Core) : Prop where
  acts : ∃ sem : Slot → SlotRes, (∀ o s, exec (i o) s = slotCmd f sem o s) ∧
    ∀ (s : State) (o : SlotOp), sem (s.slotView f o) = .core (act (s.slotCore o) o)

section
variable {i : SlotOp → Instr} {f : Form}

theorem ActsOnCore.exec_eq {act : Core → SlotOp → Core} (h : ActsOnCore i f act) {s : State} {o : SlotOp}
    (hready : s.slotReady f o = true) : exec (i o) s = .next (s.slotNext o (act (s.slotCore o) o)) := by
  obtain ⟨sem, hexec, hsem⟩ := h.acts
  exact exec_slot_core (hexec o s) hready (hsem s o)

/-- A command whose meaning is a result in gd sends it (R206). -/
theorem actsOnCore_toG {lat : Nat} {w : Slot → Word} {v : Core → SlotOp → Word}
    (hexec : ∀ o s, exec (i o) s = slotCmd f (fun x => x.toG lat (w x)) o s)
    (hv : ∀ (s : State) (o : SlotOp), w (s.slotView f o) = v (s.slotCore o) o) :
    ActsOnCore i f fun k o => k.send o.slot.toNat lat (.g o.d.toNat (v k o)) :=
  ⟨_, hexec, fun s o => congrArg (Slot.toG _ lat) (hv s o)⟩

/-- A command whose meaning is a result in every bit of pd sends it, for the next cycle (R207). -/
theorem actsOnCore_toP {w : Slot → BitVec 32} {v : Core → SlotOp → BitVec 32}
    (hexec : ∀ o s, exec (i o) s = slotCmd f (fun x => x.toP (w x)) o s)
    (hv : ∀ (s : State) (o : SlotOp), w (s.slotView f o) = v (s.slotCore o) o) :
    ActsOnCore i f fun k o => k.send o.slot.toNat 1 (.p o.d.toNat (v k o) (BitVec.allOnes 32)) :=
  ⟨_, hexec, fun s o => congrArg (Slot.toP _) (hv s o)⟩

/-- A compare's outcome, in every bit of pd. -/
theorem actsOnCore_compare {w : Slot → Bool} {v : Core → SlotOp → Bool}
    (hexec : ∀ o s, exec (i o) s = slotCmd f (fun x => x.toP (allBits (w x))) o s)
    (hv : ∀ (s : State) (o : SlotOp), w (s.slotView f o) = v (s.slotCore o) o) :
    ActsOnCore i f fun k o =>
      k.send o.slot.toNat 1 (.p o.d.toNat (if v k o then BitVec.allOnes 32 else 0) (BitVec.allOnes 32)) :=
  actsOnCore_toP hexec fun s o => congrArg allBits (hv s o)

end

end Sys2Proof.Machine
end

section
/-! PROOFS. Scalar instructions, compares and predicate operations (R206, R207; Tables 7.8, 7.9). -/

namespace Sys2Proof.Machine

/-! ### Scalar results (R206) -/

/-- Leading zeros are counted from the highest bit to the first that is 1. -/
theorem clz64_eq_find (w : Word) : clz64 w = ((List.range 64).find? fun i => bit w (63 - i)).getD 64 := by
  by_cases h0 : w = 0
  · have hnone : ((List.range 64).find? fun i => bit w (63 - i)) = none := by simp [h0, bit]
    rw [hnone, clz64, if_pos h0]
    rfl
  · have hn : w.toNat ≠ 0 := fun h => h0 (BitVec.eq_of_toNat_eq h)
    have hlt : Nat.log2 w.toNat < 64 := (Nat.log2_lt hn).2 w.isLt
    have hsome : ((List.range 64).find? fun i => bit w (63 - i)) = some (63 - Nat.log2 w.toNat) := by
      refine List.find?_range_eq_some.2 ⟨?_, List.mem_range.2 (by omega), fun j hj => ?_⟩
      · rw [Nat.sub_sub_self (by omega)]
        exact Nat.testBit_log2 hn
      · have hzero : bit w (63 - j) = false := Nat.testBit_lt_two_pow ((Nat.log2_lt hn).1 (by omega))
        rw [hzero]
        rfl
    rw [hsome, clz64, if_neg h0]
    rfl

/-- Settles O24: every row is the meaning of its command, by the form's registers; MIN, MAX and CLZ by the order of words and by
their bits. -/
theorem scalarInstructionsSendTheirResult : Obligations.ScalarInstructionsSendTheirResult := by
  intro row hrow s o hready
  have hacts : ActsOnCore row.1 row.2.1 fun k o => k.send o.slot.toNat row.2.2.1 (.g o.d.toNat (row.2.2.2 k o)) := by
    clear hready
    revert row
    simp only [List.forall_mem_cons]
    refine ⟨?_, ?_, ?_, ?_, ?_, ?_, ?_, ?_, ?_, ?_, ?_, ?_, ?_, ?_, ?_, ?_, ?_, ?_, ?_, ?minS, ?minU, ?maxS, ?maxU, ?clz,
      ?_, ?_, ?_, ?_, ?_, ?_, ?_, ?_, List.forall_mem_nil _⟩
    case minS => exact actsOnCore_toG (fun _ _ => rfl) fun _ _ => if_congr BitVec.slt_iff_toInt_lt rfl rfl
    case minU => exact actsOnCore_toG (fun _ _ => rfl) fun _ _ => if_congr BitVec.ult_iff_toNat_lt rfl rfl
    case maxS => exact actsOnCore_toG (fun _ _ => rfl) fun _ _ => if_congr BitVec.slt_iff_toInt_lt rfl rfl
    case maxU => exact actsOnCore_toG (fun _ _ => rfl) fun _ _ => if_congr BitVec.ult_iff_toNat_lt rfl rfl
    case clz => exact actsOnCore_toG (fun _ _ => rfl) fun _ _ => congrArg word (clz64_eq_find _)
    all_goals exact actsOnCore_toG (fun _ _ => rfl) fun _ _ => rfl
  exact hacts.exec_eq hready

/-! ### Compares (R207) -/

theorem not_slt_eq_decide (a b : Word) : (!a.slt b) = decide (b.toInt ≤ a.toInt) := by
  rw [BitVec.slt, ← decide_not]
  exact decide_eq_decide.2 not_lt

theorem not_ult_eq_decide (a b : Word) : (!a.ult b) = decide (b.toNat ≤ a.toNat) := by
  rw [BitVec.ult, ← decide_not]
  exact decide_eq_decide.2 not_lt

/-- The sign-extended immediate has the immediate's value. -/
theorem toInt_immSext (o : SlotOp) : (immSext o).toInt = o.imm.toInt := BitVec.toInt_signExtend_of_le (by decide)

/-- S0 and S1 are the slots below 2. -/
theorem sl01_testBit (n : Nat) : sl01.testBit n = decide (n < 2) := Nat.testBit_two_pow_sub_one 2 n

/-- Settles O25: a compare's outcome and a predicate operation's result are their command's meaning; a slot that does not execute
stops at the first check that it fails. -/
theorem comparesPredicatesAndUnfitSlots : Obligations.ComparesPredicatesAndUnfitSlots := by
  refine ⟨⟨fun row hrow s o hready => ?_, fun row hrow s o hready => ?_, fun s o hready => exec_slot_core rfl hready rfl⟩,
    fun s o hup hfetch hopen hfree => ?_⟩
  · have hacts : ActsOnCore row.1 row.2.1 fun k o =>
        k.send o.slot.toNat 1 (.p o.d.toNat (if row.2.2 k o then BitVec.allOnes 32 else 0) (BitVec.allOnes 32)) := by
      clear hready
      revert row
      simp only [List.forall_mem_cons]
      refine ⟨?_, ?ne, ?_, ?_, ?geS, ?geU, ?_, ?neI, ?ltSI, ?_, ?geSI, ?geUI, ?_, List.forall_mem_nil _⟩
      case ne => exact actsOnCore_compare (fun _ _ => rfl) fun _ _ => decide_not.symm
      case geS => exact actsOnCore_compare (fun _ _ => rfl) fun _ _ => not_slt_eq_decide _ _
      case geU => exact actsOnCore_compare (fun _ _ => rfl) fun _ _ => not_ult_eq_decide _ _
      case neI => exact actsOnCore_compare (fun _ _ => rfl) fun _ _ => decide_not.symm
      case ltSI => 
        exact actsOnCore_compare (fun _ _ => rfl) fun _ o => by
          rw [BitVec.slt, ← toInt_immSext o]; rfl
      case geSI => 
        exact actsOnCore_compare (fun _ _ => rfl) fun _ o => by
          rw [not_slt_eq_decide, ← toInt_immSext o]; rfl
      case geUI => exact actsOnCore_compare (fun _ _ => rfl) fun _ _ => not_ult_eq_decide _ _
      all_goals exact actsOnCore_compare (fun _ _ => rfl) fun _ _ => rfl
    exact hacts.exec_eq hready
  · have hacts : ActsOnCore row.1 row.2.1 fun k o =>
        k.send o.slot.toNat 1 (.p o.d.toNat (row.2.2 k o) (BitVec.allOnes 32)) := by
      clear hready
      revert row
      simp only [List.forall_mem_cons]
      refine ⟨?_, ?_, ?_, ?_, ?_, ?_, List.forall_mem_nil _⟩ <;> exact actsOnCore_toP (fun _ _ => rfl) fun _ _ => rfl
    exact hacts.exec_eq hready
  · have hissue : exec (.add o) s = .next { s with gx := (s.gx.entered o).issueSlot (fG3 0x01) o fun x => x.toG 1 (x.ga + x.gb) } :=
      slotCmd_open hup hfetch hopen
    have hfree' : (fG3 0x01).blocked ((s.gx.entered o).core o.core.toNat) o = [] := List.isEmpty_iff.1 hfree
    rw [hissue]
    refine ⟨fun hslot hsel hmask => ?_, fun hslot => ?_, fun hslot hsel hmask hlegal => ?_⟩
    · rw [Glexon.issueSlot_notExecuted _ hfree' hslot rfl hsel rfl hmask]
      rfl
    · rw [Glexon.issueSlot_wrongSlot _ hfree' ((sl01_testBit _).trans (decide_eq_false (Nat.not_lt.2 hslot)))]
      rfl
    · rw [Glexon.issueSlot_illegal _ hfree' ((sl01_testBit _).trans (decide_eq_true hslot)) rfl hsel rfl hmask hlegal]
      rfl

end Sys2Proof.Machine
end

section
/-! PROOFS. Branches (R208 to R210). -/

namespace Sys2Proof.Machine

section
variable (g : Glexon) (n target cyc : Nat)

@[simp] theorem Glexon.trcBranch_mem : (g.trcBranch n target cyc).mem = g.mem := by
  unfold Glexon.trcBranch
  dsimp only
  split <;> rfl

@[simp] theorem Glexon.trcBranch_regs : (g.trcBranch n target cyc).regs = g.regs := by
  unfold Glexon.trcBranch
  dsimp only
  split <;> rfl

@[simp] theorem Glexon.trcBranch_cores : (g.trcBranch n target cyc).cores = g.cores := by
  unfold Glexon.trcBranch
  dsimp only
  split <;> rfl

end

/-- A slot whose chip differs in its core and in the trace of a branch alone changes nothing else. -/
theorem coreBecomes_trcBranch_setCore (s : State) (o : SlotOp) (k : Core) (target cyc : Nat) :
    s.CoreBecomes
      { s with
        gx := (s.gx.entered o).finish o.core.toNat o
          (.chip (((s.gx.entered o).setCore o.core.toNat k).trcBranch o.core.toNat target cyc)) }
      o { k with next := o.slot.toNat + 1 } := by
  have hcore (m : Nat) := Glexon.core_congr (Glexon.trcBranch_cores ((s.gx.entered o).setCore o.core.toNat k) o.core.toNat target cyc) m
  refine ⟨rfl, ?_, ?_, ?_, fun m hm => ?_⟩ <;> simp only [Glexon.finish]
  · rw [Glexon.modCore_mem, Glexon.trcBranch_mem, Glexon.setCore_mem]
  · rw [Glexon.modCore_regs, Glexon.trcBranch_regs, Glexon.setCore_regs]
  · rw [Glexon.modCore, Glexon.core_setCore_same, hcore, Glexon.core_setCore_same]
  · rw [Glexon.modCore, Glexon.core_setCore_other _ _ _ _ hm, hcore, Glexon.core_setCore_other _ _ _ _ hm]

section
variable {x : Slot} {k : Core}

/-- A branch to a bundle of the program makes it issue three cycles later (R209). -/
theorem Slot.jump_inProgram {t : Nat} (h : t < x.gx.progLen x.n) : x.jump k t =
    .chip ((x.gx.setCore x.n { k with npc := t, ncyc := k.cyc + 3 }).trcBranch x.n t (x.gx.pulse + k.cyc)) :=
  if_pos ⟨Int.natCast_nonneg t, Int.ofNat_lt.2 h⟩

/-- A branch past the program faults with BUNDLE_RANGE (R210). -/
theorem Slot.jump_pastProgram {t : Nat} (h : x.gx.progLen x.n ≤ t) : x.jump k t = .fault cRANGE none 0 :=
  if_neg fun hin => Nat.not_lt.2 h (Int.ofNat_lt.1 hin.2)

end

section
variable {i : SlotOp → Instr} {f : Form} {sem : Slot → SlotRes} {s : State} {o : SlotOp} {k : Core} {t : Nat}

/-- A ready slot that branches to a bundle of the program. -/
theorem exec_branch_taken (hexec : exec (i o) s = slotCmd f sem o s) (hready : s.slotReady f o = true)
    (hsem : sem (s.slotView f o) = (s.slotView f o).jump k t) (ht : t < (s.gx.entered o).progLen o.core.toNat) :
    ∃ u, exec (i o) s = .next u ∧ s.CoreBecomes u o { k with npc := t, ncyc := k.cyc + 3, next := o.slot.toNat + 1 } := by
  rw [hexec, slotCmd_ready sem hready, hsem, Slot.jump_inProgram (x := s.slotView f o) ht]
  exact ⟨_, rfl, coreBecomes_trcBranch_setCore ..⟩

end

/-- The slot is a relative branch under a condition on its core, which it first changes by `upd` (R208). -/
structure BranchesIf (s : State) (o : SlotOp) (i : SlotOp → Instr) (f : Form) (taken : Core → Bool) (upd : Core → Core) : Prop where
  acts : ∃ sem : Slot → SlotRes, exec (i o) s = slotCmd f sem o s ∧
    sem (s.slotView f o) =
    if taken (s.slotCore o) then (s.slotView f o).jump (upd (s.slotCore o)) (s.slotView f o).rel else .core (upd (s.slotCore o))
  cyc_eq : (upd (s.slotCore o)).cyc = (s.slotCore o).cyc

section
variable {s : State} {o : SlotOp} {i : SlotOp → Instr} {f : Form} {taken : Core → Bool} {upd : Core → Core}
  (h : BranchesIf s o i f taken upd) (hready : s.slotReady f o = true)
include h hready

theorem BranchesIf.exec_taken {t : Nat} (ht : t < (s.gx.entered o).progLen o.core.toNat)
    (hrel : ((s.slotCore o).pc : Int) + o.imm.toInt = t) (htaken : taken (s.slotCore o) = true) :
    ∃ u, exec (i o) s = .next u ∧ s.CoreBecomes u o
      { (upd (s.slotCore o)) with npc := t, ncyc := (s.slotCore o).cyc + 3, next := o.slot.toNat + 1 } := by
  obtain ⟨⟨sem, hexec, hsem⟩, hcyc⟩ := h
  have htarget : (s.slotView f o).rel = t := by
    rw [← hrel, ← toInt_immSext]
    rfl
  rw [if_pos htaken, htarget] at hsem
  rw [← hcyc]
  exact exec_branch_taken hexec hready hsem ht

theorem BranchesIf.exec_notTaken (htaken : taken (s.slotCore o) = false) :
    exec (i o) s = .next (s.slotNext o (upd (s.slotCore o))) := by
  obtain ⟨⟨sem, hexec, hsem⟩, -⟩ := h
  rw [if_neg (by simp [htaken])] at hsem
  exact exec_slot_core hexec hready hsem

end

/-- Settles O26: every row is a relative branch under its condition; RET's target is g31. -/
theorem branchesIssueTheirTargetThreeCyclesLater : Obligations.BranchesIssueTheirTargetThreeCyclesLater := by
  refine fun s o t ht => ⟨fun row hrow hready => ?_, fun hready htarget => ?_, fun hready hpast => ?_⟩
  · have hbranch : BranchesIf s o row.1 row.2.1 row.2.2.1 row.2.2.2 := by
      clear hready
      revert row
      simp only [List.forall_mem_cons]
      refine ⟨?br, ?brZ, ?brNz, ?dbnz, ?call, List.forall_mem_nil _⟩
      case br => exact ⟨⟨_, rfl, rfl⟩, rfl⟩
      case brZ => exact ⟨⟨_, rfl, (if_congr decide_eq_true_iff rfl rfl).symm⟩, rfl⟩
      case brNz => exact ⟨⟨_, rfl, (if_congr decide_eq_true_iff rfl rfl).symm⟩, rfl⟩
      case dbnz => exact ⟨⟨_, rfl, (if_congr decide_eq_true_iff rfl rfl).symm⟩, rfl⟩
      case call => exact ⟨⟨_, rfl, rfl⟩, rfl⟩
    exact ⟨hbranch.exec_taken hready ht, hbranch.exec_notTaken hready⟩
  · subst htarget
    exact exec_branch_taken rfl hready rfl ht
  · exact exec_slot_fault rfl hready (Slot.jump_pastProgram hpast)

end Sys2Proof.Machine
end

section
/-! PROOFS. Results on their way to the registers: when they land, and which of two prevails (R195, R196, R198). -/

namespace Sys2Proof.Machine

/-! ### Register files (R198) -/

section
variable (k : Core) (r q : Nat)

theorem Core.rg_setG_same (v : Word) : (k.setG r v).rg r = if r = 0 then 0 else v := by
  by_cases hr : r = 0
  · rw [Core.rg, if_pos hr, if_pos hr]
  · rw [Core.rg, if_neg hr, if_neg hr, Core.setG, if_neg hr]
    exact SMap.get_put_same _ _ _ _

theorem Core.rg_setG_other (v : Word) (h : q ≠ r) : (k.setG r v).rg q = k.rg q := by
  unfold Core.setG
  split
  · rfl
  · unfold Core.rg
    rw [SMap.get_put_other _ _ _ _ _ h]

@[simp] theorem Core.rp_setG (v : Word) : (k.setG r v).rp q = k.rp q := by
  unfold Core.setG
  split <;> rfl

theorem Core.rv_setV_same (v mask : VReg) : (k.setV r v mask).rv r = merge (k.rv r) v mask := SMap.get_put_same _ _ _ _

theorem Core.rp_setP_same (v mask : BitVec 32) (hr : r ≠ 0) : (k.setP r v mask).rp r = merge (k.rp r) v mask := by
  rw [Core.rp, if_neg hr, Core.setP, if_neg hr]
  exact SMap.get_put_same _ _ _ _

end

section
variable {n : Nat} (old x y ma mb : BitVec n)

/-- Under the mask, a masked write reads as written. -/
theorem merge_and_mask : merge old x ma &&& ma = x &&& ma := by
  apply BitVec.eq_of_getLsbD_eq
  intro i hi
  simp only [merge, BitVec.getLsbD_and, BitVec.getLsbD_or, BitVec.getLsbD_not]
  cases ma.getLsbD i <;> simp

/-- Outside the mask of a later write, an earlier one reads as written under its own. -/
theorem merge_merge_and_earlier : merge (merge old x ma) y mb &&& (ma &&& ~~~mb) = x &&& (ma &&& ~~~mb) := by
  apply BitVec.eq_of_getLsbD_eq
  intro i hi
  simp only [merge, BitVec.getLsbD_and, BitVec.getLsbD_or, BitVec.getLsbD_not]
  cases ma.getLsbD i <;> cases mb.getLsbD i <;> simp

end

/-! ### Results that land in a register (R195) -/

/-- The result is for a register: `g`, `v` or `p`. -/
def Effect.toReg : Effect → Bool
  | .g .. => true
  | .v .. => true
  | .p .. => true
  | _ => false

/-- The core with a register result in its register. -/
def Core.take (k : Core) : Effect → Core
  | .g r w => k.setG r w
  | .v r w m => k.setV r w m
  | .p r w m => k.setP r w m
  | _ => k

@[simp] theorem Core.setG_flight (k : Core) (r : Nat) (w : Word) : (k.setG r w).flight = k.flight := by
  unfold Core.setG
  split <;> rfl

@[simp] theorem Core.setP_flight (k : Core) (r : Nat) (w m : BitVec 32) : (k.setP r w m).flight = k.flight := by
  unfold Core.setP
  split <;> rfl

@[simp] theorem Core.take_flight (k : Core) (e : Effect) : (k.take e).flight = k.flight := by
  cases e with
  | g r w => exact k.setG_flight r w
  | p r w m => exact k.setP_flight r w m
  | _ => rfl

section
variable (g : Glexon) (n : Nat)

theorem Glexon.land_register {f : Flight} (h : f.eff.toReg = true) : g.land n f = g.modCore n fun k => k.take f.eff := by
  unfold Glexon.land
  cases he : f.eff with
  | g | v | p => rfl
  | fpstat | flags | store | amo | far =>
    rw [he] at h
    cases h

/-- Register results land one after another in their core, and nowhere in memory. -/
theorem Glexon.foldl_land_register (l : List Flight) (h : ∀ f ∈ l, f.eff.toReg = true) :
    (l.foldl (fun x f => x.land n f) g).core n = l.foldl (fun k f => k.take f.eff) (g.core n) ∧
      (l.foldl (fun x f => x.land n f) g).mem = g.mem := by
  induction l generalizing g with
  | nil => exact ⟨rfl, rfl⟩
  | cons f l ih =>
    obtain ⟨hcore, hmem⟩ := ih (g.land n f) fun e he => h e (List.mem_cons_of_mem _ he)
    rw [Glexon.land_register g n (h f List.mem_cons_self)] at hcore hmem
    rw [Glexon.modCore, Glexon.core_setCore_same] at hcore
    simp only [List.foldl_cons, Glexon.land_register g n (h f List.mem_cons_self)]
    exact ⟨hcore, hmem⟩

theorem Core.foldl_take_flight (l : List Flight) (k : Core) : (l.foldl (fun k f => k.take f.eff) k).flight = k.flight := by
  induction l generalizing k with
  | nil => rfl
  | cons f l ih => rw [List.foldl_cons, ih, Core.take_flight]

/-- The results of core `n` that are due by `cyc` land, once. -/
def Glexon.landDue (cyc : Nat) : Glexon :=
  ((g.core n).flight.filter (fun f => f.due ≤ cyc)).foldl (fun x f => x.land n f)
    (g.setCore n { g.core n with flight := (g.core n).flight.filter fun f => cyc < f.due })

theorem Glexon.advance_eq (cyc : Nat) : g.advance n cyc = (g.landDue n cyc).landDue n cyc := rfl

variable {g n} {cyc : Nat}

/-- With no result due, nothing lands. -/
theorem Glexon.landDue_early (h : ∀ f ∈ (g.core n).flight, cyc < f.due) :
    (g.landDue n cyc).core n = g.core n ∧ (g.landDue n cyc).mem = g.mem := by
  have hdue : ((g.core n).flight.filter fun f => f.due ≤ cyc) = [] := by simpa using h
  have hwait : ((g.core n).flight.filter fun f => cyc < f.due) = (g.core n).flight := by simpa using h
  rw [Glexon.landDue, hdue, hwait]
  exact ⟨Glexon.core_setCore_same _ _ _, rfl⟩

/-- With register results alone on their way, all of them due, all land in their order. -/
theorem Glexon.landDue_registers (hdue : ∀ f ∈ (g.core n).flight, f.due ≤ cyc)
    (hreg : ∀ f ∈ (g.core n).flight, f.eff.toReg = true) :
    (g.landDue n cyc).core n = (g.core n).flight.foldl (fun k f => k.take f.eff) { g.core n with flight := [] } ∧
      (g.landDue n cyc).mem = g.mem := by
  have hall : ((g.core n).flight.filter fun f => f.due ≤ cyc) = (g.core n).flight := by simpa using hdue
  have hnone : ((g.core n).flight.filter fun f => cyc < f.due) = [] := by simpa using hdue
  rw [Glexon.landDue, hall, hnone]
  obtain ⟨hcore, hmem⟩ := (g.setCore n { g.core n with flight := [] }).foldl_land_register n _ hreg
  rw [Glexon.core_setCore_same] at hcore
  exact ⟨hcore, hmem⟩

/-- R195: results that are not due by a cycle are still on their way after it. -/
theorem Glexon.advance_early (h : ∀ f ∈ (g.core n).flight, cyc < f.due) :
    (g.advance n cyc).core n = g.core n ∧ (g.advance n cyc).mem = g.mem := by
  obtain ⟨hcore, hmem⟩ := Glexon.landDue_early h
  obtain ⟨hcore', hmem'⟩ := Glexon.landDue_early (g := g.landDue n cyc) (by rwa [hcore])
  rw [Glexon.advance_eq]
  exact ⟨hcore'.trans hcore, hmem'.trans hmem⟩

/-- R195: register results that are due by a cycle have landed in it, in their order. -/
theorem Glexon.advance_registers (hdue : ∀ f ∈ (g.core n).flight, f.due ≤ cyc)
    (hreg : ∀ f ∈ (g.core n).flight, f.eff.toReg = true) :
    (g.advance n cyc).core n = (g.core n).flight.foldl (fun k f => k.take f.eff) { g.core n with flight := [] } ∧
      (g.advance n cyc).mem = g.mem := by
  obtain ⟨hcore, hmem⟩ := Glexon.landDue_registers hdue hreg
  have hempty : ((g.landDue n cyc).core n).flight = [] := by
    rw [hcore]
    exact Core.foldl_take_flight _ _
  obtain ⟨hcore', hmem'⟩ := Glexon.landDue_early (g := g.landDue n cyc) (n := n) (cyc := cyc) (by simp [hempty])
  rw [Glexon.advance_eq]
  exact ⟨hcore'.trans hcore, hmem'.trans hmem⟩

end

/-! ### The order of two results (R196) -/

/-- Of two register results, the one due earlier takes effect first; of one cycle, the one issued earlier, and of one bundle the
one in the lower slot. -/
theorem Flight.before_register {a b : Flight} (ha : a.eff.toReg = true) (hb : b.eff.toReg = true) :
    a.before b = true ↔ a.due < b.due ∨ a.due = b.due ∧ (a.sent < b.sent ∨ a.sent = b.sent ∧ a.slot < b.slot) := by
  unfold Flight.before
  extract_lets rank x y
  have hrank (e : Effect) (h : e.toReg = true) : rank e = 0 := by
    cases e with
    | flags => cases h
    | _ => rfl
  simp [x, y, hrank _ ha, hrank _ hb]

section
variable {a b : Flight} (hdue : a.due = b.due) (horder : a.sent < b.sent ∨ (a.sent = b.sent ∧ a.slot < b.slot))
  (hreg : a.eff.toReg = true) (hreg' : b.eff.toReg = true)
include hdue horder hreg hreg'

/-- They stand in that order, whichever of the two was sent first. -/
theorem insFlight_pair : insFlight a [b] = [a, b] ∧ insFlight b [a] = [a, b] := by
  have hab : a.before b = true := (Flight.before_register hreg hreg').2 (.inr ⟨hdue, horder⟩)
  have hba : ¬ b.before a = true := fun h => by
    have := (Flight.before_register hreg' hreg).1 h
    omega
  exact ⟨if_pos hab, if_neg hba⟩

/-- The later one's register write follows the earlier one's. -/
theorem Glexon.advance_pair {g : Glexon} {n cyc : Nat} (hcyc : a.due ≤ cyc)
    (hfl : (g.core n).flight = insFlight a [b] ∨ (g.core n).flight = insFlight b [a]) :
    (g.advance n cyc).core n = (({ g.core n with flight := [] } : Core).take a.eff).take b.eff := by
  have hpair : (g.core n).flight = [a, b] := by
    obtain ⟨hab, hba⟩ := insFlight_pair hdue horder hreg hreg'
    rwa [hab, hba, or_self] at hfl
  obtain ⟨hcore, -⟩ := Glexon.advance_registers (g := g) (n := n) (cyc := cyc) (by simp [hpair, hcyc, hdue ▸ hcyc])
    (by simp [hpair, hreg, hreg'])
  rw [hcore, hpair]
  rfl

end

/-- Settles O29: one register result lands in its cycle; of two, the order in which they stand is that of R196. -/
theorem resultsTakeEffectInOrder : Obligations.ResultsTakeEffectInOrder := by
  refine ⟨?_, ?_⟩
  · intro g n cyc k f r v hk hfl he
    subst hk
    have hearly (h : cyc < f.due) := Glexon.advance_early (g := g) (n := n) (cyc := cyc) (by simpa [hfl] using h)
    have hland (h : f.due ≤ cyc) : (g.advance n cyc).core n = ({ g.core n with flight := [] } : Core).setG r v ∧
        (g.advance n cyc).mem = g.mem := by
      have h' := Glexon.advance_registers (g := g) (n := n) (cyc := cyc) (by simpa [hfl] using h)
        (by simp [hfl, he, Effect.toReg])
      simpa [hfl, he, Core.take] using h'
    refine ⟨fun h => ?_, fun h => ?_, fun q hq => ?_, fun q => ?_, rfl, rfl, ?_⟩
    · rw [(hearly h).1]
      exact ⟨rfl, hfl⟩
    · rw [(hland h).1]
      exact ⟨Core.rg_setG_same _ _ _, Core.setG_flight _ _ _⟩
    all_goals obtain h | h := Nat.lt_or_ge cyc f.due
    · rw [(hearly h).1]
    · rw [(hland h).1, Core.rg_setG_other _ _ _ _ hq]
      rfl
    · rw [(hearly h).1]
    · rw [(hland h).1, Core.rp_setG]
      rfl
    · exact (hearly h).2
    · exact (hland h).2
  · intro g n cyc a b hdue hcyc horder
    refine ⟨fun r x y hr ha hb hfl => ?_, fun r x y ma mb ha hb hfl => ?_, fun r x y ma mb hr ha hb hfl => ?_⟩
    all_goals
      have hpair := Glexon.advance_pair hdue horder (by rw [ha]; rfl) (by rw [hb]; rfl) hcyc hfl
      rw [ha, hb] at hpair
      rw [hpair]
    · exact (Core.rg_setG_same _ _ _).trans (if_neg hr)
    · simp only [Core.take, Core.rv_setV_same]
      exact ⟨merge_and_mask _ _ _, merge_merge_and_earlier _ _ _ _ _⟩
    · simp only [Core.take, Core.rp_setP_same _ _ _ _ hr]
      exact ⟨merge_and_mask _ _ _, merge_merge_and_earlier _ _ _ _ _⟩

end Sys2Proof.Machine
end

section
/-! PROOFS. Loads beside an engine operation that writes the same bytes (R211, R215, R217, R251): what they read is unspecified. -/

namespace Sys2Proof.Machine

/-! ### Reads that clash with an engine operation (R251) -/

/-- A byte that is neither the first unspecified one nor 0, which an unlisted byte of memory reads as. -/
def surelyOther : Byte := if Config.freeByte 0 0 = 1 then 2 else 1

theorem surelyOther_ne : surelyOther ≠ Config.freeByte 0 0 := by
  unfold surelyOther
  split
  next h => rw [h]; decide
  next h => exact Ne.symm h

section
variable {g : Glexon} {self : Option (Nat × Nat)} {a n : Nat}

/-- The first byte of a read that clashes is left unspecified. -/
theorem Glexon.memByte_busRead_clash (h : g.clash self false a n = true) (hn : 0 < n) :
    memByte (g.busRead self a n).2.mem a = Config.freeByte g.freeN 0 := by
  have hlen : 0 < (freeBytes g.freeN n).length := by simpa [freeBytes] using hn
  have hmem : (g.busRead self a n).2.mem = memWrite g.mem a (freeBytes g.freeN n) := by
    rw [Glexon.busRead, if_pos h]
    rfl
  rw [hmem]
  refine (memByte_memWrite_in _ g.mem a 0 hlen).trans ?_
  simp [freeBytes]

theorem addrKind_ne_csr_of_isMem (h : isMem a = true) : addrKind a ≠ .csr := by
  rintro hk
  rw [isMem, hk] at h
  cases h

/-- A far or own load of memory is one read of its bytes. -/
theorem Glexon.performFar_load {f : FarAccess} {w : Nat} {signed : Bool} (hk : f.kind = .load w signed) (hm : isMem f.addr = true) :
    (g.performFar n f).2 = (g.busRead none f.addr w).2 := by
  simp only [Glexon.performFar, hk, if_neg (addrKind_ne_csr_of_isMem hm)]

end

/-! ### A load of the own SRAM -/

/-- The access of a load to its address. -/
def Slot.farLoad (x : Slot) (w : Nat) (signed : Bool) : FarAccess :=
  { reg := x.o.d.toNat, addr := x.ea, kind := .load w signed, pc := x.k.pc }

/-- An aligned load of the own SRAM, not poisoned, takes its value from the read of its bytes (R211, R213). -/
theorem Slot.load_own {x : Slot} {w : Nat} (signed : Bool) (halign : x.ea % w = 0) (hown : ownWindow x.n x.ea = true)
    (hmem : isMem x.ea = true) (hclean : x.gx.poisoned x.ea w = false) :
    ∃ k, x.load w signed = .both (x.gx.busRead none x.ea w).2 k := by
  have hload : x.load w signed = .both (x.gx.performFar x.n (x.farLoad w signed)).2
      (x.send 4 (.g x.o.d.toNat (x.gx.performFar x.n (x.farLoad w signed)).1)) :=
    (if_neg (not_not.2 halign)).trans
      ((if_pos hown).trans ((if_neg (by simp [hmem])).trans (if_neg (by simp [hclean]))))
  rw [hload, Glexon.performFar_load (f := x.farLoad w signed) rfl hmem]
  exact ⟨_, rfl⟩

/-- LD.B g1, [g0 + imm] in slot 1 of core 0, at the foot of the core's SRAM. -/
def ldFoot : SlotOp := { core := 0, slot := 1, first := false, d := 1, a := 0, b := 0, c := 0, imm := 0x10000000 }

/-- Core 0 has this load to issue, while a DMA from record memory to the foot of its SRAM is outstanding. -/
def loadBesideDma : State :=
  { bm := Bumas.reset, pending := []
    gx := { Glexon.reset with
      sysRstN := true, corePwrOk := true
      mem := [(0x10000000, surelyOther)]
      code := [(1, slotBits ldFoot 0x50)]
      cores := [(0, { phase := .issuing, isOpen := true, next := 1
                      ops := [{ q := .dma, tag := 0, kind := .dma 0x10000000 0x1000000000 64 false }] })] } }

theorem loadBesideDma_ready : loadBesideDma.slotReady (fLoad 0x50) ldFoot = true := by decide +kernel

theorem loadBesideDma_clash : loadBesideDma.gx.clash none false 0x10000000 1 = true := by decide +kernel

/-- Refutes O27: a load of the own SRAM that an outstanding DMA is to write has an unspecified value, and leaves those bytes
unspecified (R251); the statement has memory unchanged, whatever operations are outstanding. -/
theorem not_loadsStoresAndAtomics : ¬ Obligations.LoadsStoresAndAtomics := by
  rintro ⟨hload, -⟩
  obtain ⟨-, -, -, hown, -⟩ := hload (.ldB, 0x50, 1, false) (by simp) loadBesideDma ldFoot 0x10000000 loadBesideDma_ready
    (by decide +kernel)
  obtain ⟨u, -, hexec, hmem, -⟩ := hown (by decide) (by decide) (by decide) (by decide +kernel)
  have hea : (loadBesideDma.slotView (fLoad 0x50) ldFoot).ea = 0x10000000 := by decide +kernel
  obtain ⟨k, hsem⟩ := Slot.load_own (x := loadBesideDma.slotView (fLoad 0x50) ldFoot) (w := 1) false
    (by rw [hea]) (by rw [hea]; decide +kernel) (by rw [hea]; decide) (by rw [hea]; decide +kernel)
  have hrun : exec (.ldB ldFoot) loadBesideDma = _ := slotCmd_ready (fun x => x.load 1 false) loadBesideDma_ready
  rw [hsem, hea] at hrun
  rw [hrun] at hexec
  injection hexec with hu
  have hfree : memByte u.gx.mem 0x10000000 = Config.freeByte 0 0 := by
    rw [← hu]
    exact Glexon.memByte_busRead_clash loadBesideDma_clash (by decide)
  rw [hmem] at hfree
  exact surelyOther_ne hfree

/-! ### A far load that returns -/

/-- The oldest far load of memory, not poisoned and not yet performed, reads its bytes as it returns (R215, R217). -/
theorem Glexon.farReturn_oldest_mem {g : Glexon} {n w : Nat} {signed : Bool} {f : FarAccess} {rest : List FarAccess}
    (hfar : (g.core n).far = f :: rest) (hk : f.kind = .load w signed) (hgot : f.got = none) (hm : isMem f.addr = true)
    (hclean : g.poisoned f.addr w = false) : (g.farReturn n 0 .ok).mem = (g.busRead none f.addr w).2.mem := by
  have hecc : (g.performEarlier n 0 f.addr 8).eccRead f.addr .ok = g := by
    unfold Glexon.eccRead
    split <;> rfl
  have hcause : g.farCause f = 0 := by
    have hcsr := addrKind_ne_csr_of_isMem hm
    unfold Glexon.farCause
    rw [isMem] at hm
    cases hka : addrKind f.addr <;> simp_all
  have hfirst : (g.core n).far[0]? = some f := by rw [hfar]; rfl
  simp [Glexon.farReturn, hfirst, hecc, hcause, hgot, Glexon.performFar_load hk hm]

/-- A far load of the foot of record memory into g1. -/
def farFoot : FarAccess := { reg := 1, addr := 0x1000000000, kind := .load 1 false, pc := 0 }

/-- Core 0 awaits this load, while its DMA to the same bytes is outstanding. -/
def farLoadBesideDma : State :=
  { bm := Bumas.reset, pending := []
    gx := { Glexon.reset with
      sysRstN := true, corePwrOk := true
      mem := [(0x1000000000, surelyOther)]
      cores := [(0, { phase := .issuing, far := [farFoot]
                      ops := [{ q := .dma, tag := 0, kind := .dma 0x10000000 0x1000000000 64 true }] })] } }

theorem farLoadBesideDma_clash : farLoadBesideDma.gx.clash none false 0x1000000000 1 = true := by decide +kernel

/-- Refutes O28: a far load that returns while a DMA that writes its bytes is outstanding leaves those bytes unspecified (R251);
the statement has memory unchanged, whatever operations are outstanding. -/
theorem not_specialRegistersAndFarLoads : ¬ Obligations.SpecialRegistersAndFarLoads := by
  rintro ⟨-, hfar⟩
  have hup : farLoadBesideDma.gx.coreUp = true := by decide +kernel
  have hcore : (farLoadBesideDma.gx.core 0).far = [farFoot] := by decide +kernel
  have hclean : farLoadBesideDma.gx.poisoned 0x1000000000 1 = false := by decide +kernel
  obtain ⟨t, hexec, -, -, -, hmem, -⟩ := hfar farLoadBesideDma 0 farFoot [] 1 hup hcore rfl rfl (by decide) (by decide) hclean
  have hrun : exec (.farAccessReturn 0 0 .ok) farLoadBesideDma =
      .next { farLoadBesideDma with gx := farLoadBesideDma.gx.farReturn 0 0 .ok } :=
    onCore_runs (fun g => g.farReturn 0 0 .ok) farLoadBesideDma hup
  rw [hrun] at hexec
  injection hexec with ht
  have hfree : memByte t.gx.mem 0x1000000000 = Config.freeByte 0 0 := by
    rw [← ht]
    exact (congrArg (memByte · _) (Glexon.farReturn_oldest_mem hcore rfl rfl (by decide) hclean)).trans
      (Glexon.memByte_busRead_clash farLoadBesideDma_clash (by decide))
  rw [hmem] at hfree
  exact surelyOther_ne hfree

end Sys2Proof.Machine
end

section
/-! PROOFS. Fused, approximate and converting vector operations (R219, R220, R222, R223). -/

namespace Sys2Proof.Machine

/-! ### Element results -/

section
variable {i : SlotOp → Instr} {f : Form} {sem : Slot → SlotRes} {s : State} {o : SlotOp} {m : BitVec 32} {w lat : Nat}

/-- A ready slot whose meaning is a list of element results under a mask of lanes. -/
theorem exec_putElems {r : List FRes} (hexec : exec (i o) s = slotCmd f sem o s) (hready : s.slotReady f o = true)
    (hsem : sem (s.slotView f o) = ({ s.slotView f o with mask := m } : Slot).putElems w lat r) (hlen : w * r.length ≤ 1024) :
    ∃ v fl, exec (i o) s = .next (s.slotNext o ((s.slotCore o).sendF o.slot.toNat lat (.v o.d.toNat v (laneMask m)) fl)) ∧
      ∀ j, fld v (w * j) w = (r.map (·.bits)).getD j 0 % 2 ^ w := by
  obtain ⟨v, fl, hput, hfld, -⟩ := putElems_ready { s.slotView f o with mask := m } w lat r hlen
  exact ⟨v, fl, exec_slot_core hexec hready (hsem.trans hput), hfld⟩

/-- The same, where each element's result is given by its number. -/
theorem exec_putElems_range {n : Nat} {e : Nat → FRes} (hexec : exec (i o) s = slotCmd f sem o s) (hready : s.slotReady f o = true)
    (hsem : sem (s.slotView f o) = ({ s.slotView f o with mask := m } : Slot).putElems w lat ((List.range n).map e))
    (hlen : w * n ≤ 1024) :
    ∃ v fl, exec (i o) s = .next (s.slotNext o ((s.slotCore o).sendF o.slot.toNat lat (.v o.d.toNat v (laneMask m)) fl)) ∧
      ∀ j < n, fld v (w * j) w = (e j).bits % 2 ^ w := by
  obtain ⟨v, fl, hrun, hfld⟩ := exec_putElems hexec hready hsem (by simpa using hlen)
  refine ⟨v, fl, hrun, fun j hj => ?_⟩
  rw [hfld]
  simp [List.getD, hj]

end

/-- The results of an operation on each element of one vector, by their numbers. -/
theorem elems_map_eq_range (w : Nat) (v : VReg) (e : Nat → FRes) :
    (elems w v).map e = (List.range (1024 / w)).map fun j => e (fld v (w * j) w) := List.map_map

theorem elems_map_bits_getD {w j : Nat} (v : VReg) (e : Nat → FRes) (h : j < 1024 / w) :
    (((elems w v).map e).map (·.bits)).getD j 0 = (e (fld v (w * j) w)).bits := by
  simp [List.getD, elems_getElem? w v j h]

/-- The results of an operation on each element of three vectors, by their numbers. -/
theorem elems_zip3_map_eq_range (w : Nat) (a b c : VReg) (e : Nat → Nat → Nat → FRes) :
    ((elems w a).zip ((elems w b).zip (elems w c))).map (fun p => e p.1 p.2.1 p.2.2) =
      (List.range (1024 / w)).map fun j => e (fld a (w * j) w) (fld b (w * j) w) (fld c (w * j) w) := by
  simp only [elems, List.zip_map', List.map_map, Function.comp_def]

/-! ### VFMA (R220) -/

section
variable {x : Slot}

theorem Slot.typed_of_code {t : ETy} (h : ETy.ofCode (fld x.o.imm 0 3) = some t) (e : ETy → SlotRes) : x.typed e = e t := by
  rw [Slot.typed, h]

theorem semVfma_fp {f : FFmt} (h : ETy.ofCode (fld x.o.imm 0 3) = some (.fp f)) : semVfma x = x.putElems f.width 4
    ((List.range (1024 / f.width)).map fun j => f.fmaE (fld x.va (f.width * j) f.width) (fld x.vb (f.width * j) f.width)
      (fld x.vc (f.width * j) f.width)) := by
  rw [semVfma, Slot.typed_of_code h]
  exact congrArg (x.putElems f.width 4) (elems_zip3_map_eq_range _ _ _ _ _)

/-- VFMA of an integer type, or of a reserved code, faults. -/
theorem semVfma_notFp (h : ∀ f, ETy.ofCode (fld x.o.imm 0 3) ≠ some (.fp f)) : semVfma x = .fault cOPERAND none 0 := by
  unfold semVfma Slot.typed
  cases hc : ETy.ofCode (fld x.o.imm 0 3) with
  | none => rfl
  | some t =>
    cases t with
    | fp f => exact absurd hc (h f)
    | int w => rfl

end

/-! ### VCVT (R222) -/

/-- 32 results of 16 bits in one half of a vector, zeros in the other. -/
def inHalf (high : Bool) (r : List FRes) : List FRes :=
  if high then List.replicate 32 ⟨0, 0⟩ ++ r else r ++ List.replicate 32 ⟨0, 0⟩

theorem inHalf_length (high : Bool) {r : List FRes} (h : r.length = 32) : (inHalf high r).length = 64 := by
  cases high <;> simp [inHalf, h]

/-- Result `j` stands `j` places from the half's first. -/
theorem inHalf_getD (high : Bool) {r : List FRes} (h : r.length = 32) {j : Nat} (hj : j < 32) :
    ((inHalf high r).map (·.bits)).getD ((if high then 32 else 0) + j) 0 = (r.map (·.bits)).getD j 0 := by
  cases high with
  | false =>
    rw [if_neg Bool.false_ne_true, Nat.zero_add]
    change ((r ++ _).map _).getD j 0 = _
    rw [List.map_append, List.getD_append _ _ _ _ (by simpa [h] using hj)]
  | true =>
    rw [if_pos rfl]
    change ((List.replicate 32 _ ++ r).map _).getD (32 + j) 0 = _
    rw [List.map_append, List.getD_append_right _ _ _ _ (by simp), List.length_map, List.length_replicate, Nat.add_sub_cancel_left]

/-- The elements of one half of a vector, by their numbers. -/
theorem elems_half (high : Bool) (v : VReg) : ((elems 16 v).drop (if high then 32 else 0)).take 32 =
    (List.range 32).map fun j => fld v (16 * ((if high then 32 else 0) + j)) 16 := by
  apply List.ext_getElem
  · cases high <;> simp [elems]
  · intro j _ _
    simp [elems]

section
variable {x : Slot} {src dst : ETy} {c : Nat} (hcode : fld x.o.imm 0 6 = c) (hsrc : ETy.ofCode (c % 8) = some src)
  (hdst : ETy.ofCode (c / 8) = some dst)
include hcode hsrc hdst

theorem cvt_codes : ETy.ofCode (fld x.o.imm 0 3) = some src ∧ ETy.ofCode (fld x.o.imm 3 3) = some dst := by
  have hs : fld x.o.imm 0 3 = c % 8 := by
    rw [← hcode]
    simp only [fld, fldN, Nat.shiftRight_zero]
    omega
  have hd : fld x.o.imm 3 3 = c / 8 := by
    rw [← hcode]
    simp only [fld, fldN, Nat.shiftRight_eq_div_pow]
    omega
  rw [hs, hd]
  exact ⟨hsrc, hdst⟩

variable (hpair : cvtPair src dst = true)
include hpair

/-- Between elements of 32 bits, each is converted in its place. -/
theorem semVcvt_same (hws : src.width = 32) (hwd : dst.width = 32) :
    semVcvt x = x.putElems 32 2 ((List.range 32).map fun j => cvtE src dst (fld x.va (32 * j) 32)) := by
  obtain ⟨hs, hd⟩ := cvt_codes hcode hsrc hdst
  simp only [semVcvt, hs, hd]
  rw [if_neg (by simp [hpair]), if_neg (by simp [hwd]), if_neg (by simp [hws]), hws, hwd, elems_map_eq_range]

/-- From 32 bits to 16, the results stand in one half of vd, under the mask of its lanes. -/
theorem semVcvt_narrow (hws : src.width = 32) (hwd : dst.width = 16) :
    semVcvt x = ({ x with mask := x.mask &&& if bit x.o.imm 6 then 0xFFFF0000 else 0x0000FFFF } : Slot).putElems 16 2
      (inHalf (bit x.o.imm 6) ((elems 32 x.va).map (cvtE src dst))) := by
  obtain ⟨hs, hd⟩ := cvt_codes hcode hsrc hdst
  simp only [semVcvt, hs, hd]
  rw [if_neg (by simp [hpair]), if_pos ⟨hws, hwd⟩]
  rfl

/-- From 16 bits to 32, the elements stand in one half of va. -/
theorem semVcvt_widen (hws : src.width = 16) (hwd : dst.width = 32) :
    semVcvt x = x.putElems 32 2
      ((List.range 32).map fun j => cvtE src dst (fld x.va (16 * ((if bit x.o.imm 6 then 32 else 0) + j)) 16)) := by
  obtain ⟨hs, hd⟩ := cvt_codes hcode hsrc hdst
  simp only [semVcvt, hs, hd]
  rw [if_neg (by simp [hpair]), if_neg (by simp [hws]), if_pos ⟨hws, hwd⟩, elems_half, List.map_map]
  rfl

end

/-- Settles O31: the meaning of each operation, element by element. -/
theorem vectorFusedApproximateAndConvert : Obligations.VectorFusedApproximateAndConvert := by
  refine ⟨fun s o hready => ⟨fun f hf => ?_, fun hnot => ?_⟩, fun row hrow s o hready => ?_, fun s o hready =>
    ⟨fun hc => ?_, fun hc => ?_, fun h hh hc => ?_, fun h hh hc => ?_⟩⟩
  · rw [← laneMask_allOnes]
    exact exec_putElems_range rfl hready (semVfma_fp hf) (Nat.mul_div_le _ _)
  · exact exec_slot_fault rfl hready (semVfma_notFp hnot)
  · have happrox : ∀ o s, exec (row.1 o) s = slotCmd (fV2 row.2.1 0) (semApprox row.2.2) o s := by
      clear hready
      revert row
      simp only [List.forall_mem_cons]
      exact ⟨fun _ _ => rfl, fun _ _ => rfl, fun _ _ => rfl, fun _ _ => rfl, List.forall_mem_nil _⟩
    exact exec_putElems_range (happrox o s) hready (congrArg (Slot.putElems _ 32 8) (elems_map_eq_range _ _ _)) (by decide)
  · exact exec_putElems_range rfl hready (semVcvt_same (src := .int 32) (dst := .fp fp32) hc rfl rfl rfl rfl rfl) (by decide)
  · exact exec_putElems_range rfl hready (semVcvt_same (src := .fp fp32) (dst := .int 32) hc rfl rfl rfl rfl rfl) (by decide)
  · subst hh
    have hexec : exec (.vcvt o) s = slotCmd (fV2 0x90 0x7F) semVcvt o s := rfl
    have hlen : ((elems 32 (s.slotView (fV2 0x90 0x7F) o).va).map (cvtE (.fp fp32) (.fp bf16))).length = 32 := by
      rw [List.length_map, elems_length]
    obtain ⟨v, fl, hrun, hfld⟩ := exec_putElems hexec hready
      (semVcvt_narrow (src := .fp fp32) (dst := .fp bf16) hc rfl rfl rfl rfl rfl) (by rw [inHalf_length _ hlen])
    refine ⟨v, fl, hrun, fun j hj => ?_⟩
    rw [hfld]
    exact congrArg (· % 2 ^ 16) ((inHalf_getD _ hlen hj).trans (elems_map_bits_getD _ _ hj))
  · subst hh
    exact exec_putElems_range rfl hready (semVcvt_widen (src := .fp bf16) (dst := .fp fp32) hc rfl rfl rfl rfl rfl) (by decide)

end Sys2Proof.Machine
end

section
/-! PROOFS. Vector loads and stores of the own SRAM (R224). -/

namespace Sys2Proof.Machine

/-! ### The checks of a 128-byte access (R224) -/

section
variable {x : Slot} (act : Nat → SlotRes)

theorem Slot.own128_misaligned (h : x.ea % 128 ≠ 0) : x.own128 act = .fault cALIGN (some x.ea) 0 := if_pos h

variable (h : x.ea % 128 = 0)
include h

theorem Slot.own128_elsewhere (hmapped : addrKind x.ea ≠ .none) (hother : addrKind x.ea ≠ .sram x.n) :
    x.own128 act = .fault cSCOPE (some x.ea) 0 := by
  unfold Slot.own128
  dsimp only
  rw [if_neg (not_not.2 h)]
  cases hk : addrKind x.ea with
  | none => exact absurd hk hmapped
  | sram c => exact if_neg fun hc => hother (hk.trans (congrArg _ hc))
  | csr | hbm => rfl

theorem Slot.own128_own (hown : addrKind x.ea = .sram x.n) : x.own128 act = act x.ea := by
  unfold Slot.own128
  dsimp only
  rw [if_neg (not_not.2 h), hown]
  exact if_pos rfl

end

/-! ### VLD -/

/-- Little-endian bytes are elements of 8 bits. -/
theorem leNat_eq_packNat (l : List Byte) : leNat l = packNat 8 (l.map BitVec.toNat) := by
  induction l with
  | nil => rfl
  | cons b l ih =>
    change b.toNat + 256 * leNat l = b.toNat % 2 ^ 8 + 2 ^ 8 * packNat 8 (l.map BitVec.toNat)
    rw [ih, Nat.mod_eq_of_lt b.isLt]
    rfl

/-- Byte `i` of a vector that is read from 128 bytes of memory. -/
theorem ofNat_fld_memBytes (m : SMap Byte) (a : Nat) {i : Nat} (hi : i < 128) :
    BitVec.ofNat 8 (fld (BitVec.ofNat 1024 (leNat (memBytes m a 128))) (8 * i) 8) = memByte m (a + i) := by
  have hpack : BitVec.ofNat 1024 (leNat (memBytes m a 128)) = packV 8 ((memBytes m a 128).map BitVec.toNat) :=
    congrArg (BitVec.ofNat 1024) (leNat_eq_packNat _)
  rw [hpack, fld_packV _ _ _ (by simp [memBytes])]
  apply BitVec.eq_of_toNat_eq
  simpa [memBytes, List.getD, hi] using (memByte m (a + i)).isLt

section
variable {s : State} {o : SlotOp}

/-- A ready slot that leaves the chip as it found it, but for its core. -/
theorem exec_slot_both {i : SlotOp → Instr} {f : Form} {sem : Slot → SlotRes} {k : Core}
    (hexec : exec (i o) s = slotCmd f sem o s) (hready : s.slotReady f o = true)
    (hsem : sem (s.slotView f o) = .both (s.gx.entered o) k) (hops : k.ops = (s.slotCore o).ops) :
    exec (i o) s = .next (s.slotNext o k) := by
  have hk : ({ k with next := o.slot.toNat + 1, ops := (s.slotCore o).ops } : Core) = { k with next := o.slot.toNat + 1 } := by
    rw [← hops]
  rw [hexec, slotCmd_ready sem hready, hsem, State.slotNext, ← hk]
  rfl

end

/-- A read of memory that clashes with nothing gives its bytes, and changes nothing. -/
theorem Glexon.busRead_eq {g : Glexon} {self : Option (Nat × Nat)} {a n : Nat} (h : g.clash self false a n = false) :
    g.busRead self a n = (memBytes g.mem a n, g) := if_neg (by simp [h])

/-- VLD of the own SRAM, neither poisoned nor in an engine operation's reach. -/
theorem semVld_own {x : Slot} (halign : x.ea % 128 = 0) (hown : addrKind x.ea = .sram x.n) (hclean : x.gx.poisoned x.ea 128 = false)
    (hclash : x.gx.clash none false x.ea 128 = false) : semVld x = .both x.gx (x.send 5 (.v x.o.d.toNat
      (BitVec.ofNat 1024 (leNat (memBytes x.gx.mem x.ea 128))) (laneMask x.mask))) := by
  rw [semVld, Slot.own128_own _ halign hown, if_neg (by simp [hclean]), Glexon.busRead_eq hclash]

/-! ### VST -/

/-- What VST stores: the bytes of the executing lanes, each at its place. -/
def laneStores (a : Nat) (m : BitVec 32) (v : VReg) : List (Nat × List Byte) :=
  ((elems 32 v).zipIdx.filter fun p => bit m p.2).map fun p => (a + 4 * p.2, leBytes 4 p.1)

theorem mem_laneStores {a : Nat} {m : BitVec 32} {v : VReg} {x : Nat × List Byte} :
    x ∈ laneStores a m v ↔ ∃ i < 32, bit m i = true ∧ x = (a + 4 * i, leBytes 4 (fld v (32 * i) 32)) := by
  have hlane (e i : Nat) : (e, i) ∈ (elems 32 v).zipIdx ↔ i < 32 ∧ e = fld v (32 * i) 32 := by
    rw [List.mem_zipIdx_iff_getElem?]
    by_cases hi : i < 32
    · simp [elems_getElem? 32 v i hi, hi, eq_comm]
    · simp [elems, hi]
  simp only [laneStores, List.mem_map, List.mem_filter, Prod.exists, hlane]
  constructor
  · rintro ⟨e, i, ⟨⟨hi, rfl⟩, hm⟩, rfl⟩
    exact ⟨i, hi, hm, rfl⟩
  · rintro ⟨i, hi, hm, rfl⟩
    exact ⟨_, i, ⟨⟨hi, rfl⟩, hm⟩, rfl⟩

/-- Settles O33: the checks of R224, then one read, or one store of the executing lanes. -/
theorem vectorLoadsAndStores : Obligations.VectorLoadsAndStores := by
  rintro s o a rfl
  refine ⟨fun hready => ⟨fun halign => ?_, fun halign hmapped hother => ?_, fun halign hown hclean hclash => ?_⟩,
    fun hready => ⟨fun halign => ?_, fun halign hown => ?_⟩⟩
  · exact exec_slot_fault rfl hready (Slot.own128_misaligned _ halign)
  · exact exec_slot_fault rfl hready (Slot.own128_elsewhere _ halign hmapped hother)
  · exact ⟨_, exec_slot_both rfl hready (semVld_own halign hown hclean hclash) rfl, fun i hi => ofNat_fld_memBytes _ _ hi⟩
  · exact exec_slot_fault rfl hready (Slot.own128_misaligned _ halign)
  · exact ⟨laneStores _ _ _, exec_slot_core rfl hready (Slot.own128_own _ halign hown), fun x => mem_laneStores⟩

end Sys2Proof.Machine
end

section
/-! PROOFS. A failed self-check in a Glexon that lists its core twice (R253, R255): the barrier takes the second listing. -/

namespace Sys2Proof.Machine

/-- Core 0 is listed twice, which the canonical form of a sparse map excludes and a state does not: its self-check is due, and the
second listing, which no read finds, stands joined in the barrier set. -/
def twiceListed : State :=
  { bm := Bumas.reset, pending := []
    gx := { Glexon.reset with
      sysRstN := true, corePwrOk := true
      cores := [(0, { check := true, pc := 1 }), (0, { phase := .joined, inSet := true })] } }

/-- A known-answer check that failed in unit 0. -/
def failedCheck : CheckFail := { unit := 0, idx := 0 }

/-- The failed check aborts the core, whose first listing leaves the barrier set; the set then holds the second listing alone, which
has joined, so the barrier is complete, and core 0 reads as dozing. -/
theorem exec_selfCheck_twiceListed : ∃ t, exec (.selfCheck 0 (some failedCheck)) twiceListed = .next t ∧
    (t.gx.core 0).phase = .dozing :=
  ⟨_, rfl, by decide +kernel⟩

/-- Refutes O38: it has a core whose self-check fails aborted in every state, and in one that lists the core twice the barrier that
follows the abort (R253) puts it into DOZE. -/
theorem not_coresEnterCheckAndWithdraw : ¬ Obligations.CoresEnterCheckAndWithdraw := by
  intro h
  obtain ⟨-, hcheck, -⟩ := h twiceListed 0 (by decide) (by decide)
  obtain ⟨-, hfail⟩ := hcheck (by decide +kernel) (by decide +kernel)
  obtain ⟨t, hexec, haborted, -⟩ := hfail failedCheck
  obtain ⟨u, hexec', hdozing⟩ := exec_selfCheck_twiceListed
  rw [hexec'] at hexec
  injection hexec with htu
  subst htu
  exact absurd (haborted.symm.trans hdozing) (by decide)

end Sys2Proof.Machine
end

section
/-! PROOFS. The operations of a core's own engines enter their queue (R232, R233, R236, R237; Table 8.1). -/

namespace Sys2Proof.Machine

/-- IMM[8:5] has room in the four bits of a matrix engine's number. -/
theorem Slot.engine_toNat (x : Slot) : x.engine.toNat = fld x.o.imm 5 4 := by
  rw [Slot.engine, BitVec.toNat_ofNat]
  exact Nat.mod_eq_of_lt (Nat.mod_lt _ (by decide))

/-- Neither end of a range of memory is a register. -/
theorem memRange_ends_ne_csr {a n : Nat} (hn : n ≠ 0) (h : memRange a n = true) :
    addrKind a ≠ .csr ∧ addrKind (a + n - 1) ≠ .csr := by
  simp only [memRange, hn, decide_false, Bool.false_or, Bool.and_eq_true] at h
  obtain ⟨⟨hfirst, hlast⟩, -⟩ := h
  exact ⟨addrKind_ne_csr_of_isMem hfirst, addrKind_ne_csr_of_isMem hlast⟩

/-! ### Operands and ranges that are allowed (R236, R237) -/

section
variable {x : Slot}

/-- MMA on an audit core, in a pair of formats, with both operands in place. -/
theorem semMma_allowed (hn : x.n < 8) (hkq : fld x.o.imm 20 12 ≠ 0)
    (hfmt : fmtPair (fld x.o.imm 12 4) (fld x.o.imm 16 4) = true) (haligna : x.ga.toNat % 128 = 0) (halignb : x.gb.toNat % 128 = 0)
    (howna : inOwnSram x.n x.ga.toNat (mmaBytes (fld x.o.imm 12 4) (16 * fld x.o.imm 20 12)
      (cfgBlock (x.k.netSlot (fld x.o.imm 5 4) (fld x.o.imm 9 2)))) = true)
    (hownb : inOwnSram x.n x.gb.toNat (mmaBytes (fld x.o.imm 16 4) (16 * fld x.o.imm 20 12)
      (cfgBlock (x.k.netSlot (fld x.o.imm 5 4) (fld x.o.imm 9 2)))) = true) :
    semMma x = x.enqueue (.matrix x.engine) (.mma (x.o.d.toNat % 8) x.ga.toNat x.gb.toNat (fld x.o.imm 20 12) (fld x.o.imm 12 4)
      (fld x.o.imm 16 4) (bit x.o.imm 11) (fld x.o.imm 9 2)) := by
  rw [← x.engine_toNat] at howna hownb
  have hoperands : ¬ (8 ≤ x.n ∨ fld x.o.imm 20 12 = 0 ∨ fmtPair (fld x.o.imm 12 4) (fld x.o.imm 16 4) = false) := by
    simp [hkq, hfmt, Nat.not_le.2 hn]
  exact (if_neg hoperands).trans ((Slot.range_allowed _ haligna howna).trans (Slot.range_allowed _ halignb hownb))

/-- TLD on an audit core, its source in place. -/
theorem semTld_allowed (hn : x.n < 8) (halign : x.ga.toNat % 128 = 0) (hown : inOwnSram x.n x.ga.toNat 32768 = true) :
    semTld x = x.enqueue (.matrix x.engine) (.tld (x.o.d.toNat % 8) x.ga.toNat (bit x.o.imm 9)) :=
  (if_neg (Nat.not_le.2 hn)).trans (Slot.range_allowed _ halign hown)

/-- TST on an audit core, in one of its four forms, its destination in place. -/
theorem semTst_allowed (hn : x.n < 8) (hout : fld x.o.imm 9 3 ≤ 3) (halign : x.ga.toNat % 128 = 0)
    (hown : inOwnSram x.n x.ga.toNat (tstBytes (fld x.o.imm 9 3)) = true) :
    semTst x = x.enqueue (.matrix x.engine) (.tst (x.o.d.toNat % 8) x.ga.toNat (fld x.o.imm 9 3)) :=
  (if_neg (by omega)).trans (Slot.range_allowed _ halign hown)

/-- ACCNET.CFG on an audit core, the configuration in place. -/
theorem semAccnet_allowed (hn : x.n < 8) (halign : x.ga.toNat % 64 = 0) (hown : inOwnSram x.n x.ga.toNat 64 = true) :
    semAccnet x = x.enqueue (.matrix x.engine) (.accnet x.ga.toNat (fld x.o.imm 9 2)) :=
  (if_neg (Nat.not_le.2 hn)).trans (Slot.range_allowed _ halign hown)

/-- DMA between the own SRAM and memory. -/
theorem semDma_allowed (toFar : Bool) (h : dmaAllowed x.k x.o = true) (hn : x.n = x.o.core.toNat) :
    semDma toFar x = x.enqueue .dma (.dma x.ga.toNat x.gb.toNat (64 * fld x.o.imm 8 24) toFar) := by
  simp only [dmaAllowed, Bool.and_eq_true, decide_eq_true_eq] at h
  obtain ⟨⟨⟨⟨⟨hpos, hmax⟩, haligna⟩, halignb⟩, hown⟩, hfar⟩ := h
  rw [← hn] at hown
  have hcsr : ¬ (addrKind x.gb.toNat = .csr ∨ addrKind (x.gb.toNat + 64 * fld x.o.imm 8 24 - 1) = .csr) :=
    not_or.2 (memRange_ends_ne_csr (by omega) hfar)
  calc semDma toFar x
    _ = _ := if_neg (by omega)
    _ = _ := Slot.range_allowed _ haligna hown
    _ = _ := if_neg (not_not.2 halignb)
    _ = _ := if_neg hcsr
    _ = _ := if_neg ((Bool.not_eq_false _).mpr hfar)

/-- VPROG of 1 to 4,096 words on a vector engine 1 to 3 of a model core, the program in place. -/
theorem semVprog_allowed (hn : 8 ≤ x.n) (hpos : 1 ≤ fld x.o.imm 16 16) (hmax : fld x.o.imm 16 16 ≤ 4096) (he : fld x.o.imm 5 2 ≠ 0)
    (halign : x.ga.toNat % 8 = 0) (hown : inOwnSram x.n x.ga.toNat (8 * fld x.o.imm 16 16) = true) :
    semVprog x = x.enqueue (.vector (BitVec.ofNat 2 (fld x.o.imm 5 2))) (.vprog x.ga.toNat (fld x.o.imm 16 16)) :=
  (if_neg (by omega)).trans (Slot.range_allowed _ halign hown)

end

/-! ### The rows of Table 8.1 -/

/-- Where its operands are allowed, the command enters this queue with this operation. -/
structure EntersWhere (i : SlotOp → Instr) (f : Form) (q : Core → SlotOp → EngQueue) (kind : Core → SlotOp → EngKind)
    (allowed : Core → SlotOp → Bool) : Prop where
  acts : ∃ sem : Slot → SlotRes, (∀ o s, exec (i o) s = slotCmd f sem o s) ∧ ∀ (s : State) (o : SlotOp),
    allowed (s.slotCore o) o = true →
      sem (s.slotView f o) = (s.slotView f o).enqueue (q (s.slotCore o) o) (kind (s.slotCore o) o)

theorem EntersWhere.enters {i : SlotOp → Instr} {f : Form} {q : Core → SlotOp → EngQueue} {kind : Core → SlotOp → EngKind}
    {allowed : Core → SlotOp → Bool} (h : EntersWhere i f q kind allowed) (s : State) (o : SlotOp) (hready : s.slotReady f o = true)
    (hallowed : allowed (s.slotCore o) o = true) : s.Enters o (i o) (q (s.slotCore o) o) (kind (s.slotCore o) o) := by
  obtain ⟨sem, hexec, hsem⟩ := h.acts
  exact enters_of_enqueue (hexec o s) hready (hsem s o hallowed)

/-- Settles O34: every row of Table 8.1 enqueues its operation where its operands and ranges are allowed. -/
theorem engineOperationsEnterTheirQueue : Obligations.EngineOperationsEnterTheirQueue := by
  intro row hrow
  have henters : EntersWhere row.1 row.2.1 row.2.2.1 row.2.2.2.1 row.2.2.2.2 := by
    revert row
    simp only [List.forall_mem_cons]
    refine ⟨?mma, ?tld, ?tst, ?accnet, ?toLocal, ?toFar, ?vprog, List.forall_mem_nil _⟩
    case toLocal => exact ⟨_, fun _ _ => rfl, fun _ _ h => semDma_allowed false h rfl⟩
    case toFar => exact ⟨_, fun _ _ => rfl, fun _ _ h => semDma_allowed true h rfl⟩
    all_goals
      refine ⟨_, fun _ _ => rfl, fun s o h => ?_⟩
      simp only [Bool.and_eq_true, decide_eq_true_eq] at h
    case mma =>
      obtain ⟨⟨⟨⟨⟨⟨hn, hkq⟩, hfmt⟩, haligna⟩, halignb⟩, howna⟩, hownb⟩ := h
      exact semMma_allowed hn hkq hfmt haligna halignb howna hownb
    case tld =>
      obtain ⟨⟨hn, halign⟩, hown⟩ := h
      exact semTld_allowed hn halign hown
    case tst =>
      obtain ⟨⟨⟨hn, hout⟩, halign⟩, hown⟩ := h
      exact semTst_allowed hn hout halign hown
    case accnet =>
      obtain ⟨⟨hn, halign⟩, hown⟩ := h
      exact semAccnet_allowed hn halign hown
    case vprog =>
      obtain ⟨⟨⟨⟨⟨hn, hpos⟩, hmax⟩, he⟩, halign⟩, hown⟩ := h
      exact semVprog_allowed hn hpos hmax he halign hown
  exact henters.enters

end Sys2Proof.Machine
end

section
/-! PROOFS. Engine operations begin and complete: their effect, and the end of the operation with its tag's status (R232, R234, R238,
R241 to R246). -/

namespace Sys2Proof.Machine

/-! ### The oldest operation of a core, and its end (R232, R233) -/

/-- The core when its oldest operation has ended: the others are left, and its tag has a status. -/
def Core.ended (k : Core) (p : EngOp) (rest : List EngOp) (st : BitVec 2) : Core :=
  { k with ops := rest, tags := SMap.put 0 k.tags p.tag st }

theorem Core.get_tags_ended (k : Core) (p : EngOp) (rest : List EngOp) (st : BitVec 2) :
    SMap.get 0 (k.ended p rest st).tags p.tag = st := SMap.get_put_same _ _ _ _

/-- An operation at the head of the list that has begun is the oldest of its queue. -/
theorem Core.oldest_head {k : Core} {p : EngOp} {rest : List EngOp} (hops : k.ops = p :: rest) (hbegun : p.begun = true) :
    k.oldest p.q = some (0, p) := by
  simp [Core.oldest, hops, List.findIdx?_cons, hbegun]

section
variable {g : Glexon} {n : Nat} {p : EngOp} {rest : List EngOp}

theorem Glexon.core_modCore_same (g : Glexon) (n : Nat) (f : Core → Core) : (g.modCore n f).core n = f (g.core n) :=
  g.core_setCore_same n _

/-- Ending the operation at the head leaves the others. -/
theorem Glexon.core_endOp_head (hops : (g.core n).ops = p :: rest) (st : BitVec 2) :
    (g.endOp n 0 st).core n = (g.core n).ended p rest st := by
  rw [Glexon.endOp, Glexon.core_modCore_same, hops]
  rfl

/-- So it does after a change of the core that keeps its operations. -/
theorem Glexon.core_modCore_endOp_head (f : Core → Core) (hops : (f (g.core n)).ops = p :: rest) (st : BitVec 2) :
    ((g.modCore n f).endOp n 0 st).core n = (f (g.core n)).ended p rest st := by
  rw [Glexon.core_endOp_head (by rw [Glexon.core_modCore_same, hops]), Glexon.core_modCore_same]

end

section
variable (g : Glexon)

@[simp] theorem Glexon.core_count (cls unit ev n m : Nat) : (g.count cls unit ev n).core m = g.core m :=
  Glexon.core_congr (Glexon.count_cores ..) m

/-- A read that the SEC-DED code passes leaves no mark (R183). -/
theorem Glexon.eccRead_ok (a : Nat) : g.eccRead a .ok = g := by
  unfold Glexon.eccRead
  split <;> rfl

end

/-- An operation that nothing overlapped delivers its bytes, and the poison of the granules that they cover whole ends (R183). -/
theorem Glexon.deliver_clean {g : Glexon} {n a : Nat} {o : EngOp} {l : List Byte} (hspoilt : o.spoilt = false)
    (hclash : g.clash (some (n, o.tag)) true a l.length = false) : g.deliver n o a l false = (g.memPut a l).heal a l.length := by
  simp [Glexon.deliver, hspoilt, Glexon.busWrite_eq _ _ _ _ hclash]

/-- Bytes written to memory leave the core as it was, before its operation ends. -/
theorem Glexon.core_memPut_endOp_head {g : Glexon} {n : Nat} {p : EngOp} {rest : List EngOp} (hops : (g.core n).ops = p :: rest)
    (a m : Nat) (l : List Byte) (st : BitVec 2) : (((g.memPut a l).heal a m).endOp n 0 st).core n = (g.core n).ended p rest st :=
  Glexon.core_endOp_head (g := (g.memPut a l).heal a m) hops st

/-! ### A DMA begins (R234, R244) -/

/-- With no bundle open there is none to close. -/
theorem Glexon.settle_of_closed {g : Glexon} {n : Nat} (h : (g.core n).isOpen = false) : g.settle n = g :=
  if_neg (by simp [h])

/-- The DMA as it has begun: it holds its source bytes, and whether they are poisoned. -/
def EngOp.begunWith (p : EngOp) (data : List Byte) (bad : Bool) : EngOp := { p with begun := true, data := data, bad := bad }

/-- A read that nothing overlaps gathers its bytes. -/
theorem Glexon.gather_one {g : Glexon} {n : Nat} {o : EngOp} {a len : Nat} (hclash : g.clash (some (n, o.tag)) false a len = false) :
    g.gather n o [(a, len)] = (memBytes g.mem a len, g.poisoned a len, g) := by
  simp [Glexon.gather, Glexon.busRead_eq hclash]

/-- A DMA at the head of the list begins with its source's bytes. -/
theorem Glexon.engineBegin_dma {g : Glexon} {n : Nat} {p : EngOp} {rest : List EngOp} {loc far len : Nat} {toFar : Bool}
    (hopen : (g.core n).isOpen = false) (hops : (g.core n).ops = p :: rest) (hq : p.q = .dma) (hkind : p.kind = .dma loc far len toFar)
    (hwaits : p.begun = false) (hclash : g.clash (some (n, p.tag)) false (if toFar then loc else far) len = false) :
    g.engineBegin n .dma = g.setCore n { (g.core n) with
      ops := p.begunWith (memBytes g.mem (if toFar then loc else far) len) (g.poisoned (if toFar then loc else far) len) :: rest } := by
  have hfirst : (g.core n).ops.findIdx? (fun o => o.q = .dma && !o.begun) = some 0 := by
    simp [hops, List.findIdx?_cons, hq, hwaits]
  have hhead : (g.core n).ops[0]? = some p := by rw [hops]; rfl
  have hmay : ¬ ((g.core n).mayBegin 0 p = false ∨ g.soloBusy .dma = true) := by simp [Core.mayBegin, Glexon.soloBusy]
  have hreads : (g.core n).opReads { p with begun := true } = [(if toFar then loc else far, len)] := by
    simp only [Core.opReads, hkind]
    cases toFar <;> rfl
  have hgather := Glexon.gather_one (o := { p with begun := true }) hclash
  simp only [Glexon.engineBegin, Glexon.settle_of_closed hopen, hfirst, hhead, if_neg hmay, hreads, hgather, Glexon.modCore]
  rw [hops]
  rfl

/-- A DMA at the head of the list, with no bundle open, takes its source's bytes and changes nothing else. -/
theorem exec_engineOpBegin_dma {s : State} {core : BitVec 5} {p : EngOp} {rest : List EngOp} {loc far len : Nat} {toFar : Bool}
    (hup : s.gx.coreUp = true) (hopen : (s.gx.core core.toNat).isOpen = false) (hops : (s.gx.core core.toNat).ops = p :: rest)
    (hq : p.q = .dma) (hkind : p.kind = .dma loc far len toFar) (hwaits : p.begun = false)
    (hclash : s.gx.clash (some (core.toNat, p.tag)) false (if toFar then loc else far) len = false) :
    exec (.engineOpBegin core .dma) s = .next { s with
      gx := s.gx.setCore core.toNat { (s.gx.core core.toNat) with
        ops := p.begunWith (memBytes s.gx.mem (if toFar then loc else far) len)
          (s.gx.poisoned (if toFar then loc else far) len) :: rest } } := by
  refine (onCore_runs _ s hup : execEngineOpBegin core .dma s = _).trans ?_
  dsimp only
  rw [Glexon.engineBegin_dma hopen hops hq hkind hwaits hclash]

/-! ### Residue faults (R243) -/

section
variable (g : Glexon) (n e : Nat)

@[simp] theorem Glexon.residueFault_mem : (g.residueFault n e).mem = g.mem := by
  simp [Glexon.residueFault]

/-- A residue fault keeps the core's operations and tags. -/
theorem Glexon.residueFault_core : ((g.residueFault n e).core n).ops = (g.core n).ops ∧
    ((g.residueFault n e).core n).tags = (g.core n).tags := by
  simp only [Glexon.residueFault, Glexon.core_count, Glexon.core_congr (Glexon.event_cores ..), Glexon.core_modCore_same]
  exact ⟨rfl, rfl⟩

/-- An event that finds room in the FIFO is there. -/
theorem Glexon.exists_event (code : Nat) (args : List Word) (h : g.events.length < 256) :
    ∃ x ∈ (g.event code n args).events, x.code = code ∧ x.agent = n := by
  obtain ⟨-, -, x, hevents, hcode, hagent, -⟩ := g.event_room code n args h
  exact ⟨x, hevents ▸ List.mem_append_right _ List.mem_cons_self, hcode, hagent⟩

/-- A residue fault is reported where the FIFO has room. -/
theorem Glexon.residueFault_event (h : g.events.length < 256) :
    ∃ x ∈ (g.residueFault n e).events, x.code = 0x0522 ∧ x.agent = n := by
  rw [Glexon.residueFault, Glexon.count_events]
  exact Glexon.exists_event _ _ _ _ h

end

/-! ### DMA, tile and configuration operations complete (R241, R242, R244) -/

/-- The oldest operation of core `core`, at the head of its list, has begun, read no poison and was not overlapped. -/
structure State.HeadReady (s : State) (core : BitVec 5) (p : EngOp) (rest : List EngOp) : Prop where
  up     : s.gx.coreUp = true
  ops    : (s.gx.core core.toNat).ops = p :: rest
  begun  : p.begun = true
  clean  : p.bad = false
  whole  : p.spoilt = false

section
variable {s : State} {core : BitVec 5} {p : EngOp} {rest : List EngOp} (hp : s.HeadReady core p rest)
include hp

theorem State.HeadReady.oldest : (s.gx.core core.toNat).oldest p.q = some (0, p) := Core.oldest_head hp.ops hp.begun

/-- A DMA puts its bytes at its destination. -/
theorem exec_dmaComplete_ok {loc far len : Nat} {toFar : Bool} (hq : p.q = .dma) (hkind : p.kind = .dma loc far len toFar)
    (hclash : s.gx.clash (some (core.toNat, p.tag)) true (if toFar then far else loc) p.data.length = false) :
    exec (.dmaComplete core .ok) s = .next { s with
      gx := ((s.gx.memPut (if toFar then far else loc) p.data).heal (if toFar then far else loc) p.data.length).endOp
        core.toNat 0 0 } := by
  have hold := hq ▸ hp.oldest
  refine (onCore_runs _ s hp.up : execDmaComplete core .ok s = _).trans ?_
  simp [hold, hkind, hp.clean, Glexon.eccRead_ok, Glexon.deliver_clean hp.whole hclash]

/-- TLD replaces its tile. -/
theorem exec_tileOpComplete_tld {e : BitVec 4} {t a : Nat} {isInt : Bool} (hq : p.q = .matrix e) (hkind : p.kind = .tld t a isInt) :
    exec (.tileOpComplete core e) s = .next { s with
      gx := (s.gx.modCore core.toNat fun k =>
        k.setTile e.toNat t (.known isInt ((chunks 8 4096 p.data).map fun l => word (leNat l))) false).endOp core.toNat 0 0 } := by
  have hold := hq ▸ hp.oldest
  refine (onCore_runs _ s hp.up : execTileOpComplete core e s = _).trans ?_
  simp [hold, hkind, hp.clean, hp.whole]

/-- TST writes its tile. -/
theorem exec_tileOpComplete_tst {e : BitVec 4} {t a out : Nat} (hq : p.q = .matrix e) (hkind : p.kind = .tst t a out)
    (hclash : s.gx.clash (some (core.toNat, p.tag)) true a p.data.length = false) :
    exec (.tileOpComplete core e) s = .next { s with
      gx := ((s.gx.memPut a p.data).heal a p.data.length).endOp core.toNat 0 0 } := by
  have hold := hq ▸ hp.oldest
  refine (onCore_runs _ s hp.up : execTileOpComplete core e s = _).trans ?_
  simp [hold, hkind, hp.clean, Glexon.deliver_clean hp.whole hclash]

/-- ACCNET.CFG writes its configuration slot. -/
theorem exec_tileOpComplete_accnet {e : BitVec 4} {a net : Nat} (hq : p.q = .matrix e) (hkind : p.kind = .accnet a net) :
    exec (.tileOpComplete core e) s = .next { s with
      gx := (s.gx.modCore core.toNat fun k => { k with slots := SMap.put [] k.slots (4 * e.toNat + net) p.data }).endOp
        core.toNat 0 0 } := by
  have hold := hq ▸ hp.oldest
  refine (onCore_runs _ s hp.up : execTileOpComplete core e s = _).trans ?_
  simp [hold, hkind, hp.clean, hp.whole]

/-! ### An MMA completes (R238, R243) -/

/-- An MMA with ZERO = 1 replaces its tile by its result. -/
theorem exec_mmaComplete_ok {e : BitVec 4} {t a b kq fa fb net : Nat} (hq : p.q = .matrix e)
    (hkind : p.kind = .mma t a b kq fa fb true net) :
    exec (.mmaComplete core e false) s = .next { s with
      gx := (s.gx.modCore core.toNat fun k =>
        k.setTile e.toNat t (mmaTile p ((s.gx.core core.toNat).tile e.toNat t)) false).endOp core.toNat 0 0 } := by
  have hold := hq ▸ hp.oldest
  refine (onCore_runs _ s hp.up : execMmaComplete core e false s = _).trans ?_
  simp [hold, hkind, hp.clean, hp.whole]

/-- With a residue mismatch its tile is left unspecified, its tag takes RESIDUE, and the fault is counted and reported. -/
theorem exec_mmaComplete_residue {e : BitVec 4} {t a b kq fa fb net : Nat} (hq : p.q = .matrix e)
    (hkind : p.kind = .mma t a b kq fa fb true net) :
    exec (.mmaComplete core e true) s = .next { s with
      gx := ((s.gx.fresh.2.modCore core.toNat fun k => k.setTile e.toNat t (.free s.gx.freeN) false).endOp core.toNat 0 1).residueFault
        core.toNat e.toNat } := by
  have hold := hq ▸ hp.oldest
  refine (onCore_runs _ s hp.up : execMmaComplete core e true s = _).trans ?_
  simp [hold, hkind, hp.clean, Glexon.fresh]

end

end Sys2Proof.Machine
end

section
/-! PROOFS. A vector program of a single VMOV (R246), and the Digest Unit's operations (R245, R294 to R296, R308), complete. -/

namespace Sys2Proof.Machine

/-! ### A vector program of one VMOV (R246) -/

/-- VMOV v`d`, v`c` under p0, as a vector program's word. -/
def vmovWord (d c : Nat) : Nat := 0xA8 * 2 ^ 56 + d * 2 ^ 50 + c * 2 ^ 44

section
variable {d c : Nat} (hd : d < 32) (hc : c < 32)
include hd hc

theorem vmovWord_lt : vmovWord d c < 2 ^ 64 := by
  unfold vmovWord
  omega

/-- The fields of the word: the opcode, D and A; B, C and IMM are 0. -/
theorem vmovWord_fields : fldN (vmovWord d c) 56 8 = 0xA8 ∧ fldN (vmovWord d c) 50 6 = d ∧ fldN (vmovWord d c) 44 6 = c ∧
    fldN (vmovWord d c) 38 6 = 0 ∧ fldN (vmovWord d c) 32 6 = 0 ∧ fldN (vmovWord d c) 0 32 = 0 := by
  simp only [fldN, vmovWord, Nat.shiftRight_eq_div_pow]
  omega

end

/-- Little-endian bytes hold a number that fits them (R13). -/
theorem leNat_leBytes (n v : Nat) (h : v < 256 ^ n) : leNat (leBytes n v) = v := by
  induction n generalizing v with
  | zero => simp_all [leBytes, leNat]
  | succ n ih =>
    rw [leBytes, leNat, ih _ (Nat.div_lt_of_lt_mul (by rwa [Nat.pow_succ'] at h)), BitVec.toNat_ofNat]
    omega

/-- A program of one word is that word. -/
theorem words_one {v : Nat} (h : v < 2 ^ 64) : (chunks 8 4096 (leBytes 8 v)).map leNat = [v] := by
  have hv : leNat (leBytes 8 v) = v := leNat_leBytes 8 v h
  simpa [chunks, leBytes] using hv

/-- With nothing on its way nothing lands. -/
theorem VRun.land_nothing {r : VRun} (h : r.k.flight = []) (self : Nat × Nat) (cyc : Nat) : r.land self cyc = r := by
  obtain ⟨g, k, t, gds, fail⟩ := r
  cases k
  simp_all [VRun.land]

/-- A vector result that is due lands in its register. -/
theorem VRun.land_v {r : VRun} {f : Flight} {d : Nat} {v m : VReg} (h : r.k.flight = [f]) (heff : f.eff = .v d v m) {cyc : Nat}
    (hdue : f.due ≤ cyc) (self : Nat × Nat) : r.land self cyc = { r with k := ({ r.k with flight := [] } : Core).setV d v m } := by
  simp [VRun.land, h, hdue, Nat.not_lt.2 hdue, heff]

/-- The mask of p0 is all ones (R203). -/
theorem Core.mask_zero (k : Core) : k.mask 0#6 = BitVec.allOnes 32 := rfl

/-- VMOV sends its source to its destination, in every lane. -/
theorem VRun.step_vmov {r : VRun} {d c : Nat} (hd : d < 32) (hc : c < 32) (hfail : r.fail = none) (hflight : r.k.flight = [])
    (n : Nat) (self : Nat × Nat) : VRun.step n self r (vmovWord d c) = { r with
      cyc := r.cyc + 1
      k := ({ r.k with cyc := r.cyc } : Core).send 2 1 (.v d (r.k.rv c) (laneMask (BitVec.allOnes 32))) } := by
  obtain ⟨hop, hfd, hfa, hfb, hfc, himm⟩ := vmovWord_fields hd hc
  have hd6 : d % 64 = d := Nat.mod_eq_of_lt (by omega)
  have hc6 : c % 64 = c := Nat.mod_eq_of_lt (by omega)
  have hsem : vectorOp 0xA8 0 = some (fV2 0xA8 0, semVmov) := rfl
  simp only [VRun.step, hfail, VRun.land_nothing hflight, hop, hfd, hfa, hfb, hfc, himm, hsem]
  simp [fV2, Fld.legal, Form.legal, Core.mask_zero, semVmov, Slot.bitsE, Slot.send, Slot.va, hd6, hc6, hd, hc]
  rfl

/-- A write under a full mask replaces all. -/
theorem merge_allOnes {n : Nat} (old new : BitVec n) : merge old new (BitVec.allOnes n) = new := by
  simp [merge]

/-- A vector register written in every lane holds what was written. -/
theorem Core.setV_allLanes (k : Core) (d : Nat) (v : VReg) :
    k.setV d v (laneMask (BitVec.allOnes 32)) = { k with v := SMap.put 0 k.v d v } := by
  rw [Core.setV, laneMask_allOnes, merge_allOnes]

/-- The run of a program of one VMOV, from registers with nothing on its way: the engine's register is copied. -/
theorem VRun.run_vmov {r : VRun} {l : List Byte} {d c : Nat} (hd : d < 32) (hc : c < 32) (hl : l = leBytes 8 (vmovWord d c))
    (hfail : r.fail = none) (hflight : r.k.flight = []) (hcyc : r.cyc < 10000) (n : Nat) (self : Nat × Nat) :
    (((chunks 8 4096 l).map leNat).foldl (VRun.step n self) r).land self 10000 = { r with
      cyc := r.cyc + 1
      k := { r.k with cyc := r.cyc, flight := [], v := SMap.put 0 r.k.v d (r.k.rv c) } } := by
  have hsent : (({ r.k with cyc := r.cyc } : Core).send 2 1 (.v d (r.k.rv c) (laneMask (BitVec.allOnes 32)))).flight =
      [{ due := r.cyc + 1, sent := r.cyc, slot := 2, eff := .v d (r.k.rv c) (laneMask (BitVec.allOnes 32)) }] := by
    rw [Core.send, hflight, insFlight]
  rw [hl, words_one (vmovWord_lt hd hc), List.foldl_cons, List.foldl_nil, VRun.step_vmov hd hc hfail hflight,
    VRun.land_v hsent rfl hcyc self, Core.setV_allLanes]
  rfl

/-- The engine's registers with one copied to another. -/
def VecEngine.copied (ve : VecEngine) (d c : Nat) : VecEngine := { ve with v := SMap.put 0 ve.v d (SMap.get 0 ve.v c) }

theorem VecEngine.get_copied (ve : VecEngine) (d c : Nat) : SMap.get 0 (ve.copied d c).v d = SMap.get 0 ve.v c :=
  SMap.get_put_same _ _ _ _

/-- A vector program of core `n` on engine `e` as it starts: the engine's own registers, and the `g` registers of its issue. -/
def Glexon.vprogStart (g : Glexon) (n e : Nat) (p : EngOp) : VRun :=
  { g := g, cyc := 0, gds := [], fail := none
    k := { g := p.gs, v := (SMap.get {} (g.core n).vecs e).v, p := (SMap.get {} (g.core n).vecs e).p, ops := (g.core n).ops } }

/-- The engine's register is copied, and the operation ends. -/
theorem exec_vprogComplete_vmov {s : State} {core : BitVec 5} {p : EngOp} {rest : List EngOp} (hp : s.HeadReady core p rest)
    {e : BitVec 2} {d c : Nat} (hq : p.q = .vector e) (hd : d < 32) (hc : c < 32) (hdata : p.data = leBytes 8 (vmovWord d c)) :
    exec (.vprogComplete core e) s = .next { s with
      gx := (s.gx.modCore core.toNat fun k =>
        { k with vecs := SMap.put {} k.vecs e.toNat ((SMap.get {} (s.gx.core core.toNat).vecs e.toNat).copied d c) }).endOp
          core.toNat 0 0 } := by
  have hold := hq ▸ hp.oldest
  have hrun := VRun.run_vmov (r := s.gx.vprogStart core.toNat e.toNat p) hd hc hdata rfl rfl (Nat.zero_lt_succ _) core.toNat
    (core.toNat, p.tag)
  unfold Glexon.vprogStart at hrun
  have hflags (w : Word) : w ||| 0 = w := BitVec.or_zero
  refine (onCore_runs _ s hp.up : execVprogComplete core e s = _).trans ?_
  simp only [hold, hp.clean, hrun, hflags]
  rfl

/-! ### The Digest Unit (R294 to R296, R308) -/

/-- A descriptor whose fields hold every rule of Table 10.6 for the operation of this code. -/
structure DigestDescOk (code : Nat) (d : List Byte) : Prop where
  len_pos  : 1 ≤ leAt d 8 4
  len_le   : leAt d 8 4 ≤ 16777216
  zeros13  : zeros d 13 16 = true
  zeros52  : zeros d 52 64 = true
  m61      : code % 16 = 3 → leAt d 16 8 < 2 ^ 61 ∧ 5 ≤ leAt d 12 1 ∧ leAt d 12 1 ≤ 8 ∧ leAt d 8 4 % m61Width (leAt d 12 1) = 0

/-- The descriptor as it is written back: the digest and the status (Table 10.6). -/
def digestDesc (code : Nat) (d : List Byte) (v : Nat) : List Byte :=
  d.take 40 ++ leBytes 8 v ++ leBytes 4 (if code < 16 ∨ v = leAt d 32 8 then 0 else 1) ++ d.drop 52

theorem length_digestDesc {d : List Byte} (h : d.length = 64) (code v : Nat) : (digestDesc code d v).length = 64 := by
  simp [digestDesc, length_leBytes, h]

/-- Writing the digest's field and then the status is writing them both. -/
theorem setW_putAt_digest {d : List Byte} (h : d.length = 64) (v st : Nat) :
    setW (putAt d 40 (leBytes 8 v)) 48 st = d.take 40 ++ leBytes 8 v ++ leBytes 4 st ++ d.drop 52 := by
  have hfront : (d.take 40 ++ leBytes 8 v).length = 48 := by simp [length_leBytes, h]
  have htake : (d.take 40 ++ leBytes 8 v ++ d.drop 48).take 48 = d.take 40 ++ leBytes 8 v := List.take_left' hfront
  have hdrop : (d.take 40 ++ leBytes 8 v ++ d.drop 48).drop 52 = d.drop 52 := by
    rw [List.drop_append, hfront, List.drop_eq_nil_of_le (by omega), List.drop_drop, List.nil_append]
  rw [setW, putAt, putAt, length_leBytes, length_leBytes, htake, hdrop]

/-- A read of clean memory that nothing overlaps gives its bytes. -/
theorem EngCtx.read_clean {c : EngCtx} {g : Glexon} {a len : Nat} (hecc : c.ecc = .ok) (hclean : g.poisoned a len = false)
    (hclash : g.clash (some (c.n, c.o.tag)) false a len = false) : c.read g a len = (memBytes g.mem a len, false, g) := by
  simp [EngCtx.read, hecc, hclean, Glexon.busRead_eq hclash, Glexon.eccRead_ok]

/-- The Digest Unit digests what such a descriptor names. -/
theorem dgOp_ok {c : EngCtx} {code : Nat} {d : List Byte} {g : Glexon} (hon : bit (g.rd Reg.DG_CTRL) 63 = true)
    (hok : DigestDescOk code d) (hd : d.length = 64) (hmem : memRange (leAt d 0 8) (leAt d 8 4) = true)
    (hread : c.read g (leAt d 0 8) (leAt d 8 4) = (memBytes g.mem (leAt d 0 8) (leAt d 8 4), false, g)) :
    dgOp c code d g = { g := g, rd := leAt d 8 4
                        desc := digestDesc code d (digestOf code d (memBytes g.mem (leAt d 0 8) (leAt d 8 4))) } := by
  obtain ⟨hpos, hle, hz13, hz52, hm61⟩ := hok
  have hfields : ¬ (leAt d 8 4 = 0 ∨ 16777216 < leAt d 8 4 ∨ zeros d 13 16 = false ∨ zeros d 52 64 = false ∨
      (decide (code % 16 = 3) = true ∧ 2 ^ 61 ≤ leAt d 16 8)) := by
    simp only [hz13, hz52, decide_eq_true_eq, Bool.true_eq_false, false_or]
    omega
  have hformat : ¬ (decide (code % 16 = 3) = true ∧ (leAt d 12 1 < 5 ∨ 8 < leAt d 12 1)) := by
    simp only [decide_eq_true_eq]
    omega
  have hwhole : ¬ (decide (code % 16 = 3) = true ∧ leAt d 8 4 % m61Width (leAt d 12 1) ≠ 0) := by
    simp only [decide_eq_true_eq]
    rintro ⟨hcode, hrest⟩
    obtain ⟨-, -, -, hwhole⟩ := hm61 hcode
    exact hrest hwhole
  unfold dgOp
  rw [if_neg (by simp [hon]), if_neg hfields, if_neg hformat, if_neg hwhole, if_neg (by simp [hmem]), hread]
  simp [setW_putAt_digest hd, digestDesc]

/-- An operation of the Digest Unit with such a descriptor writes it back with the digest, and ends. -/
theorem exec_xopComplete_digest {s : State} {core : BitVec 5} {p : EngOp} {rest : List EngOp} (hp : s.HeadReady core p rest)
    {a code : Nat} (hq : p.q = .shared 2) (hkind : p.kind = .xop a code) (hlen : p.data.length = 64)
    (hon : bit (s.gx.rd Reg.DG_CTRL) 63 = true) (hok : DigestDescOk code p.data)
    (hmem : memRange (leAt p.data 0 8) (leAt p.data 8 4) = true) (hclean : s.gx.poisoned (leAt p.data 0 8) (leAt p.data 8 4) = false)
    (hread : s.gx.clash (some (core.toNat, p.tag)) false (leAt p.data 0 8) (leAt p.data 8 4) = false)
    (hwrite : s.gx.clash (some (core.toNat, p.tag)) true a 64 = false) {d : List Byte}
    (hd : d = digestDesc code p.data (digestOf code p.data (memBytes s.gx.mem (leAt p.data 0 8) (leAt p.data 8 4)))) :
    exec (.xopComplete core 2 .ok) s = .next { s with
      gx := ((((s.gx.memPut a d).heal a 64).endOp core.toNat 0 0).count 2 2 3 (leAt p.data 8 4)).count 2 2 4 0 } := by
  have hold := hq ▸ hp.oldest
  have hdlen : d.length = 64 := hd ▸ length_digestDesc hlen _ _
  have hdg := dgOp_ok (c := { n := core.toNat, o := p, ecc := .ok }) hon hok hlen hmem (EngCtx.read_clean rfl hclean hread)
  have hdeliver := Glexon.deliver_clean (g := s.gx) (a := a) (l := d) hp.whole (hdlen.symm ▸ hwrite)
  rw [← hd] at hdg
  refine (onCore_runs _ s hp.up : execXopComplete core 2 .ok s = _).trans ?_
  simp only [hold, hkind]
  simp [hp.clean, List.take_of_length_le hlen.le, hdg, EngCtx.write, hdeliver, hdlen]

/-! ### Engine operations complete -/

/-- Settles O36: each operation's effect on the chip, and the end of the operation at the head of its core's list. -/
theorem engineOperationsComplete : Obligations.EngineOperationsComplete := by
  refine ⟨fun s core p rest hup hops => ⟨?dmaBegin, ?dma, ?tld, ?tst, ?accnet⟩,
    fun s core p rest hup hops hbegun hbad hspoilt => ⟨?mma, ?vprog⟩, ?digest⟩
  case dmaBegin =>
    intro loc far len toFar hq hkind hwaits hopen hclash
    exact ⟨_, exec_engineOpBegin_dma hup hopen hops hq hkind hwaits hclash, rfl, rfl, congrArg Core.ops (Glexon.core_setCore_same ..)⟩
  case dma =>
    intro loc far len toFar hq hkind hbegun hbad hspoilt hclash
    refine ⟨_, exec_dmaComplete_ok ⟨hup, hops, hbegun, hbad, hspoilt⟩ hq hkind hclash, rfl, ?_⟩
    rw [Glexon.core_memPut_endOp_head hops]
    exact ⟨rfl, Core.get_tags_ended .., rfl, rfl⟩
  case tld =>
    intro e t a isInt hq hkind hbegun hbad hspoilt
    refine ⟨_, exec_tileOpComplete_tld ⟨hup, hops, hbegun, hbad, hspoilt⟩ hq hkind, rfl, ?_⟩
    rw [Glexon.core_modCore_endOp_head _ hops]
    exact ⟨rfl, SMap.get_put_same _ _ _ _, fun f i hother => SMap.get_put_other _ _ _ _ _ hother, rfl⟩
  case tst =>
    intro e t a out hq hkind hbegun hbad hspoilt hclash
    refine ⟨_, exec_tileOpComplete_tst ⟨hup, hops, hbegun, hbad, hspoilt⟩ hq hkind hclash, rfl, ?_, rfl⟩
    rw [Glexon.core_memPut_endOp_head hops]
    rfl
  case accnet =>
    intro e a net hq hkind hbegun hbad hspoilt
    refine ⟨_, exec_tileOpComplete_accnet ⟨hup, hops, hbegun, hbad, hspoilt⟩ hq hkind, rfl, ?_⟩
    rw [Glexon.core_modCore_endOp_head _ hops]
    exact ⟨rfl, SMap.get_put_same _ _ _ _, rfl⟩
  case mma =>
    intro e t a b kq fa fb net hq hkind
    have hp : s.HeadReady core p rest := ⟨hup, hops, hbegun, hbad, hspoilt⟩
    refine ⟨⟨_, exec_mmaComplete_ok hp hq hkind, rfl, rfl, ?_⟩, ⟨_, exec_mmaComplete_residue hp hq hkind, ?_⟩⟩
    · rw [Glexon.core_modCore_endOp_head _ hops]
      exact ⟨rfl, Core.get_tags_ended .., SMap.get_put_same _ _ _ _⟩
    · rw [Glexon.residueFault_mem, (Glexon.residueFault_core ..).1, (Glexon.residueFault_core ..).2,
        Glexon.core_modCore_endOp_head _ hops]
      exact ⟨rfl, rfl, Core.get_tags_ended .., fun hroom => Glexon.residueFault_event _ _ _ hroom⟩
  case vprog =>
    intro e a d c hq _ hd hc hdata
    refine ⟨_, exec_vprogComplete_vmov ⟨hup, hops, hbegun, hbad, hspoilt⟩ hq hd hc hdata, rfl, ?_⟩
    rw [Glexon.core_modCore_endOp_head _ hops]
    refine ⟨rfl, ?_⟩
    rw [Core.ended, SMap.get_put_same, VecEngine.get_copied]
  case digest =>
    intro s core p rest a code len v hup hops hq hkind hbegun hbad hspoilt hlen _ hon hl hpos hle hz13 hz52 hm61 hmem hclean hread
      hwrite hv
    subst hl hv
    have hp : s.HeadReady core p rest := ⟨hup, hops, hbegun, hbad, hspoilt⟩
    refine ⟨_, exec_xopComplete_digest hp hq hkind hlen hon ⟨hpos, hle, hz13, hz52, hm61⟩ hmem hclean hread hwrite rfl, rfl, ?_⟩
    rw [Glexon.core_count, Glexon.core_count, Glexon.core_memPut_endOp_head hops, Glexon.count_regs, Glexon.count_regs,
      Glexon.count_mem, Glexon.count_mem]
    exact ⟨rfl, rfl, Core.get_tags_ended .., rfl⟩

end Sys2Proof.Machine
end

section
/-! PROOFS. What leaves the apex's and the scorer's tables with age, and the check of a model image (R337, R352, R358, R375, R376). -/

namespace Sys2Proof.Machine

/-! ### Instances (R337) -/

/-- Instances whose first data tick lies INST_TIMEOUT ticks back close: the others stay, in order. -/
theorem exec_instanceTimeout {s : State} (hup : s.gx.coreUp = true) :
    exec .instanceTimeout s = .next { s with
      gx := s.gx.closeInst 2 fun i =>
        decide (i.since.toNat + max 1 (fld (s.gx.rd Reg.RE_CTRL) 32 16) ≤ s.gx.tk.tickNo.toNat) } :=
  (onCore_runs _ s hup : execInstanceTimeout s = _)

/-! ### Model images (R358) -/

section

variable (g : Glexon) (k : Nat) (m : ModelSlot)

/-- A slot that is replaced reads as its replacement. -/
theorem Glexon.modelSlot_setSlot (code : Nat) : (g.setSlot k m code).modelSlot k = m := SMap.get_put_same _ _ _ _

/-- The low byte of the slot's status register is the rule that failed. -/
theorem Glexon.setSlot_stat {code : Nat} (h : code < 256) : fld ((g.setSlot k m code).rd (Reg.ES_MODEL_STAT k)) 0 8 = code := by
  simp only [Glexon.setSlot, Glexon.rd_wr_same, fld, fldN, word, BitVec.toNat_ofNat, Nat.shiftRight_zero]
  omega

/-- A write of a slot leaves the addresses of the images alone. -/
theorem Glexon.setSlot_rd_addr (code j : Nat) : (g.setSlot k m code).rd (Reg.ES_MODEL_ADDR j) = g.rd (Reg.ES_MODEL_ADDR j) :=
  Glexon.rd_wr_other _ _ _ _ (by simp only [Reg.ES_MODEL_ADDR, Reg.ES_MODEL_STAT]; omega)

/-- Table 12.4 has eight rules. -/
theorem Glexon.modelCheckCode_le (a : Nat) : g.modelCheckCode a ≤ 8 := by
  unfold Glexon.modelCheckCode
  dsimp only
  split_ifs <;> omega

end

/-- A check that completes makes the image the next model of its slot, or shows the rule that failed, with an event. -/
theorem exec_modelCheckDone {s : State} {k : BitVec 4} {a : Nat} (hup : s.gx.coreUp = true)
    (hcheck : (s.gx.modelSlot k.toNat).check = some a) :
    exec (.modelCheckDone k) s = .next { s with
      gx := if s.gx.modelCheckCode a = 0 then
          s.gx.setSlot k.toNat { (s.gx.modelSlot k.toNat) with
            check := none, next := some (Model.ofBytes (memBytes s.gx.mem a (memNat s.gx.mem (a + 20) 4))) } 0
        else (s.gx.setSlot k.toNat { (s.gx.modelSlot k.toNat) with check := none } (s.gx.modelCheckCode a)).event 0x0530 25
          [word k.toNat, word (s.gx.modelCheckCode a)] } := by
  refine (onCore_runs _ s hup : execModelCheckDone k s = _).trans ?_
  simp only [hcheck]

/-! ### Decode rings (R375) -/

/-- The decode rings with each die's pairs that still count. -/
def Glexon.liveRings (g : Glexon) : SMap (List DecPair) :=
  (List.range 64).foldl (fun m p => SMap.put [] m p (g.ringLive p)) g.es.dec

/-- Each of the 64 dies is taken once. -/
theorem Glexon.get_liveRings (g : Glexon) {p : Nat} (hp : p < 64) : SMap.get [] g.liveRings p = g.ringLive p :=
  SMap.get_foldl_put [] (g.ringLive p) (fun p => p) g.ringLive (List.range 64) g.es.dec (.inl ⟨p, List.mem_range.2 hp, rfl⟩)
    fun _ _ hq => congrArg g.ringLive hq

/-- Each die's ring keeps the pairs that still count, and nothing else changes. -/
theorem exec_decodePairExpire {s : State} (hup : s.gx.coreUp = true) :
    exec .decodePairExpire s = .next { s with
      gx := { s.gx with es := { s.gx.es with dec := s.gx.liveRings } } } :=
  (onCore_runs _ s hup : execDecodePairExpire s = _)

/-- Settles O40: the filters of each table, and the two outcomes of a model check. -/
theorem instancesModelsAndItemsExpire : Obligations.InstancesModelsAndItemsExpire := by
  intro s hup
  refine ⟨⟨_, exec_instanceTimeout hup, ?young, rfl, rfl, rfl⟩, ?check, ?done,
    ⟨_, (onCore_runs _ s hup : execInv s = _), rfl, ?inv, rfl⟩, ⟨_, exec_decodePairExpire hup, ?rings, rfl, rfl, rfl⟩,
    (onCore_runs _ s hup : execItemExpire s = _)⟩
  case young =>
    refine List.filter_congr fun i _ => ?_
    rw [← decide_not, decide_eq_decide, Nat.not_le]
  case check =>
    intro k a
    refine ⟨_, (onCore_runs _ s hup : execModelCheck k a s = _), Glexon.modelSlot_setSlot .., ?_, rfl⟩
    exact (Glexon.setSlot_rd_addr ..).trans (Glexon.rd_wr_same ..)
  case done =>
    intro k a hcheck
    refine ⟨_, exec_modelCheckDone hup hcheck, ?_⟩
    by_cases hcode : s.gx.modelCheckCode a = 0
    · simp only [if_pos hcode]
      exact ⟨fun _ => Glexon.modelSlot_setSlot .., fun h => absurd hcode h, rfl⟩
    · simp only [if_neg hcode]
      refine ⟨fun h => absurd h hcode, fun _ => ⟨?_, ?_⟩, Glexon.event_mem ..⟩
      · rw [Glexon.modelSlot, Glexon.event_es]
        exact Glexon.modelSlot_setSlot ..
      · rw [Glexon.rd_event _ _ _ _ _ (by simp only [Reg.ES_MODEL_STAT, Reg.MG_EVR_STAT]; omega)]
        exact Glexon.setSlot_stat _ _ _ ((s.gx.modelCheckCode_le a).trans_lt (by decide))
  case inv =>
    exact (congrArg (bit · 62) (Glexon.rd_wr_same ..)).trans (bit_putBit_same _ _ (by decide))
  case rings =>
    intro p hp
    simp only [Glexon.get_liveRings _ hp]

end Sys2Proof.Machine
end

section
/-! PROOFS. Stale Amber frames leave their queues, and a queue pair with no operation has none to abandon (R397, R435). -/

namespace Sys2Proof.Machine

/-! ### The queues of a port (R397) -/

section

variable (e : Egress)

theorem Egress.q_setQ_same (i : Nat) (x : EgressQ) : (e.setQ i x).q i = x := SMap.get_put_same _ _ _ _

theorem Egress.q_setQ_other {i j : Nat} (x : EgressQ) (h : j ≠ i) : (e.setQ i x).q j = e.q j := SMap.get_put_other _ _ _ _ _ h

/-- A queue without its frames. -/
def Egress.emptyQ (q : Nat) : Egress := e.setQ q { e.q q with frames := [] }

/-- A port without the frames of its Amber queues. -/
def Egress.dropAmber : Egress := [2, 3, 4, 5].foldl Egress.emptyQ e

/-- Queues that are not emptied stay as they are. -/
theorem Egress.q_foldl_emptyQ (l : List Nat) {q : Nat} (h : q ∉ l) : (l.foldl Egress.emptyQ e).q q = e.q q := by
  induction l generalizing e with
  | nil => rfl
  | cons i l ih =>
    obtain ⟨hi, hl⟩ := not_or.1 (List.mem_cons.not.1 h)
    exact (ih _ hl).trans (e.q_setQ_other _ hi)

/-- A queue that is emptied holds no frame. -/
theorem Egress.frames_foldl_emptyQ (l : List Nat) {q : Nat} (h : q ∈ l ∨ (e.q q).frames = []) :
    ((l.foldl Egress.emptyQ e).q q).frames = [] := by
  induction l generalizing e with
  | nil => simpa using h
  | cons i l ih =>
    by_cases hi : q = i
    · exact ih _ (.inr (by rw [hi, Egress.emptyQ, Egress.q_setQ_same]))
    · exact ih _ (by rw [Egress.emptyQ, e.q_setQ_other _ hi]; simpa [hi] using h)

end

/-! ### The ports (R397) -/

section

variable (g : Glexon)

/-- The number of Amber frames that wait at a port. -/
def Glexon.staleAt (p : Nat) : Nat := ([2, 3, 4, 5].map fun q => ((g.egress p).q q).frames.length).sum

/-- The Amber frames of a port are discarded and counted. -/
def Glexon.dropStale (n : Nat → Nat) (p : Nat) : Glexon :=
  ((g.count 6 p 9 (n p)).setEgress p (g.egress p).dropAmber).bump (Reg.TS_STALE p) (n p)

theorem Glexon.egress_dropStale_same (n : Nat → Nat) (p : Nat) : (g.dropStale n p).egress p = (g.egress p).dropAmber :=
  SMap.get_put_same _ _ _ _

theorem Glexon.egress_dropStale_other (n : Nat → Nat) {p j : Nat} (h : j ≠ p) : (g.dropStale n p).egress j = g.egress j := by
  refine (SMap.get_put_other _ _ _ _ _ h).trans ?_
  rw [Glexon.count_ts]
  rfl

theorem Glexon.dropStale_mem (n : Nat → Nat) (p : Nat) : (g.dropStale n p).mem = g.mem := Glexon.count_mem ..

theorem Glexon.dropStale_rm (n : Nat → Nat) (p : Nat) : (g.dropStale n p).rm = g.rm := Glexon.count_rm ..

/-- Each port of a list loses its Amber frames; the others keep theirs. -/
theorem Glexon.egress_foldl_dropStale (n : Nat → Nat) (l : List Nat) (hnd : l.Nodup) (j : Nat) :
    (l.foldl (Glexon.dropStale · n) g).egress j = if j ∈ l then (g.egress j).dropAmber else g.egress j := by
  induction l generalizing g with
  | nil => rfl
  | cons p l ih =>
    obtain ⟨hp, hl⟩ := List.nodup_cons.1 hnd
    rw [List.foldl_cons, ih _ hl]
    by_cases hj : j = p
    · rw [hj, if_neg hp, if_pos List.mem_cons_self, Glexon.egress_dropStale_same]
    · simp only [Glexon.egress_dropStale_other _ _ hj, List.mem_cons, hj, false_or]

/-- A port where no Amber frame waits has none in any Amber queue. -/
theorem Glexon.frames_of_staleAt {p : Nat} (h : g.staleAt p = 0) : ∀ q ∈ [2, 3, 4, 5], ((g.egress p).q q).frames = [] := by
  intro q hq
  exact List.length_eq_zero_iff.1 (List.sum_eq_zero_iff.1 h _ (List.mem_map_of_mem hq))

/-! ### Queue pairs without operations (R435) -/

/-- No queue pair has an operation outstanding. -/
def Glexon.NoOps : Prop := ∀ q, (g.qp q).ops = []

/-- What the end of a queue pair's operations leaves alone if there are none: memory and the egress side. -/
structure Glexon.StaysIdle (h : Glexon) : Prop where
  noOps : h.NoOps
  mem   : h.mem = g.mem
  ts    : h.ts = g.ts

end

section

variable {g h : Glexon}

theorem Glexon.noOps_of_listed (hl : ∀ e ∈ g.rm.qps, e.2.ops = []) : g.NoOps := by
  intro q
  by_cases hq : g.qp q = {}
  · rw [hq]
  · exact hl _ (SMap.mem_of_get_ne _ _ _ hq)

/-- A change of a queue pair that adds no operation. -/
theorem Glexon.NoOps.modQp (hg : g.NoOps) (q : Nat) {f : Qp → Qp} (hf : ∀ x, x.ops = [] → (f x).ops = []) : (g.modQp q f).NoOps := by
  intro i
  by_cases hi : i = q
  · rw [hi]
    exact (congrArg Qp.ops (SMap.get_put_same _ _ _ _)).trans (hf _ (hg q))
  · exact (congrArg Qp.ops (SMap.get_put_other _ _ _ _ _ hi)).trans (hg i)

/-- No operation completes, and a queue pair in DRAIN goes to RESET. -/
theorem Glexon.NoOps.rmFlush (hg : g.NoOps) (q : Nat) : g.StaysIdle (g.rmFlush q) := by
  unfold Glexon.rmFlush
  extract_lets x fin g1 g2
  have hfin : fin = [] := congrArg (List.takeWhile _) (hg q)
  have hg2 : g2 = g1 := by rw [show g2 = List.foldl _ g1 fin from rfl, hfin, List.foldl_nil]
  have hg1 : g1.NoOps := hg.modQp q fun x hx => congrArg (List.dropWhile _) hx
  rw [hg2]
  split
  · exact ⟨Glexon.NoOps.modQp (g := g1.wr _ _) hg1 q (f := fun _ => {}) fun _ _ => rfl, rfl, rfl⟩
  · exact ⟨hg1, rfl, rfl⟩

/-- Nothing is abandoned. -/
theorem Glexon.NoOps.amberExpire (hg : g.NoOps) (q : Nat) : g.StaysIdle (g.amberExpire q) := by
  have hflush (f : Qp → Qp) (hf : ∀ x, x.ops = [] → (f x).ops = []) : g.StaysIdle ((g.modQp q f).rmFlush q) := by
    obtain ⟨hops, hmem, hts⟩ := (hg.modQp q hf).rmFlush q
    exact ⟨hops, hmem, hts⟩
  exact hflush _ fun x hx => congrArg (List.map _) hx

/-- Nothing is abandoned in any of a list of queue pairs. -/
theorem Glexon.NoOps.foldl_amberExpire (l : List Nat) (hg : g.NoOps) :
    g.StaysIdle (l.foldl (fun h q => if h.qpAmber q then h.amberExpire q else h) g) := by
  induction l generalizing g with
  | nil => exact ⟨hg, rfl, rfl⟩
  | cons q l ih =>
    have hstep : g.StaysIdle (if g.qpAmber q then g.amberExpire q else g) := by
      split
      · exact hg.amberExpire q
      · exact ⟨hg, rfl, rfl⟩
    obtain ⟨hops, hmem, hts⟩ := ih hstep.noOps
    exact ⟨hops, hmem.trans hstep.mem, hts.trans hstep.ts⟩

end

/-- At the boundary the Amber queues of every port are empty, and its other queues are as they were. -/
theorem exec_amberStaleDiscard {s : State} (hup : s.gx.coreUp = true) (hl : ∀ e ∈ s.gx.rm.qps, e.2.ops = []) :
    ∃ t, exec .amberStaleDiscard s = .next t ∧ t.gx.mem = s.gx.mem ∧ ∀ p < 8,
      t.gx.egress p = s.gx.egress p ∧ s.gx.staleAt p = 0 ∨ t.gx.egress p = (s.gx.egress p).dropAmber := by
  refine ⟨_, (onCore_runs _ s hup : execAmberStaleDiscard s = _), ?_⟩
  extract_lets stale ports g1 g2
  have hg1 : g1 = ports.foldl (Glexon.dropStale · s.gx.staleAt) s.gx := rfl
  have hmem1 : g1.mem = s.gx.mem := hg1 ▸ foldl_keep Glexon.mem _ (fun h p => h.dropStale_mem _ p) _ _
  have hrm1 : g1.rm = s.gx.rm := hg1 ▸ foldl_keep Glexon.rm _ (fun h p => h.dropStale_rm _ p) _ _
  have hports (p : Nat) : p ∈ ports ↔ p < 8 ∧ s.gx.staleAt p ≠ 0 := by
    rw [← List.mem_range, ← decide_eq_true_iff (p := s.gx.staleAt p ≠ 0)]
    exact List.mem_filter
  have hegress (p : Nat) := hg1 ▸ s.gx.egress_foldl_dropStale s.gx.staleAt ports (List.nodup_range.filter _) p
  have hg2 : g2.mem = g1.mem ∧ g2.rm = g1.rm ∧ g2.ts = g1.ts := by
    unfold g2
    split
    · exact ⟨rfl, rfl, rfl⟩
    · exact ⟨Glexon.event_mem .., Glexon.event_rm .., Glexon.event_ts ..⟩
  obtain ⟨hmem2, hrm2, hts2⟩ := hg2
  have hno : g2.NoOps := Glexon.noOps_of_listed (by rw [hrm2, hrm1]; exact hl)
  obtain ⟨-, hmem3, hts3⟩ := hno.foldl_amberExpire (g2.rm.qps.map Prod.fst)
  refine ⟨hmem3.trans (hmem2.trans hmem1), fun p hp => ?_⟩
  rw [Glexon.egress, hts3, hts2, ← Glexon.egress, hegress]
  by_cases hstale : s.gx.staleAt p = 0
  · exact .inl ⟨if_neg fun hin => ((hports p).1 hin).2 hstale, hstale⟩
  · exact .inr (if_pos ((hports p).2 ⟨hp, hstale⟩))

end Sys2Proof.Machine
end

section
/-! PROOFS. Pulls: how one starts, and a tick that is not in the ring (R344 to R346). -/

namespace Sys2Proof.Machine

/-- An entry of the pull queue that a pull may start from (Table 11.13): 1 to 262,144 ticks, classes 0, 1 and 3,
and the reserved bytes 0. -/
structure PullEntryOk (d : List Byte) : Prop where
  len_pos : 1 ≤ leAt d 8 4
  len_le  : leAt d 8 4 ≤ 262144
  class2  : (leAt d 24 1).testBit 2 = false
  classes : leAt d 24 1 < 16
  zeros12 : zeros d 12 16 = true
  zeros25 : zeros d 25 28 = true

/-- Such an entry fails none of the checks of a pull that starts. -/
theorem PullEntryOk.passes {d : List Byte} (h : PullEntryOk d) :
    ¬ (leAt d 8 4 = 0 ∨ 262144 < leAt d 8 4 ∨ (leAt d 24 1).testBit 2 = true ∨ 16 ≤ leAt d 24 1 ∨ zeros d 12 16 = false ∨
      zeros d 25 28 = false) := by
  obtain ⟨hpos, hle, hclass2, hclasses, hz12, hz25⟩ := h
  simp only [hclass2, hz12, hz25, Bool.false_eq_true, Bool.true_eq_false, false_or, or_false]
  omega

/-- The pull of an entry as it starts. -/
def pullOf (i q : Nat) (d : List Byte) : Pull :=
  { slot := i, tick := word (leAt d 0 8), left := leAt d 8 4, bytes := 0, miss := 0, full := false, qpn := q }

/-- A pull starts from the first valid entry: its STATUS shows that it runs. -/
theorem exec_pullStart {s : State} {i q : Nat} (hup : s.gx.coreUp = true) (hrole : s.gx.roleOn 0 = true) (hidle : s.gx.fl.pull = none)
    (hfirst : ((List.range 8).find? fun i => memNat s.gx.mem (s.gx.pullAt i + 60) 4 = 1) = some i)
    (hok : PullEntryOk (memBytes s.gx.mem (s.gx.pullAt i) 64)) (hq : s.gx.pullQpn i = some q) :
    exec .pullStart s = .next { s with
      gx := { s.gx with
        mem := memWrite s.gx.mem (s.gx.pullAt i + 48) (leBytes 4 1)
        fl := { s.gx.fl with pull := some (pullOf i q (memBytes s.gx.mem (s.gx.pullAt i) 64)) }
        rm := { s.gx.rm with pullQp := SMap.put 0 s.gx.rm.pullQp i 0 } } } := by
  have hruns : ¬ (s.gx.fl.pull.isSome ∨ s.gx.roleOn 0 = false) := by simp [hidle, hrole]
  refine (onCore_runs _ s hup : execPullStart s = _).trans ?_
  simp only [if_neg hruns, hfirst, if_neg hok.passes, hq]
  rfl

/-- The pull after a tick that is not in the ring. -/
def Pull.missed (p : Pull) : Pull := { p with tick := p.tick + 1, left := p.left - 1, miss := p.miss + 1, full := false }

/-- A pull that goes on, and has no write outstanding. -/
structure Glexon.Pulling (g : Glexon) (p : Pull) : Prop where
  pull  : g.fl.pull = some p
  ended : p.ended = false
  err   : p.err = 0
  ops   : (g.qp p.qpn).ops = []

/-- Such a pull does not end yet. -/
theorem Glexon.Pulling.pullCheck {g : Glexon} {p : Pull} (h : g.Pulling p) : g.pullCheck = g := by
  obtain ⟨hpull, hended, herr, hops⟩ := h
  simp [Glexon.pullCheck, hpull, hended, herr, hops]

/-- A tick that the ring's index does not show counts as missing, and no record of it is sent. -/
theorem exec_pullTick_missing {s : State} {p : Pull} (hup : s.gx.coreUp = true) (hp : s.gx.Pulling p) (hleft : 2 ≤ p.left)
    (hgone : memNat s.gx.mem ((s.gx.rd Reg.HM_RW_INDEX_BASE).toNat + 32 * (p.tick.toNat % 262144)) 8 ≠ p.tick.toNat) :
    exec .pullTick s = .next { s with gx := { s.gx with fl := { s.gx.fl with pull := some p.missed } } } := by
  obtain ⟨hpull, hended, herr, hops⟩ := hp
  have hnext : (s.gx.modFl fun f => { f with pull := some p.missed }).Pulling p.missed := ⟨rfl, hended, herr, hops⟩
  have hpieces : chunks 2097152 ((0 + 2097151) / 2097152) [] = [] := rfl
  refine (onCore_runs _ s hup : execPullTick s = _).trans ?_
  simpa [hpull, hended, herr, hops, hgone, hpieces, Nat.not_le.2 hleft, Pull.missed, Glexon.modFl] using hnext.pullCheck

end Sys2Proof.Machine
end

section
/-! PROOFS. A boot load whose queue pair cannot send fails at once (R436, R497). -/

namespace Sys2Proof.Machine

/-- The bytes of the phase that a boot load is in: of the image, or of the map. -/
def Glexon.bootLen (g : Glexon) : Nat := fld (g.rd (if g.rm.boot.image then Reg.RM_BOOT_IMGLEN else Reg.RM_BOOT_LEN)) 0 29

section

variable {g : Glexon}

/-- A bit of RM_BOOT_CTRL after a change of its low four. -/
theorem Glexon.bit_bootBits (set_ clr : Nat) {i : Nat} (h : i < 64) : bit ((g.bootBits set_ clr).rd Reg.RM_BOOT_CTRL) i =
    ((((g.rd Reg.RM_BOOT_CTRL).toNat % 16).testBit i || set_.testBit i) && (15 - clr).testBit i) := by
  rw [Glexon.bootBits, Glexon.rd_wr_same, bit, word, BitVec.getLsbD_ofNat, Nat.testBit_and, Nat.testBit_or, decide_eq_true h,
    Bool.true_and]

/-- Outside RTS a queue pair sends nothing. -/
theorem Glexon.rmRefuse_notRts {q : Nat} (h : g.qpState q ≠ 2) : g.rmRefuse q = 4 := if_pos (.inr (.inl h))

/-- A load that fails sets FAIL, clears BUSY and ends. -/
theorem Glexon.bootFail_busy (st : Nat) (h : g.rm.boot.busy = true) :
    bit ((g.bootFail st).rd Reg.RM_BOOT_CTRL) 3 = true ∧ bit ((g.bootFail st).rd Reg.RM_BOOT_CTRL) 0 = false ∧
    (g.bootFail st).rm.boot.busy = false ∧ (g.bootFail st).mem = g.mem ∧ (g.bootFail st).staged = g.staged := by
  unfold Glexon.bootFail
  rw [if_neg (by simp [h]), Glexon.rd_event _ _ _ _ _ (by decide), Glexon.bit_bootBits _ _ (by decide), Glexon.bit_bootBits _ _ (by decide),
    Glexon.event_rm, Glexon.event_mem, Glexon.event_staged]
  exact ⟨congrArg (· && _) (Bool.or_true _), Bool.and_false _, rfl, rfl, rfl⟩

/-- The first READ is refused, which ends the load: none is sent. -/
theorem Glexon.bootPump_refused (hbusy : g.rm.boot.busy = true) (hlen : g.rm.boot.next < g.bootLen) (hops : (g.qp 0).ops = [])
    (hst : g.qpState 0 ≠ 2) : g.bootPump = g.bootFail 4 := by
  obtain ⟨-, -, hended, -, -⟩ := Glexon.bootFail_busy 4 hbusy
  unfold Glexon.bootPump
  extract_lets total dest src mine g1
  have hfirst : ¬ (g.rm.boot.busy = false ∨ total ≤ g.rm.boot.next ∨ 16 ≤ ((g.qp 0).ops.filter mine).length) := by
    have : ¬ total ≤ g.rm.boot.next := Nat.not_le.2 hlen
    simp [hbusy, hops, this]
  have hg1 : g1 = g.bootFail 4 := by
    unfold g1
    rw [show List.range 16 = 0 :: List.range' 1 15 from rfl, List.foldl_cons]
    simp only [if_neg hfirst, Glexon.rmRefuse_notRts hst, ne_eq, OfNat.ofNat_ne_zero, not_false_eq_true, if_true]
    refine List.foldl_fixed' (fun _ => ?_) _
    exact if_pos (.inl hended)
  rw [hg1, if_neg (by simp [hended])]

/-- The state in which a phase of the load begins. -/
def Glexon.bootBegun (g : Glexon) (b : Boot) (clr : Nat) : Glexon := ({ g with rm := { g.rm with boot := b } }).bootBits 1 clr

/-- What a load that starts with queue pair 0 outside RTS leaves: FAIL, no longer BUSY, nothing read. -/
structure Glexon.BootFailed (g h : Glexon) : Prop where
  fail   : bit (h.rd Reg.RM_BOOT_CTRL) 3 = true
  idle   : bit (h.rd Reg.RM_BOOT_CTRL) 0 = false
  mem    : h.mem = g.mem
  staged : h.staged = g.staged

theorem Glexon.bootFailed_begun {b : Boot} (clr : Nat) (hbusy : b.busy = true) (hnext : b.next = 0)
    (hlen : 0 < fld (g.rd (if b.image then Reg.RM_BOOT_IMGLEN else Reg.RM_BOOT_LEN)) 0 29) (hops : (g.qp 0).ops = [])
    (hst : g.qpState 0 ≠ 2) : g.BootFailed (g.bootBegun b clr).bootPump := by
  have hrd {a : Nat} (h : a ≠ Reg.RM_BOOT_CTRL) : (g.bootBegun b clr).rd a = g.rd a := Glexon.rd_wr_other _ _ _ _ h
  have hbegun : (g.bootBegun b clr).rm.boot = b := rfl
  have hreg : (if b.image then Reg.RM_BOOT_IMGLEN else Reg.RM_BOOT_LEN) ≠ Reg.RM_BOOT_CTRL := by split <;> decide
  have hstate : (g.bootBegun b clr).qpState 0 = g.qpState 0 := congrArg (fld · 61 3) (hrd (by decide))
  rw [Glexon.bootPump_refused (g := g.bootBegun b clr) hbusy (by rwa [Glexon.bootLen, hbegun, hnext, hrd hreg]) hops (by rwa [hstate])]
  obtain ⟨hfail, hidle, -, hmem, hstaged⟩ := Glexon.bootFail_busy (g := g.bootBegun b clr) 4 hbusy
  exact ⟨hfail, hidle, hmem, hstaged⟩

theorem Glexon.bootMap_failed (hlen : 0 < fld (g.rd Reg.RM_BOOT_LEN) 0 29) (hops : (g.qp 0).ops = []) (hst : g.qpState 0 ≠ 2) :
    g.BootFailed g.bootMap := Glexon.bootFailed_begun 14 rfl rfl hlen hops hst

/-- The image's READs fail as the map's do; nothing is staged. -/
theorem Glexon.bootImage_failed (auto : Bool) (hlen : 0 < fld (g.rd Reg.RM_BOOT_IMGLEN) 0 29) (hops : (g.qp 0).ops = [])
    (hst : g.qpState 0 ≠ 2) :
    ({ g with staged := none, mg := { g.mg with imgOk := false } } : Glexon).BootFailed (g.bootImage auto) :=
  Glexon.bootFailed_begun 12 rfl rfl hlen hops hst

end

/-! ### The commands -/

section

variable {s : State} (hup : s.gx.coreUp = true) (hfw : s.gx.fwOn = true)

include hup hfw

theorem exec_bootLoadStart_fwOn : exec .bootLoadStart s = .next { s with gx := s.gx.bootMap } := by
  refine (onCore_runs _ s hup : execBootLoadStart s = _).trans ?_
  rw [if_pos hfw]

/-- A map that was refused is read again. -/
theorem exec_mapReread_refused (hmap : s.gx.mg.mapOk = false) (hidle : s.gx.rm.boot.busy = false) :
    exec .mapReread s = .next { s with gx := s.gx.bootMap } := by
  refine (onCore_runs _ s hup : execMapReread s = _).trans ?_
  rw [if_pos ⟨hfw, hmap, hidle⟩]

/-- Once the map is read, firmware has the image read that the map names. -/
theorem exec_bootImageRead_mapRead (hmap : s.gx.mg.mapOk = true) (hdone : bit (s.gx.rd Reg.RM_BOOT_CTRL) 1 = true)
    (hidle : s.gx.rm.boot.busy = false) : exec .bootImageRead s = .next { s with gx := s.gx.bootImage true } := by
  refine (onCore_runs _ s hup : execBootImageRead s = _).trans ?_
  rw [if_pos ⟨hfw, hmap, hdone, hidle⟩]

end

end Sys2Proof.Machine
end

section
/-! PROOFS. An image takes effect at its boundary: halves, bundle banks and registers (R472). -/

namespace Sys2Proof.Machine

/-! ### What the rest of a swap leaves alone -/

/-- The image in force, the one staged, the bundle banks, and the half in force. -/
def Glexon.imageView (g : Glexon) : Image × Option Image × SMap Word × Bool := (g.image, g.staged, g.code, g.mg.half)

section

variable (g : Glexon)

theorem Glexon.wr_imageView (a : Nat) (v : Word) : (g.wr a v).imageView = g.imageView := rfl

theorem Glexon.memPut_imageView (a : Nat) (l : List Byte) : (g.memPut a l).imageView = g.imageView := rfl

theorem Glexon.event_imageView (code agent : Nat) (args : List Word) : (g.event code agent args).imageView = g.imageView := by
  unfold Glexon.event
  dsimp only
  split <;> rfl

theorem Glexon.applySusp_imageView : g.applySusp.imageView = g.imageView := by
  unfold Glexon.applySusp
  dsimp only
  split
  · rfl
  · exact Glexon.event_imageView _ _ _ _

theorem Glexon.layPairs_imageView : g.layPairs.imageView = g.imageView := by
  refine foldl_keep Glexon.imageView _ (fun _ _ => ?_) _ _
  rw [Glexon.memPut_imageView, Glexon.memPut_imageView]

theorem Glexon.layPairs_regs : g.layPairs.regs = g.regs := by
  refine foldl_keep Glexon.regs _ (fun _ _ => ?_) _ _
  rw [Glexon.memPut_regs, Glexon.memPut_regs]

theorem Glexon.buDone_imageView (s : Nat) : (g.buDone s).imageView = g.imageView := by
  unfold Glexon.buDone
  split <;> rfl

theorem Glexon.buEnter_imageView (phase failed : Nat) : (g.buEnter phase failed).imageView = g.imageView := by
  unfold Glexon.buEnter
  split <;> rfl

theorem Glexon.applySusp_rd {a : Nat} (h0 : a ≠ Reg.MC_CTX_SUSP_0) (h1 : a ≠ Reg.MC_CTX_SUSP_1) (he : a ≠ Reg.MG_EVR_STAT) :
    g.applySusp.rd a = g.rd a := by
  have hwr (v w : Word) : ((g.wr Reg.MC_CTX_SUSP_0 v).wr Reg.MC_CTX_SUSP_1 w).rd a = g.rd a := by
    rw [Glexon.rd_wr_other _ _ _ _ h1, Glexon.rd_wr_other _ _ _ _ h0]
  unfold Glexon.applySusp
  dsimp only
  split
  · exact hwr _ _
  · rw [Glexon.rd_event _ _ _ _ _ he, hwr]

/-- What follows once the registers of the image are in force: the variant's suspensions, the slot pairs, the event, and bring-up. -/
def Glexon.swapTail (b : Word) : Glexon := (((g.applySusp.layPairs).event 0x0806 31 [b]).buDone 5).buEnter 5 0

theorem Glexon.swapTail_imageView (b : Word) : (g.swapTail b).imageView = g.imageView := by
  rw [Glexon.swapTail, Glexon.buEnter_imageView, Glexon.buDone_imageView, Glexon.event_imageView, Glexon.layPairs_imageView,
    Glexon.applySusp_imageView]

/-- The registers that it writes. -/
def swapTailRegs : List Nat :=
  [Reg.MC_CTX_SUSP_0, Reg.MC_CTX_SUSP_1, Reg.MG_EVR_STAT, Reg.MG_BU_TIME 5, Reg.MG_BU_STATE]

theorem Glexon.swapTail_rd (b : Word) {a : Nat} (h : a ∉ swapTailRegs) : (g.swapTail b).rd a = g.rd a := by
  simp only [swapTailRegs, List.mem_cons, List.not_mem_nil, or_false, not_or] at h
  obtain ⟨h0, h1, he, ht, hs⟩ := h
  rw [Glexon.swapTail, Glexon.rd_buEnter _ _ _ _ hs, Glexon.rd_buDone _ _ _ ht, Glexon.rd_event _ _ _ _ _ he,
    Glexon.rd_congr (Glexon.layPairs_regs _), Glexon.applySusp_rd _ h0 h1 he]

/-! ### The registers of an image -/

/-- The lengths of the cores' programs. -/
def Glexon.putLens (im : Image) : Glexon :=
  (List.range 24).foldl (fun (h : Glexon) n => h.wr (Reg.MC_PROG_LEN n) (word (SMap.get 0 im.lens n))) g

/-- The estimates of the Sepia lines. -/
def Glexon.putEsts (im : Image) : Glexon :=
  im.sepia.foldl (fun (h : Glexon) l => h.wr (Reg.EP_LINE l.line) (putFld (h.rd (Reg.EP_LINE l.line)) 32 32 l.est)) g

theorem Glexon.putLens_imageView (im : Image) : (g.putLens im).imageView = g.imageView := by
  refine foldl_keep Glexon.imageView _ (fun _ _ => ?_) _ _
  rfl

theorem Glexon.putEsts_imageView (im : Image) : (g.putEsts im).imageView = g.imageView := by
  refine foldl_keep Glexon.imageView _ (fun _ _ => ?_) _ _
  rfl

/-- Registers written one after another: each reads its value. -/
theorem Glexon.rd_foldl_wr (reg : Nat → Nat) (hreg : Function.Injective reg) (val : Nat → Word) (l : List Nat) {n : Nat}
    (h : n ∈ l ∨ g.rd (reg n) = val n) : (l.foldl (fun h n => h.wr (reg n) (val n)) g).rd (reg n) = val n := by
  induction l generalizing g with
  | nil => simpa using h
  | cons m l ih =>
    refine ih _ ?_
    by_cases hm : n = m
    · exact .inr (by rw [hm, Glexon.rd_wr_same])
    · rw [Glexon.rd_wr_other _ _ _ _ fun heq => hm (hreg heq)]
      simpa [hm] using h

theorem Glexon.putLens_rd (im : Image) {n : Nat} (h : n < 24) :
    (g.putLens im).rd (Reg.MC_PROG_LEN n) = word (SMap.get 0 im.lens n) :=
  g.rd_foldl_wr Reg.MC_PROG_LEN (fun a b hab => by simpa [Reg.MC_PROG_LEN] using hab) _ _ (.inl (List.mem_range.2 h))

/-- A register that is no EP_LINE keeps its value. -/
theorem Glexon.putEsts_rd (im : Image) {a : Nat} (h : ∀ l ∈ im.sepia, a ≠ Reg.EP_LINE l.line) : (g.putEsts im).rd a = g.rd a := by
  unfold Glexon.putEsts
  generalize im.sepia = ls at h
  induction ls generalizing g with
  | nil => rfl
  | cons l ls ih =>
    obtain ⟨hl, hls⟩ := List.forall_mem_cons.1 h
    exact (ih _ hls).trans (Glexon.rd_wr_other _ _ _ _ hl)

/-! ### The swap -/

/-- The staged half and the one in force change places. -/
def Glexon.swapHalves (im : Image) (b : Word) : Glexon := { g with
  image := im, staged := some g.image, code := im.words
  mg := { g.mg with half := !g.mg.half, imgOk := false, partAt := if b = 0 then g.mg.partAt else some b } }

/-- The Energy Planner forgets the estimates of the image before. -/
def Glexon.clearEsts : Glexon := { g with ep := { g.ep with ivory := none, est := [], clampAt := [] } }

/-- The HM region registers of an image, and MG_IMG_ACT cleared. -/
def Glexon.putHm (im : Image) : Glexon :=
  ((g.wr Reg.HM_RW_INDEX_BASE im.indexBase).wr Reg.HM_RW_PULLQ_BASE im.pullqBase).wr Reg.MG_IMG_ACT 0

theorem Glexon.swapHalves_imageView (im : Image) (b : Word) :
    (g.swapHalves im b).imageView = (im, some g.image, im.words, !g.mg.half) := rfl

theorem Glexon.clearEsts_imageView : g.clearEsts.imageView = g.imageView := rfl

theorem Glexon.clearEsts_rd (a : Nat) : g.clearEsts.rd a = g.rd a := rfl

theorem Glexon.putHm_imageView (im : Image) : (g.putHm im).imageView = g.imageView := rfl

theorem Glexon.putHm_rd (im : Image) {a : Nat} (hx : a ≠ Reg.HM_RW_INDEX_BASE) (hq : a ≠ Reg.HM_RW_PULLQ_BASE)
    (ha : a ≠ Reg.MG_IMG_ACT) : (g.putHm im).rd a = g.rd a := by
  rw [Glexon.putHm, Glexon.rd_wr_other _ _ _ _ ha, Glexon.rd_wr_other _ _ _ _ hq, Glexon.rd_wr_other _ _ _ _ hx]

theorem Glexon.putHm_rd_imgAct (im : Image) : (g.putHm im).rd Reg.MG_IMG_ACT = 0 := Glexon.rd_wr_same ..

end

section

variable {g : Glexon} {im : Image}

/-- While ticking no role announces itself, so a swap ends with its bring-up step. -/
theorem Glexon.imageSwap_ticking (b : Word) (htick : g.tk.ticking = true) (hstaged : g.staged = some im) :
    g.imageSwap b = (((((g.swapHalves im b).putLens im).clearEsts.putEsts im).putHm im).swapTail b) := by
  have htail : g.imageSwap b = ((((((g.swapHalves im b).putLens im).clearEsts.putEsts im).putHm im).swapTail b)).readyCheck := by
    unfold Glexon.imageSwap
    rw [hstaged]
    rfl
  have htk : ((((((g.swapHalves im b).putLens im).clearEsts.putEsts im).putHm im).swapTail b)).tk = g.tk := by
    rw [← Glexon.readyCheck_tk, ← htail, Glexon.imageSwap_tk]
  rw [htail, Glexon.readyCheck_ticking (by rw [htk]; exact htick)]

theorem Glexon.imageSwap_imageView (b : Word) (htick : g.tk.ticking = true) (hstaged : g.staged = some im) :
    (g.imageSwap b).imageView = (im, some g.image, im.words, !g.mg.half) := by
  rw [Glexon.imageSwap_ticking b htick hstaged, Glexon.swapTail_imageView, Glexon.putHm_imageView,
    Glexon.putEsts_imageView, Glexon.clearEsts_imageView, Glexon.putLens_imageView, Glexon.swapHalves_imageView]

theorem Glexon.imageSwap_rd_imgAct (b : Word) (htick : g.tk.ticking = true) (hstaged : g.staged = some im) :
    (g.imageSwap b).rd Reg.MG_IMG_ACT = 0 := by
  rw [Glexon.imageSwap_ticking b htick hstaged, Glexon.swapTail_rd (a := Reg.MG_IMG_ACT) _ _ (by decide),
    Glexon.putHm_rd_imgAct]

theorem Glexon.imageSwap_rd_progLen (b : Word) (htick : g.tk.ticking = true) (hstaged : g.staged = some im)
    (hlines : ∀ l ∈ im.sepia, l.line < 64) {n : Nat} (hn : n < 24) :
    (g.imageSwap b).rd (Reg.MC_PROG_LEN n) = word (SMap.get 0 im.lens n) := by
  have htail : Reg.MC_PROG_LEN n ∉ swapTailRegs := by
    revert n
    decide
  have hline : ∀ l ∈ im.sepia, Reg.MC_PROG_LEN n ≠ Reg.EP_LINE l.line := by
    intro l hl
    have := hlines l hl
    simp only [Reg.MC_PROG_LEN, Reg.EP_LINE]
    omega
  rw [Glexon.imageSwap_ticking b htick hstaged, Glexon.swapTail_rd _ _ htail, Glexon.putHm_rd, Glexon.putEsts_rd _ _ hline,
    Glexon.clearEsts_rd, Glexon.putLens_rd _ _ hn]
  all_goals simp only [Reg.MC_PROG_LEN, Reg.HM_RW_INDEX_BASE, Reg.HM_RW_PULLQ_BASE, Reg.MG_IMG_ACT]; omega

/-- At the boundary of a pending activation the image takes effect. -/
theorem exec_imageSwap_due {s : State} (hup : s.gx.coreUp = true) (htick : s.gx.tk.ticking = true)
    (hdue : s.gx.imageDue (s.gx.tk.tickNo + 1) = true) :
    exec .imageSwap s = .next { s with gx := s.gx.imageSwap (word (fld (s.gx.rd Reg.MG_IMG_ACT) 0 63)) } := by
  refine (onCore_runs _ s hup : execImageSwap s = _).trans ?_
  rw [if_pos ⟨htick, hdue⟩]

end

/-- Settles O50: the emptied queues of each port, the pull's next state, the refused loads and the swap of the image halves. -/
theorem pullsBootLoadAndImages : Obligations.PullsBootLoadAndImages := by
  intro s hup
  refine ⟨?stale, ?start, ?tick, fun hfw hst hlen hidle hops => ⟨?load, ?reread⟩, ?image, ?swap⟩
  case stale =>
    intro hops
    obtain ⟨t, ht, hmem, hports⟩ := exec_amberStaleDiscard hup hops
    refine ⟨t, ht, hmem, fun p hp => ?_⟩
    rcases hports p hp with ⟨hsame, hstale⟩ | hdrop
    · rw [hsame]
      exact ⟨s.gx.frames_of_staleAt hstale, fun _ _ => rfl⟩
    · rw [hdrop]
      refine ⟨fun q hq => Egress.frames_foldl_emptyQ _ _ (.inl hq), fun q hq => Egress.q_foldl_emptyQ _ _ ?_⟩
      revert q
      decide
  case start =>
    intro i q d hrole hidle hfirst hd hpos hle hclass2 hclasses hz12 hz25 hq
    subst hd
    exact ⟨_, exec_pullStart hup hrole hidle hfirst ⟨hpos, hle, hclass2, hclasses, hz12, hz25⟩ hq, rfl, rfl⟩
  case tick =>
    intro p hpull hended herr hleft hops hgone
    exact exec_pullTick_missing hup ⟨hpull, hended, herr, hops⟩ hleft hgone
  case load =>
    obtain ⟨hfail, hnotBusy, hmem, -⟩ := Glexon.bootMap_failed hlen hops hst
    exact ⟨_, exec_bootLoadStart_fwOn hup hfw, hfail, hnotBusy, hmem⟩
  case reread =>
    intro hmap
    obtain ⟨hfail, -, hmem, -⟩ := Glexon.bootMap_failed hlen hops hst
    exact ⟨_, exec_mapReread_refused hup hfw hmap hidle, hfail, hmem⟩
  case image =>
    intro hfw hmap hdone hidle hst hlen hops
    obtain ⟨hfail, -, hmem, hstaged⟩ := Glexon.bootImage_failed true hlen hops hst
    exact ⟨_, exec_bootImageRead_mapRead hup hfw hmap hdone hidle, hfail, hstaged, hmem⟩
  case swap =>
    intro im htick hdue hstaged hlines
    have hview := Glexon.imageSwap_imageView (word (fld (s.gx.rd Reg.MG_IMG_ACT) 0 63)) htick hstaged
    simp only [Glexon.imageView, Prod.mk.injEq] at hview
    obtain ⟨himage, hold, hcode, hhalf⟩ := hview
    refine ⟨_, exec_imageSwap_due hup htick hdue, himage, hold, hcode, hhalf, ?_, fun n hn =>
      Glexon.imageSwap_rd_progLen _ htick hstaged hlines hn⟩
    rw [Glexon.imageSwap_rd_imgAct _ htick hstaged]
    rfl

end Sys2Proof.Machine
end

section
/-! PROOFS. The Energy Planner admits lines within the budget of the tick, and holds Mauve back while that budget is exceeded (R384,
R386 to R388, R391, R392). -/

namespace Sys2Proof.Machine

/-! ### R387's loop -/

section

variable (g : Glexon) (b add : Nat)

/-- With `add` µJ of lines admitted before them, the lines `new` fit the budget one after another, and the next one, the first of
`rest`, does not. -/
structure Glexon.FitsUpTo (new rest : List SepiaLine) : Prop where
  fits : ∀ n < new.length, g.overBudget (add + ((new.take (n + 1)).map g.lineEst).sum) b = false
  ends : ∀ l r, rest = l :: r → g.overBudget (add + ((new ++ [l]).map g.lineEst).sum) b = true

/-- A line that fits comes before the lines that fit after it. -/
theorem Glexon.FitsUpTo.cons {g : Glexon} {b add : Nat} {l : SepiaLine} {new rest : List SepiaLine}
    (hl : g.overBudget (add + g.lineEst l) b = false) (h : g.FitsUpTo b (add + g.lineEst l) new rest) :
    g.FitsUpTo b add (l :: new) rest where
  fits
    | 0, _ => by simpa using hl
    | n + 1, hn => by simpa [Nat.add_assoc] using h.fits n (Nat.lt_of_succ_lt_succ hn)
  ends x r hr := by simpa [Nat.add_assoc] using h.ends x r hr

/-- The loop adds lines from the front for as long as they fit. -/
theorem Glexon.admitLoop_fitsUpTo (lines adm : List SepiaLine) :
    ∃ new rest, lines = new ++ rest ∧ (g.admitLoop b lines add adm).1 = adm ++ new ∧ g.FitsUpTo b add new rest := by
  induction lines generalizing add adm with
  | nil => exact ⟨[], [], rfl, (List.append_nil adm).symm, nofun, nofun⟩
  | cons l lines ih =>
    rw [Glexon.admitLoop]
    by_cases hover : g.overBudget (add + g.lineEst l) b = true
    · rw [if_pos hover]
      refine ⟨[], l :: lines, rfl, (List.append_nil adm).symm, nofun, ?_⟩
      rintro _ _ ⟨⟩
      simpa using hover
    · rw [if_neg hover]
      obtain ⟨new, rest, hlines, hadm, hfit⟩ := ih (add + g.lineEst l) (adm ++ [l])
      exact ⟨l :: new, rest, congrArg (l :: ·) hlines, by rw [hadm, List.append_assoc, List.singleton_append],
        hfit.cons (Bool.eq_false_iff.2 hover)⟩

end

/-! ### The lines of a tick (R388, R392) -/

section

variable (g : Glexon)

/-- Lines are admitted at all: the planner is on, every reading is there, and neither the package nor a stack is hot. -/
def Glexon.mayAdmit : Bool :=
  bit (g.rd Reg.EP_CTRL) 63 && !(g.ep.missing.isSome || g.ep.stale) && !decide (((16 * g.therm.1 : Nat) : Int) ≤ g.tj) &&
    decide (g.mg.hbmHot = 0)

/-- The lines that the tick admits. -/
def Glexon.admits : List SepiaLine := if g.mayAdmit then (g.admitLoop g.budget g.openLines 0 []).1 else []

theorem Glexon.mayAdmit_iff : g.mayAdmit = true ↔ bit (g.rd Reg.EP_CTRL) 63 = true ∧ g.ep.missing = none ∧ g.ep.stale = false ∧
    g.mg.hbmHot = 0 ∧ g.tj < ((16 * g.therm.1 : Nat) : Int) := by
  simp only [Glexon.mayAdmit, Bool.and_eq_true, Bool.not_eq_true', Bool.or_eq_false_iff, Option.isSome_eq_false_iff,
    Option.isNone_iff_eq_none, decide_eq_false_iff_not, decide_eq_true_eq, Int.not_le]
  tauto

/-- The lines admitted are the first of the open ones and fit the budget; where lines are admitted at all, the next one ends it. -/
theorem Glexon.openLines_eq_admits_append : ∃ rest, g.openLines = g.admits ++ rest ∧
    (∀ n < g.admits.length, g.overBudget ((g.admits.take (n + 1)).map g.lineEst).sum g.budget = false) ∧
    (g.mayAdmit = true → ∀ l r, rest = l :: r → g.overBudget (((g.admits ++ [l]).map g.lineEst).sum) g.budget = true) := by
  by_cases hmay : g.mayAdmit = true
  · obtain ⟨new, rest, hlines, hadm, hfit⟩ := g.admitLoop_fitsUpTo g.budget 0 g.openLines []
    have hnew : g.admits = new := (if_pos hmay).trans hadm
    rw [hnew]
    exact ⟨rest, hlines, by simpa only [Nat.zero_add] using hfit.fits,
      fun _ => by simpa only [Nat.zero_add] using hfit.ends⟩
  · have hnil : g.admits = [] := if_neg hmay
    rw [hnil]
    exact ⟨g.openLines, rfl, nofun, fun h => absurd h hmay⟩

end

/-! ### The admission of a tick -/

section

variable (g : Glexon)

/-- What is claimed of the state after an admission: none is due, EP_ADMIT, and memory. -/
def Glexon.admissionView : Bool × Word × SMap Byte := (g.ep.due, g.rd Reg.EP_ADMIT, g.mem)

/-- A command to every member die leaves what no port holds as it is. -/
theorem foldl_memberPorts_keep {β : Type} (view : Glexon → β)
    (hview : ∀ (h : Glexon) (p : Nat) (f : TapPort → TapPort), view (h.modPort p f) = view h) (f : Nat → TapPort → TapPort)
    (h : Glexon) :
    view ((List.range 64).foldl (fun (h : Glexon) p => if h.tpExpected p then h.modPort p (f p) else h) h) = view h := by
  refine foldl_keep view _ (fun x p => ?_) _ _
  split
  · exact hview x p _
  · rfl

/-- A threshold goes to the dies' ports and to EP_AUDIT_THR. -/
theorem Glexon.sendThreshold_admissionView (t : Nat) : (g.sendThreshold t).admissionView = g.admissionView := by
  have hthr (h : Glexon) (v : Word) : (h.wr Reg.EP_AUDIT_THR v).admissionView = h.admissionView := by
    rw [Glexon.admissionView, Glexon.rd_wr_other _ _ _ _ (by decide)]; rfl
  unfold Glexon.sendThreshold
  extract_lets _ _ _ g1
  refine (hthr _ _).trans ?_
  unfold g1
  split
  · rfl
  · exact foldl_memberPorts_keep Glexon.admissionView (fun _ _ _ => rfl) _ _

/-- An event that may be written leaves memory alone. -/
theorem Glexon.mem_ite_event (c : Prop) [Decidable c] (code agent : Nat) (args : List Word) :
    (if c then g.event code agent args else g).mem = g.mem := by
  rw [apply_ite Glexon.mem, Glexon.event_mem, ite_self]

/-- Cores are no part of that view. -/
theorem Glexon.modCore_admissionView (n : Nat) (f : Core → Core) : (g.modCore n f).admissionView = g.admissionView := rfl

/-- The admission word and the budget are shown, and no admission is due. -/
theorem Glexon.admissionView_shown (w b : Word) (f : Planner → Planner) (hf : (f g.ep).due = false) :
    (((g.wr Reg.EP_ADMIT w).wr Reg.EP_BUDGET b).modEp f).admissionView = (false, w, g.mem) :=
  Prod.ext hf (congrArg (·, g.mem) ((Glexon.rd_wr_other _ _ _ _ (by decide)).trans (Glexon.rd_wr_same _ _ _)))

/-- An admission is over, shows its lines in EP_ADMIT and leaves memory alone. -/
theorem Glexon.admission_admissionView :
    g.admission.admissionView = (false, word (g.admits.foldl (fun a l => a + 2 ^ l.line) 0), g.mem) := by
  unfold Glexon.admission
  dsimp -zeta only
  extract_lets -lift sens hot warm fault b lines runs adm ended admitted beyond g1 g2 g3 h4 g4 h5 g5 g6 g7 g8
  have hmem3 : g3.mem = g.mem :=
    (Glexon.mem_ite_event ..).trans ((Glexon.mem_ite_event ..).trans (Glexon.mem_ite_event ..))
  clear_value g3 ended
  have hmem4 : g4.mem = g.mem := by
    cases ended with
    | none => exact hmem3
    | some l => exact (apply_ite Glexon.mem ..).trans (by rw [Glexon.event_mem, ite_self]; exact hmem3)
  clear_value g4
  have hmem5 : g5.mem = g.mem := by
    unfold g5
    split_ifs
    · exact hmem4
    · exact (Glexon.event_mem ..).trans hmem4
    · exact hmem4
  clear_value g5
  have hview7 : g7.admissionView = (false, word admitted, g5.mem) := g5.admissionView_shown _ _ _ rfl
  have hview8 : g8.admissionView = g7.admissionView :=
    foldl_keep Glexon.admissionView _ (fun h n => h.modCore_admissionView n _) _ _
  rw [← hmem5]
  refine Eq.trans ?_ (hview8.trans hview7)
  split
  · exact Glexon.sendThreshold_admissionView ..
  · rfl

end

/-- ADMISSION while ticking and due is the planner's admission. -/
theorem exec_admission {s : State} (hup : s.gx.coreUp = true) (htick : s.gx.tk.ticking = true) (hdue : s.gx.ep.due = true) :
    exec .admission s = .next { s with gx := s.gx.admission } := by
  refine (onCore_runs _ s hup : execAdmission s = _).trans ?_
  rw [if_pos ⟨htick, hdue⟩]

/-! ### The Greyout of Mauve (R391) -/

/-- A Greyout changes ports alone. -/
theorem Glexon.greyMauve_keeps (g : Glexon) (w : Word) : (g.greyMauve w).ep = g.ep ∧ (g.greyMauve w).events = g.events :=
  ⟨foldl_memberPorts_keep Glexon.ep Glexon.modPort_ep _ _, foldl_memberPorts_keep Glexon.events Glexon.modPort_events _ _⟩

/-- The leaf's Greyout, `on` or taken back: this word goes to every member die, and an event tells it. -/
def Glexon.greyoutMauve (g : Glexon) (w : Word) (on : Bool) : Glexon :=
  ((g.greyMauve w).modEp fun p => { p with grey := on }).event 0x0607 33 [if on then 1 else 0]

theorem Glexon.greyoutMauve_ep (g : Glexon) (w : Word) (on : Bool) : (g.greyoutMauve w on).ep = { g.ep with grey := on } := by
  rw [Glexon.greyoutMauve, Glexon.event_ep, Glexon.modEp, (g.greyMauve_keeps w).1]

/-- The event of a Greyout is written where the FIFO has room. -/
theorem Glexon.greyoutMauve_event (g : Glexon) (w : Word) (on : Bool) (h : g.events.length < 256) :
    ∃ x ∈ (g.greyoutMauve w on).events, x.code = 0x0607 ∧ x.agent = 33 ∧ x.args = [if on then 1 else 0] := by
  obtain ⟨-, -, x, hevents, hx⟩ := ((g.greyMauve w).modEp fun p => { p with grey := on }).event_room 0x0607 33
    [if on then 1 else 0] ((congrArg List.length (g.greyMauve_keeps w).2).trans_lt h)
  exact ⟨x, hevents ▸ List.mem_append_right _ List.mem_cons_self, hx⟩

/-- MAUVE_GREYOUT at a ticking leaf with GREY_EN: it applies the Greyout, takes it back, or does nothing. -/
theorem exec_mauveGreyout {s : State} (hup : s.gx.coreUp = true) (htick : s.gx.tk.ticking = true) (hrole : s.gx.roleOn 0 = true)
    (hen : bit (s.gx.rd Reg.EP_CTRL) 61 = true) : exec .mauveGreyout s = .next { s with
      gx := if s.gx.ep.grey = false ∧ 16 ≤ s.gx.ep.overB then s.gx.greyoutMauve (s.gx.rd Reg.EP_GREY_CFG) true
        else if s.gx.ep.grey = true ∧ 256 ≤ s.gx.ep.inB then s.gx.greyoutMauve 0 false else s.gx } := by
  refine (onCore_runs _ s hup : execMauveGreyout s = _).trans ?_
  rw [if_neg (by simp [htick, hrole, hen])]
  rfl

/-- Settles O41: the first lines, which the loop admits, and the three outcomes of a Greyout. -/
theorem admissionStaysWithinTheBudget : Obligations.AdmissionStaysWithinTheBudget := by
  intro s hup htick
  refine ⟨fun hdue => ?admission, fun hrole hen => ?greyout⟩
  case admission =>
    obtain ⟨rest, hlines, hfits, hends⟩ := s.gx.openLines_eq_admits_append
    have hview := s.gx.admission_admissionView
    simp only [Glexon.admissionView, Prod.mk.injEq] at hview
    obtain ⟨hdone, hadmit, hmem⟩ := hview
    refine ⟨_, s.gx.admits, rest, exec_admission hup htick hdue, hdone, hlines, hadmit, hfits, fun hstop => ?_,
      fun hon hmiss hstale hhbm htj => hends (s.gx.mayAdmit_iff.2 ⟨hon, hmiss, hstale, hhbm, htj⟩), hmem, rfl⟩
    refine if_neg fun hmay => ?_
    obtain ⟨hon, hmiss, hstale, hhbm, htj⟩ := s.gx.mayAdmit_iff.1 hmay
    rcases hstop with h | h | h | h | h
    · exact Bool.false_ne_true (h.symm.trans hon)
    · exact h hmiss
    · exact Bool.false_ne_true (hstale.symm.trans h)
    · exact h hhbm
    · exact absurd htj (Int.not_lt.2 h)
  case greyout =>
    have hexec := exec_mauveGreyout hup htick hrole hen
    refine ⟨fun hoff hover => ?apply, fun hon hin => ?release, fun hoff hover => ?rest⟩
    case apply =>
      rw [if_pos ⟨hoff, hover⟩] at hexec
      exact ⟨_, hexec, Glexon.greyoutMauve_ep .., Glexon.greyoutMauve_event _ _ true⟩
    case release =>
      rw [if_neg (by simp [hon]), if_pos ⟨hon, hin⟩] at hexec
      exact ⟨_, hexec, Glexon.greyoutMauve_ep ..⟩
    case rest =>
      rw [if_neg (by omega), if_neg (by simp [hoff])] at hexec
      exact hexec

end Sys2Proof.Machine
end

section
/-! PROOFS. Fabric commands received once, and refused where their arguments do not fit (R411, R412). -/

namespace Sys2Proof.Machine

/-! ### De-duplication (R411) -/

/-- An entry by which a sequence is neither stale nor a duplicate is of the command's power cycle, and its highest sequence is
another, at most 64 above. -/
theorem Dedup.look_fresh {e d : Dedup} {c n : Nat} (h : e.look c n = (d, false, false)) : d.c = c ∧ d.h ≤ n + 64 ∧ n ≠ d.h := by
  simp only [Dedup.look, Prod.mk.injEq, Bool.or_eq_false_iff, decide_eq_false_iff_not] at h
  obtain ⟨hd, ⟨hcycle, hold⟩, hne, -⟩ := h
  rw [hd] at hcycle hold hne
  refine ⟨?_, by omega, hne⟩
  subst hd
  by_cases hc : e.c < c
  · rw [if_pos hc]
  · rw [if_neg hc] at hcycle ⊢
    omega

/-- Once a fresh sequence is noted, the same sequence is a duplicate: it is the highest, or its bit of the map is set. -/
theorem Dedup.look_note {e d : Dedup} {c n : Nat} (h : e.look c n = (d, false, false)) :
    (d.note n).look c n = (d.note n, false, true) := by
  obtain ⟨hc, hwindow, hne⟩ := Dedup.look_fresh h
  by_cases hn : d.h < n
  · simp [Dedup.note, Dedup.look, hn, hc]
  · have hbit : d.h - 1 - n < 64 := by omega
    have hlt : n < d.h := by omega
    simp [Dedup.note, Dedup.look, hn, hc, hlt, hwindow, bit, hbit]

/-! ### Reception (R408, R411) -/

theorem exec_commandReceive {s : State} (hup : s.gx.coreUp = true) (l : List Byte) :
    exec (.commandReceive l) s = .next { s with gx := s.gx.cmdArrives l } :=
  (onCore_runs _ s hup : execCommandReceive l s = _)

section

variable {g : Glexon} {l : List Byte} {r : Rec} {d : Dedup}

/-- The command has entered the FIFO, and its origin's entry is this one. -/
def Glexon.cmdTaken (g : Glexon) (r : Rec) (d : Dedup) : Glexon :=
  { g with ts := { g.ts with fifo := g.ts.fifo ++ [r], dedup := SMap.put {} g.ts.dedup (Rec.origin r) d } }

theorem Glexon.cmdTaken_dedup : SMap.get {} (g.cmdTaken r d).ts.dedup (Rec.origin r) = d := SMap.get_put_same _ _ _ _

/-- A command that is whole and new enters the FIFO, and is noted. -/
theorem Glexon.cmdArrives_fresh (hform : cmdFormOk l = true) (hr : r = Rec.ofBytes l) (hroom : g.ts.fifo.length < 256)
    (hlook : (SMap.get {} g.ts.dedup (Rec.origin r)).look (Rec.cycles r) r.seq.toNat = (d, false, false)) :
    g.cmdArrives l = g.cmdTaken r (d.note r.seq.toNat) := by
  subst hr
  rw [Glexon.cmdArrives, if_neg (by simp [hform])]
  simp only [hlook, Bool.false_eq_true, if_false, if_pos hroom, Glexon.fifoPut]
  rfl

/-- A duplicate is counted, and its origin's entry stays. -/
theorem Glexon.cmdArrives_duplicate (hform : cmdFormOk l = true) (hr : r = Rec.ofBytes l)
    (hlook : (SMap.get {} g.ts.dedup (Rec.origin r)).look (Rec.cycles r) r.seq.toNat = (d, false, true)) :
    g.cmdArrives l = { g with ts := { g.ts with dedup := SMap.put {} g.ts.dedup (Rec.origin r) d } }.bumpFld Reg.TS_CMD_STAT 48 16 1 := by
  subst hr
  rw [Glexon.cmdArrives, if_neg (by simp [hform])]
  simp only [hlook, Bool.false_eq_true, if_false, if_true]

end

/-! ### The executor (R412) -/

/-- Every row of Table 14.4 is executed at the head of the FIFO. -/
theorem exec_commandRow (s : State) : ∀ row ∈ ([(.greyout, 0x0401), (.blackout, 0x0402), (.wsCreate, 0x0403), (.wsTeardown, 0x0404),
    (.epoch, 0x0405), (.periodChange, 0x0406), (.beacon, 0x0407), (.collKey, 0x0408), (.gateList, 0x0409), (.announce, 0x040A),
    (.listHeld, 0x040B)] : List (Instr × Nat)), ∃ f, exec row.1 s = execHead row.2 f s := by
  simp only [List.forall_mem_cons]
  exact ⟨⟨_, rfl⟩, ⟨_, rfl⟩, ⟨_, rfl⟩, ⟨_, rfl⟩, ⟨_, rfl⟩, ⟨_, rfl⟩, ⟨_, rfl⟩, ⟨_, rfl⟩, ⟨_, rfl⟩, ⟨_, rfl⟩, ⟨_, rfl⟩,
    List.forall_mem_nil _⟩

/-- A command at the head whose arguments do not fit is read and refused. -/
theorem execHead_refused {s : State} {t : Nat} {r : Rec} {rest : List Rec} (f : Glexon → Rec → Glexon) (h : s.heads t r rest)
    (hr : cmdArgsOk r = false) :
    execHead t f s = .next { s with gx := (s.gx.headRead rest).cmdRefuse (Rec.origin r) r.seq.toNat t } := by
  obtain ⟨hup, hen, hfifo, htyp⟩ := h
  simp [execHead, onCore_runs _ _ hup, hfifo, hen, htyp, hr, Glexon.headRead]

/-- Settles O43: the first copy of a command is noted, by which the second is a duplicate; a command that fails its form or its
arguments is counted. -/
theorem commandsEnterOnce : Obligations.CommandsEnterOnce := by
  intro s hup
  refine ⟨fun l hform => ?malformed, fun l r d hform hr hroom hlook => ?whole, fun row hrow r rest hhead hargs => ?refused⟩
  case malformed =>
    rw [exec_commandReceive hup, Glexon.cmdArrives, if_pos hform]
  case whole =>
    have hfirst := exec_commandReceive hup l
    rw [Glexon.cmdArrives_fresh hform hr hroom hlook] at hfirst
    have hagain := exec_commandReceive (s := { s with gx := s.gx.cmdTaken r (d.note r.seq.toNat) }) hup l
    rw [Glexon.cmdArrives_duplicate hform hr (by
      rw [Glexon.cmdTaken_dedup]; exact Dedup.look_note hlook)] at hagain
    exact ⟨_, hfirst, rfl, rfl, rfl, _, hagain, rfl, Glexon.rd_wr_same _ _ _⟩
  case refused =>
    obtain ⟨f, hexec⟩ := exec_commandRow s row hrow
    exact hexec.trans (execHead_refused f hhead hargs)

end Sys2Proof.Machine
end

section
/-! PROOFS. Firmware answers MCTP control and PLDM requests (R473). -/

namespace Sys2Proof.Machine

/-- A field of what is left of a message. -/
theorem leAt_drop (l : List Byte) (k o n : Nat) : leAt (l.drop k) o n = leAt l (k + o) n := by
  rw [leAt, leAt, List.drop_drop]

/-- The single byte of a number below 256. -/
theorem leBytes_one (v : Nat) : leBytes 1 v = [BitVec.ofNat 8 v] := rfl

/-! ### Answered and unanswered messages -/

section

variable {s : State} {msg : List Byte}

/-- An answered message leaves its answer, and the management state that it sets. -/
theorem onMctp_answers {f : Glexon → Option (List Byte × Glexon)} {l : List Byte} {m : Mgmt} (hfw : s.gx.fwOn = true)
    (hf : f s.gx = some (l, { s.gx with mg := m })) :
    onMctp f s = .next { s with gx := { s.gx with mg := { m with reply := l } } } := by
  have hrst : s.gx.mgRstN = true := (Bool.and_eq_true_iff.1 hfw).1
  rw [onMctp, onMgmt_runs _ _ hrst]
  simp only [hfw, Bool.true_eq_false, if_false, hf]
  rfl

/-- Without firmware, or where the command does not fit, a message changes nothing. -/
theorem onMctp_silent {f : Glexon → Option (List Byte × Glexon)} (h : s.gx.fwOn = false ∨ f s.gx = none) : onMctp f s = .next s := by
  cases hrst : s.gx.mgRstN with
  | false => exact onMgmt_held _ _ hrst
  | true =>
    refine (onMgmt_runs _ _ hrst).trans ?_
    rcases h with hfw | hf
    · rw [if_pos hfw]
    · rw [hf, ite_self]

theorem mctpFits_iff (cmd : Nat) : mctpFits cmd msg = true ↔
    ¬(msg.length < 3 ∨ leAt msg 0 1 % 128 ≠ 0 ∨ leAt msg 1 1 < 128 ∨ leAt msg 2 1 ≠ cmd) := by
  simp [mctpFits, and_assoc]

theorem pldmFits_iff (typ cmd : Nat) : pldmFits typ cmd msg = true ↔
    ¬(msg.length < 4 ∨ leAt msg 0 1 % 128 ≠ 1 ∨ leAt msg 1 1 < 128 ∨ leAt msg 2 1 % 64 ≠ typ ∨ leAt msg 3 1 ≠ cmd) := by
  simp [pldmFits, and_assoc]

theorem mctpControl_silent {cmd : Nat} (f : Glexon → List Byte → List Byte × Glexon)
    (h : s.gx.fwOn = false ∨ mctpFits cmd msg = false) :
    mctpControl cmd f msg s = .next s :=
  onMctp_silent (h.imp_right fun hfit => if_pos (by_contra fun hn => by simp [(mctpFits_iff cmd).2 hn] at hfit))

theorem pldm_silent {typ cmd : Nat} (f : Glexon → List Byte → List Byte × Glexon)
    (h : s.gx.fwOn = false ∨ pldmFits typ cmd msg = false) :
    pldm typ cmd f msg s = .next s :=
  onMctp_silent (h.imp_right fun hfit => if_pos (by_contra fun hn => by simp [(pldmFits_iff typ cmd).2 hn] at hfit))

variable {i : Instr} {m : Mgmt} {f : Glexon → List Byte → List Byte × Glexon} {r : List Byte}

/-- An MCTP control request is answered with its header, and what its command says of the bytes after the header. -/
theorem replies_mctpControl {cmd : Nat} (hi : exec i s = mctpControl cmd f msg s) (hfw : s.gx.fwOn = true)
    (hfit : mctpFits cmd msg = true) (hf : f s.gx (msg.drop 3) = (r, { s.gx with mg := m })) :
    s.Replies i m (mctpHead cmd msg ++ r) := by
  refine hi.trans (onMctp_answers hfw ?_)
  rw [if_neg ((mctpFits_iff cmd).1 hfit), hf]
  rfl

/-- The same for PLDM. -/
theorem replies_pldm {typ cmd : Nat} (hi : exec i s = pldm typ cmd f msg s) (hfw : s.gx.fwOn = true)
    (hfit : pldmFits typ cmd msg = true) (hf : f s.gx (msg.drop 4) = (r, { s.gx with mg := m })) :
    s.Replies i m (pldmHead typ cmd msg ++ r) := by
  refine hi.trans (onMctp_answers hfw ?_)
  rw [if_neg ((pldmFits_iff typ cmd).1 hfit), hf]
  rfl

end

/-! ### The commands -/

theorem exec_mctpRow (s : State) (msg : List Byte) : ∀ row ∈ ([(.setEndpointId, 1), (.getEndpointId, 2), (.getEndpointUuid, 3),
    (.getMctpVersionSupport, 4), (.getMessageTypeSupport, 5)] : List ((List Byte → Instr) × Nat)),
    ∃ f, exec (row.1 msg) s = mctpControl row.2 f msg s := by
  simp only [List.forall_mem_cons]
  exact ⟨⟨_, (rfl : execSetEndpointId msg s = _)⟩, ⟨_, (rfl : execGetEndpointId msg s = _)⟩,
    ⟨_, (rfl : execGetEndpointUuid msg s = _)⟩,
    ⟨_, (rfl : execGetMctpVersionSupport msg s = _)⟩, ⟨_, (rfl : execGetMessageTypeSupport msg s = _)⟩, List.forall_mem_nil _⟩

theorem exec_pldmRow (s : State) (msg : List Byte) : ∀ row ∈ ([(.settid, 0, 1), (.gettid, 0, 2), (.getpldmversion, 0, 3),
    (.getpldmtypes, 0, 4), (.getpldmcommands, 0, 5), (.seteventreceiver, 2, 4), (.getsensorreading, 2, 0x11),
    (.getstatesensorreadings, 2, 0x21), (.getpdrrepositoryinfo, 2, 0x50), (.getpdr, 2, 0x51)] :
      List ((List Byte → Instr) × Nat × Nat)), ∃ f, exec (row.1 msg) s = pldm row.2.1 row.2.2 f msg s := by
  simp only [List.forall_mem_cons]
  exact ⟨⟨_, (rfl : execSettid msg s = _)⟩, ⟨_, (rfl : execGettid msg s = _)⟩, ⟨_, (rfl : execGetpldmversion msg s = _)⟩,
    ⟨_, (rfl : execGetpldmtypes msg s = _)⟩, ⟨_, (rfl : execGetpldmcommands msg s = _)⟩,
    ⟨_, (rfl : execSeteventreceiver msg s = _)⟩,
    ⟨_, (rfl : execGetsensorreading msg s = _)⟩, ⟨_, (rfl : execGetstatesensorreadings msg s = _)⟩,
    ⟨_, (rfl : execGetpdrrepositoryinfo msg s = _)⟩, ⟨_, (rfl : execGetpdr msg s = _)⟩, List.forall_mem_nil _⟩

/-- A temperature sensor that has not failed reads its value. -/
theorem Glexon.numeric_sensor (g : Glexon) {i : Nat} (hi : i < 24) (hok : g.sensor i ≠ 0x8000) :
    g.numeric (i + 1) = some (some (g.sensor i).toInt) := by
  have hid : 1 ≤ i + 1 ∧ i + 1 ≤ 24 := by omega
  simp only [Glexon.numeric, if_pos hid, Nat.add_sub_cancel, if_neg hok]

/-- Table 17.9 ends at sensor 64. -/
theorem Glexon.numeric_beyond (g : Glexon) {id : Nat} (hid : 65 ≤ id) : g.numeric id = none := by
  rw [Glexon.numeric, if_neg (by omega), if_neg (by omega), if_neg (by omega), if_neg (by omega), if_neg (by omega)]

theorem pldmType_ne_false {n : Nat} (h : n = 0 ∨ n = 2) : ¬pldmType n = false := by simp [pldmType, h]

/-- A record that is asked for from its start and fits is sent whole. -/
theorem take_whole {α : Type} {l : List α} {n : Nat} (h : l.length ≤ n) : (l.drop 0).take n = l := List.take_of_length_le h

/-- Settles O54: each command is answered as its own case says, with the header that all share. -/
theorem managementMessagesAreAnswered : Obligations.ManagementMessagesAreAnswered := by
  intro s msg
  refine ⟨fun row hrow h => ?_, fun row hrow h => ?_, fun hfw m hm => ?_⟩
  · obtain ⟨f, hf⟩ := exec_mctpRow s msg row hrow
    exact hf.trans (mctpControl_silent f h)
  · obtain ⟨f, hf⟩ := exec_pldmRow s msg row hrow
    exact hf.trans (pldm_silent f h)
  subst hm
  refine ⟨fun hfit hlen hop hlo hhi => ?eid, fun hfit => ?getEid, fun hfit => ?uuid, fun hfit hlen => ?version, fun hfit => ?types,
    fun hfit hlen h0 h255 => ?tid, fun hfit => ?getTid, fun hfit hlen htyp => ?pldmVersion, fun hfit => ?pldmTypes,
    fun hfit hlen htyp => ?commands, fun hfit hlen hop htr => ?receiver,
    fun hfit hlen => ⟨fun i v hid hi hv hok => ?reading, fun hid => ?noSensor⟩,
    fun hfit hlen hid => ?state, fun hfit => ?repository, fun hfit hlen hnone => ?noPdr, fun hfit hlen l next hpdr hstart hfits => ?pdr⟩
  case eid =>
    refine replies_mctpControl (rfl : execSetEndpointId msg s = mctpControl 1 _ msg s) hfw hfit ?_
    have hbad : ¬(2 ≤ leAt msg 3 1 % 4 ∨ leAt msg 4 1 < 8 ∨ leAt msg 4 1 = 255) := by omega
    simp only [leAt_drop, List.length_drop]
    rw [if_neg (by omega), if_neg hbad]
    rfl
  case getEid => exact replies_mctpControl (rfl : execGetEndpointId msg s = mctpControl 2 _ msg s) hfw hfit rfl
  case uuid => exact replies_mctpControl (rfl : execGetEndpointUuid msg s = mctpControl 3 _ msg s) hfw hfit rfl
  case version =>
    refine replies_mctpControl (rfl : execGetMctpVersionSupport msg s = mctpControl 4 _ msg s) hfw hfit ?_
    rw [if_neg (by rw [List.drop_eq_nil_iff]; omega), leAt_drop]
  case types => exact replies_mctpControl (rfl : execGetMessageTypeSupport msg s = mctpControl 5 _ msg s) hfw hfit rfl
  case tid =>
    refine replies_pldm (rfl : execSettid msg s = pldm 0 1 _ msg s) hfw hfit ?_
    simp only [leAt_drop]
    rw [if_neg (by rw [List.drop_eq_nil_iff]; omega), if_neg (not_or.2 ⟨h0, h255⟩)]
    rfl
  case getTid => exact replies_pldm (rfl : execGettid msg s = pldm 0 2 _ msg s) hfw hfit rfl
  case pldmVersion =>
    refine replies_pldm (rfl : execGetpldmversion msg s = pldm 0 3 _ msg s) hfw hfit ?_
    simp only [leAt_drop, List.length_drop]
    rw [if_neg (by omega), if_neg (pldmType_ne_false htyp)]
    rfl
  case pldmTypes => exact replies_pldm (rfl : execGetpldmtypes msg s = pldm 0 4 _ msg s) hfw hfit rfl
  case commands =>
    refine replies_pldm (rfl : execGetpldmcommands msg s = pldm 0 5 _ msg s) hfw hfit ?_
    simp only [leAt_drop]
    rw [if_neg (by rw [List.drop_eq_nil_iff]; omega), if_neg (pldmType_ne_false htyp)]
  case receiver =>
    refine replies_pldm (rfl : execSeteventreceiver msg s = pldm 2 4 _ msg s) hfw hfit ?_
    have hbad : ¬(3 < leAt msg 4 1 ∨ leAt msg 5 1 ≠ 0) := by omega
    simp only [leAt_drop, List.length_drop]
    rw [if_neg (by omega), if_neg hbad]
    rfl
  case reading =>
    subst hv
    refine replies_pldm (rfl : execGetsensorreading msg s = pldm 2 0x11 _ msg s) hfw hfit ?_
    simp only [leAt_drop, List.length_drop, hid, s.gx.numeric_sensor hi hok]
    rw [if_neg (by omega)]
    rfl
  case noSensor =>
    refine replies_pldm (rfl : execGetsensorreading msg s = pldm 2 0x11 _ msg s) hfw hfit ?_
    simp only [leAt_drop, List.length_drop, s.gx.numeric_beyond hid]
    rw [if_neg (by omega)]
  case state =>
    refine replies_pldm (rfl : execGetstatesensorreadings msg s = pldm 2 0x21 _ msg s) hfw hfit ?_
    simp only [leAt_drop, List.length_drop, hid]
    rw [if_neg (by omega)]
    rfl
  case repository => exact replies_pldm (rfl : execGetpdrrepositoryinfo msg s = pldm 2 0x50 _ msg s) hfw hfit rfl
  case noPdr =>
    refine replies_pldm (rfl : execGetpdr msg s = pldm 2 0x51 _ msg s) hfw hfit ?_
    simp only [leAt_drop, List.length_drop, hnone]
    rw [if_neg (by omega)]
  case pdr =>
    refine replies_pldm (rfl : execGetpdr msg s = pldm 2 0x51 _ msg s) hfw hfit ?_
    simp only [leAt_drop, List.length_drop, hpdr, hstart, take_whole hfits]
    rw [if_neg (by omega)]
    simp [leBytes_one]

end Sys2Proof.Machine
end

section
/-! PROOFS. Chip resets, supplies and JTAG (R454, R492, R521 to R523, R526, R528). -/

namespace Sys2Proof.Machine

variable (g : Glexon)

/-! ### What the steps of a reset leave -/

/-- The event of a thermal state changes the management state alone, in two fields. -/
theorem Glexon.thermalTell_eq : ∃ t e, g.thermalTell = { g with mg := { g.mg with thermal := t, evMsg := e } } := by
  unfold Glexon.thermalTell
  dsimp only
  split
  · exact ⟨_, _, rfl⟩
  · split <;> exact ⟨_, _, rfl⟩

theorem Glexon.tripClear_tripped : g.tripClear.mg.tripped = false := by
  unfold Glexon.tripClear
  split
  next => rfl
  next h => simpa using h

/-- The end of a thermal halt leaves the pins, the core domain and what the management domain holds. -/
theorem Glexon.tripClear_frame : g.tripClear.sysRstN = g.sysRstN ∧ g.tripClear.corePwrOk = g.corePwrOk ∧
    g.tripClear.coreLost = g.coreLost ∧ g.tripClear.tk = g.tk ∧ g.tripClear.ports = g.ports ∧ g.tripClear.mem = g.mem ∧
    g.tripClear.cores = g.cores ∧ g.tripClear.mg.slots = g.mg.slots ∧ g.tripClear.mg.recs = g.mg.recs := by
  unfold Glexon.tripClear
  split <;> exact ⟨rfl, rfl, rfl, rfl, rfl, rfl, rfl, rfl, rfl⟩

theorem Glexon.rd_tripClear {a : Nat} (h : a ≠ Reg.MG_TRIP) : g.tripClear.rd a = g.rd a := by
  unfold Glexon.tripClear
  split
  next => exact g.rd_wr_other _ _ 0 h
  next => rfl

/-- `h` is `g` after the end of its thermal halt, with the event that tells it. -/
structure Glexon.HaltEnded (g h : Glexon) : Prop where
  sysRstN : h.sysRstN = g.sysRstN
  corePwrOk : h.corePwrOk = g.corePwrOk
  coreLost : h.coreLost = g.coreLost
  tk : h.tk = g.tk
  ports : h.ports = g.ports
  mem : h.mem = g.mem
  cores : h.cores = g.cores
  slots : h.mg.slots = g.mg.slots
  recs : h.mg.recs = g.mg.recs
  tripped : h.mg.tripped = false
  rd : ∀ a, a ≠ Reg.MG_TRIP → h.rd a = g.rd a

theorem Glexon.haltEnded : g.HaltEnded g.tripClear.thermalTell := by
  obtain ⟨t, e, htell⟩ := g.tripClear.thermalTell_eq
  obtain ⟨hsys, hpwr, hlost, htk, hports, hmem, hcores, hslots, hrecs⟩ := g.tripClear_frame
  rw [htell]
  exact ⟨hsys, hpwr, hlost, htk, hports, hmem, hcores, hslots, hrecs, g.tripClear_tripped, fun _ => g.rd_tripClear⟩

/-- Step 0 of bring-up writes registers alone. -/
theorem Glexon.bringUp_frame : g.bringUp.sysRstN = g.sysRstN ∧ g.bringUp.corePwrOk = g.corePwrOk ∧
    g.bringUp.coreLost = g.coreLost ∧ g.bringUp.mem = g.mem ∧ g.bringUp.mg = g.mg ∧ g.bringUp.mgRstN = g.mgRstN ∧
    g.bringUp.tk = g.tk := by
  unfold Glexon.bringUp
  split <;> simp

theorem Glexon.mapPhase_mg : g.mapPhase.mg = g.mg := by
  unfold Glexon.mapPhase
  split
  next => exact g.buEnter_mg 3 0
  next => rfl

theorem Glexon.rd_mapPhase {a : Nat} (h : a ≠ Reg.MG_BU_STATE) : g.mapPhase.rd a = g.rd a := by
  unfold Glexon.mapPhase
  split
  next => exact g.rd_buEnter 3 0 a h
  next => rfl

theorem Glexon.rd_buDone_same {n : Nat} (h : g.rd (Reg.MG_BU_TIME n) = 0) :
    (g.buDone n).rd (Reg.MG_BU_TIME n) = word (max 1 g.upMs % 2 ^ 32) := by
  rw [Glexon.buDone, if_pos h, Glexon.rd_wr_same]

/-- The core domain runs, by the pins and the trip. -/
theorem Glexon.coreUp_of (hs : g.sysRstN = true) (hc : g.corePwrOk = true) (hl : g.coreLost = false) (ht : g.mg.tripped = false) :
    g.coreUp = true := by
  simp [Glexon.coreUp, Glexon.tkUp, hs, hc, hl, ht]

theorem Glexon.coreUp_of_held (hs : g.sysRstN = false) : g.coreUp = false := by simp [Glexon.coreUp, Glexon.tkUp, hs]

theorem Glexon.coreUp_of_unpowered (hc : g.corePwrOk = false) : g.coreUp = false := by simp [Glexon.coreUp, Glexon.tkUp, hc]

theorem Glexon.coreUp_of_lost (hl : g.coreLost = true) : g.coreUp = false := by simp [Glexon.coreUp, Glexon.tkUp, hl]

/-- A reset of the core domain leaves the registers of the management domain (R523). -/
theorem Glexon.rd_coreReset {a : Nat} (h : mgReg a = true) : g.coreReset.rd a = g.rd a :=
  (SMap.get_filter _ mgReg a g.regs).trans (if_pos h)

/-! ### The commands on the pins -/

theorem exec_sysRstNAssert {s : State} (h : s.gx.sysRstN = true) : exec .sysRstNAssert s = .next { s with
    gx := if s.gx.corePwrOk then ({ s.gx with sysRstN := false } : Glexon).coreReset.tripClear.thermalTell
      else ({ s.gx with sysRstN := false } : Glexon).coreReset } := by
  refine (onGxPins_next _ s : execSysRstNAssert s = _).trans ?_
  rw [if_neg (by simp [h])]

/-- The loss of core power is told while both parts run (R523). -/
def Glexon.powerLossTold (g : Glexon) : Glexon :=
  if g.sysRstN ∧ g.mgRstN then g.event 0x070C 31 [if g.tk.ticking then g.tk.tickNo else 0] else g

theorem Glexon.rd_powerLossTold {a : Nat} (h : a ≠ Reg.MG_EVR_STAT) : g.powerLossTold.rd a = g.rd a := by
  unfold Glexon.powerLossTold
  split
  next => exact g.rd_event _ _ _ _ h
  next => rfl

theorem exec_corePwrokFall {s : State} (h : s.gx.corePwrOk = true) : exec .corePwrokFall s = .next { s with
    gx := ({ s.gx.powerLossTold with corePwrOk := false, coreLost := s.gx.coreLost || s.gx.sysRstN } : Glexon).coreReset } := by
  refine (onGxPins_next _ s : execCorePwrokFall s = _).trans ?_
  rw [if_neg (by simp [h])]
  rfl

theorem exec_sysRstNRelease {s : State} (h : s.gx.sysRstN = false) : ∃ j, exec .sysRstNRelease s = .next { s with
    gx := if s.gx.corePwrOk then
        ({ s.gx with sysRstN := true, coreLost := false, mg := { s.gx.mg with jtag := j } } : Glexon).tripClear.thermalTell.bringUp
      else { s.gx with sysRstN := true, coreLost := true, mg := { s.gx.mg with jtag := j } } } := by
  refine ⟨if s.gx.mg.jtag = .sample then .sample else .bypass, (onGxPins_next _ s : execSysRstNRelease s = _).trans ?_⟩
  rw [if_neg (by simp [h])]

theorem exec_mgRstNAssert {s : State} (h : s.gx.mgRstN = true) : exec .mgRstNAssert s = .next { s with
    gx := { s.gx with
      mgRstN := false, events := [],
      regs := s.gx.regs.filter fun e => !(decide (0x80E00000 ≤ e.1) && decide (e.1 < 0x80F00000)),
      mg := { slots := s.gx.mg.slots, bootRec := s.gx.mg.bootRec, fuses := s.gx.mg.fuses, cycles := s.gx.mg.cycles,
              mirror := s.gx.mg.mirror, reserve := s.gx.mg.reserve, tripped := s.gx.mg.tripped, half := s.gx.mg.half,
              hbmHot := s.gx.mg.hbmHot, hbmFast := s.gx.mg.hbmFast, trained := s.gx.mg.trained, partAt := s.gx.mg.partAt,
              warn := s.gx.mg.warn, jtag := s.gx.mg.jtag } } } := by
  refine (onGxPins_next _ s : execMgRstNAssert s = _).trans ?_
  rw [if_neg (by simp [h])]

theorem exec_hbmTrainingDone {s : State} (hup : s.gx.coreUp = true) (h : s.gx.mg.trained = false) :
    exec .hbmTrainingDone s = .next { s with
    gx := ((({ s.gx with mg := { s.gx.mg with trained := true } } : Glexon).buDone 1).buEnter 2 0).mapPhase } := by
  refine (onCore_runs _ s hup : execHbmTrainingDone s = _).trans ?_
  rw [if_neg (by simp [h])]

/-- Settles O56, command by command. -/
theorem resetsSuppliesAndJtag : Obligations.ResetsSuppliesAndJtag := by
  intro s
  refine ⟨fun h => ⟨_, exec_sysRstNAssert h, ?assert⟩, fun h => ?release, fun h => ⟨_, exec_corePwrokFall h, ?fall⟩, rfl,
    fun h => ?mgAssert, fun hup htr => ?training, rfl, rfl, ?jtag⟩
  case assert =>
    by_cases hpwr : s.gx.corePwrOk = true
    · rw [if_pos hpwr]
      have hend := ({ s.gx with sysRstN := false } : Glexon).coreReset.haltEnded
      exact ⟨rfl, hend.sysRstN, Glexon.coreUp_of_held _ hend.sysRstN, hend.mem, hend.cores, hend.tk, hend.ports,
        fun a ha hne => (hend.rd a hne).trans (Glexon.rd_coreReset _ ha), hend.slots, hend.recs, fun _ => hend.tripped⟩
    · rw [if_neg hpwr]
      exact ⟨rfl, rfl, Glexon.coreUp_of_held _ rfl, rfl, rfl, rfl, rfl, fun a ha _ => Glexon.rd_coreReset _ ha, rfl, rfl,
        fun h => absurd h hpwr⟩
  case release =>
    obtain ⟨j, hexec⟩ := exec_sysRstNRelease h
    refine ⟨_, hexec, ?_⟩
    by_cases hpwr : s.gx.corePwrOk = true
    · rw [if_pos hpwr]
      have hend := ({ s.gx with sysRstN := true, coreLost := false, mg := { s.gx.mg with jtag := j } } : Glexon).haltEnded
      generalize Glexon.thermalTell _ = g1 at hend ⊢
      obtain ⟨hsys, hcore, hlost, hmem, hmg, -, -⟩ := g1.bringUp_frame
      have htrip : g1.bringUp.mg.tripped = false := by rw [hmg, hend.tripped]
      exact ⟨rfl, hsys.trans hend.sysRstN, hmem.trans hend.mem, fun _ => ⟨Glexon.coreUp_of _ (hsys.trans hend.sysRstN)
        ((hcore.trans hend.corePwrOk).trans hpwr) (hlost.trans hend.coreLost) htrip, htrip⟩, fun hn => absurd hpwr (by simp [hn])⟩
    · rw [if_neg hpwr]
      exact ⟨rfl, rfl, rfl, fun h => absurd h hpwr, fun _ => ⟨rfl, Glexon.coreUp_of_lost _ rfl⟩⟩
  case fall =>
    exact ⟨rfl, rfl, Glexon.coreUp_of_unpowered _ rfl, rfl, rfl, rfl, fun h => by simp [Glexon.coreReset, h],
      fun a ha hne => (Glexon.rd_coreReset _ ha).trans (Glexon.rd_powerLossTold _ hne)⟩
  case mgAssert =>
    refine ⟨_, exec_mgRstNAssert h, rfl, rfl, rfl, fun a => ?_, rfl, rfl, rfl, rfl, rfl, rfl, rfl, rfl⟩
    refine (SMap.get_filter _ (fun a => !(decide (0x80E00000 ≤ a) && decide (a < 0x80F00000))) a s.gx.regs).trans ?_
    by_cases hin : 0x80E00000 ≤ a ∧ a < 0x80F00000
    · simp [hin]
    · rw [if_pos (by simpa [or_iff_not_imp_left] using hin), if_neg hin]
      rfl
  case training =>
    refine ⟨_, exec_hbmTrainingDone hup htr, ?_, ?_, fun h0 => ?_⟩
    · rw [Glexon.mapPhase_mg, Glexon.buEnter_mg, Glexon.buDone_mg]
    · rw [(Glexon.mapPhase_keeps _).1, Glexon.buEnter_mem, Glexon.buDone_mem]
    · have hne : Reg.MG_BU_TIME 1 ≠ Reg.MG_BU_STATE := by decide
      rw [Glexon.rd_mapPhase _ hne, Glexon.rd_buEnter _ _ _ _ hne]
      exact Glexon.rd_buDone_same _ h0
  case jtag =>
    simp only [List.forall_mem_cons]
    exact ⟨rfl, rfl, rfl, rfl, rfl, List.forall_mem_nil _⟩

end Sys2Proof.Machine
end

section
/-! PROOFS. Sensors, rails, the thermal trip and the temperature of record memory (R460 to R462, R530). -/

namespace Sys2Proof.Machine

/-! ### Steps over the indices below a bound -/

/-- A step for each index below `n`, each changing what is seen at its own index alone. -/
theorem foldl_range_view {σ β : Type} (step : σ → Nat → σ) (view : σ → Nat → β) (new : Nat → β → β)
    (hstep : ∀ g i j, view (step g i) j = if j = i then new j (view g j) else view g j) (n : Nat) (g : σ) (j : Nat) :
    view ((List.range n).foldl step g) j = if j < n then new j (view g j) else view g j := by
  induction n with
  | zero => rfl
  | succ n ih =>
    rw [List.range_succ, List.foldl_append, List.foldl_cons, List.foldl_nil, hstep, ih]
    by_cases hj : j = n
    · subst hj
      rw [if_pos rfl, if_neg (lt_irrefl j), if_pos (Nat.lt_succ_self j)]
    · rw [if_neg hj]
      exact if_congr (by omega) rfl rfl

/-- A list read index by index. -/
theorem map_getD_range {α β : Type} (f : α → β) (l : List α) (d : α) :
    (List.range l.length).map (fun j => f (l.getD j d)) = l.map f := by
  refine List.ext_getElem (by simp) fun i h1 h2 => ?_
  simp [List.getElem?_eq_getElem (by simpa using h1 : i < l.length)]

variable (g : Glexon)

/-- An event changes nothing that is seen of the management state but the record of what was lost. -/
theorem Glexon.event_mg_view {α : Type} (view : Mgmt → α) (h : ∀ m x, view { m with lost := some x } = view m) (code agent : Nat)
    (args : List Word) : view (g.event code agent args).mg = view g.mg := by
  rcases g.event_mg code agent args with hmg | ⟨x, hmg⟩
  · rw [hmg]
  · rw [hmg, h]

/-! ### Sensors -/

theorem Glexon.sensorIn_rd (i : Nat) (v : BitVec 16) {a : Nat} (h : a ≠ Reg.MG_EVR_STAT) : (g.sensorIn i v).rd a =
    (g.wr (Reg.MG_TEMP (i / 4)) (putFld (g.rd (Reg.MG_TEMP (i / 4))) (16 * (i % 4)) 16 v.toNat)).rd a := by
  unfold Glexon.sensorIn
  dsimp only
  split
  · exact Glexon.rd_event _ _ _ _ _ h
  · rfl

theorem Glexon.sensorIn_sensor (i j : Nat) (v : BitVec 16) : (g.sensorIn i v).sensor j = if j = i then v else g.sensor j := by
  have hstat : Reg.MG_TEMP (j / 4) ≠ Reg.MG_EVR_STAT := by simp only [Reg.MG_TEMP, Reg.MG_EVR_STAT]; omega
  rw [Glexon.sensor, g.sensorIn_rd i v hstat]
  by_cases hq : j / 4 = i / 4
  · rw [hq, Glexon.rd_wr_same]
    split
    next h =>
      subst h
      rw [fld_putFld_same _ _ (by omega), Nat.mod_eq_of_lt v.isLt, BitVec.ofNat_toNat, BitVec.setWidth_eq]
    next h =>
      rw [fld_putFld_other _ _ (by omega) (by omega), Glexon.sensor, hq]
  · rw [if_neg (by rintro rfl; exact hq rfl), Glexon.rd_wr_other _ _ _ _ (by simp only [Reg.MG_TEMP]; omega)]
    rfl

theorem Glexon.sensorIn_hot (i j : Nat) (v : BitVec 16) : SMap.get 0 (g.sensorIn i v).mg.hot j =
    if j = i then (if v ≠ 0x8000 ∧ 1680 ≤ v.toInt then SMap.get 0 g.mg.hot j + 1 else 0) else SMap.get 0 g.mg.hot j := by
  unfold Glexon.sensorIn
  extract_lets a bad hot g1
  have hg1 : SMap.get 0 g1.mg.hot j = if j = i then (if v ≠ 0x8000 ∧ 1680 ≤ v.toInt then SMap.get 0 g.mg.hot j + 1 else 0)
      else SMap.get 0 g.mg.hot j := by
    change SMap.get 0 (SMap.put 0 _ _ _) j = _
    by_cases h : j = i
    · subst h
      rw [if_pos rfl, SMap.get_put_same]
      simp [hot, bad]
    · rw [if_neg h, SMap.get_put_other _ _ _ _ _ h]
      rfl
  clear_value g1
  split
  · rw [← hg1]
    exact Glexon.event_mg_view _ (fun m => SMap.get 0 m.hot j) (fun _ _ => rfl) _ _ _
  · exact hg1

/-- A sample of every sensor. -/
def Glexon.sensorsIn (l : List (BitVec 16)) : Glexon := (List.range 24).foldl (fun h i => h.sensorIn i (l.getD i 0x8000)) g

theorem Glexon.sensorsIn_mem (l : List (BitVec 16)) : (g.sensorsIn l).mem = g.mem :=
  foldl_keep Glexon.mem _ (fun x i => (x.sensorIn_keeps i _).1) _ g

theorem Glexon.sensorsIn_sensor (l : List (BitVec 16)) {i : Nat} (hi : i < 24) : (g.sensorsIn l).sensor i = l.getD i 0x8000 := by
  refine (foldl_range_view _ Glexon.sensor (fun j _ => l.getD j 0x8000) (fun h i j => ?_) 24 g i).trans (if_pos hi)
  rw [h.sensorIn_sensor]
  exact if_ctx_congr Iff.rfl (fun e => by rw [e]) fun _ => rfl

theorem Glexon.sensorsIn_hot (l : List (BitVec 16)) {i : Nat} (hi : i < 24) : SMap.get 0 (g.sensorsIn l).mg.hot i =
    if l.getD i 0x8000 ≠ 0x8000 ∧ 1680 ≤ (l.getD i 0x8000).toInt then SMap.get 0 g.mg.hot i + 1 else 0 := by
  refine (foldl_range_view _ (fun h j => SMap.get 0 h.mg.hot j)
    (fun j n => if l.getD j 0x8000 ≠ 0x8000 ∧ 1680 ≤ (l.getD j 0x8000).toInt then n + 1 else 0) (fun h i j => ?_) 24 g i).trans
    (if_pos hi)
  rw [h.sensorIn_hot]
  exact if_ctx_congr Iff.rfl (fun e => by rw [e]) fun _ => rfl

/-! ### The thermal trip -/

/-- What a port keeps through a thermal trip: the count of its retrains. -/
def TapPort.halted (t : TapPort) : TapPort :=
  { t with tr := { retrains := t.tr.retrains }, held := false, observed := false, reasm := [] }

/-- The chip in thermal halt, by sensor `i`. -/
def Glexon.tripIn (i : Nat) : Glexon :=
  let g1 := (g.wr Reg.MG_TRIP (word (2 ^ 63 + i * 2 ^ 16 + (g.sensor i).toNat))).event 0x0703 31 [word i, word (g.sensor i).toNat]
  ({ g1 with portLanes := [], ports := g1.ports.map fun e => (e.1, e.2.halted) } : Glexon).modMg fun m => { m with tripped := true }

/-- A thermal trip takes every port down (R462). -/
theorem TapPort.halted_up (ports : SMap TapPort) (p : Nat) :
    (SMap.get {} (ports.map fun e : Nat × TapPort => (e.1, e.2.halted)) p).up = false := by
  by_cases h : SMap.get {} (ports.map fun e : Nat × TapPort => (e.1, e.2.halted)) p = {}
  · rw [h]; rfl
  · obtain ⟨e, -, he⟩ := List.mem_map.1 (SMap.mem_of_get_ne _ _ _ h)
    rw [← (Prod.mk.inj he).2]
    rfl

theorem Glexon.rd_tripIn (i : Nat) : (g.tripIn i).rd Reg.MG_TRIP = word (2 ^ 63 + i * 2 ^ 16 + (g.sensor i).toNat) :=
  (Glexon.rd_event _ _ _ _ _ (by decide)).trans (Glexon.rd_wr_same _ _ _)

theorem Glexon.tripIn_halted (i : Nat) : (g.tripIn i).mg.tripped = true ∧ (g.tripIn i).portLanes = [] ∧
    ∀ p, ((g.tripIn i).port p).up = false := by
  unfold Glexon.tripIn
  exact ⟨rfl, rfl, TapPort.halted_up _⟩

theorem Glexon.tripIn_frame (i : Nat) : (g.tripIn i).mem = g.mem ∧ (g.tripIn i).tk = g.tk :=
  ⟨Glexon.event_mem _ _ _ _, Glexon.event_tk _ _ _ _⟩

theorem Glexon.coreUp_of_tripped (h : g.mg.tripped = true) : g.coreUp = false := by simp [Glexon.coreUp, h]

theorem exec_thermalTrip {s : State} (h : s.gx.mgRstN = true) (htrip : s.gx.mg.tripped = false) {i : Nat}
    (hi : ((List.range 24).find? fun i => 8 ≤ SMap.get 0 s.gx.mg.hot i) = some i) :
    exec .thermalTrip s = .next { s with gx := (s.gx.tripIn i).thermalTell } := by
  refine (onMgmt_runs _ s h : execThermalTrip s = _).trans ?_
  rw [hi]
  simp only [htrip, Bool.false_eq_true, if_false]
  rfl

/-! ### Rails -/

theorem Glexon.railIn_rail (j i : Nat) (r : RailIn) : (g.railIn j r).rd (Reg.MG_RAIL i) =
    if i = j then word (r.i.toNat * 2 ^ 32 + r.v.toNat) else g.rd (Reg.MG_RAIL i) := by
  have hstat : Reg.MG_RAIL i ≠ Reg.MG_EVR_STAT := by simp only [Reg.MG_RAIL, Reg.MG_EVR_STAT]; omega
  have hwr : (g.wr (Reg.MG_RAIL j) (word (r.i.toNat * 2 ^ 32 + r.v.toNat))).rd (Reg.MG_RAIL i) =
      if i = j then word (r.i.toNat * 2 ^ 32 + r.v.toNat) else g.rd (Reg.MG_RAIL i) := by
    split
    next h => rw [h, Glexon.rd_wr_same]
    next h => exact Glexon.rd_wr_other _ _ _ _ (by simp only [Reg.MG_RAIL]; omega)
  rw [← hwr]
  unfold Glexon.railIn
  extract_lets lim hi lo cur out quiet g1
  split
  · exact Glexon.rd_event _ _ _ _ _ hstat
  · rfl

/-- A rail's sample leaves what is seen of the management state beside the rail's own record of events. -/
theorem Glexon.railIn_view {α : Type} (view : Mgmt → α) (h : ∀ m x, view { m with lost := some x } = view m)
    (h' : ∀ m x, view { m with railAt := x } = view m) (j : Nat) (r : RailIn) : view (g.railIn j r).mg = view g.mg := by
  unfold Glexon.railIn
  extract_lets lim hi lo cur out quiet g1
  split
  · exact (Glexon.event_mg_view _ view h _ _ _).trans (h' _ _)
  · rfl

/-- A sample of the sixteen rails. -/
def Glexon.railsIn (r : List RailIn) : Glexon := (List.range 16).foldl (fun h j => h.railIn j (r.getD j { v := 0, i := 0 })) g

theorem Glexon.railsIn_mem (r : List RailIn) : (g.railsIn r).mem = g.mem :=
  foldl_keep Glexon.mem _ (fun x i => (x.railIn_keeps i _).1) _ g

theorem Glexon.railsIn_us (r : List RailIn) : (g.railsIn r).mg.us = g.mg.us :=
  foldl_keep (fun h => h.mg.us) _ (fun x i => x.railIn_view (fun m => m.us) (fun _ _ => rfl) (fun _ _ => rfl) i _) _ g

theorem Glexon.railsIn_energy (r : List RailIn) : (g.railsIn r).mg.energy = g.mg.energy :=
  foldl_keep (fun h => h.mg.energy) _ (fun x i => x.railIn_view (fun m => m.energy) (fun _ _ => rfl) (fun _ _ => rfl) i _) _ g

theorem Glexon.railsIn_rail (r : List RailIn) {j : Nat} (hj : j < 16) {x : RailIn} (hx : r[j]? = some x) :
    (g.railsIn r).rd (Reg.MG_RAIL j) = word (x.i.toNat * 2 ^ 32 + x.v.toNat) := by
  refine (foldl_range_view _ (fun h j => h.rd (Reg.MG_RAIL j))
    (fun j _ => word ((r.getD j { v := 0, i := 0 }).i.toNat * 2 ^ 32 + (r.getD j { v := 0, i := 0 }).v.toNat))
    (fun h i j => ?_) 16 g j).trans ?_
  · rw [h.railIn_rail]
    exact if_ctx_congr Iff.rfl (fun e => by rw [e]) fun _ => rfl
  · rw [if_pos hj, List.getD_eq_getElem?_getD, hx, Option.getD_some]

/-! ### The temperature of record memory -/

/-- Bit `k` of a pair of bits replaced. -/
def putPair (w : BitVec 2) (k : Nat) (b : Bool) : BitVec 2 := (w &&& ~~~(1#2 <<< k)) ||| (BitVec.ofBool b).zeroExtend 2 <<< k

theorem bit_putPair : ∀ (w : BitVec 2) (b : Bool) (k j : Fin 2), bit (putPair w k b) j = if j = k then b else bit w j := by decide

/-- Is a stack HBM_HOT after a reading, and was it before? -/
def hbmHotAfter (was : Bool) (t : Nat) : Bool := decide (95 ≤ t) || (was && decide (90 ≤ t))

/-- A stack's reading changes its own bits, and tells the event of its becoming hot. -/
theorem Glexon.hbmTemp_spec (k t : Nat) : (g.hbmTemp k t).mem = g.mem ∧
    (∀ a, a ≠ Reg.MG_EVR_STAT → (g.hbmTemp k t).rd a = g.rd a) ∧
    (g.hbmTemp k t).mg.hbmHot = putPair g.mg.hbmHot k (hbmHotAfter (bit g.mg.hbmHot k) t) ∧
    (g.hbmTemp k t).mg.hbmFast = putPair g.mg.hbmFast k (decide (85 ≤ t)) := by
  unfold Glexon.hbmTemp
  dsimp only
  split
  · exact ⟨Glexon.event_mem _ _ _ _, fun _ h => Glexon.rd_event _ _ _ _ _ h,
      Glexon.event_mg_view _ Mgmt.hbmHot (fun _ _ => rfl) _ _ _, Glexon.event_mg_view _ Mgmt.hbmFast (fun _ _ => rfl) _ _ _⟩
  · exact ⟨rfl, fun _ _ => rfl, rfl, rfl⟩

/-! ### The commands -/

theorem exec_sensorSample {s : State} (l : List (BitVec 16)) (h : s.gx.mgRstN = true) : exec (.sensorSample l) s = .next { s with
    gx := ((s.gx.sensorsIn l).modMg fun m => { m with tempAt := some s.gx.nowNs }).thermalTell } :=
  (onMgmt_runs _ s h : execSensorSample l s = _)

theorem exec_railSample {s : State} (r : List RailIn) (h : s.gx.mgRstN = true) : ∃ e tok acc,
    e = ((List.range 16).map fun j => (r.getD j { v := 0, i := 0 }).v.toNat * (r.getD j { v := 0, i := 0 }).i.toNat).sum ∧
    exec (.railSample r) s = .next { s with gx := (s.gx.railsIn r).modMg fun m => { m with
      us := m.us + 1, tokens := tok, energy := m.energy + e, secAcc := acc } } :=
  ⟨_, _, _, rfl, (onMgmt_runs _ s h : execRailSample r s = _)⟩

theorem exec_hbmTempRead {s : State} (t0 t1 : Byte) (h : s.gx.coreUp = true) : exec (.hbmTempRead t0 t1) s = .next { s with
    gx := (s.gx.hbmTemp 0 t0.toNat).hbmTemp 1 t1.toNat } :=
  (onCore_runs _ s h : execHbmTempRead t0 t1 s = _)

/-- Settles O51, command by command. -/
theorem sensorsRailsAndThermalTrip : Obligations.SensorsRailsAndThermalTrip := by
  intro s
  refine ⟨fun h l => ⟨_, exec_sensorSample l h, ?sensors⟩, fun h htrip => ⟨fun i hi => ?trip, fun hnone => ?quiet⟩,
    fun h r hr => ?rails, fun h t0 t1 => ⟨_, exec_hbmTempRead t0 t1 h, ?hbm⟩⟩
  case sensors =>
    have hmem := s.gx.sensorsIn_mem l
    have hsensor := fun i => s.gx.sensorsIn_sensor l (i := i)
    have hhot := fun i => s.gx.sensorsIn_hot l (i := i)
    generalize s.gx.sensorsIn l = g1 at hmem hsensor hhot ⊢
    obtain ⟨th, ev, htell⟩ := (g1.modMg fun m => { m with tempAt := some s.gx.nowNs }).thermalTell_eq
    rw [htell]
    exact ⟨rfl, hmem, hsensor, hhot⟩
  case trip =>
    refine ⟨_, exec_thermalTrip h htrip hi, ?_⟩
    obtain ⟨hon, hlanes, hports⟩ := s.gx.tripIn_halted i
    obtain ⟨hmem, htk⟩ := s.gx.tripIn_frame i
    have hrd := s.gx.rd_tripIn i
    generalize s.gx.tripIn i = g1 at hon hlanes hports hmem htk hrd ⊢
    obtain ⟨th, ev, htell⟩ := g1.thermalTell_eq
    rw [htell]
    exact ⟨hon, Glexon.coreUp_of_tripped _ hon, hlanes, hports, hrd, hmem, htk⟩
  case quiet =>
    refine (onMgmt_runs _ s h : execThermalTrip s = _).trans ?_
    rw [hnone]
  case rails =>
    obtain ⟨e, tok, acc, he, hexec⟩ := exec_railSample r h
    have hsum := map_getD_range (fun x : RailIn => x.v.toNat * x.i.toNat) r { v := 0, i := 0 }
    refine ⟨_, hexec, s.gx.railsIn_mem r, fun j x hx => s.gx.railsIn_rail r ?_ hx, congrArg (· + 1) (s.gx.railsIn_us r), ?_⟩
    · exact hr ▸ (List.getElem?_eq_some_iff.1 hx).1
    · rw [← hsum, hr, ← he, ← s.gx.railsIn_energy r]
      rfl
  case hbm =>
    obtain ⟨hmem0, hrd0, hhot0, hfast0⟩ := s.gx.hbmTemp_spec 0 t0.toNat
    obtain ⟨hmem1, hrd1, hhot1, hfast1⟩ := (s.gx.hbmTemp 0 t0.toNat).hbmTemp_spec 1 t1.toNat
    refine ⟨hmem1.trans hmem0, fun a ha => (hrd1 a ha).trans (hrd0 a ha), ?_⟩
    have hlow (w : BitVec 2) (b : Bool) : bit (putPair w 0 b) 1 = bit w 1 := bit_putPair w b 0 1
    have hpair (w : BitVec 2) (b c : Bool) : bit (putPair (putPair w 0 b) 1 c) 0 = b ∧ bit (putPair (putPair w 0 b) 1 c) 1 = c :=
      ⟨(bit_putPair _ c 1 0).trans (bit_putPair w b 0 0), bit_putPair _ c 1 1⟩
    simp only [List.forall_mem_cons, hhot1, hfast1, hhot0, hfast0, hlow, hpair]
    exact ⟨⟨rfl, trivial⟩, ⟨rfl, trivial⟩, List.forall_mem_nil _⟩

end Sys2Proof.Machine
end

section
/-! PROOFS. The event recorder, its mirror, the brown-out and the heartbeat (R463 to R467). -/

namespace Sys2Proof.Machine

/-! ### Alerts -/

/-- `h` is `g` after alerts: their record, their tokens, their counts and the next SEQ are all that they change. -/
structure Glexon.Alerted (g h : Glexon) : Prop where
  events : h.events = g.events
  mem : h.mem = g.mem
  mg : ∃ a t d, h.mg = { g.mg with alert := a, tokens := t, dropped := d }
  rd : ∀ a, a ≠ Reg.MG_ALERT_STAT → h.rd a = g.rd a

/-- What alerts leave of the management state. -/
theorem Glexon.Alerted.view {g h : Glexon} (ha : g.Alerted h) {α : Type} (view : Mgmt → α)
    (hview : ∀ m a t d, view { m with alert := a, tokens := t, dropped := d } = view m) : view h.mg = view g.mg := by
  obtain ⟨a, t, d, hmg⟩ := ha.mg
  rw [hmg, hview]

variable (g : Glexon)

theorem Glexon.Alerted.refl : g.Alerted g := ⟨rfl, rfl, ⟨_, _, _, rfl⟩, fun _ _ => rfl⟩

theorem Glexon.Alerted.trans {g h k : Glexon} (hg : g.Alerted h) (hh : h.Alerted k) : g.Alerted k := by
  obtain ⟨hev, hmem, ⟨_, _, _, hmg⟩, hrd⟩ := hg
  obtain ⟨hev', hmem', ⟨a, t, d, hmg'⟩, hrd'⟩ := hh
  exact ⟨hev'.trans hev, hmem'.trans hmem, ⟨a, t, d, by rw [hmg', hmg]⟩, fun x hx => (hrd' x hx).trans (hrd x hx)⟩

theorem Glexon.tokensSet_alerted (t : Mgmt → Nat) : g.Alerted (g.modMg fun m => { m with tokens := t m }) :=
  ⟨rfl, rfl, ⟨_, _, _, rfl⟩, fun _ _ => rfl⟩

theorem Glexon.alertOut_alerted (r : Rec) : g.Alerted (g.alertOut r) := by
  unfold Glexon.alertOut
  split
  · exact ⟨rfl, rfl, ⟨_, _, _, rfl⟩, fun _ h => Glexon.rd_bumpFld _ _ _ _ _ _ h⟩
  · exact .refl g

theorem Glexon.sendAlert_alerted (typ : Nat) (pay : List Byte) : g.Alerted (g.sendAlert typ pay) := by
  unfold Glexon.sendAlert
  split
  · obtain ⟨hev, hmem, hmg, hrd⟩ := g.alertOut_alerted (g.alertRec typ pay)
    exact ⟨hev, hmem, hmg, hrd⟩
  · exact .refl g

theorem Glexon.eventAlert_alerted (sev : Nat) (l : List Byte) : g.Alerted (g.eventAlert sev l) := by
  unfold Glexon.eventAlert
  split
  · exact .refl g
  split
  · exact g.sendAlert_alerted _ _
  split
  · exact ⟨rfl, rfl, ⟨_, _, _, rfl⟩, fun _ h => g.rd_bumpFld _ _ _ _ _ h⟩
  · exact (g.tokensSet_alerted _).trans (Glexon.sendAlert_alerted _ _ _)

/-! ### Records -/

/-- The record of an event is in the slot of its SEQ, and HEAD has passed it. -/
theorem Glexon.recordEvent_spec (e : EvItem) : (g.recordEvent e).events = g.events ∧ (g.recordEvent e).mem = g.mem ∧
    (g.recordEvent e).mg.lost = g.mg.lost ∧
    (g.recordEvent e).mg.recs = SMap.put [] g.mg.recs ((g.rd Reg.MG_EVR_HEAD).toNat % 16384) (g.evRecord e) ∧
    (g.recordEvent e).rd Reg.MG_EVR_HEAD = word ((g.rd Reg.MG_EVR_HEAD).toNat + 1) := by
  unfold Glexon.recordEvent
  extract_lets s l beyond g1 g2 g3
  have hg1 : g1.events = g.events ∧ g1.mem = g.mem ∧ g1.mg = g.mg := by
    unfold g1
    split <;> exact ⟨rfl, rfl, rfl⟩
  have hg3 : g3.events = g1.events ∧ g3.mem = g1.mem ∧ g3.mg = g1.mg ∧ g3.rd Reg.MG_EVR_HEAD = word (s + 1) := by
    unfold g3
    split
    · exact ⟨rfl, rfl, rfl, (Glexon.rd_wr_other _ _ _ _ (by decide)).trans (Glexon.rd_wr_same _ _ _)⟩
    · exact ⟨rfl, rfl, rfl, Glexon.rd_wr_same _ _ _⟩
  clear_value g1 g3
  obtain ⟨hev1, hmem1, hmg1⟩ := hg1
  obtain ⟨hev3, hmem3, hmg3, hhead⟩ := hg3
  have hout := (g3.modMg fun m => { m with recs := SMap.put [] m.recs (s % 16384) l }).eventAlert_alerted e.sev.toNat l
  refine ⟨hout.events.trans (hev3.trans hev1), hout.mem.trans (hmem3.trans hmem1),
    (hout.view Mgmt.lost fun _ _ _ _ => rfl).trans ?_, (hout.view Mgmt.recs fun _ _ _ _ => rfl).trans ?_,
    (hout.rd _ (by decide)).trans hhead⟩
  · rw [← hmg1, ← hmg3]; rfl
  · rw [← hmg1, ← hmg3]; rfl

/-- The last field of some bytes. -/
theorem leAt_last (l : List Byte) {o : Nat} (ho : l.length = o) {n v : Nat} (hv : v < 256 ^ n) : leAt (l ++ leBytes n v) o n = v := by
  rw [leAt, ← ho, List.drop_left, List.take_of_length_le (length_leBytes n v).le, leNat_leBytes n v hv]

/-- The code of an event in its record (Table 17.4). -/
theorem Glexon.evRecord_code (e : EvItem) (h : e.code < 256 ^ 2) : leAt (g.evRecord e) 32 2 = e.code := by
  rw [Glexon.evRecord]
  iterate 4 rw [leAt_append _ (by simp only [List.length_append, length_leBytes]; omega)]
  exact leAt_last _ (by simp [length_leBytes]) h

/-- At most `n` records with the highest SEQ. -/
theorem length_lastN (n : Nat) (l : List (List Byte)) : (lastN n l).length ≤ n := by
  rw [lastN, List.length_drop]
  omega

/-! ### The commands -/

theorem exec_eventRecordWrite {s : State} (h : s.gx.mgRstN = true) {e : EvItem} {rest : List EvItem} (hlost : s.gx.mg.lost = none)
    (hev : s.gx.events = e :: rest) :
    exec .eventRecordWrite s = .next { s with gx := ({ s.gx with events := rest } : Glexon).recordEvent e } := by
  refine (onMgmt_runs _ s h : execEventRecordWrite s = _).trans ?_
  rw [hlost, hev]

/-- The event of the loss of others (R464). -/
def EvLost.item (x : EvLost) : EvItem :=
  { code := 0x0709, agent := 31, sev := Config.eventSeverity 0x0709, args := [word x.n], time := x.time, tick := x.tick }

theorem exec_eventRecordWrite_overflow {s : State} (h : s.gx.mgRstN = true) {x : EvLost} (hlost : s.gx.mg.lost = some x)
    (hleft : x.left = 0) : exec .eventRecordWrite s = .next { s with
      gx := (s.gx.modMg fun m => { m with lost := none }).recordEvent x.item } := by
  refine (onMgmt_runs _ s h : execEventRecordWrite s = _).trans ?_
  rw [hlost]
  simp only [hleft, if_true]
  rfl

/-- The ring of the mirror, and the SEQ of its last record. -/
def Glexon.mirrored (ring : List (List Byte)) (n : Word) : Glexon :=
  (g.modMg fun m => { m with mirror := ring }).wr Reg.MG_EVR_MIRRORED n

theorem Glexon.mirrored_eq (ring : List (List Byte)) (n : Word) : (g.mirrored ring n).mg.mirror = ring ∧
    (g.mirrored ring n).rd Reg.MG_EVR_MIRRORED = n ∧ (g.mirrored ring n).events = g.events :=
  ⟨rfl, Glexon.rd_wr_same _ _ _, rfl⟩

theorem exec_mirrorAppend {s : State} (h : s.gx.mgRstN = true) {l : List (List Byte)} {x : List Byte}
    (hnew : s.gx.recsFrom ((s.gx.rd Reg.MG_EVR_MIRRORED).toNat + 1) = l ++ [x]) : exec (.mirrorAppend none) s = .next { s with
      gx := s.gx.mirrored (lastN 262144 (s.gx.mg.mirror ++ l ++ [x])) (word (recSeq x)) } := by
  refine (onMgmt_runs _ s h : execMirrorAppend none s = _).trans ?_
  simp only [Glexon.unmirrored, hnew, List.getLast?_concat, List.append_assoc, Glexon.mirrored, Glexon.modMg]

theorem exec_brownout {s : State} (h : s.gx.mgRstN = true) : exec .brownout s = .next { s with
    gx := (s.gx.modMg fun m => { m with warn := true, reserve := lastN 32 (s.gx.recsFrom s.gx.unmirrored) }).event 0x0707 31
      [word (lastN 32 (s.gx.recsFrom s.gx.unmirrored)).length] } :=
  (onMgmt_runs _ s h : execBrownout s = _)

/-- A second of operating time. -/
def Glexon.secondPassed : Glexon :=
  (g.bumpFld Reg.MG_OP_SECONDS 0 32 1).modMg fun m => { m with secE := m.secAcc, secAcc := 0 }

theorem exec_heartbeat {s : State} (h : s.gx.mgRstN = true) : exec .heartbeat s = .next { s with
    gx := if s.gx.mg.ready then
        (s.gx.secondPassed.sendAlert 0x0502 s.gx.secondPassed.heartbeat).modMg fun m => { m with dropped := 0 }
      else s.gx.secondPassed } :=
  (onMgmt_runs _ s h : execHeartbeat s = _)

/-- Settles O52, command by command. -/
theorem eventsAreRecordedAndMirrored : Obligations.EventsAreRecordedAndMirrored := by
  intro s hrst
  refine ⟨fun h hh => ⟨fun e rest hlost hev => ⟨_, exec_eventRecordWrite hrst hlost hev, ?record⟩, fun x hlost hleft =>
    ⟨_, exec_eventRecordWrite_overflow hrst hlost hleft, ?overflow⟩⟩, fun v => (onMgmt_runs _ s hrst : execEvrCursor v s = _),
    fun l x hnew => ⟨_, exec_mirrorAppend hrst hnew, ?mirror⟩, ⟨_, exec_brownout hrst, ?brownout⟩,
    ⟨_, exec_heartbeat hrst, ?heartbeat⟩⟩
  case record =>
    subst hh
    obtain ⟨hevents, hmem, -, hrecs, hhead⟩ := ({ s.gx with events := rest } : Glexon).recordEvent_spec e
    refine ⟨hevents, ?_, hhead, hmem, fun i hi => ?_⟩
    · rw [hrecs]
      exact SMap.get_put_same _ _ _ _
    · rw [hrecs]
      exact SMap.get_put_other _ _ _ _ _ hi
  case overflow =>
    subst hh
    obtain ⟨hevents, -, hlost', hrecs, hhead⟩ := (s.gx.modMg fun m => { m with lost := none }).recordEvent_spec x.item
    refine ⟨hlost', hevents, ?_, hhead⟩
    rw [hrecs]
    refine (congrArg (leAt · 32 2) (SMap.get_put_same _ _ _ _)).trans ?_
    exact Glexon.evRecord_code _ x.item (by simp [EvLost.item])
  case mirror => exact s.gx.mirrored_eq _ _
  case brownout =>
    refine ⟨Glexon.event_mg_view _ Mgmt.warn (fun _ _ => rfl) _ _ _, Glexon.event_mem _ _ _ _,
      Glexon.event_mg_view _ Mgmt.mirror (fun _ _ => rfl) _ _ _, Glexon.event_mg_view _ Mgmt.reserve (fun _ _ => rfl) _ _ _, ?_⟩
    rw [Glexon.event_mg_view _ (fun m => m.reserve.length) (fun _ _ => rfl)]
    exact length_lastN _ _
  case heartbeat =>
    have hsec : s.gx.secondPassed.rd Reg.MG_OP_SECONDS = satFld (s.gx.rd Reg.MG_OP_SECONDS) 0 32 1 := Glexon.rd_wr_same _ _ _
    by_cases hready : s.gx.mg.ready = true
    · rw [if_pos hready]
      have hout := s.gx.secondPassed.sendAlert_alerted 0x0502 s.gx.secondPassed.heartbeat
      exact ⟨(hout.rd _ (by decide)).trans hsec, hout.view Mgmt.secE fun _ _ _ _ => rfl, hout.view Mgmt.secAcc fun _ _ _ _ => rfl,
        fun _ => rfl, hout.mem⟩
    · rw [if_neg hready]
      exact ⟨hsec, rfl, rfl, fun h => absurd h hready, rfl⟩

end Sys2Proof.Machine
end

section
/-! PROOFS. The mailbox: a request that is taken, and its answer in the response ring (R468). -/

namespace Sys2Proof.Machine

/-- Bytes one behind another, as a number. -/
theorem leNat_append (l r : List Byte) : leNat (l ++ r) = leNat l + 256 ^ l.length * leNat r := by
  induction l with
  | nil => simp [leNat]
  | cons b l ih =>
    rw [List.cons_append, leNat, leNat, ih, List.length_cons, pow_succ]
    ring

/-- The first word of bytes. -/
theorem wordsOf_head {l : List Byte} (h : l.length = 8) (r : List Byte) : (wordsOf (l ++ r)).getD 0 0 = word (leNat l) := by
  obtain ⟨f, hf⟩ : ∃ f, ((l ++ r).length + 7) / 8 = f + 1 := ⟨(r.length + 7) / 8, by rw [List.length_append, h]; omega⟩
  obtain ⟨b, t, rfl⟩ : ∃ b t, l = b :: t := List.exists_cons_of_ne_nil (List.ne_nil_of_length_pos (by omega))
  rw [wordsOf, hf, List.cons_append, chunks, List.map_cons, List.getD_cons_zero, ← List.cons_append, List.take_left' h]
  nofun

/-- The first word of an answer: request ID and status. -/
theorem word_reply (id : BitVec 32) {st : Nat} (hst : st < 2 ^ 32) :
    word (leNat (leBytes 4 id.toNat ++ leBytes 4 st)) = word (id.toNat + st * 2 ^ 32) := by
  rw [leNat_append, length_leBytes, leNat_leBytes 4 _ (id.isLt.trans_eq (by norm_num)), leNat_leBytes 4 _ (hst.trans_eq (by norm_num)),
    Nat.mul_comm]
  norm_num

variable (g : Glexon)

/-- Registers written one after another: nothing else changes. -/
theorem Glexon.foldl_wr_eq {α : Type} (reg : α → Nat) (val : α → Word) (l : List α) :
    ∃ r, l.foldl (fun h x => h.wr (reg x) (val x)) g = { g with regs := r } := by
  induction l generalizing g with
  | nil => exact ⟨_, rfl⟩
  | cons x l ih => exact ih _

theorem Glexon.rd_foldl_wr_other {α : Type} (reg : α → Nat) (val : α → Word) (l : List α) {a : Nat}
    (h : ∀ x ∈ l, a ≠ reg x) :
    (l.foldl (fun h x => h.wr (reg x) (val x)) g).rd a = g.rd a := by
  induction l generalizing g with
  | nil => rfl
  | cons x l ih =>
    obtain ⟨hx, hl⟩ := List.forall_mem_cons.1 h
    exact (ih _ hl).trans (Glexon.rd_wr_other _ _ _ _ hx)

/-- An answer writes registers alone. -/
theorem Glexon.mbxReply_eq (id : BitVec 32) (st : Nat) (data : List Byte) : ∃ r, g.mbxReply id st data = { g with regs := r } := by
  obtain ⟨r, hr⟩ := g.foldl_wr_eq (Reg.MG_MBX_RSP (fld (g.rd Reg.MG_MBX_RSP_PI) 0 6))
    (fun w => (wordsOf (padTo 64 (leBytes 4 id.toNat ++ leBytes 4 st ++ data.take 56))).getD w 0) (List.range 8)
  refine ⟨_, (congrArg (Glexon.wr · Reg.MG_MBX_RSP_PI _) hr).trans rfl⟩

/-- The response ring and its producer index. -/
def mbxRspReg (a : Nat) : Bool := decide (a = Reg.MG_MBX_RSP_PI) || decide (0x80E03000 ≤ a) && decide (a < 0x80E04000)

theorem mbxRspReg_slot {i w : Nat} (hi : i < 64) (hw : w < 8) : mbxRspReg (Reg.MG_MBX_RSP i w) = true := by
  have hlo : 0x80E03000 ≤ Reg.MG_MBX_RSP i w := by unfold Reg.MG_MBX_RSP; omega
  have hhi : Reg.MG_MBX_RSP i w < 0x80E04000 := by unfold Reg.MG_MBX_RSP; omega
  rw [mbxRspReg, decide_eq_true hlo, decide_eq_true hhi, Bool.and_self, Bool.or_true]

theorem Glexon.rd_mbxReply (id : BitVec 32) (st : Nat) (data : List Byte) {a : Nat} (h : mbxRspReg a = false) :
    (g.mbxReply id st data).rd a = g.rd a := by
  have hi := fld_lt (g.rd Reg.MG_MBX_RSP_PI) 0 6
  have hne {b : Nat} (hb : mbxRspReg b = true) : a ≠ b := by rintro rfl; simp [h] at hb
  exact (Glexon.rd_wr_other _ _ _ _ (hne rfl)).trans
    (g.rd_foldl_wr_other _ _ _ fun w hw => hne (mbxRspReg_slot hi (List.mem_range.1 hw)))

theorem Glexon.rd_mbxReply_pi (id : BitVec 32) (st : Nat) (data : List Byte) :
    (g.mbxReply id st data).rd Reg.MG_MBX_RSP_PI = word ((fld (g.rd Reg.MG_MBX_RSP_PI) 0 6 + 1) % 64) := Glexon.rd_wr_same _ _ _

theorem Glexon.rd_mbxReply_head (id : BitVec 32) {st : Nat} (hst : st < 2 ^ 32) (data : List Byte) :
    (g.mbxReply id st data).rd (Reg.MG_MBX_RSP (fld (g.rd Reg.MG_MBX_RSP_PI) 0 6) 0) = word (id.toNat + st * 2 ^ 32) := by
  have hlen : (leBytes 4 id.toNat ++ leBytes 4 st).length = 8 := by simp [length_leBytes]
  refine (Glexon.rd_wr_other _ _ _ _ (by simp only [Reg.MG_MBX_RSP, Reg.MG_MBX_RSP_PI]; omega)).trans ?_
  refine (g.rd_foldl_wr (Reg.MG_MBX_RSP (fld (g.rd Reg.MG_MBX_RSP_PI) 0 6)) (fun a b hab => ?_) _ (List.range 8)
    (.inl (List.mem_range.2 (by decide)))).trans ?_
  · simp only [Reg.MG_MBX_RSP] at hab
    omega
  · rw [padTo, List.append_assoc _ (data.take 56), wordsOf_head hlen, word_reply id hst]

/-! ### A request and its answer -/

/-- Firmware has taken the request at the ring's head. -/
def Glexon.taken : Glexon := g.wr Reg.MG_MBX_REQ_CI (word ((fld (g.rd Reg.MG_MBX_REQ_CI) 0 6 + 1) % 64))

theorem Glexon.rd_taken {a : Nat} (h : a ≠ Reg.MG_MBX_REQ_CI) : g.taken.rd a = g.rd a := Glexon.rd_wr_other _ _ _ _ h

theorem onMbx_taken (f : Glexon → Glexon) (s : State) (h : s.gx.fwOn = true) : onMbx f s = .next { s with gx := f s.gx.taken } :=
  onMbx_runs f s h

theorem onMbxCore_taken (q : MbxReq) (f : Glexon → Glexon) (s : State) (h : s.gx.fwOn = true) (hup : s.gx.coreUp = true) :
    onMbxCore q f s = .next { s with gx := f s.gx.taken } := by
  refine (onMbx_taken _ s h : onMbxCore q f s = _).trans ?_
  have hup' : s.gx.taken.coreUp = true := hup
  rw [if_pos hup']

/-- The rings of the mailbox, where a request and its answer show. -/
def mbxReg (a : Nat) : Bool := decide (a = Reg.MG_MBX_REQ_CI) || mbxRspReg a

/-- `g` reads the mailbox as when firmware had taken the request of `s`. -/
def State.Taken (s : State) (g : Glexon) : Prop := ∀ a, mbxReg a = true → g.rd a = s.gx.taken.rd a

theorem State.Taken.self (s : State) : s.Taken s.gx.taken := fun _ _ => rfl

/-- What touches no register of the mailbox leaves the request taken. -/
theorem State.Taken.of_rd {s : State} {g h : Glexon} (hg : s.Taken g) (hrd : ∀ a, mbxReg a = true → h.rd a = g.rd a) : s.Taken h :=
  fun a ha => (hrd a ha).trans (hg a ha)

/-- An answer in the ring answers the request. -/
theorem State.Taken.replied {s t : State} {g : Glexon} (hg : s.Taken g) (q : MbxReq) {st : Nat} (hst : st < 2 ^ 32) (data : List Byte)
    (ht : ∀ a, mbxReg a = true → t.gx.rd a = (g.mbxReply q.id st data).rd a) : s.replied t q st := by
  have hpi : g.rd Reg.MG_MBX_RSP_PI = s.gx.rd Reg.MG_MBX_RSP_PI := (hg _ rfl).trans (s.gx.rd_taken (by decide))
  refine ⟨?_, ?_, ?_⟩
  · rw [ht _ rfl, g.rd_mbxReply q.id st data rfl, hg _ rfl]
    exact Glexon.rd_wr_same _ _ _
  · rw [ht _ rfl, g.rd_mbxReply_pi, hpi]
  · rw [ht, ← hpi, g.rd_mbxReply_head q.id hst data]
    exact Bool.or_eq_true_iff.2 (.inr (mbxRspReg_slot (fld_lt _ 0 6) (by decide)))

theorem mbxReg_ne {a : Nat} (h : mbxReg a = true) : a ≠ Reg.MG_EVR_STAT := by
  rintro rfl
  revert h
  decide

section

variable {s : State} {g : Glexon} (hg : s.Taken g)

include hg

theorem State.Taken.event (code agent : Nat) (args : List Word) : s.Taken (g.event code agent args) :=
  hg.of_rd fun _ ha => g.rd_event _ _ _ _ (mbxReg_ne ha)

theorem State.Taken.modMg (f : Mgmt → Mgmt) : s.Taken (g.modMg f) := hg

/-- The answer, at the end. -/
theorem State.Taken.answered (q : MbxReq) {st : Nat} (hst : st < 2 ^ 32) (data : List Byte) :
    s.replied { s with gx := g.mbxReply q.id st data } q st :=
  hg.replied q hst data fun _ _ => rfl

end

theorem Glexon.mbxReply_mg (id : BitVec 32) (st : Nat) (data : List Byte) : (g.mbxReply id st data).mg = g.mg := by
  obtain ⟨r, hr⟩ := g.mbxReply_eq id st data
  rw [hr]

end Sys2Proof.Machine
end

section
/-! PROOFS. The boot ROM, restarts and firmware updates (R455, R458, R469 to R471). -/

namespace Sys2Proof.Machine

/-! ### What the boot ROM reads, and what it leaves -/

/-- What the boot ROM reads of the management state. -/
def Mgmt.rom (m : Mgmt) : Nat × SMap (List Byte) × BootRec := (m.fuses, m.slots, m.bootRec)

/-- What tells how the boot ROM ended. -/
def Mgmt.boot (m : Mgmt) : MgRun × Bool × Bool × Option Word × BootRec × Option Nat :=
  (m.run, m.slotB, m.staged, m.actAt, m.bootRec, m.wdogAt)

/-- A management state with what the boot ROM reads alone. -/
def Mgmt.ofRom (r : Nat × SMap (List Byte) × BootRec) : Mgmt := { fuses := r.1, slots := r.2.1, bootRec := r.2.2 }

theorem Mgmt.choose_of_rom {m n : Mgmt} (h : n.rom = m.rom) : n.choose = m.choose := by
  have hrom (m : Mgmt) : m.choose = (Mgmt.ofRom m.rom).choose := rfl
  rw [hrom n, h, ← hrom]

theorem Mgmt.Restarted.of_rom {m n m' : Mgmt} (hm : n.Restarted m') (h : n.rom = m.rom) : m.Restarted m' := by
  have hrec : n.bootRec = m.bootRec := congrArg (·.2.2) h
  unfold Mgmt.Restarted at hm ⊢
  rwa [← Mgmt.choose_of_rom h, ← hrec]

theorem Mgmt.Restarted.of_boot {m m' n : Mgmt} (hm : m.Restarted m') (h : n.boot = m'.boot) : m.Restarted n := by
  obtain ⟨hrun, hslot, hstaged, hact, hrec, hwdog⟩ : n.run = m'.run ∧ n.slotB = m'.slotB ∧ n.staged = m'.staged ∧
      n.actAt = m'.actAt ∧ n.bootRec = m'.bootRec ∧ n.wdogAt = m'.wdogAt := by simpa [Mgmt.boot] using h
  unfold Mgmt.Restarted at hm ⊢
  rwa [hrun, hslot, hstaged, hact, hrec, hwdog]

variable (g : Glexon)

theorem Glexon.event_boot (code agent : Nat) (args : List Word) : (g.event code agent args).mg.boot = g.mg.boot :=
  g.event_mg_view Mgmt.boot (fun _ _ => rfl) code agent args

theorem Glexon.event_rom (code agent : Nat) (args : List Word) : (g.event code agent args).mg.rom = g.mg.rom :=
  g.event_mg_view Mgmt.rom (fun _ _ => rfl) code agent args

/-- The boot ROM has run (R458). -/
theorem Glexon.bootRom_restarted (cold : Bool) : g.mg.Restarted (g.bootRom cold).mg := by
  rcases hc : g.mg.choose with _ | ⟨b, fallback⟩
  · have hboot : (g.bootRom cold).mg.boot = (.noFirmware, g.mg.slotB, false, none, g.mg.bootRec, none) := by
      simp only [Glexon.bootRom, hc, Glexon.event_boot]
      rfl
    simp only [Mgmt.boot, Prod.mk.injEq] at hboot
    simp only [Mgmt.Restarted, hc, hboot, and_self]
  · have hboot : ∃ w, (g.bootRom cold).mg.boot = (.running, b, false, none,
        { g.mg.bootRec with tries := if fallback then g.mg.bootRec.tries else g.mg.bootRec.tries - 1 }, w) := by
      refine ⟨some (g.mg.us + 1000 * fld (g.rd Reg.MG_WDOG) 0 32), ?_⟩
      simp only [Glexon.bootRom, hc, Glexon.event_boot]
      split
      · rw [Glexon.event_boot]; rfl
      · rfl
    obtain ⟨w, hboot⟩ := hboot
    simp only [Mgmt.boot, Prod.mk.injEq] at hboot
    simp only [Mgmt.Restarted, hc, hboot, and_self]

/-- The boot ROM writes no register but the count of lost events. -/
theorem Glexon.rd_bootRom (cold : Bool) {a : Nat} (h : a ≠ Reg.MG_EVR_STAT) : (g.bootRom cold).rd a = g.rd a := by
  rcases hc : g.mg.choose with _ | ⟨b, fallback⟩
  · simp only [Glexon.bootRom, hc, Glexon.rd_event _ _ _ _ _ h]
    rfl
  · simp only [Glexon.bootRom, hc, Glexon.rd_event _ _ _ _ _ h]
    split
    · exact Glexon.rd_event _ _ _ _ _ h
    · rfl

theorem Glexon.bootRom_frame (cold : Bool) : (g.bootRom cold).mgRstN = g.mgRstN ∧ (g.bootRom cold).tk = g.tk := by
  rcases hc : g.mg.choose with _ | ⟨b, fallback⟩
  · simp only [Glexon.bootRom, hc, Glexon.event_mgRstN, Glexon.event_tk]
    exact ⟨rfl, rfl⟩
  · simp only [Glexon.bootRom, hc, Glexon.event_mgRstN, Glexon.event_tk]
    split
    · rw [Glexon.event_mgRstN, Glexon.event_tk]
      exact ⟨rfl, rfl⟩
    · exact ⟨rfl, rfl⟩

/-! ### Restarts -/

theorem Glexon.restart_restarted (cause : Nat) : g.mg.Restarted (g.restart cause).mg :=
  (Glexon.bootRom_restarted _ false).of_rom (g.event_rom _ _ _)

theorem Glexon.rd_restart (cause : Nat) {a : Nat} (h : a ≠ Reg.MG_EVR_STAT) : (g.restart cause).rd a = g.rd a :=
  (Glexon.rd_bootRom _ false h).trans (g.rd_event _ _ _ _ h)

theorem Glexon.activate_restarted : g.mg.Restarted g.activate.mg := by
  unfold Glexon.activate
  extract_lets g1
  have hg1 : g.mg.Restarted g1.mg := g.restart_restarted 2
  split
  · exact hg1.of_boot (g1.event_boot _ _ _)
  · exact hg1

theorem Glexon.rd_activate {a : Nat} (h : a ≠ Reg.MG_EVR_STAT) : g.activate.rd a = g.rd a := by
  unfold Glexon.activate
  extract_lets g1
  have hg1 : g1.rd a = g.rd a := g.rd_restart 2 h
  split
  · exact (g1.rd_event _ _ _ _ h).trans hg1
  · exact hg1

/-! ### The cold boot -/

/-- SEQ and counts come back in registers alone. -/
theorem Glexon.restore_eq : ∃ r, g.restore = { g with regs := r } := by
  unfold Glexon.restore
  split <;> exact ⟨_, rfl⟩

/-- The ring of the mirror with the reserve merged into it, and the count of power cycles. -/
def Glexon.merged (ring : List (List Byte)) (c : Nat) : Glexon :=
  let g1 := g.modMg fun m => { m with mirror := ring, reserve := [], cycles := c }
  (match ring.getLast? with
   | some l => g1.wr Reg.MG_EVR_MIRRORED (word (recSeq l))
   | none => g1).wr Reg.MG_POWER_CYCLES (word c)

theorem Glexon.merged_frame (ring : List (List Byte)) (c : Nat) : (g.merged ring c).mg.boot = g.mg.boot ∧
    (g.merged ring c).mgRstN = g.mgRstN ∧ (g.merged ring c).tk = g.tk ∧ (g.merged ring c).mem = g.mem := by
  unfold Glexon.merged
  dsimp only
  split <;> exact ⟨rfl, rfl, rfl, rfl⟩

theorem Glexon.firstSteps_frame : g.firstSteps.mg.boot = g.mg.boot ∧ g.firstSteps.mgRstN = g.mgRstN ∧ g.firstSteps.tk = g.tk ∧
    g.firstSteps.mem = g.mem := by
  simp only [Glexon.firstSteps]
  generalize lastN 262144 _ = ring
  generalize (g.mg.cycles + 1) % 2 ^ 32 = c
  exact g.merged_frame ring c

/-- Firmware is up after a cold boot, if a slot boots, and what is ready is brought up. -/
def Glexon.coldUp : Glexon :=
  let g2 := g.restore.bootRom true
  ((if g2.mg.run = .running then g2.firstSteps else g2).modMg fun m => { m with ready := true }).bringUp

theorem Glexon.coldUp_spec : g.coldUp.mgRstN = g.mgRstN ∧ g.coldUp.mg.ready = true ∧ g.mg.Restarted g.coldUp.mg ∧
    g.coldUp.mem = g.mem ∧ g.coldUp.tk = g.tk := by
  unfold Glexon.coldUp
  extract_lets g2
  obtain ⟨r, hr⟩ := g.restore_eq
  have hg2 : g.mg.Restarted g2.mg ∧ g2.mgRstN = g.mgRstN ∧ g2.tk = g.tk ∧ g2.mem = g.mem := by
    unfold g2
    obtain ⟨hrst, htk⟩ := g.restore.bootRom_frame true
    have hmg := g.restore.bootRom_restarted true
    rw [(g.restore.bootRom_keeps true).1, hrst, htk]
    rw [hr] at hmg ⊢
    exact ⟨hmg, rfl, rfl, rfl⟩
  obtain ⟨hboot, hrst, htk, hmem⟩ := hg2
  clear_value g2
  generalize hg3 : (if g2.mg.run = .running then g2.firstSteps else g2) = g3
  have h3 : g3.mg.boot = g2.mg.boot ∧ g3.mgRstN = g2.mgRstN ∧ g3.tk = g2.tk ∧ g3.mem = g2.mem := by
    subst hg3
    split
    · exact g2.firstSteps_frame
    · exact ⟨rfl, rfl, rfl, rfl⟩
  obtain ⟨hboot3, hrst3, htk3, hmem3⟩ := h3
  obtain ⟨-, -, -, hmem4, hmg4, hrst4, htk4⟩ := (g3.modMg fun m => { m with ready := true }).bringUp_frame
  exact ⟨hrst4.trans (hrst3.trans hrst), by rw [hmg4]; rfl, hboot.of_boot (by rw [hmg4]; exact hboot3),
    hmem4.trans (hmem3.trans hmem), htk4.trans (htk3.trans htk)⟩

theorem exec_coldBoot {s : State} (nor : Option NorIn) (h : s.gx.mgRstN = false) : exec (.coldBoot nor) s = .next { s with
    gx := ({ s.gx with mgRstN := true, mg := nor.elim s.gx.mg s.gx.mg.program } : Glexon).coldUp } := by
  refine (onGxPins_next _ s : execColdBoot nor s = _).trans ?_
  rw [if_neg (by simp [h])]
  cases nor <;> rfl

/-! ### The commands of a restart -/

theorem exec_watchdogExpire {s : State} (h : s.gx.mgRstN = true) {w : Nat} (hw : s.gx.mg.wdogAt = some w) (hle : w ≤ s.gx.mg.us) :
    exec .watchdogExpire s = .next { s with gx := s.gx.restart 0 } := by
  refine (onMgmt_runs _ s h : execWatchdogExpire s = _).trans ?_
  rw [hw]
  simp only [hle, if_true]

theorem exec_mgRestart {s : State} (h : s.gx.mgRstN = true) (v : Word) : exec (.mgRestart v) s = .next { s with
    gx := if fld v 0 32 = 0x5A5A5A5A then s.gx.restart 1 else s.gx } :=
  (onMgmt_runs _ s h : execMgRestart v s = _)

theorem exec_fwActivationRestart {s : State} (h : s.gx.mgRstN = true) {b : Word} (hb : s.gx.mg.actAt = some b)
    (hle : b.toNat ≤ s.gx.tk.tickNo.toNat + 1) : exec .fwActivationRestart s = .next { s with gx := s.gx.activate } := by
  refine (onMgmt_runs _ s h : execFwActivationRestart s = _).trans ?_
  rw [hb]
  simp only [hle, if_true]

theorem exec_mgWdogKick {s : State} (h : s.gx.fwOn = true) (v : Word) : exec (.mgWdogKick v) s = .next { s with
    gx := { s.gx with mg := { s.gx.mg with wdogAt := some (s.gx.mg.us + 1000 * fld (s.gx.rd Reg.MG_WDOG) 0 32) } } } := by
  have hrst : s.gx.mgRstN = true := (Bool.and_eq_true_iff.1 h).1
  refine (onMgmt_runs _ s hrst : execMgWdogKick v s = _).trans ?_
  rw [Glexon.kick, if_pos h]
  rfl

/-! ### Updates -/

/-- The image that a request brings, in the slot that does not run. -/
def Mgmt.stage (m : Mgmt) (img : List Byte) : Mgmt := { m with slots := SMap.put [] m.slots (!m.slotB).toNat img, staged := false }

/-- The boot record that prefers it (R469). -/
def Mgmt.stageRec (m : Mgmt) : BootRec :=
  { pref := !m.slotB, commA := m.bootRec.commA && !m.slotB, commB := m.bootRec.commB && !(!m.slotB), tries := 3 }

theorem Mgmt.stage_slot (m : Mgmt) (img : List Byte) : (m.stage img).slot (!m.slotB) = img := SMap.get_put_same _ _ _ _

theorem Mgmt.stage_slot_running (m : Mgmt) (img : List Byte) : (m.stage img).slot m.slotB = m.slot m.slotB :=
  SMap.get_put_other _ _ _ _ _ (by cases m.slotB <;> decide)

/-- An image that is staged is not committed yet. -/
theorem Mgmt.stageRec_committed (m n : Mgmt) (h : n.bootRec = m.stageRec) : n.committed (!m.slotB) = false := by
  unfold Mgmt.committed
  rw [h, Mgmt.stageRec]
  cases m.slotB <;> simp

theorem exec_fwStage_uncommitted {s : State} (h : s.gx.fwOn = true) (q : MbxReq) (img : List Byte)
    (hc : s.gx.mg.committed s.gx.mg.slotB = false) :
    exec (.fwStage q img) s = .next { s with gx := s.gx.taken.mbxReply q.id 2 [] } := by
  refine (onMbx_taken _ s h : execFwStage q img s = _).trans ?_
  have hc' : s.gx.taken.mg.committed s.gx.taken.mg.slotB = false := hc
  simp only [hc', if_true]

theorem exec_fwStage_valid {s : State} (h : s.gx.fwOn = true) (q : MbxReq) (img : List Byte)
    (hc : s.gx.mg.committed s.gx.mg.slotB = true) (hrule : slotRule s.gx.mg.fuses (img.take 4194304) = 0) :
    ∃ args, exec (.fwStage q img) s = .next { s with
      gx := ((s.gx.taken.modMg fun m => { m.stage (img.take 4194304) with bootRec := m.stageRec, staged := true }).event 0x0801 31
        args).mbxReply q.id 0 [] } := by
  refine ⟨[word (!s.gx.mg.slotB).toNat, word (leAt img 16 4), word (leAt img 8 8)],
    (onMbx_taken _ s h : execFwStage q img s = _).trans ?_⟩
  have hc' : s.gx.taken.mg.committed s.gx.taken.mg.slotB = true := hc
  have hrule' : slotRule s.gx.taken.mg.fuses (img.take 4194304) = 0 := hrule
  generalize img.take 4194304 = l at hrule' ⊢
  simp only [hc', hrule', Bool.true_eq_false, if_false, if_true]
  rfl

theorem exec_fwStage_refused {s : State} (h : s.gx.fwOn = true) (q : MbxReq) (img : List Byte)
    (hc : s.gx.mg.committed s.gx.mg.slotB = true) (hrule : slotRule s.gx.mg.fuses (img.take 4194304) ≠ 0) :
    ∃ code args, exec (.fwStage q img) s = .next { s with
      gx := ((s.gx.taken.modMg fun m => m.stage (img.take 4194304)).event code 31 args).mbxReply q.id 4 [] } := by
  refine ⟨if slotRule s.gx.mg.fuses (img.take 4194304) = 6 then 0x0808 else 0x0802,
    if slotRule s.gx.mg.fuses (img.take 4194304) = 6 then
      [word (!s.gx.mg.slotB).toNat, word (leAt img 16 4), word s.gx.mg.fuses]
    else [word (!s.gx.mg.slotB).toNat, word (slotRule s.gx.mg.fuses (img.take 4194304))],
    (onMbx_taken _ s h : execFwStage q img s = _).trans ?_⟩
  have hmg : s.gx.taken.mg = s.gx.mg := rfl
  generalize img.take 4194304 = l at hrule ⊢
  simp only [hmg, hc, hrule, Bool.true_eq_false, if_false]
  split <;> rfl

theorem exec_fwActivate {s : State} (h : s.gx.fwOn = true) (q : MbxReq) : exec (.fwActivate q) s = .next { s with
    gx := if s.gx.mg.staged = false then s.gx.taken.mbxReply q.id 3 []
    else if leAt q.args 0 8 = 0 then (s.gx.taken.mbxReply q.id 0 []).activate
    else if leAt q.args 0 8 ≤ s.gx.tk.tickNo.toNat then s.gx.taken.mbxReply q.id 3 []
    else (s.gx.taken.modMg fun m => { m with actAt := some (word (leAt q.args 0 8)) }).mbxReply q.id 0 [] } :=
  (onMbx_taken _ s h : execFwActivate q s = _)

/-- The fuses that a commit blows, and the boot record that commits the running slot (R471). -/
def Mgmt.commit (m : Mgmt) : Mgmt :=
  { m with
    fuses := max m.fuses (min 64 (m.svn m.slotB)),
    bootRec := { m.bootRec with pref := m.slotB, commA := m.bootRec.commA || !m.slotB, commB := m.bootRec.commB || m.slotB } }

theorem Mgmt.commit_committed (m : Mgmt) : m.commit.committed m.slotB = true := by
  unfold Mgmt.commit Mgmt.committed
  cases m.slotB <;> simp

theorem exec_fwCommit {s : State} (h : s.gx.fwOn = true) (q : MbxReq) : ∃ args, exec (.fwCommit q) s = .next { s with
    gx := if s.gx.mg.committed s.gx.mg.slotB = true then s.gx.taken.mbxReply q.id 3 []
    else ((s.gx.taken.modMg Mgmt.commit).event 0x0804 31 args).mbxReply q.id 0 [] } :=
  ⟨[word s.gx.mg.slotB.toNat, word (max s.gx.mg.fuses (min 64 (s.gx.mg.svn s.gx.mg.slotB)))],
    (onMbx_taken _ s h : execFwCommit q s = _)⟩

theorem exec_fwRevert {s : State} (h : s.gx.fwOn = true) (q : MbxReq) : exec (.fwRevert q) s = .next { s with
    gx := if s.gx.mg.committed (!s.gx.mg.slotB) = true then
      ((s.gx.taken.modMg fun m => { m with bootRec := { m.bootRec with pref := !s.gx.mg.slotB } }).mbxReply q.id 0 []).restart 1
    else s.gx.taken.mbxReply q.id 3 [] } :=
  (onMbx_taken _ s h : execFwRevert q s = _)

/-- Settles O53, command by command. -/
theorem firmwareBootsRestartsAndUpdates : Obligations.FirmwareBootsRestartsAndUpdates := by
  intro s
  refine ⟨fun h => ⟨⟨_, exec_coldBoot none h, ?cold⟩, fun n => ⟨_, exec_coldBoot (some n) h, ?programmed⟩⟩,
    fun h => ⟨fun w hw hle => ⟨_, exec_watchdogExpire h hw hle, ?watchdog⟩, fun v hv => ⟨_, exec_mgRestart h v, ?key⟩,
      fun v hv => (exec_mgRestart h v).trans ?noKey, fun b hb hle => ⟨_, exec_fwActivationRestart h hb hle, ?activation⟩⟩,
    fun h q => ⟨fun v => exec_mgWdogKick h v, fun img => ?stage, ?activate, ?commit, ?revert⟩⟩
  case cold =>
    obtain ⟨hrst, hready, hboot, -, -⟩ := ({ s.gx with mgRstN := true } : Glexon).coldUp_spec
    exact ⟨hrst, hready, hboot⟩
  case programmed =>
    obtain ⟨hrst, -, hboot, hmem, htk⟩ := ({ s.gx with mgRstN := true, mg := s.gx.mg.program n } : Glexon).coldUp_spec
    exact ⟨hrst, hboot, hmem, htk⟩
  case watchdog => exact ⟨s.gx.restart_restarted 0, s.gx.restart_keeps 0⟩
  case key =>
    rw [if_pos hv]
    exact ⟨s.gx.restart_restarted 1, (s.gx.restart_keeps 1).2⟩
  case noKey => rw [if_neg hv]
  case activation => exact ⟨s.gx.activate_restarted, s.gx.activate_keeps.2⟩
  case stage =>
    have htaken := State.Taken.self s
    cases hc : s.gx.mg.committed s.gx.mg.slotB with
    | false =>
      exact ⟨_, exec_fwStage_uncommitted h q img hc, fun _ => ⟨htaken.answered q (by decide) [], Glexon.mbxReply_mg _ _ _ _⟩,
        nofun, nofun⟩
    | true =>
      by_cases hrule : slotRule s.gx.mg.fuses (img.take 4194304) = 0
      · obtain ⟨args, hexec⟩ := exec_fwStage_valid h q img hc hrule
        generalize img.take 4194304 = l at hexec hrule ⊢
        refine ⟨_, hexec, nofun, fun _ _ => ⟨((htaken.modMg _).event _ _ _).answered q (by decide) [], ?_⟩,
          fun _ hn => absurd hrule hn⟩
        dsimp only
        rw [Glexon.mbxReply_mg]
        exact ⟨(Glexon.event_mg_view _ (fun m => m.slot (!s.gx.mg.slotB)) (fun _ _ => rfl) _ _ _).trans (s.gx.mg.stage_slot l),
          (Glexon.event_mg_view _ (fun m => m.slot s.gx.mg.slotB) (fun _ _ => rfl) _ _ _).trans (s.gx.mg.stage_slot_running l),
          Glexon.event_mg_view _ (fun m => m.bootRec.pref) (fun _ _ => rfl) _ _ _,
          (Glexon.event_mg_view _ (fun m => m.committed (!s.gx.mg.slotB)) (fun _ _ => rfl) _ _ _).trans
            (s.gx.mg.stageRec_committed _ rfl),
          Glexon.event_mg_view _ (fun m => m.bootRec.tries) (fun _ _ => rfl) _ _ _,
          Glexon.event_mg_view _ Mgmt.staged (fun _ _ => rfl) _ _ _⟩
      · obtain ⟨code, args, hexec⟩ := exec_fwStage_refused h q img hc hrule
        generalize img.take 4194304 = l at hexec hrule ⊢
        refine ⟨_, hexec, nofun, fun _ hz => absurd hz hrule,
          fun _ _ => ⟨((htaken.modMg _).event _ _ _).answered q (by decide) [], ?_⟩⟩
        dsimp only
        rw [Glexon.mbxReply_mg]
        exact ⟨Glexon.event_mg_view _ Mgmt.bootRec (fun _ _ => rfl) _ _ _,
          Glexon.event_mg_view _ Mgmt.staged (fun _ _ => rfl) _ _ _⟩
  case activate =>
    refine ⟨_, exec_fwActivate h q, fun hst => ?_, fun hst h0 => ?_, fun hst ht => ?_⟩
    · rw [if_pos hst]
      exact (State.Taken.self s).answered q (by decide) []
    · rw [if_neg (by simp [hst]), if_pos h0]
      refine ⟨(State.Taken.self s).replied q (by decide) [] fun a ha => Glexon.rd_activate _ (mbxReg_ne ha), ?_⟩
      have hboot := (s.gx.taken.mbxReply q.id 0 []).activate_restarted
      rwa [Glexon.mbxReply_mg] at hboot
    · rw [if_neg (by simp [hst]), if_neg (by omega), if_neg (by omega)]
      refine ⟨((State.Taken.self s).modMg _).answered q (by decide) [], ?_⟩
      dsimp only
      rw [Glexon.mbxReply_mg]
      rfl
  case commit =>
    obtain ⟨args, hexec⟩ := exec_fwCommit h q
    refine ⟨_, hexec, fun hc => ?_, fun hc => ?_⟩
    · rw [if_pos hc]
      exact (State.Taken.self s).answered q (by decide) []
    · rw [if_neg (by simp [hc])]
      refine ⟨(((State.Taken.self s).modMg _).event _ _ _).answered q (by decide) [], ?_⟩
      dsimp only
      rw [Glexon.mbxReply_mg]
      exact ⟨(Glexon.event_mg_view _ (fun m => m.committed s.gx.mg.slotB) (fun _ _ => rfl) _ _ _).trans s.gx.mg.commit_committed,
        Glexon.event_mg_view _ Mgmt.fuses (fun _ _ => rfl) _ _ _⟩
  case revert =>
    refine ⟨_, exec_fwRevert h q, fun hc => ?_, fun hc => ?_⟩
    · rw [if_neg (by simp [hc])]
      exact (State.Taken.self s).answered q (by decide) []
    · rw [if_pos hc]
      refine ⟨((State.Taken.self s).modMg _).replied q (by decide) [] fun a ha => Glexon.rd_restart _ _ (mbxReg_ne ha), ?_⟩
      have hboot := ((s.gx.taken.modMg fun m => { m with bootRec := { m.bootRec with pref := !s.gx.mg.slotB } }).mbxReply q.id 0
        []).restart_restarted 1
      rw [Glexon.mbxReply_mg] at hboot
      exact hboot

end Sys2Proof.Machine
end

section
/-! PROOFS. Mailbox requests of the core domain (R47, R256, R260, R290, R341, R408, R436, R468, R472). -/

namespace Sys2Proof.Machine

/-! ### Requests that are not carried out -/

/-- A request of the core domain is refused while that is in reset or halted. -/
theorem onMbxCore_held (q : MbxReq) (f : Glexon → Glexon) (s : State) (h : s.gx.fwOn = true) (hup : s.gx.coreUp = false) :
    onMbxCore q f s = .next { s with gx := s.gx.taken.mbxReply q.id 4 [] } := by
  refine (onMbx_taken _ s h : onMbxCore q f s = _).trans ?_
  have hup' : ¬s.gx.taken.coreUp = true := Bool.eq_false_iff.1 hup
  rw [if_neg hup']

theorem exec_mbxCoreRow (s : State) (q : MbxReq) : ∀ row ∈ ([.submitCmd, .memberList, .slotAck, .imgLoad, .imgActivate,
    .coreWithdraw, .coreRestore, .sdcClear] : List (MbxReq → Instr)), ∃ f, exec (row q) s = onMbxCore q f s := by
  simp only [List.forall_mem_cons]
  exact ⟨⟨_, (rfl : execSubmitCmd q s = _)⟩, ⟨_, (rfl : execMemberList q s = _)⟩, ⟨_, (rfl : execSlotAck q s = _)⟩,
    ⟨_, (rfl : execImgLoad q s = _)⟩, ⟨_, (rfl : execImgActivate q s = _)⟩, ⟨_, (rfl : execCoreWithdraw q s = _)⟩,
    ⟨_, (rfl : execCoreRestore q s = _)⟩, ⟨_, (rfl : execSdcClear q s = _)⟩, List.forall_mem_nil _⟩

theorem Glexon.mbxReply_mem (g : Glexon) (id : BitVec 32) (st : Nat) (data : List Byte) : (g.mbxReply id st data).mem = g.mem :=
  (g.mbxReply_keeps id st data).1

theorem exec_badReq {s : State} (h : s.gx.fwOn = true) {op : BitVec 16} (hop : op = 0 ∨ 12 < op.toNat) (q : MbxReq) :
    exec (.badReq op q) s = .next { s with gx := s.gx.taken.mbxReply q.id 1 [] } := by
  have hout : ¬(1 ≤ op.toNat ∧ op.toNat ≤ 12) := by
    rcases hop with rfl | hop
    · decide
    · omega
  exact (if_neg hout : execBadReq op q s = _).trans (onMbx_taken _ s h)

/-! ### What the operations leave of the mailbox -/

theorem mbxReg_ne_of {a b : Nat} (ha : mbxReg a = true) (hb : mbxReg b = false) : a ≠ b := by
  rintro rfl
  simp [ha] at hb

theorem mbxRspReg_of {a : Nat} (h : mbxReg a = false) : mbxRspReg a = false := (Bool.or_eq_false_iff.1 h).2

section

variable (g : Glexon) {a : Nat}

theorem Glexon.rd_wr_mbx (ha : mbxReg a = true) {b : Nat} (hb : mbxReg b = false) (v : Word) : (g.wr b v).rd a = g.rd a :=
  Glexon.rd_wr_other _ _ _ _ (mbxReg_ne_of ha hb)

theorem Glexon.rd_fifoPut_mbx (ha : mbxReg a = true) (r : Rec) : (g.fifoPut r).rd a = g.rd a := by
  unfold Glexon.fifoPut
  split
  · rfl
  · exact (Glexon.rd_event _ _ _ _ _ (mbxReg_ne ha)).trans (g.rd_wr_mbx ha (by decide) _)

theorem Glexon.rd_originate_mbx (ha : mbxReg a = true) (typ target : Nat) (eff : Word) (args : List Byte) (dst : Nat) :
    (g.originate typ target eff args dst).rd a = g.rd a := by
  have hnew : (g.newCmd typ target eff args).2.rd a = g.rd a := g.rd_wr_mbx ha (by decide) _
  unfold Glexon.originate
  dsimp only
  split
  · exact (Glexon.rd_fifoPut_mbx _ ha _).trans hnew
  · exact hnew

theorem Glexon.sendHeld_frame (id gen : Nat) (ds : List Nat) : (g.sendHeld id gen ds).mem = g.mem ∧
    ∀ a, mbxReg a = true → (g.sendHeld id gen ds).rd a = g.rd a := by
  unfold Glexon.sendHeld
  split
  · split
    · exact ⟨(g.originate_keeps _ _ _ _ _).1, fun _ ha => g.rd_originate_mbx ha _ _ _ _ _⟩
    · exact ⟨rfl, fun _ _ => rfl⟩
  · exact ⟨rfl, fun _ _ => rfl⟩

theorem Glexon.checkList_frame (id : Nat) : (g.checkList id).mem = g.mem ∧
    ∀ a, mbxReg a = true → (g.checkList id).rd a = g.rd a := by
  unfold Glexon.checkList
  split
  · exact Glexon.sendHeld_frame _ _ _ _
  · exact ⟨rfl, fun _ ha => g.rd_wr_mbx ha (by decide) _⟩

end

/-! ### SUBMIT_CMD -/

theorem Glexon.roleSet_taken (g : Glexon) {k : Nat} (hk : k < 4) : g.taken.roleSet k = g.roleSet k := by
  have hne : Reg.RE_ROLE_CFG k ≠ Reg.MG_MBX_REQ_CI := by simp only [Reg.RE_ROLE_CFG, Reg.MG_MBX_REQ_CI]; omega
  simp only [Glexon.roleSet, Glexon.roleCfg, Glexon.rwtRd, g.rd_taken hne]
  rfl

theorem Glexon.lowSlot_taken (g : Glexon) : g.taken.lowSlot = g.lowSlot := by
  unfold Glexon.lowSlot
  rw [List.find?_congr fun k hk => g.roleSet_taken (List.mem_range.1 hk)]

/-- The command that a request enters is the same before firmware has taken the request. -/
theorem Glexon.newCmd_taken (g : Glexon) (typ target : Nat) (eff : Word) (args : List Byte) :
    (g.taken.newCmd typ target eff args).1 = (g.newCmd typ target eff args).1 := by
  have hseq := g.rd_taken (a := Reg.TS_CMD_SEQ) (by decide)
  have hcycles := g.rd_taken (a := Reg.MG_POWER_CYCLES) (by decide)
  have hindex : g.taken.index = g.index := congrArg (fld · 0 14) (g.rd_taken (by decide))
  simp only [Glexon.newCmd, hseq, hcycles, hindex, g.lowSlot_taken]
  rfl

theorem exec_submitCmd {s : State} (h : s.gx.fwOn = true) (hup : s.gx.coreUp = true) (q : MbxReq) :
    exec (.submitCmd q) s = .next { s with gx := s.gx.taken.submit q } :=
  (onMbxCore_taken q _ s h hup : execSubmitCmd q s = _)

theorem Glexon.submit_unknown (g : Glexon) {q : MbxReq} (h : leAt q.args 0 2 < 0x0401) : g.submit q = g.mbxReply q.id 1 [] := by
  unfold Glexon.submit
  exact if_pos (.inl h)

/-- A fleet command that fits goes into the FIFO of the Glexon that it is submitted to (R408). -/
theorem Glexon.submit_fleet (g : Glexon) {q : MbxReq} (htyp : leAt q.args 0 2 = 0x0406) (htgt : leAt q.args 12 4 = toFleet)
    (hidx : g.indexValid = true)
    (hok : cmdArgsOk (g.newCmd 0x0406 toFleet (word (leAt q.args 16 8)) (q.args.drop 24)).1 = true) :
    g.submit q = (g.originate 0x0406 toFleet (word (leAt q.args 16 8)) (q.args.drop 24) 0).mbxReply q.id 0 [] := by
  have hfleet : fleetCmd 0x0406 = true := by decide
  have hbits : Nat.testBit toFleet 30 = true ∧ fldN toFleet 18 12 = 0 := by decide
  simp only [Glexon.submit, htyp, htgt, hidx, hok, hfleet, hbits]
  simp

theorem exec_submitCmd_unknown {s : State} (h : s.gx.fwOn = true) (hup : s.gx.coreUp = true) {q : MbxReq}
    (hunk : leAt q.args 0 2 < 0x0401) : exec (.submitCmd q) s = .next { s with gx := s.gx.taken.mbxReply q.id 1 [] } := by
  rw [exec_submitCmd h hup, Glexon.submit_unknown _ hunk]

theorem exec_submitCmd_fleet {s : State} (h : s.gx.fwOn = true) (hup : s.gx.coreUp = true) {q : MbxReq}
    (htyp : leAt q.args 0 2 = 0x0406) (htgt : leAt q.args 12 4 = toFleet) (hidx : s.gx.indexValid = true)
    (hok : cmdArgsOk (s.gx.newCmd 0x0406 toFleet (word (leAt q.args 16 8)) (q.args.drop 24)).1 = true) :
    exec (.submitCmd q) s = .next { s with
      gx := (s.gx.taken.originate 0x0406 toFleet (word (leAt q.args 16 8)) (q.args.drop 24) 0).mbxReply q.id 0 [] } := by
  have hidx' : s.gx.taken.indexValid = true := (congrArg (bit · 63) (s.gx.rd_taken (by decide))).trans hidx
  rw [← s.gx.newCmd_taken] at hok
  rw [exec_submitCmd h hup, Glexon.submit_fleet _ htyp htgt hidx' hok]

theorem Glexon.mbxReply_ts (g : Glexon) (id : BitVec 32) (st : Nat) (data : List Byte) : (g.mbxReply id st data).ts = g.ts := by
  obtain ⟨r, hr⟩ := g.mbxReply_eq id st data
  rw [hr]

theorem Glexon.mbxReply_image (g : Glexon) (id : BitVec 32) (st : Nat) (data : List Byte) :
    (g.mbxReply id st data).image = g.image := by
  obtain ⟨r, hr⟩ := g.mbxReply_eq id st data
  rw [hr]

/-- A fleet command enters the FIFO behind those that wait there. -/
theorem Glexon.originate_fleet_fifo (g : Glexon) {typ : Nat} (hfleet : fleetCmd typ = true) (hroom : g.ts.fifo.length < 256)
    (target : Nat) (eff : Word) (args : List Byte) (dst : Nat) :
    (g.originate typ target eff args dst).ts.fifo = g.ts.fifo ++ [(g.newCmd typ target eff args).1] := by
  have hroom' : (g.newCmd typ target eff args).2.ts.fifo.length < 256 := hroom
  simp only [Glexon.originate, hfleet, true_or, if_true, Glexon.fifoPut, hroom']
  rfl

/-! ### The other requests -/

theorem exec_memberList {s : State} (h : s.gx.fwOn = true) (hup : s.gx.coreUp = true) {q : MbxReq} {id off len : Nat}
    (hid : id = leAt q.args 0 2) (hoff : off = leAt q.args 2 2) (hlen : len = leAt q.args 4 2)
    (hfit : ¬(4096 ≤ id ∨ off % 8 ≠ 0 ∨ len % 8 ≠ 0 ∨ len < 8 ∨ 48 < len ∨ 512 < off + len)) :
    exec (.memberList q) s = .next { s with
      gx := (if off + len = 512 then
          ((s.gx.taken.busWrite none (listAt id + off) (((padTo 56 q.args).drop 8).take len)).dropHeld id).checkList id
        else (s.gx.taken.busWrite none (listAt id + off) (((padTo 56 q.args).drop 8).take len)).dropHeld id).mbxReply q.id 0 [] } := by
  subst hid hoff hlen
  refine (onMbxCore_taken q _ s h hup : execMemberList q s = _).trans ?_
  simp only [hfit, if_false]

theorem Glexon.busWrite_quiet (g : Glexon) {at_ : Nat} {l : List Byte} (h : g.clash none true at_ l.length = false) :
    (g.busWrite none at_ l).mem = memWrite g.mem at_ l ∧ ∀ a, (g.busWrite none at_ l).rd a = g.rd a := by
  rw [Glexon.busWrite_eq _ _ _ _ h]
  exact ⟨rfl, fun _ => rfl⟩

theorem exec_slotAck {s : State} (h : s.gx.fwOn = true) (hup : s.gx.coreUp = true) {q : MbxReq}
    (hi : leAt q.args 0 4 < s.gx.image.pairs.length) : exec (.slotAck q) s = .next { s with
      gx := (s.gx.taken.busWrite none ((s.gx.rd Reg.RE_SLOT_BASE).toNat + pairOff s.gx.image.pairs (leAt q.args 0 4) + 8)
        (leBytes 8 (leAt q.args 8 8))).mbxReply q.id 0 [] } := by
  refine (onMbxCore_taken q _ s h hup : execSlotAck q s = _).trans ?_
  have hin : ¬s.gx.taken.image.pairs.length ≤ leAt q.args 0 4 := Nat.not_le.2 hi
  rw [if_neg hin, s.gx.rd_taken (by decide)]
  rfl

theorem exec_coreReqRow {s : State} (h : s.gx.fwOn = true) (hup : s.gx.coreUp = true) (q : MbxReq) :
    ∀ row ∈ ([(.coreWithdraw, Reg.MC_WITHDRAW_REQ), (.coreRestore, Reg.MC_RESTORE_REQ)] : List ((MbxReq → Instr) × Nat)),
      mbxReg row.2 = false ∧ exec (row.1 q) s = .next { s with
        gx := (s.gx.taken.wr row.2 (s.gx.rd row.2 ||| word (leAt q.args 0 4 % 2 ^ 24))).mbxReply q.id 0 [] } := by
  have hword (n : Nat) : BitVec.setWidth 64 (BitVec.ofNat 24 n) = word (n % 2 ^ 24) := by
    refine BitVec.eq_of_toNat_eq ?_
    simp [word]
  have hreq (reg : Nat) (hreg : reg ≠ Reg.MG_MBX_REQ_CI) : s.gx.taken.coreRequest reg 31 (BitVec.ofNat 24 (leAt q.args 0 4)) =
      s.gx.taken.wr reg (s.gx.rd reg ||| word (leAt q.args 0 4 % 2 ^ 24)) := by
    rw [Glexon.coreRequest, if_pos rfl, s.gx.rd_taken hreg, hword]
  simp only [List.forall_mem_cons]
  refine ⟨⟨by decide, (onMbxCore_taken q _ s h hup : execCoreWithdraw q s = _).trans ?_⟩,
    ⟨by decide, (onMbxCore_taken q _ s h hup : execCoreRestore q s = _).trans ?_⟩, List.forall_mem_nil _⟩
  · rw [hreq _ (by decide)]
  · rw [hreq _ (by decide)]

theorem regFind_auPortStat : ∀ p < 64, ∃ f, regFind gxRegFams (Reg.AU_PORT_STAT p) = some f ∧ f.acc = .row1c ∧
    f.cmask = 0x8000000000000000 := by
  decide

theorem mbxReg_auPortStat : ∀ p < 64, mbxReg (Reg.AU_PORT_STAT p) = false := by decide

/-- No address below `hi` is one of registers that begin at or above `hi`. -/
theorem among_eq_false_of_lt {base n st a hi : Nat} (hhi : a < hi) (h : hi ≤ base) : among base n st a = false := by
  simp [among]
  omega

/-- A write of AU_PORT_STAT_p starts nothing. -/
theorem Glexon.csrWrite_auPortStat (g : Glexon) (n : Nat) {p : Nat} (hp : p < 64) (v : Word) :
    g.csrWrite n (Reg.AU_PORT_STAT p) v = g.plainWrite (Reg.AU_PORT_STAT p) v := by
  have hlo : 0x80700408 ≤ Reg.AU_PORT_STAT p := Nat.le_add_right _ _
  have hhi : Reg.AU_PORT_STAT p < 0x80700808 := by unfold Reg.AU_PORT_STAT; omega
  generalize Reg.AU_PORT_STAT p = a at hlo hhi ⊢
  have below {r : Nat} (h : r < 0x80700408) : a ≠ r := by omega
  have above {r : Nat} (h : 0x80700808 ≤ r) : a ≠ r := by omega
  simp (disch := decide) only [Glexon.csrWrite, below, above, among_eq_false hlo, among_eq_false_of_lt hhi, or_self, if_false,
    Bool.false_eq_true]

/-- A 1 written to bit 63 of AU_PORT_STAT_p clears it (R290). -/
theorem Glexon.csrWrite_auPortStat_clear (g : Glexon) (n : Nat) {p : Nat} (hp : p < 64) : ∃ w, bit w 63 = false ∧
    g.csrWrite n (Reg.AU_PORT_STAT p) (word (2 ^ 63)) = g.wr (Reg.AU_PORT_STAT p) w := by
  obtain ⟨f, hf, hacc, hmask⟩ := regFind_auPortStat p hp
  refine ⟨g.rd (Reg.AU_PORT_STAT p) &&& ~~~(word (2 ^ 63) &&& f.cmask), ?_, ?_⟩
  · rw [hmask, bit, BitVec.getLsbD_and, BitVec.getLsbD_not]
    simp [word]
  · rw [g.csrWrite_auPortStat n hp, g.plainWrite_row1c _ hf hacc]

theorem exec_sdcClear {s : State} (h : s.gx.fwOn = true) (hup : s.gx.coreUp = true) (q : MbxReq) :
    exec (.sdcClear q) s = .next { s with
      gx := if 64 ≤ leAt q.args 0 1 then s.gx.taken.mbxReply q.id 1 []
        else (s.gx.taken.csrWrite 31 (Reg.AU_PORT_STAT (leAt q.args 0 1)) (word (2 ^ 63))).mbxReply q.id 0 [] } :=
  (onMbxCore_taken q _ s h hup : execSdcClear q s = _)

theorem exec_imgLoad {s : State} (h : s.gx.fwOn = true) (hup : s.gx.coreUp = true) (q : MbxReq) :
    (s.gx.rm.boot.busy = true → exec (.imgLoad q) s = .next { s with gx := s.gx.taken.mbxReply q.id 2 [] }) ∧
    (s.gx.rm.boot.busy = false → s.gx.mg.mapOk = false →
      exec (.imgLoad q) s = .next { s with gx := s.gx.taken.mbxReply q.id 3 [] }) := by
  refine ⟨fun hbusy => ?_, fun hbusy hmap => ?_⟩
  · have hbusy' : s.gx.taken.rm.boot.busy = true := hbusy
    refine (onMbxCore_taken q _ s h hup : execImgLoad q s = _).trans ?_
    rw [if_pos hbusy']
  · have hbusy' : ¬s.gx.taken.rm.boot.busy = true := Bool.eq_false_iff.1 hbusy
    have hmap' : s.gx.taken.mg.mapOk = false := hmap
    refine (onMbxCore_taken q _ s h hup : execImgLoad q s = _).trans ?_
    rw [if_neg hbusy', if_pos hmap']

theorem exec_imgActivate {s : State} (h : s.gx.fwOn = true) (hup : s.gx.coreUp = true) (q : MbxReq) :
    exec (.imgActivate q) s = .next { s with
      gx := (s.gx.taken.imageActivate (word (leAt q.args 0 8))).2.mbxReply q.id
        (if (s.gx.taken.imageActivate (word (leAt q.args 0 8))).1 then 0 else 3) [] } :=
  (onMbxCore_taken q _ s h hup : execImgActivate q s = _)

theorem Glexon.imageActivate_unmet (g : Glexon) (b : Word) (h : g.imageUnmet ≠ 0) :
    g.imageActivate b = (false, g.event 0x0807 31 [b, word g.imageUnmet]) := by
  simp only [Glexon.imageActivate, h, ne_eq, not_false_eq_true, if_true]

/-- A boundary far enough ahead is noted (R472). -/
theorem Glexon.imageActivate_later (g : Glexon) {n : Nat} (h : g.imageUnmet = 0) (hlo : g.tk.tickNo.toNat + 5 ≤ n)
    (hhi : n < 2 ^ 63) :
    g.imageActivate (word n) = (true, g.wr Reg.MG_IMG_ACT (word (2 ^ 63 + n))) := by
  have hn : (word n).toNat = n := by
    rw [word, BitVec.toNat_ofNat]
    omega
  have hne : ¬word n = 0 := fun hz => by
    rw [hz] at hn
    simp at hn
    omega
  have hlate : g.tk.tickNo.toNat + 5 ≤ n ∧ n < 2 ^ 63 := ⟨hlo, hhi⟩
  simp only [Glexon.imageActivate, h, hn, hne, hlate, decide_false, Bool.false_and, Bool.false_eq_true, ne_eq, not_true_eq_false,
    and_self, or_true, if_true, if_false]

/-- Settles O46, request by request. -/
theorem mailboxRequestsAreAnswered : Obligations.MailboxRequestsAreAnswered := by
  intro s q
  have htaken := State.Taken.self s
  refine ⟨fun row hrow => ?held, fun h op hop => ⟨_, exec_badReq h hop q, htaken.answered q (by decide) []⟩, fun h hup => ⟨
    fun htyp htgt hidx hroom hok => ?submit, fun hunk => ?unknown,
    fun id off len hid hoff hlen hlt h8 hl8 hmin hmax hend hclash => ?list,
    fun i hi hlt hclash => ?ack, fun row hrow => ?cores, fun hp => ?clear, fun hp => ?noPort,
    fun hbusy => ⟨_, (exec_imgLoad h hup q).1 hbusy, htaken.answered q (by decide) []⟩,
    fun hbusy hmap => ⟨_, (exec_imgLoad h hup q).2 hbusy hmap, htaken.answered q (by decide) []⟩,
    fun hunmet => ⟨_, exec_imgActivate h hup q, ?unmet⟩, fun hmet hlo hhi => ⟨_, exec_imgActivate h hup q, ?noted⟩⟩⟩
  case held =>
    obtain ⟨f, hf⟩ := exec_mbxCoreRow s q row hrow
    exact ⟨fun h => hf.trans (onMbx_held _ s h), fun h hup => ⟨_, hf.trans (onMbxCore_held q f s h hup),
      htaken.answered q (by decide) [], Glexon.mbxReply_mem _ _ _ _⟩⟩
  case submit =>
    refine ⟨_, exec_submitCmd_fleet h hup htyp htgt hidx hok, ?_, ?_⟩
    · exact (htaken.of_rd fun a ha => Glexon.rd_originate_mbx _ ha _ _ _ _ _).answered q (by decide) []
    · have hfifo := s.gx.taken.originate_fleet_fifo (typ := 0x0406) (by decide) hroom toFleet (word (leAt q.args 16 8))
        (q.args.drop 24) 0
      rw [s.gx.newCmd_taken] at hfifo
      dsimp only
      rw [Glexon.mbxReply_ts, hfifo]
      rfl
  case unknown => exact ⟨_, exec_submitCmd_unknown h hup hunk, htaken.answered q (by decide) []⟩
  case list =>
    have hlen' : (((padTo 56 q.args).drop 8).take len).length = len := by
      rw [List.length_take, List.length_drop, padTo, List.length_append, List.length_replicate]
      omega
    obtain ⟨hmem, hrd⟩ := s.gx.taken.busWrite_quiet (l := ((padTo 56 q.args).drop 8).take len) (by rwa [hlen'])
    have hslot : s.Taken ((s.gx.taken.busWrite none (listAt id + off) (((padTo 56 q.args).drop 8).take len)).dropHeld id) :=
      htaken.of_rd fun a _ => hrd a
    refine ⟨_, exec_memberList h hup hid hoff hlen (by omega), ?_, (Glexon.mbxReply_mem _ _ _ _).trans ?_⟩
    · refine State.Taken.answered ?_ q (by decide) []
      split
      · exact hslot.of_rd (Glexon.checkList_frame _ id).2
      · exact hslot
    · split
      · exact (Glexon.checkList_frame _ id).1.trans hmem
      · exact hmem
  case ack =>
    subst hi
    obtain ⟨hmem, hrd⟩ := s.gx.taken.busWrite_quiet (l := leBytes 8 (leAt q.args 8 8)) (by rw [length_leBytes]; exact hclash)
    exact ⟨_, exec_slotAck h hup hlt, (htaken.of_rd fun a _ => hrd a).answered q (by decide) [],
      (Glexon.mbxReply_mem _ _ _ _).trans hmem⟩
  case cores =>
    obtain ⟨hreg, hexec⟩ := exec_coreReqRow h hup q row hrow
    refine ⟨_, hexec, (htaken.of_rd fun a ha => Glexon.rd_wr_mbx _ ha hreg _).answered q (by decide) [],
      Glexon.mbxReply_mem _ _ _ _, ?_⟩
    exact (Glexon.rd_mbxReply _ _ _ _ (mbxRspReg_of hreg)).trans (Glexon.rd_wr_same _ _ _)
  case clear =>
    have hreg := mbxReg_auPortStat (leAt q.args 0 1) hp
    obtain ⟨w, hw, hclear⟩ := s.gx.taken.csrWrite_auPortStat_clear 31 hp
    refine ⟨_, (exec_sdcClear h hup q).trans (by rw [if_neg (by omega), hclear]), ?_, ?_⟩
    · exact (htaken.of_rd fun a ha => Glexon.rd_wr_mbx _ ha hreg _).answered q (by decide) []
    · dsimp only
      rw [Glexon.rd_mbxReply _ _ _ _ (mbxRspReg_of hreg), Glexon.rd_wr_same, hw]
  case noPort => exact ⟨_, (exec_sdcClear h hup q).trans (by rw [if_pos hp]), htaken.answered q (by decide) []⟩
  case unmet =>
    have hunmet' : s.gx.taken.imageUnmet ≠ 0 := hunmet
    rw [Glexon.imageActivate_unmet _ _ hunmet']
    exact ⟨(htaken.event _ _ _).answered q (st := 3) (by decide) [],
      (Glexon.mbxReply_image _ _ _ _).trans (Glexon.event_image _ _ _ _)⟩
  case noted =>
    have hmet' : s.gx.taken.imageUnmet = 0 := hmet
    rw [Glexon.imageActivate_later _ hmet' hlo hhi]
    exact ⟨(htaken.of_rd fun a ha => Glexon.rd_wr_mbx _ ha (by decide) _).answered q (st := 0) (by decide) [],
      (Glexon.rd_mbxReply _ _ _ _ (by decide)).trans (Glexon.rd_wr_same _ _ _), Glexon.mbxReply_image _ _ _ _⟩

end Sys2Proof.Machine
end

section
/-! PROOFS. The sample buffer and trace frames of the Observation Unit (R480, R481, R485 to R487). -/

namespace Sys2Proof.Machine

/-! ### Bytes -/

theorem length_padTo {n : Nat} {l : List Byte} (h : l.length ≤ n) : (padTo n l).length = n := by
  rw [padTo, List.length_append, List.length_replicate]
  omega

/-- The first field of some bytes. -/
theorem leAt_head {n v : Nat} (hv : v < 256 ^ n) (r : List Byte) : leAt (leBytes n v ++ r) 0 n = v := by
  rw [leAt, List.drop_zero, List.take_left' (length_leBytes n v), leNat_leBytes n v hv]

variable (g : Glexon)

/-! ### The sample buffer -/

theorem Glexon.length_sampleEntry (seq : Nat) : (g.sampleEntry seq).length = 2112 := by
  have hcounts : ((List.range 256).flatMap fun k => leBytes 8 (g.rd (Reg.OB_SNAP k)).toNat).length = 2048 := by
    rw [List.length_flatMap]
    simp only [length_leBytes, List.map_const', List.length_range, List.sum_replicate, smul_eq_mul]
  simp only [Glexon.sampleEntry, List.length_append, length_leBytes, hcounts]

theorem Glexon.busWrite_ob {a : Nat} {l : List Byte} (h : g.clash none true a l.length = false) :
    (g.busWrite none a l).ob = g.ob := by
  rw [Glexon.busWrite_eq _ _ _ _ h]
  rfl

/-- The set of counts is written, or cannot be. -/
def Glexon.sampled : Glexon := { g with ob := { g.ob with due := false } }

theorem exec_sampleBufferWrite_none {s : State} (hup : s.gx.coreUp = true) (hdue : s.gx.ob.due = false) :
    exec .sampleBufferWrite s = .next s := by
  refine (onCore_runs _ s hup : execSampleBufferWrite s = _).trans ?_
  rw [if_pos (.inl hdue)]

section

variable {s : State} {base n : Nat} (hup : s.gx.coreUp = true) (hdue : s.gx.ob.due = true) (hon : bit (s.gx.rd Reg.OB_CTRL) 62 = true)
  (hbase : base = fld (s.gx.rd Reg.OB_BUF_BASE) 0 48) (hn : n = fld (s.gx.rd Reg.OB_BUF_ENTRIES) 0 17) (h1 : 1 ≤ n)

include hup hdue hon hbase hn h1

/-- The entry goes to its place in the ring, which lies in record memory. -/
theorem exec_sampleBufferWrite_entry {seq : Nat} (hseq : seq = (satAdd (s.gx.rd Reg.OB_BUF_SEQ) 1).toNat)
    (hin : ¬(base % 64 ≠ 0 ∨ base < 0x1C00000000 ∨ 0x2200000000 < base + 2112 * n)) :
    exec .sampleBufferWrite s = .next { s with
      gx := (s.gx.sampled.wr Reg.OB_BUF_SEQ (word seq)).busWrite none (base + 2112 * (seq % n)) (s.gx.sampleEntry seq) } := by
  subst hbase hseq
  have hmax : max 1 (fld (s.gx.rd Reg.OB_BUF_ENTRIES) 0 17) = n := by omega
  refine (onCore_runs _ s hup : execSampleBufferWrite s = _).trans ?_
  simp only [hdue, hon, hmax, hin, Bool.true_eq_false, or_self, if_false]
  rfl

/-- A ring that lies wrong takes none, and shows in OB_STAT. -/
theorem exec_sampleBufferWrite_wrong (hout : base % 64 ≠ 0 ∨ base < 0x1C00000000 ∨ 0x2200000000 < base + 2112 * n) :
    exec .sampleBufferWrite s = .next { s with gx := s.gx.sampled.wr Reg.OB_STAT (putBit (s.gx.rd Reg.OB_STAT) 63 true) } := by
  subst hbase
  have hmax : max 1 (fld (s.gx.rd Reg.OB_BUF_ENTRIES) 0 17) = n := by omega
  refine (onCore_runs _ s hup : execSampleBufferWrite s = _).trans ?_
  simp only [hdue, hon, hmax, hout, Bool.true_eq_false, or_self, if_false, if_true]
  rfl

end

/-! ### Packets on their way to a frame -/

/-- `h` is `g` after packets have moved from the sources to the output FIFO. -/
structure Glexon.Drained (g h : Glexon) : Prop where
  mem : h.mem = g.mem
  regs : h.regs = g.regs
  part : h.ob.part = g.ob.part
  seq : h.ob.seq = g.ob.seq
  out : h.ob.out = [] → g.ob.out = []

theorem Glexon.Drained.refl : g.Drained g := ⟨rfl, rfl, rfl, rfl, id⟩

theorem Glexon.Drained.trans {g h k : Glexon} (hg : g.Drained h) (hh : h.Drained k) : g.Drained k :=
  ⟨hh.mem.trans hg.mem, hh.regs.trans hg.regs, hh.part.trans hg.part, hh.seq.trans hg.seq, fun hk => hg.out (hh.out hk)⟩

theorem Glexon.trcMove_drained : g.Drained g.trcMove := by
  unfold Glexon.trcMove
  dsimp only
  split
  · split
    · split
      · exact .refl g
      · exact ⟨rfl, rfl, rfl, rfl, fun h => absurd h (by simp)⟩
    · exact .refl g
  · exact .refl g

theorem Glexon.trcDrain_drained : g.Drained g.trcDrain := by
  unfold Glexon.trcDrain
  generalize List.range _ = l
  induction l generalizing g with
  | nil => exact .refl g
  | cons _ l ih => exact g.trcMove_drained.trans (ih _)

/-- With nothing in any source, nothing moves. -/
theorem Glexon.trcMove_of_empty (h : ∀ a, (g.src a).fifo = []) : g.trcMove = g := by
  unfold Glexon.trcMove
  dsimp only
  split
  next i hfind =>
    have hsome := List.find?_some hfind
    simp [h] at hsome
  next => rfl

theorem Glexon.trcDrain_of_empty (h : ∀ a, (g.src a).fifo = []) : g.trcDrain = g := by
  unfold Glexon.trcDrain
  generalize List.range _ = l
  induction l with
  | nil => rfl
  | cons _ l ih => rw [List.foldl_cons, g.trcMove_of_empty h, ih]

/-! ### Frames -/

/-- FIRST of a frame: where its first whole packet begins. -/
def Glexon.trcFirst : Nat := if g.ob.part.length < 1020 then 4 + g.ob.part.length else 0xFFFF

/-- The next frame of what is pending (R487). -/
def Glexon.trcFrame : List Byte :=
  leBytes 2 g.ob.seq.toNat ++ leBytes 2 g.trcFirst ++ padTo 1020 ((g.ob.part ++ g.ob.out.flatten).take 1020)

theorem Glexon.length_trcFrame : g.trcFrame.length = 1024 := by
  rw [Glexon.trcFrame, List.length_append, List.length_append, length_leBytes, length_leBytes,
    length_padTo (List.length_take_le _ _)]

theorem Glexon.trcFrame_seq : leAt g.trcFrame 0 2 = g.ob.seq.toNat := by
  rw [Glexon.trcFrame, List.append_assoc]
  exact leAt_head g.ob.seq.isLt _

theorem exec_traceFrame {s : State} (hup : s.gx.coreUp = true) (hon : bit (s.gx.rd Reg.OB_CTRL) 61 = true)
    (hdest : fld (s.gx.rd Reg.OB_CTRL) 0 2 ≠ 0) (hpend : ¬(s.gx.trcDrain.ob.part = [] ∧ s.gx.trcDrain.ob.out = [])) :
    ∃ part rest, exec .traceFrame s = .next { s with
      gx := { s.gx.trcDrain.bump Reg.OB_TRC_SENT 1 with ob := { s.gx.trcDrain.ob with
        frame := s.gx.trcDrain.trcFrame, seq := s.gx.trcDrain.ob.seq + 1, part := part, out := rest } } } := by
  refine ⟨(eatPackets 1020 (s.gx.trcDrain.ob.part :: s.gx.trcDrain.ob.out)).1,
    (eatPackets 1020 (s.gx.trcDrain.ob.part :: s.gx.trcDrain.ob.out)).2,
    (onCore_runs _ s hup : execTraceFrame s = _).trans ?_⟩
  simp only [hon, hdest, hpend, Bool.true_eq_false, or_self, if_false]
  rfl

theorem exec_traceFrame_none {s : State} (hup : s.gx.coreUp = true) (hpart : s.gx.trcDrain.ob.part = [])
    (hout : s.gx.trcDrain.ob.out = []) : exec .traceFrame s = .next s := by
  refine (onCore_runs _ s hup : execTraceFrame s = _).trans ?_
  rw [if_pos (.inr (.inr ⟨hpart, hout⟩))]

/-- A source after OVERFLOW with the number of its lost packets (R486). -/
def TrcSrc.resynced (x : TrcSrc) (a : Nat) : TrcSrc :=
  { x with fifo := x.fifo ++ [[0x50, BitVec.ofNat 8 a] ++ varint 10 x.lost], lost := 0, due := some .resync }

theorem exec_traceResync {s : State} (hup : s.gx.coreUp = true) (a : BitVec 6) (hon : (s.gx.trcDrain.src a.toNat).on = true)
    (hlost : 0 < (s.gx.trcDrain.src a.toNat).lost) (hroom : (s.gx.trcDrain.src a.toNat).used + 46 ≤ 2048) :
    ∃ v, exec (.traceResync a) s = .next { s with
      gx := (s.gx.trcDrain.wr Reg.OB_TRC_LOST v).setSrc a.toNat ((s.gx.trcDrain.src a.toNat).resynced a.toNat) } := by
  refine ⟨satFld (satFld (s.gx.trcDrain.rd Reg.OB_TRC_LOST) 32 32 (s.gx.trcDrain.src a.toNat).lost) 0 32 1,
    (onCore_runs _ s hup : execTraceResync a s = _).trans ?_⟩
  have hact : ¬((s.gx.trcDrain.src a.toNat).on = false ∨ (s.gx.trcDrain.src a.toNat).lost = 0 ∨
      2048 < (s.gx.trcDrain.src a.toNat).used + 46) := by
    rintro (h | h | h)
    · simp [hon] at h
    · omega
    · omega
  simp only [hact, if_false]
  rfl

/-- Settles O55, command by command. -/
theorem observationSamplesAndTraces : Obligations.ObservationSamplesAndTraces := by
  intro s hup
  refine ⟨fun base n seq hdue hon hbase hn h1 hseq => ⟨fun hal hlo hhi hclash => ?entry, fun hout => ?wrong⟩,
    fun hdue => exec_sampleBufferWrite_none hup hdue, fun hon hdest => ⟨fun hpend => ?frame, fun hpart hout hempty => ?noFrame⟩,
    fun a g x hg hx hsrc hlost hroom => ?resync⟩
  case entry =>
    refine ⟨_, exec_sampleBufferWrite_entry hup hdue hon hbase hn h1 hseq (by omega), ?_⟩
    have hquiet : (s.gx.sampled.wr Reg.OB_BUF_SEQ (word seq)).clash none true (base + 2112 * (seq % n))
        (s.gx.sampleEntry seq).length = false := by
      rw [Glexon.length_sampleEntry]
      exact hclash
    obtain ⟨hmem, hrd⟩ := Glexon.busWrite_quiet _ hquiet
    exact ⟨Glexon.busWrite_ob _ hquiet, (hrd _).trans (Glexon.rd_wr_same _ _ _), hmem, s.gx.length_sampleEntry seq⟩
  case wrong =>
    refine ⟨_, exec_sampleBufferWrite_wrong hup hdue hon hbase hn h1 (by omega), rfl, ?_, rfl⟩
    dsimp only
    rw [Glexon.rd_wr_same, bit_putBit_same _ _ (by decide)]
  case frame =>
    have hdr := s.gx.trcDrain_drained
    have hnone : ¬(s.gx.trcDrain.ob.part = [] ∧ s.gx.trcDrain.ob.out = []) := fun ⟨hp, ho⟩ =>
      hpend.elim (fun h => h (hdr.part ▸ hp)) fun h => h (hdr.out ho)
    obtain ⟨part, rest, hexec⟩ := exec_traceFrame hup hon hdest hnone
    refine ⟨_, hexec, Glexon.length_trcFrame _, ?_, ?_, ?_, hdr.mem⟩
    · rw [← hdr.seq]
      exact Glexon.trcFrame_seq _
    · rw [← hdr.seq]
    · rw [← Glexon.rd_congr hdr.regs]
      exact Glexon.rd_wr_same _ _ _
  case noFrame =>
    have hsame := s.gx.trcDrain_of_empty hempty
    exact exec_traceFrame_none hup (by rw [hsame, hpart]) (by rw [hsame, hout])
  case resync =>
    subst hg hx
    obtain ⟨v, hexec⟩ := exec_traceResync hup a hsrc hlost hroom
    exact ⟨_, hexec, SMap.get_put_same _ _ _ _, s.gx.trcDrain_drained.mem, fun b hb => SMap.get_put_other _ _ _ _ _ hb⟩

end Sys2Proof.Machine
end

section
/-! PROOFS. The states of queue pairs, and the registration of memory regions (R419, R420, R422 to R424). -/

namespace Sys2Proof.Machine

/-! ### The family of a register -/

/-- Can a family hold a register in the interval from `lo` to `hi`? -/
def RegFam.reaches (f : RegFam) (lo hi : Nat) : Bool :=
  decide (f.base < hi) && (decide (lo < f.base + f.n1 * f.st1) || decide (f.st1 = 0))

theorem RegFam.reaches_of_covers {f : RegFam} {lo hi a : Nat} (hlo : lo ≤ a) (hhi : a < hi) (h : f.covers a = true) :
    f.reaches lo hi = true := by
  obtain ⟨hbase, ⟨hn1, -⟩, -⟩ : f.base ≤ a ∧ ((a - f.base) / f.st1 < f.n1 ∧ _) ∧ _ := by simpa [RegFam.covers] using h
  rcases Nat.eq_zero_or_pos f.st1 with hz | hpos
  · simp [RegFam.reaches, hz, lt_of_le_of_lt hbase hhi]
  · have hend : a - f.base < f.n1 * f.st1 := (Nat.div_lt_iff_lt_mul hpos).1 hn1
    have hlt : lo < f.base + f.n1 * f.st1 := by omega
    simp [RegFam.reaches, hlt, lt_of_le_of_lt hbase hhi]

/-- The register at an address of an interval is of the first family that reaches into the interval, if that family covers it. -/
theorem regFind_of_interval {l : List RegFam} {lo hi a : Nat} {f : RegFam} (hlo : lo ≤ a) (hhi : a < hi)
    (hf : (l.find? fun f => f.reaches lo hi) = some f) (hcov : f.covers a = true) : regFind l a = some f := by
  obtain ⟨-, l1, l2, rfl, hbefore⟩ := List.find?_eq_some_iff_append.1 hf
  refine List.find?_eq_some_iff_append.2 ⟨hcov, l1, l2, rfl, fun x hx => ?_⟩
  have hout := hbefore x hx
  by_contra hc
  rw [RegFam.reaches_of_covers hlo hhi (by simpa using hc)] at hout
  simp at hout

theorem regFind_qpCfg {q : Nat} (hq : q < 4096) : ∃ f, regFind gxRegFams (Reg.RM_QP_CFG q) = some f ∧ f.acc = .rw ∧
    f.wmask = 0xFFFFFFCFFF0000FF := by
  refine ⟨_, regFind_of_interval (lo := 0x80410000) (hi := 0x80430000) (Nat.le_add_right _ _) ?_ rfl ?_, rfl, rfl⟩
  · unfold Reg.RM_QP_CFG; omega
  · simp [RegFam.covers, Reg.RM_QP_CFG]
    omega

/-! ### Fields of masked words -/

/-- A field is told by its bits. -/
theorem fld_eq_of_bits {v w : Word} {lo len : Nat} (h : ∀ i < len, bit v (lo + i) = bit w (lo + i)) :
    fld v lo len = fld w lo len := by
  have htop (w : Word) {i : Nat} (hi : ¬i < len) : (fld w lo len).testBit i = false :=
    Nat.testBit_lt_two_pow ((fld_lt _ _ _).trans_le (Nat.pow_le_pow_right (by decide) (by omega)))
  refine Nat.eq_of_testBit_eq fun i => ?_
  by_cases hi : i < len
  · rw [fld, fld, testBit_fldN _ _ _ _ hi, testBit_fldN _ _ _ _ hi]
    exact h i hi
  · rw [htop _ hi, htop _ hi]

theorem bit_and (v m : Word) (i : Nat) : bit (v &&& m) i = (bit v i && bit m i) := BitVec.getLsbD_and

/-- A field that a mask covers. -/
theorem fld_and_mask (v m : Word) {lo len : Nat} (hm : ∀ i < len, bit m (lo + i) = true) : fld (v &&& m) lo len = fld v lo len :=
  fld_eq_of_bits fun i hi => by rw [bit_and, hm i hi, Bool.and_true]

/-- A field that the write mask of a register covers takes the written value. -/
theorem fld_masked (cur v m : Word) {lo len : Nat} (hm : ∀ i < len, bit m (lo + i) = true) :
    fld ((cur &&& ~~~m) ||| (v &&& m)) lo len = fld v lo len :=
  fld_eq_of_bits fun i hi => by
    have hbit := hm i hi
    rw [bit] at hbit
    simp [bit, hbit]

theorem bit_putFld_other (w : Word) {lo len i : Nat} (v : Nat) (hi : i < 64) (h : i < lo ∨ lo + len ≤ i) :
    bit (putFld w lo len v) i = bit w i := by
  change (putFld w lo len v).toNat.testBit i = w.toNat.testBit i
  rw [testBit_putFld _ _ _ _ hi, if_neg (by omega)]

variable (g : Glexon)

/-! ### Queue pairs -/

theorem Glexon.qp_setQp_same (q : Nat) (x : Qp) : (g.setQp q x).qp q = x := SMap.get_put_same _ _ _ _

theorem Glexon.qp_setQp_other {q p : Nat} (x : Qp) (h : p ≠ q) : (g.setQp q x).qp p = g.qp p := SMap.get_put_other _ _ _ _ _ h

/-- What a write of RM_QP_CFG_q leaves there, in state `n`. -/
def Glexon.qpWritten (q : Nat) (v : Word) (n : Nat) : Word :=
  putFld (putFld (g.maskW (Reg.RM_QP_CFG q) v) 61 3 (g.qpState q)) 61 3 n

theorem Glexon.qpWritten_fields {q : Nat} (hq : q < 4096) (v : Word) (n : Nat) : fld (g.qpWritten q v n) 0 8 = fld v 0 8 ∧
    fld (g.qpWritten q v n) 24 12 = fld v 24 12 ∧ fld (g.qpWritten q v n) 61 3 = n % 8 := by
  obtain ⟨f, hf, -, hmask⟩ := regFind_qpCfg hq
  have hw : g.maskW (Reg.RM_QP_CFG q) v =
      (g.rd (Reg.RM_QP_CFG q) &&& ~~~0xFFFFFFCFFF0000FF#64) ||| (v &&& 0xFFFFFFCFFF0000FF#64) := by
    rw [Glexon.maskW, hf]
    simp only [hmask]
    rfl
  unfold Glexon.qpWritten
  refine ⟨?_, ?_, fld_putFld_same _ _ (by decide)⟩
  · rw [fld_putFld_other _ _ (by decide) (by decide), fld_putFld_other _ _ (by decide) (by decide), hw,
      fld_masked _ _ _ (by decide)]
  · rw [fld_putFld_other _ _ (by decide) (by decide), fld_putFld_other _ _ (by decide) (by decide), hw,
      fld_masked _ _ _ (by decide)]

/-- A queue pair in a new state, its record kept. -/
def Glexon.qpTo (q : Nat) (v : Word) (n : Nat) : Glexon :=
  let g1 := g.wr (Reg.RM_QP_CFG q) (putFld (g.maskW (Reg.RM_QP_CFG q) v) 61 3 (g.qpState q))
  g1.wr (Reg.RM_QP_CFG q) (putFld (g1.qpCfg q) 61 3 n)

theorem Glexon.qpCfg_qpTo (q p : Nat) (v : Word) (n : Nat) :
    (g.qpTo q v n).qpCfg p = if p = q then g.qpWritten q v n else g.qpCfg p := by
  unfold Glexon.qpTo
  dsimp only
  rw [Glexon.qpCfg, Glexon.qpCfg, Glexon.rd_wr_same]
  split
  next h => rw [h, Glexon.rd_wr_same, Glexon.qpWritten]
  next h =>
    have hne : Reg.RM_QP_CFG p ≠ Reg.RM_QP_CFG q := by simp only [Reg.RM_QP_CFG]; omega
    rw [Glexon.rd_wr_other _ _ _ _ hne, Glexon.rd_wr_other _ _ _ _ hne]
    rfl

/-- `h` is `g` with queue pair `q` alone moved, to state `n`. -/
structure Glexon.QpMoved (g h : Glexon) (q : Nat) (v : Word) (n : Nat) : Prop where
  state : h.qpState q = n % 8
  peer : fld (h.qpCfg q) 0 8 = fld v 0 8
  peerQp : fld (h.qpCfg q) 24 12 = fld v 24 12
  mem : h.mem = g.mem
  qp : ∀ p, p ≠ q → h.qp p = g.qp p
  cfg : ∀ p, p ≠ q → h.qpCfg p = g.qpCfg p

theorem Glexon.qpTo_moved {q : Nat} (hq : q < 4096) (v : Word) (n : Nat) : g.QpMoved (g.qpTo q v n) q v n := by
  obtain ⟨hpeer, hpeerQp, hstate⟩ := g.qpWritten_fields hq v n
  have hcfg : (g.qpTo q v n).qpCfg q = g.qpWritten q v n := (g.qpCfg_qpTo q q v n).trans (if_pos rfl)
  exact ⟨by rw [Glexon.qpState, hcfg, hstate], by rw [hcfg, hpeer], by rw [hcfg, hpeerQp], rfl, fun _ _ => rfl,
    fun p hp => (g.qpCfg_qpTo q p v n).trans (if_neg hp)⟩

theorem Glexon.QpMoved.setQp {g h : Glexon} {q : Nat} {v : Word} {n : Nat} (hm : g.QpMoved h q v n) (x : Qp) :
    g.QpMoved (h.setQp q x) q v n :=
  ⟨hm.state, hm.peer, hm.peerQp, hm.mem, fun p hp => (h.qp_setQp_other x hp).trans (hm.qp p hp), hm.cfg⟩

/-- The transitions of Table 15.4 up to RTS. -/
theorem Glexon.qpCfgWrite_up {q : Nat} {v : Word} {cur want : Nat} (hcur : g.qpState q = cur) (hwant : fld v 61 3 = want)
    (h : cur = 0 ∧ want = 1 ∨ cur = 1 ∧ want = 2) : g.qpCfgWrite q v = g.qpTo q v want := by
  simp only [Glexon.qpCfgWrite, hcur, hwant, h, if_true]
  rw [← hcur]
  rfl

/-- Back to RESET before RTS. -/
theorem Glexon.qpCfgWrite_reset {q : Nat} {v : Word} (hcur : g.qpState q = 1) (hwant : fld v 61 3 = 0) :
    g.qpCfgWrite q v = (g.qpTo q v 0).setQp q {} := by
  unfold Glexon.qpCfgWrite Glexon.qpTo
  rw [hcur, hwant]
  rfl

/-- A drain ends at once where nothing is outstanding. -/
theorem Glexon.qpCfgWrite_drain {q : Nat} {v : Word} (hcur : g.qpState q = 2) (hwant : fld v 61 3 = 3) :
    g.qpCfgWrite q v = if (g.qp q).ops = [] then (g.qpTo q v 0).setQp q {} else g.qpTo q v 3 := by
  unfold Glexon.qpCfgWrite Glexon.qpTo
  rw [hcur, hwant]
  rfl

theorem exec_qpRow {s : State} (hup : s.gx.coreUp = true) : ∀ row ∈ ([(.qpInit, 1), (.qpRts, 2), (.qpDrain, 3), (.qpReset, 0)] :
    List ((BitVec 12 → Word → Instr) × Nat)), ∀ (q : BitVec 12) (v : Word), fld v 61 3 = row.2 →
    exec (row.1 q v) s = .next { s with gx := s.gx.qpCfgWrite q.toNat v } := by
  have hmove (n : Nat) (q : BitVec 12) (v : Word) (hv : fld v 61 3 = n) :
      qpMove n q v s = .next { s with gx := s.gx.qpCfgWrite q.toNat v } := by
    refine (onCore_runs _ s hup : qpMove n q v s = _).trans ?_
    rw [if_pos hv]
  simp only [List.forall_mem_cons]
  exact ⟨hmove 1, hmove 2, hmove 3, hmove 0, List.forall_mem_nil _⟩

theorem exec_qpDrain {s : State} (hup : s.gx.coreUp = true) {q : BitVec 12} {v : Word} (hv : fld v 61 3 = 3)
    (hcur : s.gx.qpState q.toNat = 2) : exec (.qpDrain q v) s = .next { s with
      gx := if (s.gx.qp q.toNat).ops = [] then (s.gx.qpTo q.toNat v 0).setQp q.toNat {} else s.gx.qpTo q.toNat v 3 } := by
  rw [exec_qpRow hup (.qpDrain, 3) (by simp) q v hv, s.gx.qpCfgWrite_drain hcur hv]

theorem exec_qpRow_moved {s : State} (hup : s.gx.coreUp = true) : ∀ row ∈ ([(.qpInit, 1, 0, 1), (.qpRts, 2, 1, 2),
    (.qpReset, 0, 1, 0)] : List ((BitVec 12 → Word → Instr) × Nat × Nat × Nat)), ∀ (q : BitVec 12) (v : Word),
    fld v 61 3 = row.2.1 → s.gx.qpState q.toNat = row.2.2.1 → ∃ h, exec (row.1 q v) s = .next { s with gx := h } ∧ row.2.2.2 < 8 ∧
      s.gx.QpMoved h q.toNat v row.2.2.2 := by
  have hexec := exec_qpRow hup
  simp only [List.forall_mem_cons] at hexec ⊢
  obtain ⟨hinit, hrts, -, hreset, -⟩ := hexec
  refine ⟨fun q v hv hcur => ⟨_, (hinit q v hv).trans (by rw [s.gx.qpCfgWrite_up hcur hv (by decide)]), by decide,
      s.gx.qpTo_moved q.isLt v 1⟩,
    fun q v hv hcur => ⟨_, (hrts q v hv).trans (by rw [s.gx.qpCfgWrite_up hcur hv (by decide)]), by decide,
      s.gx.qpTo_moved q.isLt v 2⟩,
    fun q v hv hcur => ⟨_, (hreset q v hv).trans (by rw [s.gx.qpCfgWrite_reset hcur hv]), by decide,
      (s.gx.qpTo_moved q.isLt v 0).setQp {}⟩,
    List.forall_mem_nil _⟩

/-! ### Regions -/

/-- What a write of RM_MR_ATTR_r leaves of the written value, beside VALID. -/
def Glexon.mrWritten (r : Nat) (v : Word) : Word := putFld (v &&& 0xFFFEFF00FFFFFFFF) 32 8 (g.mrGen r)

theorem Glexon.mrWritten_fields (r : Nat) (v : Word) : bit (g.mrWritten r v) 63 = bit v 63 ∧
    fld (g.mrWritten r v) 0 32 = fld v 0 32 ∧ fld (g.mrWritten r v) 32 8 = g.mrGen r := by
  unfold Glexon.mrWritten
  refine ⟨?_, ?_, ?_⟩
  · rw [bit_putFld_other _ _ (by decide) (by decide), bit_and]
    exact Bool.and_true _
  · rw [fld_putFld_other _ _ (by decide) (by decide), fld_and_mask _ _ (by decide)]
  · rw [fld_putFld_same _ _ (by decide)]
    exact Nat.mod_eq_of_lt (fld_lt _ _ _)

/-- A region in force, with the next generation. -/
def Glexon.mrKept (r : Nat) (v : Word) : Glexon :=
  let g1 := (g.wr (Reg.RM_MR_ATTR r) (putFld (g.mrWritten r v) 32 8 ((g.mrGen r + 1) % 256))).wr (Reg.RM_MR_HEAD r) 0
  { g1 with rm := { g1.rm with keyAt := SMap.put none g1.rm.keyAt r (some g1.nowNs) } }

theorem attr_ne_head (r : Nat) : Reg.RM_MR_ATTR r ≠ Reg.RM_MR_HEAD r := by simp only [Reg.RM_MR_ATTR, Reg.RM_MR_HEAD]; omega

theorem attr_ne_refused (r : Nat) : Reg.RM_MR_ATTR r ≠ Reg.RM_MR_REFUSED := by simp only [Reg.RM_MR_ATTR, Reg.RM_MR_REFUSED]; omega

theorem attr_ne_stat (r : Nat) : Reg.RM_MR_ATTR r ≠ Reg.MG_EVR_STAT := by simp only [Reg.RM_MR_ATTR, Reg.MG_EVR_STAT]; omega

theorem Glexon.rd_mrKept_attr (r : Nat) (v : Word) : (g.mrKept r v).rd (Reg.RM_MR_ATTR r) =
    putFld (g.mrWritten r v) 32 8 ((g.mrGen r + 1) % 256) :=
  (Glexon.rd_wr_other _ _ _ _ (attr_ne_head r)).trans (Glexon.rd_wr_same _ _ _)

theorem Glexon.rd_mrKept_head (r : Nat) (v : Word) : (g.mrKept r v).rd (Reg.RM_MR_HEAD r) = 0 := Glexon.rd_wr_same _ _ _

theorem Glexon.mrKept_mem (r : Nat) (v : Word) : (g.mrKept r v).mem = g.mem := rfl

/-- A rekey takes the next generation, and notes its instant. -/
def Glexon.rekeyed (r : Nat) : Glexon :=
  { g.wr (Reg.RM_MR_ATTR r) (putFld (g.rd (Reg.RM_MR_ATTR r)) 32 8 ((g.mrGen r + 1) % 256)) with
    rm := { g.rm with keyAt := SMap.put none g.rm.keyAt r (some g.nowNs) } }

theorem Glexon.rekeyed_spec (r : Nat) : (g.rekeyed r).mrGen r = (g.mrGen r + 1) % 256 ∧
    SMap.get none (g.rekeyed r).rm.keyAt r = some g.nowNs := by
  have hrd : (g.rekeyed r).rd (Reg.RM_MR_ATTR r) = putFld (g.rd (Reg.RM_MR_ATTR r)) 32 8 ((g.mrGen r + 1) % 256) :=
    Glexon.rd_wr_same _ _ _
  refine ⟨?_, SMap.get_put_same _ _ _ _⟩
  rw [Glexon.mrGen, hrd, fld_putFld_same _ _ (by decide)]
  exact Nat.mod_mod _ _

/-- A rekey that comes too soon is counted. -/
theorem Glexon.rekey_refused (r code agent : Nat) (args : List Word) :
    ((g.bump Reg.RM_MR_REFUSED 1).event code agent args).mrGen r = g.mrGen r ∧
      ((g.bump Reg.RM_MR_REFUSED 1).event code agent args).rd Reg.RM_MR_REFUSED = satAdd (g.rd Reg.RM_MR_REFUSED) 1 := by
  refine ⟨?_, (Glexon.rd_event _ _ _ _ _ (by decide)).trans (Glexon.rd_wr_same _ _ _)⟩
  rw [Glexon.mrGen, Glexon.rd_event _ _ _ _ _ (attr_ne_stat r), Glexon.rd_bump _ _ _ _ (attr_ne_refused r)]
  rfl

theorem Glexon.mrGen_mrKept (r : Nat) (v : Word) : (g.mrKept r v).mrGen r = (g.mrGen r + 1) % 256 := by
  rw [Glexon.mrGen, g.rd_mrKept_attr, fld_putFld_same _ _ (by decide)]
  exact Nat.mod_mod _ _

section

variable {s : State} (hup : s.gx.coreUp = true) (r : BitVec 14) (v : Word)

include hup

theorem exec_mrRegister (hv : bit v 63 = true)
    (hin : inRecordMem (s.gx.rd (Reg.RM_MR_BASE r.toNat)).toNat (64 * fld v 0 32) = true)
    (hal : (s.gx.rd (Reg.RM_MR_BASE r.toNat)).toNat % 64 = 0) :
    exec (.mrRegister r v) s = .next { s with gx := s.gx.mrKept r.toNat v } := by
  refine (onCore_runs _ s hup : execMrRegister r v s = _).trans ?_
  simp only [Glexon.mrAttr, hv, hin, hal, and_self, if_true]
  rfl

theorem exec_mrRegister_refused (hv : bit v 63 = true)
    (hin : inRecordMem (s.gx.rd (Reg.RM_MR_BASE r.toNat)).toNat (64 * fld v 0 32) = false) :
    exec (.mrRegister r v) s = .next { s with
      gx := (s.gx.wr (Reg.RM_MR_ATTR r.toNat) (putBit (s.gx.mrWritten r.toNat v) 63 false)).bump Reg.RM_MR_REFUSED 1 } := by
  refine (onCore_runs _ s hup : execMrRegister r v s = _).trans ?_
  simp only [Glexon.mrAttr, hv, hin, Bool.false_eq_true, false_and, if_true, if_false]
  rfl

theorem exec_mrDeregister (hv : bit v 63 = false) : exec (.mrDeregister r v) s = .next { s with
    gx := s.gx.wr (Reg.RM_MR_ATTR r.toNat) (s.gx.mrWritten r.toNat v) } := by
  refine (onCore_runs _ s hup : execMrDeregister r v s = _).trans ?_
  simp only [hv, Bool.false_eq_true, if_false, Glexon.mrAttr]
  rfl

theorem exec_rekey (h : SMap.get none s.gx.rm.keyAt r.toNat = none) : exec (.rekey r) s = .next { s with
    gx := s.gx.rekeyed r.toNat } := by
  refine (onCore_runs _ s hup : execRekey r s = _).trans ?_
  simp only [Glexon.rekey, h, Bool.false_eq_true, if_false]
  rfl

theorem exec_rekey_soon {i : Nat} (h : SMap.get none s.gx.rm.keyAt r.toNat = some i) (hsoon : s.gx.nowNs < i + 1000000) :
    exec (.rekey r) s = .next { s with gx := (s.gx.bump Reg.RM_MR_REFUSED 1).event 0x0336 28 [word r.toNat] } := by
  refine (onCore_runs _ s hup : execRekey r s = _).trans ?_
  simp only [Glexon.rekey, h, hsoon, decide_true, if_true]

end

/-- Settles O47, row by row. -/
theorem queuePairsAndRegions : Obligations.QueuePairsAndRegions := by
  intro s hup
  refine ⟨fun row hrow q v hv hcur => ?moves, fun q v hv hcur => ⟨_, exec_qpDrain hup hv hcur, ?drain⟩,
    fun r v hv => ⟨fun hin hal => ?register, fun hin => ?refused⟩,
    fun r v hv => ⟨_, exec_mrDeregister hup r v hv, ?deregister⟩,
    fun r => ⟨fun hnone => ⟨_, exec_rekey hup r hnone, s.gx.rekeyed_spec r.toNat⟩,
      fun i hi hsoon => ⟨_, exec_rekey_soon hup r hi hsoon, s.gx.rekey_refused _ _ _ _⟩⟩⟩
  case moves =>
    obtain ⟨h, hexec, hlt, hm⟩ := exec_qpRow_moved hup row hrow q v hv hcur
    have hne {p : BitVec 12} (hp : p ≠ q) : p.toNat ≠ q.toNat := fun h => hp (BitVec.eq_of_toNat_eq h)
    exact ⟨_, hexec, hm.state.trans (Nat.mod_eq_of_lt hlt), hm.peer, hm.peerQp, hm.mem,
      fun p hp => ⟨hm.qp _ (hne hp), hm.cfg _ (hne hp)⟩⟩
  case drain =>
    split
    · exact ⟨rfl, ((s.gx.qpTo_moved q.isLt v 0).setQp {}).state⟩
    · exact ⟨rfl, (s.gx.qpTo_moved q.isLt v 3).state⟩
  case register =>
    obtain ⟨hbit, hlen, -⟩ := s.gx.mrWritten_fields r.toNat v
    refine ⟨_, exec_mrRegister hup r v hv hin hal, ?_, s.gx.mrGen_mrKept _ _,
      s.gx.rd_mrKept_head _ _, ?_, s.gx.mrKept_mem _ _⟩
    · dsimp only
      rw [Glexon.rd_mrKept_attr, bit_putFld_other _ _ (by decide) (by decide), hbit, hv]
    · dsimp only
      rw [Glexon.rd_mrKept_attr, fld_putFld_other _ _ (by decide) (by decide), hlen]
  case refused =>
    refine ⟨_, exec_mrRegister_refused hup r v hv hin, ?_, ?_⟩
    · dsimp only
      rw [Glexon.rd_bump _ _ _ _ (attr_ne_refused _), Glexon.rd_wr_same, bit_putBit_same _ _ (by decide)]
    · refine (Glexon.rd_wr_same _ _ _).trans ?_
      rw [Glexon.rd_wr_other _ _ _ _ (attr_ne_refused _).symm]
  case deregister =>
    obtain ⟨hbit, -, hgen⟩ := s.gx.mrWritten_fields r.toNat v
    refine ⟨?_, ?_, rfl⟩
    · dsimp only
      rw [Glexon.rd_wr_same, hbit, hv]
    · dsimp only
      rw [Glexon.mrGen, Glexon.rd_wr_same, hgen]

end Sys2Proof.Machine
end

section
/-! PROOFS. Packets of the remote memory engine: one that is accepted, and one that leaves (R417, R418, R421, R425, R433). -/

namespace Sys2Proof.Machine

section

variable {g : Glexon}

/-! ### The key of a region -/

theorem Glexon.attr_congr {h : Glexon} (e : h.regs = g.regs) (key : Nat) : h.attr key = g.attr key := Glexon.rd_congr e _

theorem Glexon.regBase_congr {h : Glexon} (e : h.regs = g.regs) (key : Nat) : h.regBase key = g.regBase key := by
  rw [Glexon.regBase, Glexon.regBase, Glexon.rd_congr e]

theorem Glexon.regLen_congr {h : Glexon} (e : h.regs = g.regs) (key : Nat) : h.regLen key = g.regLen key := by
  rw [Glexon.regLen, Glexon.regLen, Glexon.attr_congr e]

theorem Glexon.qpState_congr {h : Glexon} {q : Nat} (e : h.rd (Reg.RM_QP_CFG q) = g.rd (Reg.RM_QP_CFG q)) :
    h.qpState q = g.qpState q := by
  rw [Glexon.qpState, Glexon.qpState, Glexon.qpCfg, Glexon.qpCfg, e]

theorem Glexon.keyCheck_congr {h : Glexon} (e : h.regs = g.regs) (q key : Nat) : h.keyCheck q key = g.keyCheck q key := by
  rw [Glexon.keyCheck, Glexon.keyCheck, Glexon.qpPd, Glexon.qpPd, Glexon.qpCfg, Glexon.qpCfg, Glexon.rd_congr e, Glexon.rd_congr e]

theorem Glexon.clash_congr {h : Glexon} (e : h.cores = g.cores) (self : Option (Nat × Nat)) (wr : Bool) (a n : Nat) :
    h.clash self wr a n = g.clash self wr a n := by
  rw [Glexon.clash, Glexon.clash, e]

/-- An access that may write clashes with no less than one that reads. -/
theorem Glexon.clash_read {self : Option (Nat × Nat)} {a n : Nat} (h : g.clash self true a n = false) :
    g.clash self false a n = false := by
  rw [Glexon.clash, List.any_eq_false] at h ⊢
  intro c hc hop
  obtain ⟨o, ho, hhit⟩ := List.any_eq_true.1 hop
  rw [Bool.and_eq_true, Core.opHit, Bool.false_and, Bool.or_false] at hhit
  exact h c hc (List.any_eq_true.2 ⟨o, ho, by rw [hhit.1, Core.opHit, hhit.2, Bool.true_or, Bool.and_self]⟩)

/-! ### Packets received -/

/-- The Glexon once a packet is known to come from its queue pair's peer: the packet is counted, and its time kept for the ACK. -/
def Glexon.heard (g : Glexon) (p : RmPkt) : Glexon :=
  (g.count 7 0 1 1).modQp p.dst fun x =>
    { x with echo := (p.time, ((g.count 7 0 1 1).short (g.count 7 0 1 1).nowNs).toNat) }

theorem Glexon.regs_heard (p : RmPkt) : (g.heard p).regs = g.regs := by
  rw [Glexon.heard, Glexon.modQp_regs, Glexon.count_regs]

theorem Glexon.mem_heard (p : RmPkt) : (g.heard p).mem = g.mem := by
  rw [Glexon.heard, Glexon.modQp_mem, Glexon.count_mem]

theorem Glexon.cores_heard (p : RmPkt) : (g.heard p).cores = g.cores := by
  rw [Glexon.heard, Glexon.modQp_cores, Glexon.count_cores]

theorem Glexon.poison_heard (p : RmPkt) : (g.heard p).poison = g.poison := by
  rw [Glexon.heard, Glexon.modQp_poison, Glexon.count_poison]

theorem Glexon.qp_modQp_same (q : Nat) (f : Qp → Qp) : (g.modQp q f).qp q = f (g.qp q) := Glexon.qp_setQp_same _ _ _

theorem Glexon.qp_congr {h : Glexon} (e : h.rm = g.rm) (q : Nat) : h.qp q = g.qp q := by rw [Glexon.qp, Glexon.qp, e]

/-- Only the time to send back changes in the queue pair. -/
theorem Glexon.qp_heard (p : RmPkt) : ∃ e, (g.heard p).qp p.dst = { g.qp p.dst with echo := e } :=
  ⟨_, (Glexon.qp_modQp_same _ _).trans (by rw [Glexon.qp_congr (Glexon.count_rm ..)])⟩

end

variable {g : Glexon} {src : Byte} {p : RmPkt} {keyed : Bool} {again ok : Glexon → Glexon} {five six : Glexon → Bool}

/-- A distance below 2^23 is not backwards. -/
theorem seqBefore_of_near {a b : Nat} (h : seqDist a b < 1024) : seqBefore b a = false := by
  simp only [seqBefore, decide_eq_false_iff_not]
  omega

/-- A packet is from the peer of its queue pair, which is in RTS, and is new within the window. -/
def Glexon.Expects (g : Glexon) (src : Byte) (p : RmPkt) : Prop :=
  g.qpState p.dst = 2 ∧ fld (g.qpCfg p.dst) 24 12 = p.srcq ∧ fld (g.qpCfg p.dst) 0 8 = src.toNat ∧ (g.qp p.dst).gap = false ∧
  seqDist (g.qp p.dst).base p.psn < 1024 ∧ (g.qp p.dst).got.contains p.psn = false

/-- A packet that passes every check of Table 15.3 has its effect. -/
theorem Glexon.rmReceive_new (hp : g.Expects src p) (hkey : keyed = true → g.keyCheck p.dst p.rkey = 0)
    (hfive : five (g.heard p) = true) (hsix : six (g.heard p) = true) :
    (g.count 7 0 1 1).rmReceive src p keyed again five six ok = ok (g.heard p) := by
  obtain ⟨hstate, hsrcq, hsrc, hgap, hnear, hnew⟩ := hp
  obtain ⟨e, hqp⟩ := g.qp_heard p
  have hcfg : (g.count 7 0 1 1).qpCfg p.dst = g.qpCfg p.dst := Glexon.rd_congr (Glexon.count_regs ..) _
  have hst : (g.count 7 0 1 1).qpState p.dst = g.qpState p.dst := Glexon.qpState_congr hcfg
  have hamber : (g.heard p).amberGap p.dst p = g.heard p := by
    rw [Glexon.amberGap]
    exact if_neg fun h => by simp [hqp, hgap] at h
  have hpeer : ¬(¬((g.count 7 0 1 1).qpState p.dst = 2 ∨ (g.count 7 0 1 1).qpState p.dst = 3) ∨
      fld ((g.count 7 0 1 1).qpCfg p.dst) 24 12 ≠ p.srcq ∨ fld ((g.count 7 0 1 1).qpCfg p.dst) 0 8 ≠ src.toNat) := by
    rw [hst, hcfg]
    simp [hstate, hsrcq, hsrc]
  rw [Glexon.rmReceive, if_neg hpeer]
  extract_lets h x fail isNew kc
  have hh : h = g.heard p := hamber
  have hx : x = { g.qp p.dst with echo := e } := (congrArg (Glexon.qp · p.dst) hh).trans hqp
  have hkc : kc = 0 := by
    rw [show kc = if keyed then h.keyCheck p.dst p.rkey else 0 from rfl, hh, Glexon.keyCheck_congr (Glexon.regs_heard p)]
    split
    · next hk => exact hkey hk
    · rfl
  have hseen : ¬(seqBefore p.psn x.base ∨ x.got.contains p.psn) := by
    rw [hx, seqBefore_of_near hnear, hnew]
    simp
  have hwin : ¬1024 ≤ seqDist x.base p.psn := by rw [hx]; exact Nat.not_le.2 hnear
  rw [if_neg (not_not.2 hkc), if_neg hseen, if_neg hwin, hh, if_neg (by simp [hfive]), if_neg (by simp [hsix])]

/-- A command of a packet that the engine takes. -/
theorem onPacket_whole {s : State} {pk : RmFrame} {op : Nat} (hup : s.gx.coreUp = true) (hon : bit (s.gx.rd Reg.RM_CTRL) 63 = true)
    (hop : leAt pk.bytes 0 1 = op) (hform : rmFormOk pk.bytes = true) (f : Glexon → RmPkt → Glexon) :
    onPacket op f pk s = .next { s with gx := f (s.gx.count 7 0 1 1) (RmPkt.ofBytes pk.bytes) } := by
  refine (onCore_runs _ s hup).trans ?_
  rw [if_neg (by simp [hon, hop]), if_neg (by simp [hform])]

/-- A packet that `State.takesPacket` takes is expected, and is a command of the row with its opcode. -/
theorem State.takesPacket.expects {s : State} {pk : RmFrame} {p : RmPkt} (ht : s.takesPacket pk p) :
    s.gx.Expects pk.src p ∧ ∀ f, onPacket p.op f pk s = .next { s with gx := f (s.gx.count 7 0 1 1) p } := by
  obtain ⟨hup, hon, hop, hform, rfl, hexpects⟩ := ht
  exact ⟨hexpects, onPacket_whole hup hon hop hform⟩

/-! ### Packets that leave -/

/-- A register of TS_BLACKOUT_DROP, which counts what is discarded at egress. -/
def dropReg (a : Nat) : Bool := decide (0x80300940 ≤ a) && decide (a < 0x80300980)

/-- What a packet that leaves by queue pair `q` keeps: memory, the cores and the registers but the counts of discarded frames; of the
queue pair, all but its next path. -/
structure Glexon.Sends (g h : Glexon) (q : Nat) : Prop where
  mem   : h.mem = g.mem
  cores : h.cores = g.cores
  rd    : ∀ a, dropReg a = false → h.rd a = g.rd a
  qp    : ∃ n, h.qp q = { g.qp q with path := n }

theorem Glexon.pathPort_lt (q path : Nat) : g.pathPort q path < 8 := by
  have hrole (k : Nat) : g.rolePort k < 8 := Nat.mod_lt _ (by decide)
  rw [Glexon.pathPort]
  split
  · exact hrole _
  · split
    · exact hrole _
    · extract_lets ports
      split
      · decide
      · next hne =>
        have hlt : path % ports.length < ports.length := Nat.mod_lt _ (List.length_pos_of_ne_nil hne)
        rw [List.getD_eq_getElem _ _ hlt]
        exact List.mem_range.1 (List.mem_filter.1 (List.getElem_mem hlt)).1

theorem Glexon.enqueue_sends {i j : Nat} (hi : i < 8) (f : Frame) (q : Nat) : g.Sends (g.enqueue i j f) q := by
  rw [Glexon.enqueue]
  extract_lets
  split
  · refine ⟨rfl, rfl, fun a ha => Glexon.rd_bump _ _ _ _ ?_, _, rfl⟩
    rintro rfl
    have hlo : 0x80300940 ≤ Reg.TS_BLACKOUT_DROP i := Nat.le_add_right _ _
    have hhi : Reg.TS_BLACKOUT_DROP i < 0x80300980 := by rw [Reg.TS_BLACKOUT_DROP]; omega
    rw [dropReg, decide_eq_true hlo, decide_eq_true hhi] at ha
    contradiction
  · exact ⟨rfl, rfl, fun _ _ => rfl, _, rfl⟩

theorem Glexon.rmEnqueue_sends (q psn : Nat) (l : List Byte) (resp : Bool) : g.Sends (g.rmEnqueue q psn l resp).2 q := by
  unfold Glexon.rmEnqueue
  extract_lets path l1 g1
  obtain ⟨hmem, hcores, hrd, n, hqp⟩ := g1.enqueue_sends (g.pathPort_lt q path)
    (j := g.qpQueue q resp) { len := 70 + l.length, colour := 0, load := .packet q psn l1 } q
  exact ⟨hmem, hcores, hrd, n, hqp.trans (by rw [Glexon.qp_modQp_same])⟩

theorem Glexon.rmAck_sends (q : Nat) : g.Sends (g.rmAck q) q := Glexon.rmEnqueue_sends ..

/-- What waits is sent: of the queue pair, what waits and what is sent changes, and the next path. -/
structure Glexon.Pumps (g h : Glexon) (q : Nat) : Prop where
  mem : h.mem = g.mem
  qp  : ∃ n w l, h.qp q = { g.qp q with path := n, wait := w, sent := l }

theorem Glexon.rmPump_pumps (q : Nat) : g.Pumps (g.rmPump q) q := by
  refine List.foldlRecOn (motive := fun h => g.Pumps h q) _ _ ⟨rfl, _, _, _, rfl⟩ fun h hh e _ => ?_
  split
  · exact hh
  · next rest _ =>
    split
    · exact hh
    · obtain ⟨hmem, -, -, n, hqp⟩ := h.rmEnqueue_sends q e.psn e.bytes (isResp e.bytes)
      obtain ⟨hm, n', w', l', hq⟩ := hh
      refine ⟨hmem.trans hm, ?_⟩
      rw [Glexon.qp_modQp_same, hqp, hq]
      exact ⟨_, _, _, rfl⟩

/-- Packets that are sent take as many PSNs, and keep memory and what the queue pair holds but for what waits and what is sent. -/
theorem Glexon.rmSend_spec (q : Nat) (ps : List RmSent) : (g.rmSend q ps).mem = g.mem ∧
    ((g.rmSend q ps).qp q).nextPsn = ((g.qp q).nextPsn + ps.length) % 2 ^ 24 ∧ ((g.rmSend q ps).qp q).atoms = (g.qp q).atoms := by
  rw [Glexon.rmSend]
  obtain ⟨hmem, n, w, l, hqp⟩ := (g.modQp q fun x =>
    { x with nextPsn := (x.nextPsn + ps.length) % 2 ^ 24, wait := x.wait ++ ps }).rmPump_pumps q
  rw [hqp, hmem, Glexon.qp_modQp_same]
  exact ⟨rfl, rfl, rfl⟩

theorem Glexon.placedOne_mem (q : Nat) : (g.placedOne q).mem = g.mem := by
  unfold Glexon.placedOne
  extract_lets n g1
  split
  · exact (g1.rmAck_sends q).mem
  · rfl

end Sys2Proof.Machine
end

section
/-! PROOFS. Remote requests on memory (R425 to R427, R432). -/

namespace Sys2Proof.Machine

/-! ### Requests of one packet -/

theorem Qp.advance_nextPsn (n : Nat) (x : Qp) : (Qp.advance n x).nextPsn = x.nextPsn := by
  induction n generalizing x with
  | zero => rfl
  | succ n ih =>
    unfold Qp.advance
    extract_lets failed
    split
    · exact ih _
    · rfl

theorem Qp.skipMsn_nextPsn (x : Qp) (msn : Nat) : (x.skipMsn msn).nextPsn = x.nextPsn := by
  rw [Qp.skipMsn]
  split
  · rfl
  · exact Qp.advance_nextPsn _ _

/-- The Glexon in which a one-packet request has been marked as received. -/
def Glexon.noted (g : Glexon) (p : RmPkt) : Glexon := (g.heard p).modQp p.dst fun x => (x.mark p.psn).skipMsn p.msn

theorem Glexon.regs_noted (g : Glexon) (p : RmPkt) : (g.noted p).regs = g.regs := by
  rw [Glexon.noted, Glexon.modQp_regs, Glexon.regs_heard]

theorem Glexon.mem_noted (g : Glexon) (p : RmPkt) : (g.noted p).mem = g.mem := by
  rw [Glexon.noted, Glexon.modQp_mem, Glexon.mem_heard]

theorem Glexon.cores_noted (g : Glexon) (p : RmPkt) : (g.noted p).cores = g.cores := by
  rw [Glexon.noted, Glexon.modQp_cores, Glexon.cores_heard]

theorem Glexon.poison_noted (g : Glexon) (p : RmPkt) : (g.noted p).poison = g.poison := by
  rw [Glexon.noted, Glexon.modQp_poison, Glexon.poison_heard]

theorem Glexon.nextPsn_noted (g : Glexon) (p : RmPkt) : ((g.noted p).qp p.dst).nextPsn = (g.qp p.dst).nextPsn := by
  obtain ⟨e, hqp⟩ := g.qp_heard p
  rw [Glexon.noted, Glexon.qp_modQp_same, Qp.skipMsn_nextPsn, hqp]
  rfl

/-! ### WRITE -/

/-- The message that a first packet begins. -/
def RmPkt.begins (p : RmPkt) : RmAsm :=
  { msn := p.msn, reg := p.rkey % 2 ^ 14, off := p.raddr, total := if p.isLast then some p.total else none, got := [p.moff / 8192],
    fail := false, key := p.rkey }

theorem Glexon.place_mem {g : Glexon} {a : Nat} {l : List Byte} (h : g.clash none true a l.length = false) :
    (g.place a l).mem = memWrite g.mem a l := by
  rw [Glexon.place, (Glexon.busWrite_quiet _ ((Glexon.clash_congr (Glexon.count_cores ..) ..).trans h)).1, Glexon.count_mem]

section

variable {s : State} {pk : RmFrame} {p : RmPkt} (ht : s.takesPacket pk p) (hkey : s.gx.keyCheck p.dst p.rkey = 0)

include ht hkey

/-- The first packet of a message is placed. -/
theorem exec_write (hop : p.op = 1) (hdata : p.dataOk none = true) (hright : bit (s.gx.attr p.rkey) 60 = true)
    (hfits : p.raddr + p.moff + p.plen ≤ s.gx.regLen p.rkey) (hnext : seqBefore p.msn (s.gx.qp p.dst).deliver = false)
    (hasm : (s.gx.qp p.dst).asm = []) : exec (.write pk) s = .next { s with
      gx := (((s.gx.heard p).place (s.gx.regBase p.rkey + p.raddr + p.moff) p.pay).modQp p.dst fun x =>
        { (x.mark p.psn) with asm := x.asm ++ [p.begins] }).placedOne p.dst } := by
  obtain ⟨e, hqp⟩ := s.gx.qp_heard p
  have hregs := s.gx.regs_heard p
  obtain ⟨hexp, hrow⟩ := ht.expects
  have hfind : ((s.gx.heard p).qp p.dst).asm.find? (fun m => m.msn == p.msn) = none := by rw [hqp, hasm, List.find?_nil]
  have hin : ¬seqBefore p.msn ((s.gx.heard p).qp p.dst).deliver = true := by rw [hqp, hnext]; decide
  have hroom : ¬64 ≤ ((s.gx.heard p).qp p.dst).asm.length := by rw [hqp, hasm]; decide
  refine (hop ▸ hrow _ : execWrite pk s = _).trans ?_
  rw [Glexon.rmReceive_new hexp (fun _ => hkey)]
  · simp only [if_neg hin, hfind, if_neg hroom, Glexon.regBase_congr hregs]
    rfl
  · simp only [hfind]
    exact hdata
  · simp only [Glexon.attr_congr hregs, Glexon.regLen_congr hregs, hright, hfits, decide_true, Bool.and_self]

/-! ### READ_REQ -/

/-- A READ_REQ is served. -/
theorem exec_readReq (hop : p.op = 2) (hflags : p.flags % 4 = 3) (hmoff : p.moff = 0) (hlo : 1 ≤ p.total) (hhi : p.total ≤ 2097152)
    (hright : bit (s.gx.attr p.rkey) 59 = true) (hfits : p.raddr + p.total ≤ s.gx.regLen p.rkey) :
    exec (.readReq pk) s = .next { s with
      gx := (s.gx.noted p).serveRead p.dst p } := by
  have hregs := s.gx.regs_heard p
  obtain ⟨hexp, hrow⟩ := ht.expects
  refine (hop ▸ hrow _ : execReadReq pk s = _).trans ?_
  rw [Glexon.rmReceive_new hexp (fun _ => hkey)]
  · rfl
  · simp only [hflags, hmoff, hlo, hhi, decide_true, Bool.and_self]
  · simp only [Glexon.attr_congr hregs, Glexon.regLen_congr hregs, hright, hfits, decide_true, Bool.and_self]

end

theorem Glexon.length_rmSplit (g : Glexon) (q op psn msn rkey raddr : Nat) (data : List Byte) :
    (g.rmSplit q op psn msn rkey raddr data).length = max 1 ((data.length + 8191) / 8192) := by
  rw [Glexon.rmSplit, List.length_map, List.length_range]

/-- The data of a READ leave memory as they are; their packets take the next PSNs. -/
theorem Glexon.serveRead_spec {g : Glexon} {q : Nat} {p : RmPkt} (hlo : 1 ≤ p.total)
    (hclean : g.poisoned (g.regBase p.rkey + p.raddr) p.total = false)
    (hclash : g.clash none false (g.regBase p.rkey + p.raddr) p.total = false) :
    (g.serveRead q p).mem = g.mem ∧ ((g.serveRead q p).qp q).nextPsn = ((g.qp q).nextPsn + (p.total + 8191) / 8192) % 2 ^ 24 := by
  have hclash' : (g.count 2 4 3 p.total).clash none false (g.regBase p.rkey + p.raddr) p.total = false :=
    (Glexon.clash_congr (Glexon.count_cores ..) ..).trans hclash
  rw [Glexon.serveRead, if_neg (by simp [hclean]), Glexon.busRead_eq hclash']
  dsimp only
  obtain ⟨hmem, hpsn, -⟩ := (g.count 2 4 3 p.total).rmSend_spec q ((g.count 2 4 3 p.total).rmSplit q 3
    ((g.count 2 4 3 p.total).qp q).nextPsn p.msn p.rkey 0 (memBytes (g.count 2 4 3 p.total).mem (g.regBase p.rkey + p.raddr) p.total))
  refine ⟨hmem.trans (Glexon.count_mem ..), hpsn.trans ?_⟩
  rw [Glexon.length_rmSplit, memBytes, List.length_map, List.length_range, Glexon.qp_congr (Glexon.count_rm ..),
    Nat.max_eq_right (by omega)]

/-! ### FETCH_ADD and CMP_SWAP -/

/-- The Glexon after an atomic whose new value is `new` of the old one: memory, then the kept value, then the answer. -/
def Glexon.atomicDone (g : Glexon) (p : RmPkt) (new : Word → Word) (old : Word) : Glexon :=
  let h := if new old = old then g else g.busWrite none (g.regBase p.rkey + p.raddr) (leBytes 8 (new old).toNat)
  let k := h.modQp p.dst fun x => { x with atoms := ((p.psn, old) :: x.atoms).take 64 }
  k.rmSend p.dst (k.rmSplit p.dst 6 (k.qp p.dst).nextPsn p.msn p.rkey 0 (leBytes 8 old.toNat))

/-- An atomic that passes its checks reads 8 bytes and is done. -/
theorem Glexon.atomicRx_new {g : Glexon} {src : Byte} {p : RmPkt} (hexp : g.Expects src p) (hkey : g.keyCheck p.dst p.rkey = 0)
    (hflags : p.flags % 4 = 3) (hmoff : p.moff = 0) (hlen : p.total = p.plen)
    (hright : bit (g.attr p.rkey) 61 = true) (halign : p.raddr % 8 = 0) (hfits : p.raddr + 8 ≤ g.regLen p.rkey)
    (hclean : g.poisoned (g.regBase p.rkey + p.raddr) 8 = false) (hclash : g.clash none true (g.regBase p.rkey + p.raddr) 8 = false)
    (new : Word → Word) : (g.count 7 0 1 1).atomicRx src p new =
      (g.noted p).atomicDone p new (word (memNat g.mem (g.regBase p.rkey + p.raddr) 8)) := by
  have hregs := g.regs_heard p
  have hclean' : (g.noted p).poisoned (g.regBase p.rkey + p.raddr) 8 = false := by rwa [Glexon.poisoned, Glexon.poison_noted]
  have hclash' := (Glexon.clash_congr (g.cores_noted p) none false (g.regBase p.rkey + p.raddr) 8).trans (Glexon.clash_read hclash)
  unfold Glexon.atomicRx
  rw [Glexon.rmReceive_new hexp (fun _ => hkey)]
  · simp only [Glexon.regBase_congr hregs, ← Glexon.noted.eq_1, hclean', Bool.false_eq_true, if_false, Glexon.busRead_eq hclash',
      Glexon.mem_noted, Glexon.atomicDone, Glexon.regBase_congr (g.regs_noted p), memNat]
  · simp only [hflags, hmoff, hlen, decide_true, Bool.and_self]
  · simp only [Glexon.attr_congr hregs, Glexon.regLen_congr hregs, hright, halign, hfits, decide_true, Bool.and_self]

theorem memNat_lt (m : SMap Byte) (a n : Nat) : memNat m a n < 256 ^ n := by
  have h := leNat_lt (memBytes m a n)
  rwa [memBytes, List.length_map, List.length_range] at h

/-- The place of an atomic holds the new value of the old one, every other byte is kept, and so is the old value. -/
theorem Glexon.atomicDone_spec {g : Glexon} {p : RmPkt} {a : Nat} {old : Word} (ha : g.regBase p.rkey + p.raddr = a)
    (hold : word (memNat g.mem a 8) = old) (hclash : g.clash none true a 8 = false) (new : Word → Word) :
    memNat (g.atomicDone p new old).mem a 8 = (new old).toNat ∧
    (∀ i, (i < a ∨ a + 8 ≤ i) → memByte (g.atomicDone p new old).mem i = memByte g.mem i) ∧
    ((g.atomicDone p new old).qp p.dst).atoms.head? = some (p.psn, old) := by
  unfold Glexon.atomicDone
  extract_lets h k
  obtain ⟨hmem, -, hatoms⟩ := k.rmSend_spec p.dst (k.rmSplit p.dst 6 (k.qp p.dst).nextPsn p.msn p.rkey 0 (leBytes 8 old.toNat))
  rw [hmem, hatoms, show k.mem = h.mem from rfl, Glexon.qp_modQp_same]
  refine and_assoc.1 ⟨?_, rfl⟩
  have hlen : (leBytes 8 (new old).toNat).length = 8 := length_leBytes _ _
  unfold h
  split
  · next hsame =>
    refine ⟨?_, fun _ _ => rfl⟩
    rw [hsame, ← hold]
    exact (Nat.mod_eq_of_lt (memNat_lt _ _ _)).symm
  · rw [ha, (g.busWrite_quiet (by rwa [hlen])).1]
    refine ⟨?_, fun i hi => memByte_memWrite_other _ _ _ _ (by rwa [hlen])⟩
    have hback := memBytes_memWrite (leBytes 8 (new old).toNat) g.mem a
    rw [hlen] at hback
    rw [memNat, hback, leNat_leBytes _ _ (new old).isLt]

/-- What an atomic that passes its checks needs of the region, at address `a` (R427, R432). -/
structure Glexon.AllowsAtomic (g : Glexon) (p : RmPkt) (a : Nat) : Prop where
  flags : p.flags % 4 = 3
  moff  : p.moff = 0
  len   : p.total = p.plen
  right : bit (g.attr p.rkey) 61 = true
  align : p.raddr % 8 = 0
  fits  : p.raddr + 8 ≤ g.regLen p.rkey
  place : g.regBase p.rkey + p.raddr = a
  clean : g.poisoned a 8 = false
  clash : g.clash none true a 8 = false

section

variable {s : State} {pk : RmFrame} {p : RmPkt} {a : Nat}

/-- The state after an atomic. -/
def State.afterAtomic (s : State) (p : RmPkt) (a : Nat) (new : Word → Word) : State :=
  { s with gx := (s.gx.noted p).atomicDone p new (word (memNat s.gx.mem a 8)) }

theorem onPacket_atomic (ht : s.takesPacket pk p) (hkey : s.gx.keyCheck p.dst p.rkey = 0) (ha : s.gx.AllowsAtomic p a)
    (new : RmPkt → Word → Word) :
    onPacket p.op (fun g p => g.atomicRx pk.src p (new p)) pk s = .next (s.afterAtomic p a (new p)) := by
  obtain ⟨hflags, hmoff, hlen, hright, halign, hfits, rfl, hclean, hclash⟩ := ha
  obtain ⟨hexp, hrow⟩ := ht.expects
  rw [hrow, Glexon.atomicRx_new hexp hkey hflags hmoff hlen hright halign hfits hclean hclash]
  rfl

theorem State.afterAtomic_spec (ha : s.gx.AllowsAtomic p a) (new : Word → Word) :
    memNat (s.afterAtomic p a new).gx.mem a 8 = (new (word (memNat s.gx.mem a 8))).toNat ∧
    (∀ i, (i < a ∨ a + 8 ≤ i) → memByte (s.afterAtomic p a new).gx.mem i = memByte s.gx.mem i) ∧
    ((s.afterAtomic p a new).gx.qp p.dst).atoms.head? = some (p.psn, word (memNat s.gx.mem a 8)) := by
  have hplace : (s.gx.noted p).regBase p.rkey + p.raddr = a := by rw [Glexon.regBase_congr (s.gx.regs_noted p), ha.place]
  have hold : word (memNat (s.gx.noted p).mem a 8) = word (memNat s.gx.mem a 8) := by rw [Glexon.mem_noted]
  have hclash : (s.gx.noted p).clash none true a 8 = false := by rw [Glexon.clash_congr (s.gx.cores_noted p), ha.clash]
  have hspec := Glexon.atomicDone_spec hplace hold hclash new
  rw [Glexon.mem_noted] at hspec
  exact hspec

end

/-- Settles O48: a request that passes its checks has its effect on memory, and what answers it keeps memory. -/
theorem requestsArePerformedOnMemory : Obligations.RequestsArePerformedOnMemory := by
  intro s pk p ht hkey
  refine ⟨fun hop hdata hright hfits hnext hasm hclash => ?_, fun hop hflags hmoff hlo hhi hright hfits hclean hclash => ?_,
    fun row hrow hop hflags hmoff hlen hright halign hfits hclean hclash => ?_⟩
  · refine ⟨_, exec_write ht hkey hop hdata hright hfits hnext hasm, ?_, rfl⟩
    rw [Glexon.placedOne_mem, Glexon.modQp_mem, Glexon.place_mem ((Glexon.clash_congr (s.gx.cores_heard p) ..).trans hclash),
      Glexon.mem_heard]
  · have hregs := s.gx.regs_noted p
    have hbase := Glexon.regBase_congr hregs p.rkey
    obtain ⟨hmem, hpsn⟩ := (s.gx.noted p).serveRead_spec (p := p) (q := p.dst) hlo
      (by rwa [hbase, Glexon.poisoned, Glexon.poison_noted]) (by rwa [hbase, Glexon.clash_congr (s.gx.cores_noted p)])
    exact ⟨_, exec_readReq ht hkey hop hflags hmoff hlo hhi hright hfits, hmem.trans (s.gx.mem_noted p),
      hpsn.trans (by rw [Glexon.nextPsn_noted])⟩
  · have hallows : s.gx.AllowsAtomic p _ := ⟨hflags, hmoff, hlen, hright, halign, hfits, rfl, hclean, hclash⟩
    have hrun := onPacket_atomic ht hkey hallows
    rw [hop] at hrun
    rcases List.mem_cons.1 hrow with rfl | hrow
    · exact ⟨_, hrun fun p old => old + word (leAt p.pay 0 8),
        State.afterAtomic_spec hallows fun old => old + word (leAt p.pay 0 8)⟩
    · obtain rfl := List.mem_singleton.1 hrow
      refine ⟨_, hrun fun p old => if old = word (leAt p.pay 0 8) then word (leAt p.pay 8 8) else old, ?_⟩
      have hspec := State.afterAtomic_spec hallows fun old => if old = word (leAt p.pay 0 8) then word (leAt p.pay 8 8) else old
      dsimp only at hspec ⊢
      exact hspec

end Sys2Proof.Machine
end

section
/-! PROOFS. Responses, acknowledgements and completion of remote operations (R420, R425, R431, R433). -/

namespace Sys2Proof.Machine

section

variable {g : Glexon} {q : Nat}

/-! ### Registers of the engine -/

theorem dropReg_of_le {a : Nat} (h : 0x80300980 ≤ a) : dropReg a = false := by
  rw [dropReg, decide_eq_false (Nat.not_lt.2 h), Bool.and_false]

theorem dropReg_qpCfg (q : Nat) : dropReg (Reg.RM_QP_CFG q) = false :=
  dropReg_of_le (Nat.le_trans (by decide) (Nat.le_add_right 0x80410000 _))

theorem qpCfg_ne_qpErr (q p : Nat) : Reg.RM_QP_CFG q ≠ Reg.RM_QP_ERR p := by
  simp only [Reg.RM_QP_CFG, Reg.RM_QP_ERR]
  omega

theorem qpReg_ne_evrStat (hq : q < 4096) : Reg.RM_QP_CFG q ≠ Reg.MG_EVR_STAT ∧ Reg.RM_QP_ERR q ≠ Reg.MG_EVR_STAT := by
  simp only [Reg.RM_QP_CFG, Reg.RM_QP_ERR, Reg.MG_EVR_STAT]
  omega

theorem Glexon.Sends.qpState {h : Glexon} (hs : g.Sends h q) : h.qpState q = g.qpState q :=
  Glexon.qpState_congr (hs.rd _ (dropReg_qpCfg q))

/-! ### What a write over the bus, and a change of a queue pair, keep -/

/-- The Glexon with bytes written over the bus at `a`, where nothing clashes. -/
def Glexon.laid (g : Glexon) (a : Nat) (l : List Byte) : Glexon := (g.memPut a l).heal a l.length

theorem Glexon.mem_laid (a : Nat) (l : List Byte) : (g.laid a l).mem = memWrite g.mem a l := rfl
theorem Glexon.cores_laid (a : Nat) (l : List Byte) : (g.laid a l).cores = g.cores := rfl
theorem Glexon.regs_laid (a : Nat) (l : List Byte) : (g.laid a l).regs = g.regs := rfl
theorem Glexon.rm_laid (a : Nat) (l : List Byte) : (g.laid a l).rm = g.rm := rfl

theorem Glexon.mem_modOp (msn : Nat) (f : RmOp → RmOp) : (g.modOp q msn f).mem = g.mem := rfl
theorem Glexon.cores_modOp (msn : Nat) (f : RmOp → RmOp) : (g.modOp q msn f).cores = g.cores := rfl
theorem Glexon.regs_modOp (msn : Nat) (f : RmOp → RmOp) : (g.modOp q msn f).regs = g.regs := rfl

theorem Glexon.qpState_of_regs {h : Glexon} (e : h.regs = g.regs) (q : Nat) : h.qpState q = g.qpState q :=
  Glexon.qpState_congr (Glexon.rd_congr e _)

/-! ### Completion (R431) -/

theorem Glexon.rmDesc_none {o : RmOp} (h : o.desc = none) (n : Nat) (l : List Byte) : g.rmDesc o n l = g := by
  rw [Glexon.rmDesc, h]

/-- The engine writes into the descriptor of an operation that no core issued. -/
theorem Glexon.rmDesc_post {o : RmOp} {d : Nat} (hd : o.desc = some d) (ho : o.owner = .post) {n : Nat} {l : List Byte}
    (h : g.clash none true (d + n) l.length = false) : g.rmDesc o n l = g.laid (d + n) l := by
  rw [Glexon.rmDesc, hd, ho]
  exact Glexon.busWrite_eq _ _ _ _ h

/-- The operations that have their status leave the queue pair. -/
def Qp.finished (x : Qp) : Qp := { x with ops := x.ops.dropWhile fun o => o.done.isSome }

/-- The only operation completes. -/
theorem Glexon.rmFlush_one {o : RmOp} {st : Nat} (hops : (g.qp q).ops = [o]) (hdone : o.done = some st) (ho : o.owner = .post)
    (hstate : ((g.modQp q Qp.finished).rmDesc o 48 (leBytes 4 st)).qpState q ≠ 3) :
    g.rmFlush q = (g.modQp q Qp.finished).rmDesc o 48 (leBytes 4 st) := by
  have hstep : (g.modQp q Qp.finished).rmComplete o (o.done.getD 0) = (g.modQp q Qp.finished).rmDesc o 48 (leBytes 4 st) := by
    rw [Glexon.rmComplete, ho, hdone]
    rfl
  unfold Glexon.rmFlush
  extract_lets x fin g1 g2
  have hfin : fin = [o] := by
    rw [show fin = (g.qp q).ops.takeWhile fun o => o.done.isSome from rfl, hops,
      List.takeWhile_cons_of_pos (by rw [hdone]; rfl), List.takeWhile_nil]
  have hg2 : g2 = (g.modQp q Qp.finished).rmDesc o 48 (leBytes 4 st) := by
    rw [show g2 = List.foldl _ g1 fin from rfl, hfin]
    exact hstep
  rw [hg2, if_neg fun h => hstate h.1]

/-- Nothing completes. -/
theorem Glexon.rmFlush_none (hops : (g.qp q).ops = []) (hstate : g.qpState q ≠ 3) : g.rmFlush q = g.modQp q Qp.finished := by
  unfold Glexon.rmFlush
  extract_lets x fin g1 g2
  have hfin : fin = [] := by rw [show fin = (g.qp q).ops.takeWhile fun o => o.done.isSome from rfl, hops, List.takeWhile_nil]
  have hg2 : g2 = g1 := by rw [show g2 = List.foldl _ g1 fin from rfl, hfin, List.foldl_nil]
  have hstate1 : ¬(g1.qpState q = 3 ∧ (g1.qp q).ops = []) := fun h => hstate h.1
  rw [hg2, if_neg hstate1]
  rfl

theorem Qp.finished_one {x : Qp} {o : RmOp} {st : Nat} (hops : x.ops = [o]) (hdone : o.done = some st) : x.finished.ops = [] := by
  rw [Qp.finished, hops, List.dropWhile_cons_of_pos (by rw [hdone]; rfl)]
  rfl

/-- Nothing waits to be sent. -/
theorem Glexon.rmPump_idle (h : (g.qp q).wait = []) : g.rmPump q = g := by
  rw [Glexon.rmPump, h]
  rfl

/-! ### ERROR (R420) -/

/-- A queue pair without operations enters ERROR: its packets are dropped and memory is kept. -/
theorem Glexon.qpError_spec (hq : q < 4096) (hstate : g.qpState q ≠ 4) (hops : (g.qp q).ops = []) (cause : Nat) :
    (g.qpError q cause).qpState q = 4 ∧ fld ((g.qpError q cause).rd (Reg.RM_QP_ERR q)) 56 8 = cause % 2 ^ 8 ∧
    ((g.qpError q cause).qp q).sent = [] ∧ (g.qpError q cause).mem = g.mem := by
  obtain ⟨hcfg, herr⟩ := qpReg_ne_evrStat hq
  unfold Glexon.qpError
  rw [if_neg hstate]
  extract_lets ops g1 g2
  have hrd (a : Nat) (ha : a ≠ Reg.MG_EVR_STAT) : g2.rd a = g1.rd a := Glexon.rd_event _ _ _ _ _ ha
  rw [show ops = [] from hops, List.foldl_nil, hrd _ herr]
  refine ⟨?_, ?_, ?_, ?_⟩
  · rw [Glexon.qpState, Glexon.qpCfg, hrd _ hcfg, Glexon.rd_wr_other _ _ _ _ (qpCfg_ne_qpErr q q), Glexon.rd_wr_same,
      fld_putFld_same _ _ (by decide), Nat.mod_eq_of_lt (by decide)]
  · rw [Glexon.rd_wr_same, fld_putFld_same _ _ (by decide)]
  · exact congrArg Qp.sent (Glexon.qp_modQp_same ..)
  · exact Glexon.event_mem ..

/-! ### Responses (R425, R431) -/

/-- The operation that a response belongs to is the only one, and has no status yet. -/
theorem Glexon.opOf_one {o : RmOp} (hops : (g.qp q).ops = [o]) (hdone : o.done = none) (atomic : Bool)
    (hcode : (if atomic then decide (3 ≤ o.code) else decide (o.code = 2)) = true) : g.opOf q o.msn atomic = some o := by
  rw [Glexon.opOf, hops, List.find?_cons_of_pos (by rw [hdone, hcode, beq_self_eq_true]; rfl)]

/-- The Glexon in which a response has been marked as received. -/
def Glexon.marked (g : Glexon) (p : RmPkt) : Glexon := (g.heard p).modQp p.dst fun x => x.mark p.psn

theorem Glexon.mem_marked (p : RmPkt) : (g.marked p).mem = g.mem := by rw [Glexon.marked, Glexon.modQp_mem, Glexon.mem_heard]

theorem Glexon.cores_marked (p : RmPkt) : (g.marked p).cores = g.cores := by
  rw [Glexon.marked, Glexon.modQp_cores, Glexon.cores_heard]

theorem Glexon.regs_marked (p : RmPkt) : (g.marked p).regs = g.regs := by
  rw [Glexon.marked, Glexon.modQp_regs, Glexon.regs_heard]

theorem Glexon.ops_marked (p : RmPkt) : ((g.marked p).qp p.dst).ops = (g.qp p.dst).ops := by
  obtain ⟨e, hqp⟩ := g.qp_heard p
  rw [Glexon.marked, Glexon.qp_modQp_same, hqp]
  rfl

theorem Glexon.ops_modOp {o : RmOp} (hops : (g.qp q).ops = [o]) (f : RmOp → RmOp) : ((g.modOp q o.msn f).qp q).ops = [f o] := by
  rw [Glexon.modOp, Glexon.qp_modQp_same]
  exact (congrArg (List.map _) hops).trans (congrArg (· :: []) (if_pos rfl))

end

end Sys2Proof.Machine
end

section
/-! PROOFS. Responses, acknowledgements, timeouts and delivery (R420, R421, R425, R428, R431 to R433). -/

namespace Sys2Proof.Machine

/-! ### READ_RESP -/

/-- The packets of a READ that have come, with this one. -/
def RmOp.gotWith (o : RmOp) (p : RmPkt) : List Nat := if o.got.contains (p.moff / 8192) then o.got else o.got ++ [p.moff / 8192]

/-- Is this the last of a READ's packets to come? -/
def RmOp.fullWith (o : RmOp) (p : RmPkt) : Bool := decide ((o.gotWith p).length = (o.len + 8191) / 8192)

/-- The Glexon in which a packet of a READ has been placed. -/
def Glexon.readPlaced (g : Glexon) (p : RmPkt) (o : RmOp) : Glexon :=
  (((g.marked p).count 2 4 4 p.plen).busWrite none (o.loc + p.raddr + p.moff) p.pay).modOp p.dst p.msn fun a =>
    { a with got := o.gotWith p, done := if o.fullWith p then some 0 else none }

/-- The operation `o` of a response: the only one of its queue pair, posted, without a status. -/
structure Glexon.Awaits (g : Glexon) (p : RmPkt) (o : RmOp) : Prop where
  ops   : (g.qp p.dst).ops = [o]
  msn   : o.msn = p.msn
  done  : o.done = none
  owner : o.owner = .post

section

variable {s : State} {pk : RmFrame} {p : RmPkt} {o : RmOp} (ht : s.takesPacket pk p) (ho : s.gx.Awaits p o)

include ho in
theorem Glexon.Awaits.opOf_heard (atomic : Bool) (hcode : (if atomic then decide (3 ≤ o.code) else decide (o.code = 2)) = true) :
    (s.gx.heard p).opOf p.dst p.msn atomic = some o := by
  obtain ⟨e, hqp⟩ := s.gx.qp_heard p
  rw [← ho.msn]
  exact Glexon.opOf_one (by rw [hqp]; exact ho.ops) ho.done atomic hcode

include ht ho

theorem exec_readResp (hop : p.op = 3) (hcode : o.code = 2) (hdata : p.dataOk none = true)
    (hfits : p.raddr + p.moff + p.plen ≤ o.len) : exec (.readResp pk) s = .next { s with
      gx := if o.fullWith p then ((s.gx.readPlaced p o).rmAck p.dst).rmFlush p.dst else (s.gx.readPlaced p o).placedOne p.dst } := by
  obtain ⟨hexp, hrow⟩ := ht.expects
  have hof := ho.opOf_heard false (decide_eq_true hcode)
  refine (hop ▸ hrow _ : execReadResp pk s = _).trans ?_
  rw [Glexon.rmReceive_new hexp (fun h => absurd h (by decide))]
  · simp only [hof, ho.owner]
    rfl
  · exact hdata
  · simp only [hof, hfits, decide_true]

theorem exec_atomicResp (hop : p.op = 6) (hcode : 3 ≤ o.code) (hflags : p.flags % 4 = 3) : exec (.atomicResp pk) s = .next { s with
      gx := ((((s.gx.marked p).rmDesc o 56 p.pay).modOp p.dst p.msn fun a => { a with done := some 0 }).rmAck p.dst).rmFlush p.dst } := by
  obtain ⟨hexp, hrow⟩ := ht.expects
  have hof := ho.opOf_heard true (decide_eq_true hcode)
  refine (hop ▸ hrow _ : execAtomicResp pk s = _).trans ?_
  rw [Glexon.rmReceive_new hexp (fun h => absurd h (by decide))]
  · simp only [hof]
    rfl
  · simp only [hflags, decide_true]
  · rfl

end

section

variable {g : Glexon} {q : Nat} {o : RmOp} {st : Nat}

/-- The only operation completes after an ACK: its status goes into its descriptor, if it has one. -/
theorem Glexon.rmAck_rmFlush (hops : (g.qp q).ops = [o]) (hdone : o.done = some st) (ho : o.owner = .post) (hstate : g.qpState q ≠ 3) :
    (o.desc = none → ((g.rmAck q).rmFlush q).mem = g.mem) ∧
    (∀ d, o.desc = some d → g.clash none true (d + 48) 4 = false → (((g.rmAck q).rmFlush q).qp q).ops = [] ∧
      ((g.rmAck q).rmFlush q).mem = memWrite g.mem (d + 48) (leBytes 4 st)) := by
  have hack := g.rmAck_sends q
  obtain ⟨n, hqp⟩ := hack.qp
  have hops1 : ((g.rmAck q).qp q).ops = [o] := by rw [hqp]; exact hops
  have hstate1 : ((g.rmAck q).modQp q Qp.finished).qpState q ≠ 3 := by
    rwa [Glexon.qpState_of_regs (Glexon.modQp_regs ..), hack.qpState]
  constructor
  · intro hd
    have hdesc := Glexon.rmDesc_none (g := (g.rmAck q).modQp q Qp.finished) hd 48 (leBytes 4 st)
    rw [Glexon.rmFlush_one hops1 hdone ho (by rwa [hdesc]), hdesc, Glexon.modQp_mem, hack.mem]
  · intro d hd hclash
    have hdesc := Glexon.rmDesc_post (g := (g.rmAck q).modQp q Qp.finished) (n := 48) (l := leBytes 4 st) hd ho
      (by rwa [length_leBytes, Glexon.clash_congr ((Glexon.modQp_cores ..).trans hack.cores)])
    rw [Glexon.rmFlush_one hops1 hdone ho (by rwa [hdesc, Glexon.qpState_of_regs (Glexon.regs_laid ..)]), hdesc, Glexon.mem_laid,
      Glexon.modQp_mem, hack.mem, Glexon.qp_congr (Glexon.rm_laid ..), Glexon.qp_modQp_same, Qp.finished_one hops1 hdone]
    exact ⟨rfl, rfl⟩

end

section

variable {g : Glexon} {p : RmPkt} {o : RmOp} (ho : g.Awaits p o)

include ho

theorem Glexon.readPlaced_spec (hclash : g.clash none true (o.loc + p.raddr + p.moff) p.pay.length = false) :
    (g.readPlaced p o).mem = memWrite g.mem (o.loc + p.raddr + p.moff) p.pay ∧
    ((g.readPlaced p o).qp p.dst).ops = [{ o with got := o.gotWith p, done := if o.fullWith p then some 0 else none }] ∧
    (g.readPlaced p o).qpState p.dst = g.qpState p.dst := by
  have hcores : ((g.marked p).count 2 4 4 p.plen).cores = g.cores := (Glexon.count_cores ..).trans (Glexon.cores_marked p)
  have hregs : ((g.marked p).count 2 4 4 p.plen).regs = g.regs := (Glexon.count_regs ..).trans (Glexon.regs_marked p)
  have hwrite : ((g.marked p).count 2 4 4 p.plen).busWrite none (o.loc + p.raddr + p.moff) p.pay =
      ((g.marked p).count 2 4 4 p.plen).laid (o.loc + p.raddr + p.moff) p.pay :=
    Glexon.busWrite_eq _ _ _ _ ((Glexon.clash_congr hcores ..).trans hclash)
  rw [Glexon.readPlaced, hwrite, ← ho.msn]
  refine ⟨?_, Glexon.ops_modOp ?_ _, ?_⟩
  · rw [Glexon.mem_modOp, Glexon.mem_laid, Glexon.count_mem, Glexon.mem_marked]
  · rw [Glexon.qp_congr (Glexon.rm_laid ..), Glexon.qp_congr (Glexon.count_rm ..), Glexon.ops_marked, ho.ops]
  · rw [Glexon.qpState_of_regs (Glexon.regs_modOp ..), Glexon.qpState_of_regs (Glexon.regs_laid ..), Glexon.qpState_of_regs hregs]

/-- The bytes of a READ_RESP are placed, whether or not it completes its READ. -/
theorem Glexon.readResp_mem (hclash : g.clash none true (o.loc + p.raddr + p.moff) p.pay.length = false) (hstate : g.qpState p.dst ≠ 3)
    (hdesc : o.desc = none) : (if o.fullWith p then ((g.readPlaced p o).rmAck p.dst).rmFlush p.dst else
      (g.readPlaced p o).placedOne p.dst).mem = memWrite g.mem (o.loc + p.raddr + p.moff) p.pay := by
  obtain ⟨hmem, hops, hst⟩ := Glexon.readPlaced_spec ho hclash
  split
  · next hfull =>
    have hdone := congrArg (if · then some 0 else none) hfull
    obtain ⟨hflush, -⟩ := Glexon.rmAck_rmFlush hops hdone ho.owner (hst ▸ hstate)
    rw [hflush hdesc, hmem]
  · rw [Glexon.placedOne_mem, hmem]

/-- An ATOMIC_RESP's old value and the status 0 are written in the descriptor, and the atomic is complete. -/
theorem Glexon.atomicResp_spec {d : Nat} (hdesc : o.desc = some d) (hval : g.clash none true (d + 56) p.pay.length = false)
    (hclash : g.clash none true (d + 48) 4 = false) (hstate : g.qpState p.dst ≠ 3) :
    let t := ((((g.marked p).rmDesc o 56 p.pay).modOp p.dst p.msn fun a => { a with done := some 0 }).rmAck p.dst).rmFlush p.dst
    (t.qp p.dst).ops = [] ∧ t.mem = memWrite (memWrite g.mem (d + 56) p.pay) (d + 48) (leBytes 4 0) := by
  intro t
  have hwrite := Glexon.rmDesc_post (g := g.marked p) hdesc ho.owner ((Glexon.clash_congr (Glexon.cores_marked p) ..).trans hval)
  have hops : (((g.marked p).laid (d + 56) p.pay).qp p.dst).ops = [o] := by
    rw [Glexon.qp_congr (Glexon.rm_laid ..), Glexon.ops_marked, ho.ops]
  have hst : (((g.marked p).laid (d + 56) p.pay).modOp p.dst p.msn fun a => { a with done := some 0 }).qpState p.dst ≠ 3 := by
    rwa [Glexon.qpState_of_regs (Glexon.regs_modOp ..), Glexon.qpState_of_regs (Glexon.regs_laid ..),
      Glexon.qpState_of_regs (Glexon.regs_marked p)]
  have hdone := Glexon.ops_modOp hops fun a => { a with done := some 0 }
  rw [ho.msn] at hdone
  obtain ⟨-, hflush⟩ := Glexon.rmAck_rmFlush hdone rfl ho.owner hst
  have hcores := (Glexon.cores_modOp (q := p.dst) (g := (g.marked p).laid (d + 56) p.pay) p.msn
    fun a => { a with done := some 0 }).trans
    ((Glexon.cores_laid ..).trans (Glexon.cores_marked p))
  have hfin := hflush d hdesc ((Glexon.clash_congr hcores ..).trans hclash)
  rw [Glexon.mem_modOp, Glexon.mem_laid, Glexon.mem_marked, ← hwrite] at hfin
  exact hfin

end

/-! ### ACK and NAK -/

/-- Does an ACK cover a PSN: does it lie before its BASE, or is its bit in the map? -/
def RmPkt.covers (p : RmPkt) (psn : Nat) : Bool :=
  seqBefore psn p.psn ||
    (decide (psn ≠ p.psn) && decide (seqDist p.psn psn ≤ 256) && (leNat p.pay).testBit (seqDist p.psn psn - 1))

theorem RmPkt.not_covers_iff (p : RmPkt) (psn : Nat) : (!p.covers psn) = true ↔ seqBefore psn p.psn = false ∧
    (psn = p.psn ∨ 256 < seqDist p.psn psn ∨ (leNat p.pay).testBit (seqDist p.psn psn - 1) = false) := by
  simp only [RmPkt.covers, Bool.not_or, Bool.not_and, Bool.and_eq_true, Bool.or_eq_true, Bool.not_eq_true', decide_eq_false_iff_not,
    not_not, Nat.not_le, ne_eq, or_assoc]

/-- What an ACK covers leaves the queue pair, and its WRITEs and messages are complete. -/
def Qp.ackedBy (x : Qp) (p : RmPkt) (done : List RmSent) : Qp := { x with
  sent := x.sent.filter fun e => !p.covers e.psn
  fails := done.foldl (fun m e => SMap.put 0 m e.path 0) x.fails
  ops := x.ops.map fun o => if o.code = 1 ∧ o.done = none ∧ ¬seqBefore p.msn o.msn then { o with done := some 0 } else o }

/-- The Glexon after an ACK, before what it completes and lets go. -/
def Glexon.acked (g : Glexon) (p : RmPkt) : Glexon :=
  let done := (g.qp p.dst).sent.filter fun e => p.covers e.psn
  let g1 := g.modQp p.dst fun x => x.ackedBy p done
  if g.qpUmber p.dst then
    g1.ccAck p.dst (((g.short g.nowNs).toNat + 2 ^ 32 - p.time) % 2 ^ 32 - p.moff) (done.map fun e => leAt e.bytes 2 2).sum
  else g1

section

variable {s : State} {pk : RmFrame} {p : RmPkt} (hup : s.gx.coreUp = true) (hon : bit (s.gx.rd Reg.RM_CTRL) 63 = true)
  (hcode : leAt pk.bytes 0 1 = p.op) (hform : rmFormOk pk.bytes = true) (hp : p = RmPkt.ofBytes pk.bytes)
  (hstate : s.gx.qpState p.dst = 2) (hsrcq : fld (s.gx.qpCfg p.dst) 24 12 = p.srcq) (hsrc : fld (s.gx.qpCfg p.dst) 0 8 = pk.src.toNat)

include hstate hsrcq hsrc in
theorem Glexon.fromPeer_count : (s.gx.count 7 0 1 1).fromPeer pk.src p = true := by
  have hcfg : (s.gx.count 7 0 1 1).qpCfg p.dst = s.gx.qpCfg p.dst := Glexon.rd_congr (Glexon.count_regs ..) _
  simp only [Glexon.fromPeer, Glexon.qpState_of_regs (Glexon.count_regs ..), hcfg, hstate, hsrcq, hsrc, decide_true, Bool.true_or,
    Bool.and_self]

include hup hon hcode hform hp hstate hsrcq hsrc

theorem exec_ack (hop : p.op = 0x10) : exec (.ack pk) s = .next { s with
    gx := (((s.gx.count 7 0 1 1).acked p).rmFlush p.dst).rmPump p.dst } := by
  refine (onPacket_whole hup hon (hcode.trans hop) hform _ : execAck pk s = _).trans ?_
  rw [← hp, if_neg (by simp [Glexon.fromPeer_count hstate hsrcq hsrc])]
  rfl

theorem exec_nak (hop : p.op = 0x11) (htotal : p.total = 4) : exec (.nak pk) s = .next { s with
    gx := (s.gx.count 7 0 1 1).qpError p.dst 11 } := by
  refine (onPacket_whole hup hon (hcode.trans hop) hform _ : execNak pk s = _).trans ?_
  rw [← hp, if_neg (by simp [Glexon.fromPeer_count hstate hsrcq hsrc]), if_pos htotal]

end

section

variable {g : Glexon} {q : Nat}

/-- The congestion control changes the window, the round-trip time and the instant of the last cut alone. -/
theorem Glexon.ccAck_keeps (rtt acked : Nat) : (g.ccAck q rtt acked).mem = g.mem ∧ (g.ccAck q rtt acked).regs = g.regs ∧
    ∃ a b c, (g.ccAck q rtt acked).qp q = { g.qp q with srtt := a, cut := b, w := c } :=
  ⟨rfl, rfl, _, _, _, Glexon.qp_modQp_same ..⟩

theorem Glexon.acked_spec {p : RmPkt} (hops : (g.qp p.dst).ops = []) : (g.acked p).mem = g.mem ∧ (g.acked p).regs = g.regs ∧
    ((g.acked p).qp p.dst).ops = [] ∧ ((g.acked p).qp p.dst).wait = (g.qp p.dst).wait ∧
    ((g.acked p).qp p.dst).sent = (g.qp p.dst).sent.filter fun e => !p.covers e.psn := by
  unfold Glexon.acked
  extract_lets done g1
  have hqp : g1.qp p.dst = (g.qp p.dst).ackedBy p done := Glexon.qp_modQp_same ..
  have hnone : ((g.qp p.dst).ackedBy p done).ops = [] := by rw [Qp.ackedBy, hops, List.map_nil]
  split
  · obtain ⟨hmem, hregs, a, b, c, hcc⟩ := g1.ccAck_keeps (q := p.dst)
      (((g.short g.nowNs).toNat + 2 ^ 32 - p.time) % 2 ^ 32 - p.moff) (done.map fun e => leAt e.bytes 2 2).sum
    rw [hcc, hqp]
    exact ⟨hmem, hregs, hnone, rfl, rfl⟩
  · rw [hqp]
    exact ⟨rfl, rfl, hnone, rfl, rfl⟩

/-- An ACK on a queue pair without operations and with nothing that waits retires what it covers. -/
theorem Glexon.ack_retires {p : RmPkt} (hops : (g.qp p.dst).ops = []) (hwait : (g.qp p.dst).wait = []) (hstate : g.qpState p.dst ≠ 3) :
    ((((g.acked p).rmFlush p.dst).rmPump p.dst).qp p.dst).sent = ((g.qp p.dst).sent.filter fun e => !p.covers e.psn) ∧
    (((g.acked p).rmFlush p.dst).rmPump p.dst).mem = g.mem := by
  obtain ⟨hmem, hregs, hnone, hwaits, hsent⟩ := g.acked_spec hops
  rw [Glexon.rmFlush_none hnone (by rwa [Glexon.qpState_of_regs hregs]), Glexon.rmPump_idle
    ((congrArg Qp.wait (Glexon.qp_modQp_same ..)).trans (hwaits.trans hwait)), Glexon.modQp_mem, Glexon.qp_modQp_same, ← hsent, hmem]
  exact ⟨rfl, rfl⟩

end

/-! ### RETRANSMIT_TIMEOUT and PATH_RESUME -/

/-- The queue pair of a packet that has timed out once more: its path's timeouts, and the window, cut for an Umber one. -/
def Glexon.timedOut (g : Glexon) (q : Nat) (e : RmSent) : Glexon :=
  let n := SMap.get 0 (g.qp q).fails e.path + 1
  let cut := if g.qpUmber q then
      max (fld (g.rd Reg.RM_CC_WIN) 0 32) ((g.qp q).w * (256 - fld (g.rd Reg.RM_CC) 48 8) / 256) else (g.qp q).w
  let g1 := g.modQp q fun x => { x with
    w := cut, cut := g.nowNs, fails := SMap.put 0 x.fails e.path (if 3 ≤ n then 0 else n),
    susp := if 3 ≤ n then SMap.put 0 x.susp e.path (g.nowNs + 1000000) else x.susp }
  if 3 ≤ n then g1.event 0x0332 28 [word q, word e.path] else g1

/-- The packet's bytes with RETX set. -/
def RmSent.again (e : RmSent) : List Byte := putAt e.bytes 1 (leBytes 1 (leAt e.bytes 1 1 ||| 4))

/-- A packet sent again: what is sent of a queue pair, with the packet's new bytes, times and path. -/
def Qp.resent (x : Qp) (e : RmSent) (path : Nat) : Qp := { x with
  sent := x.sent.map fun y => if y.psn = e.psn then { y with bytes := e.again, times := e.times + 1, path := path } else y }

/-- The Glexon that sends a packet again, and counts it. -/
def Glexon.resent (g : Glexon) (q : Nat) (e : RmSent) : Glexon :=
  let r := ((g.timedOut q e).count 7 0 2 1).rmEnqueue q e.psn e.again (isResp e.again)
  ((r.2.modQp q fun x => x.resent e r.1).bump Reg.RM_RETX 1).bumpFld (Reg.RM_QP_ERR q) 0 32 1

section

variable {s : State} {q : BitVec 12} {psn : BitVec 24} {e : RmSent} (hup : s.gx.coreUp = true) (hstate : s.gx.qpState q.toNat = 2)
  (hsent : (s.gx.qp q.toNat).sent = [e]) (hpsn : e.psn = psn.toNat)

include hup hstate hsent hpsn

theorem exec_retransmitTimeout : exec (.retransmitTimeout q psn) s = .next { s with
    gx := if 17 ≤ e.times then (s.gx.event 0x0331 28 [word q.toNat, word e.psn]).qpError q.toNat 9 else s.gx.resent q.toNat e } := by
  refine (onCore_runs _ s hup : execRetransmitTimeout q psn s = _).trans ?_
  have hfind : (s.gx.qp q.toNat).sent.find? (fun e => e.psn == psn.toNat) = some e := by
    rw [hsent, List.find?_cons_of_pos (by rw [hpsn, beq_self_eq_true])]
  simp only [hfind]
  rw [if_neg (by rw [hstate]; decide)]
  rfl

end

section

variable {g : Glexon} {q : Nat} {e : RmSent}

theorem Glexon.timedOut_keeps : (g.timedOut q e).mem = g.mem ∧ (∀ a, a ≠ Reg.MG_EVR_STAT → (g.timedOut q e).rd a = g.rd a) ∧
    ((g.timedOut q e).qp q).sent = (g.qp q).sent := by
  unfold Glexon.timedOut
  extract_lets n cut g1
  have hsent : (g1.qp q).sent = (g.qp q).sent := by
    rw [show g1 = g.modQp q _ from rfl, Glexon.qp_modQp_same]
  split
  · refine ⟨Glexon.event_mem .., fun a ha => Glexon.rd_event _ _ _ _ _ ha, ?_⟩
    rw [Glexon.qp_congr (Glexon.event_rm ..), hsent]
  · exact ⟨rfl, fun _ _ => rfl, hsent⟩

theorem Glexon.resent_spec (hsent : (g.qp q).sent = [e]) : (g.resent q e).mem = g.mem ∧
    (g.resent q e).rd Reg.RM_RETX = satAdd (g.rd Reg.RM_RETX) 1 ∧
    ∃ path, ((g.resent q e).qp q).sent = [{ e with bytes := e.again, times := e.times + 1, path := path }] := by
  obtain ⟨hmem, hrd, hkept⟩ := g.timedOut_keeps (q := q) (e := e)
  obtain ⟨hmem1, -, hrd1, n, hqp1⟩ := ((g.timedOut q e).count 7 0 2 1).rmEnqueue_sends q e.psn e.again (isResp e.again)
  have hretx1 := (hrd1 Reg.RM_RETX (by decide)).trans (Glexon.rd_congr (Glexon.count_regs ..) _)
  rw [Glexon.count_mem, hmem] at hmem1
  rw [hrd _ (by decide)] at hretx1
  rw [Glexon.qp_congr (Glexon.count_rm ..)] at hqp1
  have hsent1 := (congrArg Qp.sent hqp1).trans (hkept.trans hsent)
  unfold Glexon.resent
  generalize ((g.timedOut q e).count 7 0 2 1).rmEnqueue q e.psn e.again (isResp e.again) = r at *
  have hretx : Reg.RM_RETX ≠ Reg.RM_QP_ERR q := by simp only [Reg.RM_RETX, Reg.RM_QP_ERR]; omega
  refine ⟨hmem1, ?_, r.1, ?_⟩
  · rw [Glexon.rd_bumpFld _ _ _ _ _ _ hretx, Glexon.bump, Glexon.rd_wr_same, ← hretx1]
    rfl
  · have hall : ((r.2.modQp q fun x => x.resent e r.1).qp q).sent = [{ e with bytes := e.again, times := e.times + 1, path := r.1 }] := by
      rw [Glexon.qp_modQp_same, Qp.resent, hsent1]
      exact congrArg (· :: []) (if_pos rfl)
    exact hall

end

theorem exec_pathResume {s : State} (hup : s.gx.coreUp = true) (q : BitVec 12) (n : BitVec 4) : exec (.pathResume q n) s = .next { s with
    gx := s.gx.modQp q.toNat fun x => { x with susp := SMap.put 0 x.susp n.toNat 0 } } :=
  (onCore_runs _ s hup : execPathResume q n s = _)

/-! ### MESSAGE_DELIVER -/

/-- A queue pair with no MSN to skip and no failed message has nothing to move past. -/
theorem Qp.advance_idle {x : Qp} (hskip : x.skip = []) (hasm : ∀ m ∈ x.asm, m.fail = false) (n : Nat) : Qp.advance n x = x := by
  cases n with
  | zero => rfl
  | succ n =>
    have hfailed : (x.asm.any fun m => m.msn == x.deliver && m.fail) = false :=
      List.any_eq_false.2 fun m hm => by rw [hasm m hm, Bool.and_false]; decide
    unfold Qp.advance
    rw [if_neg (by rw [hskip, hfailed, List.contains_nil]; decide)]

/-- The queue pair that has delivered its next message. -/
def Qp.delivered (x : Qp) (m : RmAsm) : Qp :=
  { x with deliver := (x.deliver + 1) % 2 ^ 24, asm := x.asm.filter fun a => a.msn ≠ m.msn }

/-- A complete message of the next MSN, of a class other than Amber and outside the membership region, is delivered. -/
theorem exec_messageDeliver {s : State} {q : BitVec 12} {m : RmAsm} {total : Nat} (hup : s.gx.coreUp = true)
    (hasm : (s.gx.qp q.toNat).asm = [m]) (hskip : (s.gx.qp q.toNat).skip = []) (hmsn : m.msn = (s.gx.qp q.toNat).deliver)
    (hfail : m.fail = false) (htotal : m.total = some total) (hgot : m.got.length = (total + 8191) / 8192)
    (hamber : s.gx.qpAmber q.toNat = false) (hreg : m.reg < 16383) : exec (.messageDeliver q) s = .next { s with
      gx := ((((s.gx.setQp q.toNat ((s.gx.qp q.toNat).delivered m)).ringEntry m).pullsIn q.toNat
        (fld (s.gx.rd (Reg.RM_MR_BASE m.reg)) 0 48 + m.off) total).modQp q.toNat (Qp.advance 65)).rmAck q.toNat } := by
  have hidle : Qp.advance 65 (s.gx.qp q.toNat) = s.gx.qp q.toNat := Qp.advance_idle hskip (by rw [hasm]; simpa using hfail) 65
  have hfind : (s.gx.qp q.toNat).asm.find? (fun a => a.msn == (s.gx.qp q.toNat).deliver) = some m := by
    rw [hasm, List.find?_cons_of_pos (by rw [hmsn, beq_self_eq_true])]
  have hwhole : ¬(m.fail = true ∨ m.got.length ≠ (total + 8191) / 8192) := by simp [hfail, hgot]
  refine (onCore_runs _ s hup : execMessageDeliver q s = _).trans ?_
  have hclass : ¬(s.gx.qpAmber q.toNat = true ∧ s.gx.qpClass q.toNat ≠ 4) := by simp [hamber]
  dsimp only
  rw [hidle, hfind]
  dsimp only
  rw [htotal]
  dsimp only
  rw [if_neg hwhole, if_neg hclass, if_neg (Nat.ne_of_lt hreg)]
  rfl

section

variable {g : Glexon}

/-- The entry of the arrival ring is written, and the ring's head advances. -/
theorem Glexon.ringEntry_spec {m : RmAsm} {total : Nat} (hring : bit (g.rd (Reg.RM_MR_ATTR m.reg)) 62 = true)
    (htotal : m.total = some total) :
    (g.ringEntry m).rm = g.rm ∧
    (g.ringEntry m).rd (Reg.RM_MR_HEAD m.reg) = word ((fld (g.rd (Reg.RM_MR_HEAD m.reg)) 0 32 + 1) % 2 ^ 32) ∧
    (g.ringEntry m).mem = memWrite g.mem (fld (g.rd (Reg.RM_MR_RING m.reg)) 0 48 + 16 * (fld (g.rd (Reg.RM_MR_HEAD m.reg)) 0 32 % 4096))
      (leBytes 8 (m.msn + m.off * 2 ^ 32) ++ leBytes 4 total ++
        leBytes 4 (memNat g.mem (fld (g.rd (Reg.RM_MR_BASE m.reg)) 0 48 + m.off + 8) 4)) := by
  unfold Glexon.ringEntry
  rw [if_neg (by rw [hring]; decide), htotal]
  extract_lets head tick g1
  refine ⟨?_, Glexon.rd_wr_same .., ?_⟩
  · rw [Glexon.wr_rm, apply_ite Glexon.rm, Glexon.bump, Glexon.wr_rm, ite_self]
    exact Glexon.memPut_rm ..
  · rw [Glexon.wr_mem, apply_ite Glexon.mem, Glexon.bump, Glexon.wr_mem, ite_self]
    rfl

/-- A write that sets a pull's VALID is noted, and changes nothing else. -/
theorem Glexon.pullsIn_keeps (q a len : Nat) : (g.pullsIn q a len).mem = g.mem ∧ (g.pullsIn q a len).regs = g.regs ∧
    (g.pullsIn q a len).rm.qps = g.rm.qps := by
  unfold Glexon.pullsIn
  refine ⟨foldl_keep Glexon.mem _ (fun h i => ?_) _ _, foldl_keep Glexon.regs _ (fun h i => ?_) _ _,
    foldl_keep (fun h => h.rm.qps) _ (fun h i => ?_) _ _⟩
  · exact (apply_ite Glexon.mem ..).trans (ite_self _)
  · exact (apply_ite Glexon.regs ..).trans (ite_self _)
  · exact (apply_ite (fun h : Glexon => h.rm.qps) ..).trans (ite_self _)

theorem dropReg_mrHead (r : Nat) : dropReg (Reg.RM_MR_HEAD r) = false :=
  dropReg_of_le (Nat.le_trans (by decide) (Nat.le_add_right 0x80430018 _))

/-- The ACK that a delivery sends leaves the ring, its head and the next MSN to deliver as the delivery left them. -/
theorem Glexon.delivered_spec {h : Glexon} {q : Nat} {x : Qp} {m : RmAsm} (hasm : x.asm = [m]) (hskip : x.skip = [])
    (hqp : h.qp q = x.delivered m) (a len : Nat) :
    let t := ((h.pullsIn q a len).modQp q (Qp.advance 65)).rmAck q
    t.mem = h.mem ∧ t.rd (Reg.RM_MR_HEAD m.reg) = h.rd (Reg.RM_MR_HEAD m.reg) ∧ (t.qp q).deliver = (x.deliver + 1) % 2 ^ 24 := by
  obtain ⟨hmem, hregs, hqps⟩ := h.pullsIn_keeps q a len
  obtain ⟨hmem1, -, hrd1, n, hqp1⟩ := ((h.pullsIn q a len).modQp q (Qp.advance 65)).rmAck_sends q
  have hempty : (x.delivered m).asm = [] := by rw [Qp.delivered, hasm, List.filter_cons_of_neg (by simp), List.filter_nil]
  have hidle : Qp.advance 65 (x.delivered m) = x.delivered m :=
    Qp.advance_idle (x := x.delivered m) hskip (by rw [hempty]; exact fun _ h => nomatch h) 65
  have hqp2 : (h.pullsIn q a len).qp q = x.delivered m := by
    rw [Glexon.qp, hqps]
    exact hqp
  refine ⟨hmem1.trans ((Glexon.modQp_mem ..).trans hmem), ?_, ?_⟩
  · exact (hrd1 _ (dropReg_mrHead _)).trans (Glexon.rd_congr ((Glexon.modQp_regs ..).trans hregs) _)
  · rw [hqp1, Glexon.qp_modQp_same, hqp2, hidle]
    rfl

end

/-- Settles O49: each row's state after the packet, the timeout or the delivery is given by its own lemma. -/
theorem responsesAcknowledgementsAndDelivery : Obligations.ResponsesAcknowledgementsAndDelivery := by
  intro s
  refine ⟨fun pk p o ht hops hmsn hdone howner => ?_, fun pk p hup hon hcode hform hp hstate hsrcq hsrc hops => ?_,
    fun q psn e hup hstate hops hsent hpsn => ?_, fun q n hup => ?_,
    fun q m total ring head hup hasm hskip hmsn hfail htotal hgot hamber hreg hring hr hh => ?_⟩
  · have ho : s.gx.Awaits p o := ⟨hops, hmsn, hdone, howner⟩
    have hstate : s.gx.qpState p.dst ≠ 3 := by rw [ht.expects.1.1]; decide
    refine ⟨fun hop hcode hdata hfits hdesc hclash => ?_, fun d hop hcode hflags hdesc hval hclash => ?_⟩
    · exact ⟨_, exec_readResp ht ho hop hcode hdata hfits, Glexon.readResp_mem ho hclash hstate hdesc⟩
    · exact ⟨_, exec_atomicResp ht ho hop hcode hflags, Glexon.atomicResp_spec ho hdesc hval hclash hstate⟩
  · have hcount : (s.gx.count 7 0 1 1).qp p.dst = s.gx.qp p.dst := Glexon.qp_congr (Glexon.count_rm ..) _
    have hst : (s.gx.count 7 0 1 1).qpState p.dst = 2 := by rw [Glexon.qpState_of_regs (Glexon.count_regs ..), hstate]
    refine ⟨fun hop hwait => ?_, fun hop htotal => ?_⟩
    · obtain ⟨hsent, hmem⟩ := Glexon.ack_retires (g := s.gx.count 7 0 1 1) (p := p) (by rw [hcount, hops]) (by rw [hcount, hwait])
        (by rw [hst]; decide)
      refine ⟨_, exec_ack hup hon hcode hform hp hstate hsrcq hsrc hop, fun e => ?_, hmem.trans (Glexon.count_mem ..)⟩
      rw [hsent, hcount, List.mem_filter, RmPkt.not_covers_iff]
    · have hdst : p.dst < 4096 := by rw [hp]; exact Nat.mod_lt _ (by decide)
      obtain ⟨hstate', herr, hsent, hmem⟩ := Glexon.qpError_spec (g := s.gx.count 7 0 1 1) hdst (by rw [hst]; decide)
        (by rw [hcount, hops]) 11
      exact ⟨_, exec_nak hup hon hcode hform hp hstate hsrcq hsrc hop htotal, hstate', herr, hsent, hmem.trans (Glexon.count_mem ..)⟩
  · have hrun := exec_retransmitTimeout hup hstate hsent hpsn
    refine ⟨fun htimes => ?_, fun htimes => ?_⟩
    · rw [if_pos htimes] at hrun
      have hst : (s.gx.event 0x0331 28 [word q.toNat, word e.psn]).qpState q.toNat = s.gx.qpState q.toNat :=
        Glexon.qpState_congr (Glexon.rd_event _ _ _ _ _ (qpReg_ne_evrStat q.isLt).1)
      obtain ⟨hstate', -, hsent', -⟩ := Glexon.qpError_spec q.isLt (by rw [hst, hstate]; decide)
        (by rw [Glexon.qp_congr (Glexon.event_rm ..), hops]) 9
      exact ⟨_, hrun, hstate', hsent'⟩
    · rw [if_neg (Nat.not_le.2 htimes)] at hrun
      obtain ⟨hmem, hretx, path, hsent'⟩ := Glexon.resent_spec hsent
      exact ⟨_, _, hrun, hsent', rfl, rfl, hretx, hmem⟩
  · refine ⟨_, exec_pathResume hup q n, ?_, rfl, rfl⟩
    rw [Glexon.qp_modQp_same]
    exact SMap.get_put_same ..
  · subst hr hh
    have hqp := s.gx.qp_setQp_same q.toNat ((s.gx.qp q.toNat).delivered m)
    obtain ⟨hrm, hhead, hmem⟩ := Glexon.ringEntry_spec (g := s.gx.setQp q.toNat ((s.gx.qp q.toNat).delivered m)) hring htotal
    obtain ⟨hmem', hhead', hdeliver⟩ := Glexon.delivered_spec hasm hskip ((Glexon.qp_congr hrm _).trans hqp)
      (fld (s.gx.rd (Reg.RM_MR_BASE m.reg)) 0 48 + m.off) total
    exact ⟨_, exec_messageDeliver hup hasm hskip hmsn hfail htotal hgot hamber hreg, hdeliver.trans (by rw [hmsn]),
      hhead'.trans hhead, hmem'.trans hmem⟩

end Sys2Proof.Machine
end
